-- ==== Sys2Proof/Word.lean ====
section
/-! DEFINITION. Word types of the QW5200 and the two plain containers the state is built from:
a table keyed by numbers, and a string of bytes. Nothing here has a meaning of the spec's own. -/

namespace Sys2Proof

/-- One bit, as a register or operand field of one bit. -/
abbrev U1 := BitVec 1
/-- A byte. -/
abbrev U8 := BitVec 8
/-- A 16-bit field (R3: little-endian in memory). -/
abbrev U16 := BitVec 16
/-- A 32-bit field or register (R479). -/
abbrev U32 := BitVec 32
/-- A 64-bit field: addresses, handles, identifiers, PKC values. -/
abbrev U64 := BitVec 64
/-- A 256-bit hash or key, as the number whose little-endian bytes are its byte string. -/
abbrev U256 := BitVec 256
/-- A byte string, lowest offset first. -/
abbrev Bytes := List (BitVec 8)

/-- A table from numbers to values, as pairs with strictly rising keys. -/
abbrev Tab (α : Type) := List (Nat × α)

/-- The bits `lo .. lo + w - 1` of a number. -/
def bitsOf (n lo w : Nat) : Nat := n / 2 ^ lo % 2 ^ w

/-- Bit `i` of a number. -/
def bitAt (n i : Nat) : Bool := n / 2 ^ i % 2 == 1

/-- The number with its bits `lo .. lo + w - 1` replaced by `v`. -/
def putBits (n lo w v : Nat) : Nat :=
  n - 2 ^ lo * bitsOf n lo w + 2 ^ lo * (v % 2 ^ w)

/-- 1 for true, 0 for false. -/
def boolBit (b : Bool) : Nat := if b then 1 else 0

/-- ⌈a ÷ b⌉. -/
def divUp (a b : Nat) : Nat := (b + a - 1) / b

/-- How many of the low `w` bits of `n` are set. -/
def countBits (n : Nat) : Nat → Nat
  | 0 => 0
  | w + 1 => countBits n w + boolBit (bitAt n w)

/-- The positions of the set bits of `n` below `w`, ascending. -/
def setBits (n w : Nat) : List Nat := (List.range w).filter (bitAt n)

/-- The number whose set bits are the listed positions. -/
def maskOf (l : List Nat) : Nat := l.foldl (fun m i => m ||| 2 ^ i) 0

/-- ⌊log2 n⌋, 0 for 0. -/
def log2 (n : Nat) : Nat := Nat.log2 n

end Sys2Proof
end

