-- ==== Sys2Proof/Syntax.lean ====
section
/-! DEFINITION. The commands of the block: what the host, the board, the links, the engines and the device's own
timers do to it. -/

namespace Sys2Proof

/-- The header of a host command as fetched (R456, R458, R459): the function and SQ it came from, its CID, INDIRECT
with the indirect length and whether the indirect buffer could be read, and the byte offset of the first reserved
or padding bit that is set, if one is (R461 INFO). -/
structure Hdr where
  fn : BitVec 6
  sq : BitVec 12
  cid : U16
  indirect : Bool := false
  indLen : U32 := 0
  indOk : Bool := true
  rsvd : Option U32 := none
  deriving DecidableEq, Repr

/-- The fields of a request entry (R68), OPCODE apart. -/
structure ReqOps where
  kind : U8 := 0
  rflags : U16 := 0
  reqSeq : U32 := 0
  handle : U64 := 0
  requestId : U64 := 0
  inputAddr : U64 := 0
  inputLen : U32 := 0
  maxNew : U32 := 0
  deadline : U64 := 0
  tokenRing : U16 := 0
  temp : U16 := 0
  topP : U16 := 0
  topK : U16 := 0
  seed : U64 := 0
  deriving DecidableEq, Repr

/-- The operands of OPEN (R76). -/
structure OpenOps where
  slice : BitVec 6 := 0
  mode : U1 := 0
  sessionId : U64 := 0
  palette : U16 := 0xFFFF
  flags : U16 := 0
  pageBudget : U32 := 0
  mirrorDev : U16 := 0xFFFF
  canvasAddr : U64 := 0
  canvasLen : U32 := 0
  canvasTier : U8 := 0
  deriving DecidableEq, Repr

/-- The operands of SET_SESSION (R79): the handle and the values it sets, in the places of OPEN's operands. -/
structure SetOps where
  handle : U64 := 0
  flags : U16 := 0
  pageBudget : U32 := 0
  mirrorDev : U16 := 0xFFFF
  deriving DecidableEq, Repr

/-- An IEEE 1149.1 instruction (R439). -/
inductive JtagInstr where
  | bypass | idcode | sample | extest | privateScan | haltSequencer
  deriving DecidableEq, Repr

/-- The unit a JTAG instruction reaches for (R439, table *Debug reach*). -/
inductive JtagUnit where
  | core (i : BitVec 9) | cluster (i : BitVec 6) | pcg (i : BitVec 6) | port (i : BitVec 6)
  | die (i : BitVec 5) | rt | cipherPipe (die : BitVec 5)
  deriving DecidableEq, Repr


/-- Where a block of a matrix operand lies in core store (R186..R189, R202): its element bytes, scale byte, QW2 offset
byte and sidecar word. The spec gives an operand's address and not the layout of a tile there, so the command names
each block's place. -/
structure BlkRef where
  elem : BitVec 23 := 0
  scale : BitVec 23 := 0
  offset : BitVec 23 := 0
  side : BitVec 23 := 0
  deriving DecidableEq, Repr

/-- The operands of MM (R227): the blocks of the A and B operands by row, format codes, whether each operand carries a
sidecar, whether B is PACKED (R219; a block then names a packed block of 64 values and, in `offset`, which half),
accumulator bank and CLEAR. -/
structure MmOps where
  a : List (List BlkRef) := []
  b : List (List BlkRef) := []
  fa : U8 := 0
  fb : U8 := 0
  aSide : U1 := 0
  bSide : U1 := 0
  bPacked : U1 := 0
  monitored : U1 := 0
  bank : BitVec 2 := 0
  clear : U1 := 0
  deriving DecidableEq, Repr

/-- The operands of ATTN (R227): session, layer, query address, first position, rows and query heads, key slots from
`lo` up to but not `hi`, of the palette entry where `pal` is 1, whether the query is the session's own, and where the
partial state goes. -/
structure AttnOps where
  index : BitVec 24 := 0
  layer : U8 := 0
  query : BitVec 23 := 0
  rows : U8 := 1
  pos0 : U32 := 0
  head0 : U16 := 0
  heads : U16 := 1
  lo : U32 := 0
  hi : U32 := 0
  pal : U1 := 0
  out : BitVec 23 := 0
  deriving DecidableEq, Repr

/-- The operands of FUNC (R223, R227): function code, which of add, subtract and multiply or of sum, maximum and
argmax (`kind`), addresses, element count, the length of the second input
(repeated to the count; for rotary position the elements of a row) and FP32 constant; for quantise and dequantise the format code, the sidecar,
the layer whose monitor counts and whether it is monitored; for rotary position the first position. -/
structure FuncOps where
  code : U8 := 1
  kind : U8 := 0
  a : BitVec 23 := 0
  b : BitVec 23 := 0
  out : BitVec 23 := 0
  count : U32 := 0
  blen : U32 := 0
  const : U32 := 0
  fmt : U8 := 0
  side : U1 := 0
  monitored : U1 := 0
  layer : U8 := 0
  pos : U32 := 0
  deriving DecidableEq, Repr

/-- An address a mover or sampler command names (R225): core store, slice memory, or a remote device's memory. -/
inductive MvAddr where
  | core (a : BitVec 23) | slice (va : BitVec 52) | remote (dev : U16) (addr : BitVec 52)
  deriving DecidableEq, Repr

/-! ## Retrieval (R325, R330, R343) -/

/-- The operands of INDEX_CREATE (R325). -/
structure IndexOps where
  slice : BitVec 6 := 0
  index : U8 := 0
  die : BitVec 4 := 0
  dims : U16 := 32
  vformat : U8 := 0
  rformat : U8 := 0xFF
  metric : BitVec 2 := 0
  degree0 : U8 := 16
  degree : U8 := 8
  levels : BitVec 4 := 1
  beam : U16 := 16
  attrBytes : U8 := 0
  capacity : U32 := 0
  upperCap : U32 := 0
  tier : BitVec 2 := 0
  rtier : BitVec 2 := 0
  protect : U1 := 0
  serial : U64 := 0
  va : U64 := 0
  deriving DecidableEq, Repr

/-- The operands of SEARCH (R330). -/
structure SearchOps where
  index : U8 := 0
  sflags : U8 := 0
  k : U16 := 1
  beam : U16 := 1
  cand : U16 := 1
  hops : U16 := 0
  fillHops : U16 := 0
  queryAddr : U64 := 0
  filterAddr : U64 := 0
  resultAddr : U64 := 0
  handle : U64 := 0
  cursor : BitVec 6 := 0
  queryOff : BitVec 20 := 0
  deriving DecidableEq, Repr

/-- The operands of TABLE_CREATE (R343). -/
structure TableOps where
  slice : BitVec 6 := 0
  table : U8 := 0
  die : BitVec 4 := 0
  rows : U32 := 1
  rowBytes : U32 := 64
  rformat : BitVec 2 := 0
  shared : U1 := 0
  tier : BitVec 2 := 0
  protect : U1 := 0
  va : U64 := 0
  hotMax : U32 := 0
  defaultAddr : U64 := 0
  deriving DecidableEq, Repr

/-- The operands GATHER, SCATTER_ADD and SCATTER_SET share (R344, R345): `addr` is the destination or the source, a
slice address where `isVa` is 1. -/
structure BatchOps where
  slice : BitVec 6 := 0
  table : U8 := 0
  owner : U16 := 0xFFFF
  count : U32 := 1
  listAddr : U64 := 0
  addr : U64 := 0
  isVa : U1 := 0
  lc : U1 := 0
  deriving DecidableEq, Repr

/-! ## Barsar links and compositions (R356, R359, R366, R371, R375) -/

/-- The header of a transaction as it arrives on a port (R359), with what the port knows of it: the port, whether its
GCM tag verified (R367), and FFLAGS.POISON of its flits (R356). -/
structure TxHdr where
  port : BitVec 6 := 0
  lc : U1 := 0
  colour : BitVec 2 := 0
  queue : BitVec 3 := 0
  fwd : U1 := 0
  hops : U8 := 8
  src : U16 := 0
  tag : U32 := 0
  epoch : U32 := 0
  addr : U64 := 0
  slice : U8 := 0xFF
  aux : U32 := 0
  poison : U1 := 0
  tagOk : U1 := 1
  deriving DecidableEq, Repr

/-- A flit received (R356), its PAYLOAD apart: the payload's transaction is a command of its own. `crcOk` says that its
CRC holds; `corrected` counts the symbols the FEC corrected in its codewords and `uncorrectable` says that one of them
could not be corrected (R355). -/
structure Flit where
  ftype : U8 := 0
  vl : BitVec 4 := 0
  seq : BitVec 12 := 0
  ackV : U1 := 0
  nak : U1 := 0
  ackSeq : BitVec 12 := 0
  cvl : BitVec 4 := 0
  ccount : BitVec 12 := 0
  start : U1 := 0
  fin : U1 := 0
  keyPhase : U1 := 0
  crcOk : U1 := 1
  corrected : U8 := 0
  uncorrectable : U1 := 0
  deriving DecidableEq, Repr

/-- The content of a HELLO flit (R366). -/
structure HelloOps where
  kind : U8 := 1
  compId : U64 := 0
  device : U16 := 0
  peerPort : BitVec 6 := 0
  cipher : U1 := 1
  buffers : List U16 := []
  deriving DecidableEq, Repr

/-- The operands of COMP_CHANGE (R375), and a change in a MAP message. -/
structure ChangeOps where
  op : BitVec 3 := 1
  device : U16 := 0
  slice : BitVec 6 := 0
  kind : BitVec 2 := 1
  identity : U256 := 0
  poolUnits : U64 := 0
  force : U1 := 0
  qlist : List U16 := []
  deriving DecidableEq, Repr

/-- A map entry (R371). -/
structure MemberOps where
  device : U16 := 0
  kind : U8 := 1
  state : U8 := 1
  slices : U64 := 0
  poolUnits : U64 := 0
  identity : U256 := 0
  deriving DecidableEq, Repr

/-- A composition map as a message carries it (R371). -/
structure MapOps where
  compId : U64 := 0
  epoch : U32 := 0
  qmembers : List U16 := []
  members : List MemberOps := []
  deriving DecidableEq, Repr

/-- What OFFER tells of a session (R121): what the receiver's checks need of its canvas. `winter` says that the session
is Winter, `descOnly` that only the descriptor moves (R126). -/
structure OfferOps where
  sid : U64 := 0
  epoch : U32 := 0
  winter : U1 := 0
  descOnly : U1 := 0
  tier : BitVec 2 := 0
  len : U32 := 0
  kvFormat : U8 := 0
  layers : U8 := 0
  stretchOffset : U32 := 0
  committedLen : U32 := 0
  pageMaxLog2 : BitVec 4 := 0
  pageCount : U32 := 0
  pageBudget : U32 := 0
  modelHash : U256 := 0
  palette : Option (U256 × U32) := none
  dclass : BitVec 2 := 0
  prot : U1 := 0
  ringPos : U8 := 0
  ringSize : U8 := 1
  tail : U1 := 1
  deriving DecidableEq, Repr

/-- What RING_CMD carries (R360): 1 a FORK with the children's ids, 2 a CLOSE, 3 a new standby, 4 a MIGRATE of the
member's stretch, 5 new neighbours, 6 a new ring size and owner epoch, 7 PARK, 8 THAW, 9 SET_SESSION of the members' own stretches;
`flags` holds PARK's DEEP and COMPRESS, THAW's STREAM, or SET_SESSION's FLAGS, and `budget` its PAGE_BUDGET. -/
structure RingOps where
  kind : BitVec 4 := 1
  sid : U64 := 0
  epoch : U32 := 0
  ids : List U64 := []
  pos : U8 := 0
  size : U8 := 1
  next : U16 := 0xFFFF
  prev : U16 := 0xFFFF
  mirror : U16 := 0xFFFF
  dclass : BitVec 2 := 0
  prot : U1 := 0
  pageMaxLog2 : BitVec 4 := 0
  modelHash : U256 := 0
  palette : Option (U256 × U32) := none
  targetDev : U16 := 0xFFFF
  targetSlice : BitVec 6 := 0
  tier : BitVec 2 := 0
  flags : U16 := 0
  budget : U32 := 0
  deriving DecidableEq, Repr

/-- The commands of the block: one constructor per row of the table of commands, in its order. A host command
(the first group) carries its header; a word operand has the width the spec gives it. -/
inductive Instr where
  /-- NOP (R460): Host command that does nothing beyond being fetched, checked and completed. -/
  | nop (h : Hdr)
  /-- SQ_CREATE (R463): Admin command that creates a submission queue bound to a completion queue. -/
  | sqCreate (h : Hdr) (qid cqid : U16) (log2 : BitVec 5) (base : U64)
  /-- SQ_DELETE (R463): Admin command that stops fetching from a submission queue and deletes it. -/
  | sqDelete (h : Hdr) (qid : U16)
  /-- CQ_CREATE (R463): Admin command that creates a completion queue with its vector and interrupt enable. -/
  | cqCreate (h : Hdr) (qid : U16) (log2 : BitVec 5) (vector : BitVec 11) (ien : U1) (base : U64)
  /-- CQ_DELETE (R463): Admin command that deletes a completion queue unless it is still bound or owed completions. -/
  | cqDelete (h : Hdr) (qid : U16)
  /-- EQ_CREATE (R467): Command that creates a slice event queue or the device event queue. -/
  | eqCreate (h : Hdr) (slice : BitVec 6) (device : U1) (log2 : BitVec 5) (base : U64) (vector : BitVec 11)
  /-- EQ_DELETE (R467): Command that deletes a slice or device event queue. -/
  | eqDelete (h : Hdr) (slice : BitVec 6) (device : U1)
  /-- COPY (R469): Command that moves bytes between host memory and a slice address as BE work. -/
  | copy (h : Hdr) (slice : BitVec 6) (dir : U1) (len : U32) (hostAddr va : U64)
  /-- REQUEST (R69): Submission of a request entry to a session, checked and stored in ACTIVE or PENDING. -/
  | request (h : Hdr) (r : ReqOps)
  /-- OPEN (R76): Command that takes an Empty descriptor and creates a new Autumn session or adopts a canvas as Winter. -/
  | openSession (h : Hdr) (o : OpenOps)
  /-- CLOSE (R71): Command that tears a session down through Closing to Empty according to its season. -/
  | closeSession (h : Hdr) (handle : U64)
  /-- PARK (R107): Command that serializes an Autumn session into a canvas at its target tier. -/
  | park (h : Hdr) (handle : U64) (tier : BitVec 2) (deep compress : U1) (hostAddr : U64) (hostLen : U32)
  /-- THAW (R112): Command that checks a Winter canvas and rebuilds the session from it. -/
  | thaw (h : Hdr) (handle : U64) (stream : U1)
  /-- MIGRATE (R120): Command that moves one stretch of a session to another device by an ownership handoff. -/
  | migrate (h : Hdr) (handle : U64) (member : BitVec 6) (targetDev : U16) (targetSlice : BitVec 6) (tier : BitVec 2)
  /-- FORK (R86): Command that makes up to 64 children sharing the parent's committed pages copy-on-write. -/
  | fork (h : Hdr) (handle : U64) (count : U32) (idsAddr outAddr : U64)
  /-- SET_SESSION (R79): Command that changes PINNED, DEEP_OK, PAGE_BUDGET, DCLASS or MIRROR_DEV of a session. -/
  | setSession (h : Hdr) (o : SetOps)
  /-- SESSION_QUERY (R62): Command that returns a 256-byte copy of a session descriptor. -/
  | sessionQuery (h : Hdr) (handle outAddr : U64)
  /-- CANCEL (R264): Command that removes a pending request or sets the cancel bit of an active one. -/
  | cancel (h : Hdr) (handle requestId : U64)
  /-- RING_EXTEND (R169): Command that creates a standby ring member on a target device. -/
  | ringExtend (h : Hdr) (handle : U64) (targetDev : U16) (targetSlice : BitVec 6)
  /-- TRING_CREATE (R257): Command that creates a token ring in host memory for a slice. -/
  | tringCreate (h : Hdr) (slice : BitVec 6) (ring : U16) (log2 : BitVec 5) (base tailAddr : U64) (vector : BitVec 11) (ien : U1)
  /-- TRING_DESTROY (R257): Command that destroys a token ring not named by a live request. -/
  | tringDestroy (h : Hdr) (slice : BitVec 6) (ring : U16)
  /-- PALETTE_LOAD (R178): Command that takes a palette index and pages and starts compiling a learned prefix. -/
  | paletteLoad (h : Hdr) (slice : BitVec 6) (program : BitVec 4) (tokens : U16) (srcAddr : U64)
  /-- PALETTE_UNLOAD (R181): Command that unmaps and gesso-fills a palette entry with no references. -/
  | paletteUnload (h : Hdr) (slice : BitVec 6) (index : U16)
  /-- JOB_START (R239): Command that starts a job of a model program on a slice. -/
  | jobStart (h : Hdr) (slice : BitVec 6) (program : BitVec 4) (firstStep : U64)
  /-- JOB_END (R240): Command that stops new steps and ends the slice's job once its instances end. -/
  | jobEnd (h : Hdr) (slice : BitVec 6)
  /-- MEM_ALLOC (R298): Command that allocates and maps a weights or buffer object in T1 or T2. -/
  | memAlloc (h : Hdr) (slice : BitVec 6) (type : BitVec 3) (tier : BitVec 2) (protect : U1) (die : BitVec 4) (fetchLog2 : BitVec 4) (stripe : BitVec 5) (size : U32) (va : U64)
  /-- MEM_FREE (R300): Command that unmaps, gesso-fills and frees an object. -/
  | memFree (h : Hdr) (slice : BitVec 6) (va : U64)
  /-- APERTURE_MAP (R380): Command that allocates a range on a pool member and maps it as an aperture. -/
  | apertureMap (h : Hdr) (slice : BitVec 6) (va : U64) (member : U16) (size : U32)
  /-- APERTURE_UNMAP (R380): Command that unmaps an aperture and frees its pool range. -/
  | apertureUnmap (h : Hdr) (slice : BitVec 6) (va : U64)
  /-- POOL_RECLAIM (R379): Command that reclaims a kept pool range holding a canvas record by its locator. -/
  | poolReclaim (h : Hdr) (locator : U64)
  /-- INDEX_CREATE (R325): Command that allocates a vector index with its arrays and rerank copy. -/
  | indexCreate (h : Hdr) (o : IndexOps)
  /-- INDEX_DESTROY (R349): Command that removes an index and gesso-fills its objects after running requests end. -/
  | indexDestroy (h : Hdr) (slice : BitVec 6) (index : U8)
  /-- INSERT (R337): Command that writes a vector, links it into the graph and publishes it. -/
  | insertVec (h : Hdr) (slice : BitVec 6) (index : U8) (id : U32) (srcAddr attrAddr : U64)
  /-- DELETE (R339): Command that tombstones a vector id in an index. -/
  | deleteVec (h : Hdr) (slice : BitVec 6) (index : U8) (id : U32)
  /-- INDEX_COMPACT (R340): Command that rewrites lists without tombstoned nodes and frees their ids. -/
  | indexCompact (h : Hdr) (slice : BitVec 6) (index : U8)
  /-- SEARCH (R330): Command that walks an index graph and returns the K nearest eligible vectors. -/
  | search (h : Hdr) (o : SearchOps)
  /-- SEARCH_NEXT (R342): Command that repeats a saved search from a cursor and delivers further results. -/
  | searchNext (h : Hdr) (handle : U64) (cursor : BitVec 6) (resultAddr : U64)
  /-- CURSOR_DROP (R342): Command that clears VALID of a retrieval cursor. -/
  | cursorDrop (h : Hdr) (handle : U64) (cursor : BitVec 6)
  /-- TABLE_CREATE (R343): Command that allocates an embedding table with hot area, hot map and default row. -/
  | tableCreate (h : Hdr) (o : TableOps)
  /-- TABLE_DESTROY (R349): Command that removes an embedding table and gesso-fills its objects. -/
  | tableDestroy (h : Hdr) (slice : BitVec 6) (table : U8)
  /-- GATHER (R344): Command that reads table rows by an index list into a destination. -/
  | gather (h : Hdr) (o : BatchOps)
  /-- SCATTER_ADD (R345): Command that adds a batch of rows elementwise into table rows. -/
  | scatterAdd (h : Hdr) (o : BatchOps)
  /-- SCATTER_SET (R345): Command that writes a batch of rows into table rows. -/
  | scatterSet (h : Hdr) (o : BatchOps)
  /-- TABLE_STAGE (R348): Command that allocates a staged base object for a new table version. -/
  | tableStage (h : Hdr) (slice : BitVec 6) (table : U8)
  /-- TABLE_SWITCH (R348): Command that asks for the staged version to become the table's base. -/
  | tableSwitch (h : Hdr) (slice : BitVec 6) (table : U8)
  /-- HOT_POST (R350): Command that posts a pending list of hot rows for a table. -/
  | hotPost (h : Hdr) (slice : BitVec 6) (table : U8) (listAddr : U64) (count : U32)
  /-- COMP_CHANGE (R375): Command that proposes a composition map change to the arbiter. -/
  | compChange (h : Hdr) (c : ChangeOps)
  /-- PORT_ENABLE (R369): Command that clears DISABLE of a port and starts its bring-up. -/
  | portEnable (h : Hdr) (port : BitVec 6)
  /-- PORT_DISABLE (R369): Wedge-proof command that stops a port driving its lanes and erases its keys. -/
  | portDisable (h : Hdr) (port : BitVec 6)
  /-- PORT_REKEY (R368): Command that starts a rekey of a port direction. -/
  | portRekey (h : Hdr) (port : BitVec 6)
  /-- CKPT_NOW (R405): Command that requests a checkpoint at the next step end, or at once with no job. -/
  | ckptNow (h : Hdr) (slice : BitVec 6)
  /-- CKPT_RESTORE (R402): Command that restores a slice from a committed checkpoint image. -/
  | ckptRestore (h : Hdr) (slice : BitVec 6) (locator ckpt : U64)
  /-- CKPT_RELEASE (R405): Command that frees a slice's checkpoint target and clears CKPT_TARGET. -/
  | ckptRelease (h : Hdr) (slice : BitVec 6)
  /-- IMAGE_LOAD (R45): Command that fetches, verifies, stages and commits a Voltiov image by MODE. -/
  | imageLoad (h : Hdr) (srcAddr : U64) (srcLen : U32) (mode : BitVec 2)
  /-- ENROL_AUTHOR (R44): Command that writes an author key hash into the lowest free fused slot. -/
  | enrolAuthor (h : Hdr) (tokenAddr : U64)
  /-- REVOKE_AUTHOR (R44): Command that blows the revoke fuse of an author slot. -/
  | revokeAuthor (h : Hdr) (slot : U32)
  /-- KEYGEN_ADVANCE (R417): Command that moves all state dies to the next memory key generation and starts the sweep. -/
  | keygenAdvance (h : Hdr)
  /-- GEN_RETIRE (R421): Command that permanently retires an unused key generation. -/
  | genRetire (h : Hdr) (gen : U32)
  /-- ZEROIZE (R447): Wedge-proof command that erases keys, retires generations, bumps ZCOUNT and resets the package. -/
  | zeroize (h : Hdr)
  /-- KEY_RELEASE (R441): Command that unwraps a released content key into a slice key slot. -/
  | keyRelease (h : Hdr) (blobAddr : U64)
  /-- BOUND_OPEN (R444): Command that opens a device-bound weight package key into a key slot. -/
  | boundOpen (h : Hdr) (slice : BitVec 6) (slot : U32) (pkgAddr : U64)
  /-- WEIGHT_DECRYPT (R445): Command that decrypts weight package chunks into a protected object. -/
  | weightDecrypt (h : Hdr) (slice : BitVec 6) (slot : U32) (src : U64) (first count : U32) (dstVa : U64)
  /-- CONSENT_INSTALL (R437): Command that installs a signed debug consent record on a slice. -/
  | consentInstall (h : Hdr) (slice : BitVec 6) (recAddr : U64)
  /-- CONSENT_REMOVE (R438): Command that removes a slice's consent record and stops its debug features. -/
  | consentRemove (h : Hdr) (slice : BitVec 6)
  /-- DEV_RESET (R492): Command that performs a warm, die or slice reset by SCOPE. -/
  | devReset (h : Hdr) (scope : BitVec 2) (die : BitVec 5) (slice : BitVec 6)
  /-- PKG_RESET (R494): Wedge-proof command that performs a package reset. -/
  | pkgReset (h : Hdr)
  /-- POWER_STATE (R498): Command that requests Hibernate entry or wake to Active. -/
  | powerState (h : Hdr) (target force : U1)
  /-- FW_LOAD (R506): Command that stages, activates or cancels a firmware bundle or default image. -/
  | fwLoad (h : Hdr) (srcAddr : U64) (srcLen : U32) (target : U1) (mode : BitVec 2)
  /-- ERRLOG_READ (R510): Command that copies error log entries to host memory. -/
  | errlogRead (h : Hdr) (first count : U32) (dstAddr : U64)
  /-- THERM_SHUTDOWN (R516): Wedge-proof command that starts a thermal shutdown. -/
  | thermShutdown (h : Hdr)
  /-- RST_CTRL_PKG_RESET (R518): Keyed write of RST_CTRL.PKG_RESET that performs a package reset. -/
  | rstCtrlPkgReset (fn : BitVec 6) (value : U32)
  /-- THERM_CTRL_SHUTDOWN (R518): Keyed write of THERM_CTRL.SHUTDOWN that starts a thermal shutdown. -/
  | thermCtrlShutdown (fn : BitVec 6) (value : U32)
  /-- ZEROIZE_ARM (R447): Write of ARM to SEC_ZEROIZE that arms zeroization. -/
  | zeroizeArm (fn : BitVec 6)
  /-- ZEROIZE_FIRE (R447): Write of FIRE to SEC_ZEROIZE that runs zeroization when armed. -/
  | zeroizeFire (fn : BitVec 6)
  /-- PORT_CTRL_DISABLE (R369): Wedge-proof write of 1 to PORT_CTRL.DISABLE that disables a port. -/
  | portCtrlDisable (fn : BitVec 6) (port : BitVec 6)
  /-- PORT_CTRL_REKEY (R368): Write of PORT_CTRL.REKEY that starts a port rekey. -/
  | portCtrlRekey (fn : BitVec 6) (port : BitVec 6)
  /-- PORT_CTRL_RETRAIN (R388): Write of PORT_CTRL.RETRAIN that puts a port in FAILED and brings it up again. -/
  | portCtrlRetrain (fn : BitVec 6) (port : BitVec 6)
  /-- ERRLOG_CTRL_CONSUME (R518): Write of CONSUME that advances ERRLOG_HEAD over the selected page and releases ALERT_N. -/
  | errlogCtrlConsume (fn : BitVec 6) (value : U32)
  /-- PKC_LO_READ (R30): Read of PKC_LO that returns the low PKC bits and latches the high bits for the function. -/
  | pkcLoRead (fn : BitVec 6)
  /-- LO_READ_LATCH (R483): Read of a LO register marked to latch its HI register for the reading function. -/
  | loReadLatch (fn : BitVec 6) (off : BitVec 26)
  /-- HI_WRITE_COMMIT (R483): Write of a HI register that commits the pending LO value with it as one 64-bit value. -/
  | hiWriteCommit (fn : BitVec 6) (off : BitVec 26) (value : U32)
  /-- REG_CFG_WRITE (R277): Write of a regulator CFG register that commits its RATE and CFG at every admission point. -/
  | regCfgWrite (fn : BitVec 6) (slice : BitVec 6) (reg : BitVec 4) (value : U32)
  /-- MTR_SEL_WRITE (R288): Write of MTR_SELi that commits meter entry i on every port and refills its buckets. -/
  | mtrSelWrite (fn : BitVec 6) (slice entry : BitVec 6) (value : U32)
  /-- EVC_SEL_WRITE (R511): Write of EVC_SELk that selects a counter source and restarts EVC_COUNTk. -/
  | evcSelWrite (fn : BitVec 6) (slice : BitVec 6) (counter : BitVec 4) (value : U32)
  /-- AQ_CFG_WRITE (R473): Write of AQ_CFG that enables admin queues or, by clearing ENABLE, destroys them. -/
  | aqCfgWrite (fn target : BitVec 6) (value : U32)
  /-- REGISTER_WRITE (R480): BAR0 write to any register without a row of its own, applied or ignored and counted. -/
  | registerWrite (fn : BitVec 6) (off : BitVec 26) (data : Bytes)
  /-- SQ_TAIL_DOORBELL (R464): Doorbell write of a new submission queue tail that lets the device fetch descriptors. -/
  | sqTailDoorbell (fn : BitVec 6) (q : BitVec 12) (value : U16)
  /-- CQ_HEAD_DOORBELL (R464): Doorbell write of a new completion queue head that returns entries. -/
  | cqHeadDoorbell (fn : BitVec 6) (q : BitVec 12) (value : U16)
  /-- EQ_HEAD_DOORBELL (R464): Doorbell write of a new event queue head. -/
  | eqHeadDoorbell (fn : BitVec 6) (q : BitVec 7) (value : U16)
  /-- TRING_CREDIT_DOORBELL (R260): Doorbell write of a token ring's consumed index that returns credit. -/
  | tringCreditDoorbell (fn slice : BitVec 6) (ring : BitVec 14) (value : U32)
  /-- BAR4_ACCESS (R455): Host read or write through BAR4 translated into a slice address space. -/
  | bar4Access (fn : BitVec 6) (write inIde : Bool) (off : BitVec 40) (len : BitVec 12) (data : Bytes)
  /-- MSIX_UNMASK (R466): Unmasking of an MSI-X vector, which sends a pending message. -/
  | msixUnmask (fn : BitVec 6) (vector : BitVec 11)
  /-- FUNCTION_LEVEL_RESET (R472): PCIe function-level reset of a function, warm for PF0 and a function reset otherwise. -/
  | functionLevelReset (fn : BitVec 6)
  /-- POISONED_TLP_RECEIVED (R508): Arrival of a poisoned TLP from the host, which is logged. -/
  | poisonedTlpReceived (fn : BitVec 6) (addr : U64)
  /-- IDE_FAILURE (R470): A VF TLP arriving outside its IDE stream or failing IDE, putting its TDI in ERROR. -/
  | ideFailure (fn : BitVec 6)
  /-- GET_VERSION (R429): SPDM request for the supported version. -/
  | getVersion
  /-- GET_CAPABILITIES (R429): SPDM request for the responder's capabilities. -/
  | getCapabilities (secured : Bool)
  /-- NEGOTIATE_ALGORITHMS (R429): SPDM request that negotiates SHA3-256 and ML-DSA-44. -/
  | negotiateAlgorithms (secured : Bool) (sha3 mldsa : Bool)
  /-- GET_DIGESTS (R429): SPDM request for certificate chain digests. -/
  | getDigests (secured : Bool)
  /-- GET_CERTIFICATE (R415): SPDM request for the certificate chain of slot 0. -/
  | getCertificate (secured : Bool) (slot : U8) (off len : U16)
  /-- CHALLENGE (R429): SPDM challenge signed with the device attestation key. -/
  | challenge (secured : Bool) (slot : U8) (nonce : U256)
  /-- GET_MEASUREMENTS (R431): SPDM request for signed measurements, producing a sealed report for index 0xF0. -/
  | getMeasurements (secured : Bool) (index : U8) (nonce : U256)
  /-- END_SESSION (R429): SPDM request that ends a secured session. -/
  | endSession
  /-- HEARTBEAT (R429): SPDM heartbeat of a secured session. -/
  | heartbeat
  /-- KEY_UPDATE (R429): SPDM request that updates secured session keys. -/
  | keyUpdate
  /-- KEM_START (R429): Vendor SPDM request that starts a secured session with an ML-KEM-768 ciphertext. -/
  | kemStart (ct : Bytes)
  /-- IDE_KM (R470): IDE key management message accepted in a secured session. -/
  | ideKm (message : BitVec 3) (stream : BitVec 3) (fn : BitVec 6)
  /-- LOCK_INTERFACE (R471): TDISP request that moves a VF's TDI to CONFIG_LOCKED. -/
  | lockInterface (fn : BitVec 6)
  /-- START_INTERFACE_REQUEST (R471): TDISP request that moves a VF's TDI to RUN. -/
  | startInterfaceRequest (fn : BitVec 6)
  /-- STOP_INTERFACE (R471): TDISP request that unlocks a TDI and performs a tenant-change slice reset. -/
  | stopInterface (fn : BitVec 6)
  /-- PLDM_PKG_RESET (R517): PLDM state effecter setting that performs a package reset. -/
  | pldmPkgReset
  /-- PLDM_THERMAL_SHUTDOWN (R517): PLDM state effecter setting that starts a thermal shutdown. -/
  | pldmThermalShutdown
  /-- PLDM_PORT_DISABLE (R517): PLDM state effecter setting that disables a named port. -/
  | pldmPortDisable (port : BitVec 6)
  /-- PLDM_ZEROIZE_ARM (R517): PLDM ARM setting of the zeroize effecter. -/
  | pldmZeroizeArm
  /-- PLDM_ZEROIZE_FIRE (R517): PLDM FIRE setting of the zeroize effecter that runs zeroization when armed. -/
  | pldmZeroizeFire
  /-- PLDM_ERRLOG_READ (R509): PLDM read of error log entries that releases ALERT_N for them. -/
  | pldmErrlogRead (first count : U32)
  /-- VAUX12_APPLIED (R529): Application of VAUX12 and VIO18, which starts the always-on island and a cold reset. -/
  | vaux12Applied
  /-- VIN48_APPLIED (R529): Application of VIN48 to the package. -/
  | vin48Applied
  /-- PWRGOOD_ASSERT (R533): Rising PWRGOOD that samples the straps and starts conversion and boot. -/
  | pwrgoodAssert (straps : U8)
  /-- PWRGOOD_DEASSERT (R530): Falling PWRGOOD that turns the conversion stages off. -/
  | pwrgoodDeassert
  /-- PERST_N_ASSERT (R490): Assertion of PERST_N, which causes a package reset. -/
  | perstNAssert
  /-- PERST_N_DEASSERT (R529): Deassertion of PERST_N, after which PCIe trains. -/
  | perstNDeassert (width speed : BitVec 4) (flit l0p : Bool)
  /-- VIN48_OUT_OF_RANGE (R530): VIN48 crossing its undervoltage or overvoltage limit, turning conversion off. -/
  | vin48OutOfRange
  /-- VAUX12_REMOVED (R530): Removal of VAUX12, turning everything off and losing K-class state. -/
  | vaux12Removed
  /-- VIO18_LOW (R530): VIO18 falling below 1.6 V, so PERST_N and PWRGOOD read as reset. -/
  | vio18Low
  /-- REFCLK_STOP (R531): Loss of REFCLK, moving the always-on island to its internal oscillator. -/
  | refclkStop
  /-- REFCLK_RESTART (R531): Return of REFCLK, to which the always-on island switches back. -/
  | refclkRestart
  /-- PLL_LOCK_LOSS (R27): Loss of lock of a die root PLL or the PCIe PLL, forcing a die or package reset. -/
  | pllLockLoss (pll : BitVec 5)
  /-- DIE_RELEASE (R27): Release of a die after its PLL has been locked for 2^16 REFCLK cycles. -/
  | dieRelease (die : BitVec 5)
  /-- THERMAL_TRIP (R516): A junction sensor reaching 115 °C, starting a thermal shutdown. -/
  | thermalTrip (die : BitVec 5)
  /-- SELFTEST_DONE (R411): Completion of the security root and cipher pipe self-tests, setting MODULE. -/
  | selftestDone (die : BitVec 5)
  /-- SELFTEST_FAILURE (R412): Failure of a self-test or continuous test, putting MODULE in ERROR. -/
  | selftestFailure (die : BitVec 5) (test : U8)
  /-- DIE_FIRMWARE_MEASURED (R504): Loading, checking and measuring of a die's firmware stage after its release. -/
  | dieFirmwareMeasured (die : BitVec 5) (stage : Bytes)
  /-- BOOT_IMAGE_LOAD (R504): Load of the default image at the end of boot, followed by READY. -/
  | bootImageLoad
  /-- TRIAL_BOOT_TIMEOUT (R507): Trial boot not succeeding within 2^32 counts, falling back to the previous slot. -/
  | trialBootTimeout
  /-- WATCHDOG_EXPIRY (R493): Die firmware watchdog expiring after 2^27 counts without service. -/
  | watchdogExpiry (die : BitVec 5)
  /-- IMAGE_COMMIT (R48): Commit of a staged image after the named slices' resets, switching the running image. -/
  | imageCommit
  /-- STEP_START (R245): Start of a job step forming the batch, checking credit and obtaining pages. -/
  | stepStart (slice : BitVec 6)
  /-- INSTANCE_PLACE (R236): Placement of a waiting kernel instance on the lowest-ranked free eligible core. -/
  | instancePlace (slice : BitVec 6)
  /-- INSTANCE_END (R226): End of a kernel instance once its END record issues and queued commands complete. -/
  | instanceEnd (core : BitVec 9)
  /-- ENGINE_RECORD (R222): Issue of an ENGINE sequencer record queuing an engine command. -/
  | engineRecord (core : BitVec 9)
  /-- WAIT_RECORD (R226): WAIT sequencer record that stalls until its flags are set. -/
  | waitRecord (core : BitVec 9)
  /-- SIGNAL_RECORD (R226): SIGNAL sequencer record that sets flags. -/
  | signalRecord (core : BitVec 9)
  /-- LOOP_RECORD (R227): LOOP sequencer record that decrements a loop register and branches back. -/
  | loopRecord (core : BitVec 9)
  /-- YIELD_RECORD (R237): YIELD record at which a BE instance stops if an LC instance waits. -/
  | yieldRecord (core : BitVec 9)
  /-- END_RECORD (R226): END sequencer record that ends the instance after its commands complete. -/
  | endRecord (core : BitVec 9)
  /-- ENGINE_COMMAND_DONE (R222): Completion of an engine command setting its completion flags. -/
  | engineCommandDone (core : BitVec 9) (engine : BitVec 3)
  /-- MM (R199): ME command that accumulates a tile product in FP32. -/
  | mm (core : BitVec 9) (me : U1) (o : MmOps)
  /-- ACC_OUT (R227): ME command that writes an accumulator bank out in FP32 or BF16. -/
  | accOut (core : BitVec 9) (me : U1) (bank : BitVec 2) (dst : BitVec 23) (bf16 : U1)
  /-- ATTN (R166): AE command that computes an online-softmax partial over key blocks. -/
  | attn (core : BitVec 9) (o : AttnOps)
  /-- MERGE (R167): AE command that merges attention partials. -/
  | merge (core : BitVec 9) (list : BitVec 23) (count rows heads : U16) (out : BitVec 23)
  /-- FUNC (R223): VE command that applies an elementwise, norm, rotary or quantise function. -/
  | func (core : BitVec 9) (o : FuncOps)
  /-- APPEND (R147): QE command that quantises and appends key and value rows tentatively. -/
  | append (core : BitVec 9) (index : BitVec 24) (layer : U8) (src : BitVec 23) (first rows : U16)
  /-- SAMPLE (R252): SE command that samples a token from logits and writes the commit record. -/
  | sample (core : BitVec 9) (logits : MvAddr) (index : BitVec 24) (vocab : U32)
  /-- VERIFY (R256): SE command that verifies drafts, accepts matches and samples the bonus token. -/
  | verify (core : BitVec 9) (logits : MvAddr) (index : BitVec 24) (drafts : BitVec 4)
  /-- MV_COPY (R225): MV command that copies between core store, slice and remote addresses. -/
  | mvCopy (core : BitVec 9) (src dst : MvAddr) (len : U32) (broadcast : U1)
  /-- MV_GATHER (R225): MV command that gathers rows by an index list. -/
  | mvGather (core : BitVec 9) (list : BitVec 23) (rowSize count : U32) (dst : MvAddr)
  /-- PRIORITY_COPY_DONE (R118): Completion of a priority copy that releases the stalled writer. -/
  | priorityCopyDone (pa : U64)
  /-- STEP_END (R249): End of a step setting lengths, freeing rejected pages and moving sessions. -/
  | stepEnd (slice : BitVec 6)
  /-- STAGING_DONE (R395): Completion of a PCG's steward staging and write of its staging record. -/
  | stagingDone (slice : BitVec 6) (pcg : BitVec 6)
  /-- CKPT_COMMIT (R400): Acknowledged write of the commit record that commits a checkpoint. -/
  | ckptCommit (slice : BitVec 6)
  /-- RESTORE_DONE (R403): Completion of a checkpoint restore after frames, descriptors and registries are rebuilt. -/
  | restoreDone (slice : BitVec 6)
  /-- CANVAS_WORK_ITEM (R97): A free canvas engine taking a queued park, thaw or migration work item. -/
  | canvasWorkItem (index : BitVec 24) (item : BitVec 20)
  /-- PARK_END (R107): Release of pages and window after the trailer is written, making the session Winter. -/
  | parkEnd (index : BitVec 24)
  /-- IDLE_PARK_CHECK (R81): Check every 2^26 counts that parks Autumn sessions past the idle limit. -/
  | idleParkCheck (die : BitVec 3)
  /-- RUNAHEAD_THAW_START (R116): Start of a run-ahead thaw when a home canvas engine is free for BE work. -/
  | runaheadThawStart (index : BitVec 24)
  /-- THAW_END (R113): Rebuild of descriptor and page map that moves a session from Spring to Autumn. -/
  | thawEnd (index : BitVec 24)
  /-- STREAM_PAGE_ARRIVAL (R114): Arrival, verification and mapping of one page of a streaming thaw. -/
  | streamPageArrival (index : BitVec 24) (page : BitVec 20)
  /-- STREAM_FAULT (R114): Page walker fault on a not-present page moving it to the head of the stream. -/
  | streamFault (slice : BitVec 6) (va : BitVec 52)
  /-- CLOSE_END (R72): Completion of teardown that makes a Closing descriptor Empty with GEN advanced. -/
  | closeEnd (index : BitVec 24)
  /-- PALETTE_COMPILE_DONE (R179): Completion of a palette compile that makes the entry usable. -/
  | paletteCompileDone (index : BitVec 12)
  /-- TRANSLATION_MISS (R137): Core translation cache miss served by a page walker. -/
  | translationMiss (core : BitVec 9) (va : BitVec 52) (write : U1)
  /-- FETCH_DONE (R301): Arrival of a fetched granule that is written and mapped for the waiting engines. -/
  | fetchDone (slice : BitVec 6) (va : BitVec 52)
  /-- GESSO_FILL_DONE (R317): Completion of gesso writes that returns a freed region to its free pool. -/
  | gessoFillDone (pa : U64)
  /-- PATROL_READ (R314): Patrol read of HBM sectors once per MC_PATROL period. -/
  | patrolRead (pa : U64) (errs : List (U8 × U8))
  /-- CORE_STORE_ROW_REPLACE (R316): Replacement of a core store row with a spare after repeated corrections. -/
  | coreStoreRowReplace (core : BitVec 9) (bank : BitVec 5) (row : BitVec 12)
  /-- REKEY_SWEEP_REGION (R420): Re-key of one protected region by the BE sweep. -/
  | rekeySweepRegion (region : U64)
  /-- REGULATOR_ADMIT (R275): Admission of a waiting transfer once its regulator bucket holds enough tokens. -/
  | regulatorAdmit (slice : BitVec 6) (reg : BitVec 4) (bytes : U32) (lc idle : U1)
  /-- ROW_MIGRATION (R350): Migration of one hot row in or out with queued updates applied. -/
  | rowMigration (slice : BitVec 6) (table : U8) (row : U32)
  /-- TABLE_SWITCH_APPLY (R348): Switch of a table's staged version to base at a boundary with no migration running. -/
  | tableSwitchApply (slice : BitVec 6) (table : U8)
  /-- COMPACT_RELEASE (R340): Clearing of tombstoned ids once searches accepted before compaction have ended. -/
  | compactRelease (slice : BitVec 6) (index : U8)
  /-- BRIDGE_DOWN (R16): Marking a bridge down after 16 failed replays and rerouting affected pairs. -/
  | bridgeDown (bridge : BitVec 6)
  /-- LANE_FAILURE (R354): Loss of a lane that retrains a port at ×4 as DEGRADED. -/
  | laneFailure (port : BitVec 6) (good : U8)
  /-- FLIT_RECEIVE (R357): Receipt of a flit with CRC, sequence, acknowledgement, NAK and credit handling. -/
  | flitReceive (port : BitVec 6) (f : Flit)
  /-- PORT_TRAINING_DONE (R366): End of lane training, equalisation, FEC lock and deskew of a port. -/
  | portTrainingDone (port : BitVec 6) (good : U8)
  /-- HELLO (R366): CONTROL flit exchanging kind, composition, device, port and capabilities. -/
  | hello (port : BitVec 6) (o : HelloOps)
  /-- KEY_CONFIRM (R366): CONTROL flit confirming traffic keys and initialising credits before UP. -/
  | keyConfirm (port : BitVec 6) (identity : U256) (sigOk : U1)
  /-- BRINGUP_RETRY (R366): Restart of a failed bring-up after 2^20 counts. -/
  | bringupRetry (port : BitVec 6)
  /-- FRAME_COUNT_REKEY (R368): Rekey started when a direction's frame count reaches 2^32 − 2^24. -/
  | frameCountRekey (port : BitVec 6)
  /-- REKEY_DONE (R368): New key taking effect at the first START flit with a changed KEY_PHASE. -/
  | rekeyDone (port : BitVec 6)
  /-- READ (R359): Barsar READ transaction served from a pool address or table row. -/
  | readTxn (t : TxHdr)
  /-- WRITE (R359): Barsar WRITE transaction to a pool address. -/
  | writeTxn (t : TxHdr) (data : Bytes)
  /-- ADD_F32 (R345): ATOMIC transaction adding a row to an FP32 table row. -/
  | addF32 (t : TxHdr) (data : Bytes)
  /-- ADD_BF16 (R345): ATOMIC transaction adding in FP32 and rounding to a BF16 row. -/
  | addBf16 (t : TxHdr) (data : Bytes)
  /-- SET (R345): ATOMIC transaction replacing a table row. -/
  | setRow (t : TxHdr) (data : Bytes)
  /-- FADD64 (R360): ATOMIC transaction adding to a 64-bit integer and returning the old value. -/
  | fadd64 (t : TxHdr) (data : Bytes)
  /-- CAS64 (R360): ATOMIC compare-and-swap of a 64-bit value returning the old value. -/
  | cas64 (t : TxHdr) (data : Bytes)
  /-- QUERY (R170): PARTIAL QUERY received by a ring member, forwarded and its partial started. -/
  | query (t : TxHdr) (data : Bytes)
  /-- RESULT (R172): PARTIAL RESULT received by the tail, merged once all members have answered. -/
  | result (t : TxHdr) (data : Bytes)
  /-- CANVAS_DATA (R360): CANVAS DATA transaction carrying canvas bytes or a pool fragment. -/
  | canvasData (t : TxHdr) (sid : U64) (data : Bytes)
  /-- DESC (R126): CANVAS DESC transaction carrying only a descriptor and canvas locator. -/
  | desc (t : TxHdr) (data : Bytes) (locator : U64) (len : U32)
  /-- MIRROR_ROWS (R152): CANVAS transaction carrying tentative KV rows of a D1 stretch to its mirror. -/
  | mirrorRows (t : TxHdr) (sid : U64) (layer : U8) (first : U32) (data : Bytes)
  /-- MIRROR_COMMIT (R152): CANVAS transaction carrying the step-end committed length to a mirror. -/
  | mirrorCommit (t : TxHdr) (sid : U64) (committed : U32)
  /-- MIRROR_STATE (R384): CANVAS transaction carrying a D1 tail's sampler record, scratch and cursors. -/
  | mirrorState (t : TxHdr) (sid : U64) (sampler scratch cursors : Bytes)
  /-- PROPOSE (R373): MAP message proposing a change to the arbiter. -/
  | propose (t : TxHdr) (c : ChangeOps)
  /-- PREPARE (R373): MAP message asking quorum members to vote on the next epoch. -/
  | prepare (t : TxHdr) (epoch : U32) (c : ChangeOps)
  /-- VOTE (R373): MAP vote of a quorum member received by the arbiter. -/
  | vote (t : TxHdr) (epoch : U32) (yes : U1)
  /-- COMMIT_MAP (R374): MAP message committing an epoch at a quorum member. -/
  | commitMap (t : TxHdr) (epoch : U32) (c : ChangeOps)
  /-- MAP_UPDATE (R372): MAP message applying a new map epoch in one write. -/
  | mapUpdate (t : TxHdr) (m : MapOps)
  /-- MAP_QUERY (R374): MAP message asking a member for its map and vote record. -/
  | mapQuery (t : TxHdr)
  /-- MAP_STATE (R374): MAP reply carrying a member's map and vote state. -/
  | mapState (t : TxHdr) (m : MapOps) (vote : Option (U32 × ChangeOps))
  /-- SEAL_KEY (R423): MAP message delivering the composition sealing key wrapped to the device. -/
  | sealKey (t : TxHdr) (blob : Bytes)
  /-- OFFER (R121): MGMT message offering session ownership at the next epoch. -/
  | offer (t : TxHdr) (o : OfferOps)
  /-- ACCEPT (R121): MGMT message accepting an offered handoff. -/
  | accept (t : TxHdr) (sid : U64) (epoch : U32) (handle : U64)
  /-- REFUSE (R121): MGMT message refusing a handoff, returning the giver to OWNED. -/
  | refuse (t : TxHdr) (sid : U64) (epoch : U32) (code : U16)
  /-- ACK (R121): MGMT message announcing that the receiver is PREPARED. -/
  | ack (t : TxHdr) (sid : U64) (epoch : U32)
  /-- COMMIT (R121): MGMT message from the giver telling the receiver to commit. -/
  | commitHandoff (t : TxHdr) (sid : U64) (epoch : U32)
  /-- COMMITTED (R121): MGMT message from the receiver after it has committed, prompting release. -/
  | committed (t : TxHdr) (sid : U64) (epoch : U32) (handle : U64)
  /-- RELEASED (R121): MGMT message after the giver's release, letting the receiver own the session. -/
  | released (t : TxHdr) (sid : U64) (epoch : U32)
  /-- RESOLVE (R123): MGMT message carrying the arbiter's handoff resolution. -/
  | resolve (t : TxHdr) (sid : U64) (epoch : U32) (receiver : U1) (handle : U64)
  /-- RECORD_QUERY (R360): MGMT request by which the arbiter reads a side's owner record. -/
  | recordQuery (t : TxHdr) (sid : U64)
  /-- RING_CMD (R360): MGMT message carrying a tail command to a ring member or creating a standby. -/
  | ringCmd (t : TxHdr) (o : RingOps)
  /-- POOL_ALLOC (R379): MGMT request allocating a contiguous pool range. -/
  | poolAlloc (t : TxHdr) (units : U64)
  /-- POOL_FREE (R379): MGMT request freeing a pool range owned by the requester. -/
  | poolFree (t : TxHdr) (base : U64)
  /-- POOL_INFO (R360): MGMT request for free and total units of a contribution. -/
  | poolInfo (t : TxHdr)
  /-- LINK_STATE (R378): MGMT record of a member's port adjacency and liveness. -/
  | linkState (t : TxHdr) (ports : List (BitVec 6 × U16 × BitVec 6)) (appliances : List U16)
  /-- IDENTIFY (R360): MGMT request for kind, pool size and subset level. -/
  | identify (t : TxHdr)
  /-- RESP (R361): Response transaction completing an outstanding request. -/
  | resp (t : TxHdr) (status : U16) (data : Bytes)
  /-- DROP (R284): DROP response that schedules re-issue of a metered request. -/
  | drop (t : TxHdr)
  /-- UNSUPPORTED_TRANSACTION (R360): Receipt of a reserved TYPE or OP, answered with E_TARGET_UNSUPPORTED. -/
  | unsupportedTransaction (t : TxHdr) (type op : U8)
  /-- TRANSIT_FORWARD (R364): Forwarding of transit traffic toward its target with HOPS decremented. -/
  | transitForward (t : TxHdr) (dst : U16) (type op : U8) (data : Bytes)
  /-- CANVAS_REPAIR_DONE (R383): Completion of a canvas repair with records rewritten at RGEN + 1. -/
  | canvasRepairDone (index : BitVec 24)
  /-- HANDOFF_LIMIT_EXPIRY (R123): Handoff side waiting longer than HANDOFF_LIMIT and asking the arbiter. -/
  | handoffLimitExpiry (index : BitVec 24)
  /-- ARBITER_RETRY (R124): Arbiter asking again an unreadable side every HANDOFF_LIMIT counts. -/
  | arbiterRetry (sid : U64)
  /-- RING_WAIT_LIMIT_EXPIRY (R172): Results of a layer missing after RING_WAIT_LIMIT, ending the request with E_RING_LOST. -/
  | ringWaitLimitExpiry (index : BitVec 24) (layer : U8) (part : U16)
  /-- TXN_RESEND (R362): Resend of an unanswered request every TXN_LIMIT ÷ 4 counts. -/
  | txnResend (dev : U16) (tag : U32)
  /-- TXN_LIMIT_EXPIRY (R362): Request unanswered after TXN_LIMIT ending with E_DEV_UNREACHABLE. -/
  | txnLimitExpiry (dev : U16) (tag : U32)
  /-- EPOCH_HOLD_EXPIRY (R377): End of holding a request with a newer map epoch, deciding it again. -/
  | epochHoldExpiry (src : U16) (tag : U32)
  /-- MAP_VOTE_TIMEOUT (R373): No majority within TXN_LIMIT, abandoning a map change with E_NO_QUORUM. -/
  | mapVoteTimeout
  /-- LINK_STATE_SEND (R378): Periodic send of a member's LINK_STATE record every 2^20 counts. -/
  | linkStateSend
  /-- LIVE_LIMIT_EXPIRY (R378): Link-state record not refreshed within LIVE_LIMIT, leading to forced removal. -/
  | liveLimitExpiry (dev : U16)
  /-- QOS_HOLDOFF_EXPIRY (R284): Re-issue of a dropped request after QOS_HOLDOFF counts. -/
  | qosHoldoffExpiry (dev : U16) (tag : U32)
  /-- DEADLINE_CHECK (R265): Check every 2^20 counts ending non-Summer requests whose deadline passed. -/
  | deadlineCheck
  /-- CONSENT_EXPIRY (R438): PKC reaching a consent record's EXPIRY, removing it. -/
  | consentExpiry (slice : BitVec 6)
  /-- ZEROIZE_ARM_EXPIRY (R447): Lapse of an ARM not followed by FIRE within 2^20 counts. -/
  | zeroizeArmExpiry
  /-- AUTO_REPORT (R431): Production of an AUTO sealed report after a measurement change. -/
  | autoReport
  /-- COUNTER_SNAPSHOT (R435): Snapshot of coarsened counters at every multiple of 2^20 counts. -/
  | counterSnapshot
  /-- SENSOR_READ (R513): Read of each die's junction sensor every 2^16 counts. -/
  | sensorRead (die : BitVec 5) (celsius : U8)
  /-- THROTTLE_PERIOD (R514): Adjustment of thermal DUTY each 2^20 counts. -/
  | throttlePeriod
  /-- POWER_CAP_PERIOD (R515): Comparison of average power with the cap each 2^20 counts, adjusting DUTY. -/
  | powerCapPeriod (watts : BitVec 12)
  /-- IDLE_ENTRY (R497): Automatic entry into Idle when no engine is busy and nothing waits. -/
  | idleEntry
  /-- DOZE_ENTRY (R497): Entry into Doze after 2^DOZE_LOG2 counts Idle, gating compute clocks. -/
  | dozeEntry
  /-- DOZE_EXIT (R497): Ungating of compute clocks when work needs a compute die. -/
  | dozeExit
  /-- HIBERNATE_ENTRY (R498): Hibernate entry once jobs stop, powering off compute and link dies. -/
  | hibernateEntry
  /-- WAKE_DONE (R500): Completion of wake from Hibernate once every die is measured. -/
  | wakeDone
  /-- THERMAL_RECOVERY (R516): Release of THERMTRIP_N after cooling and optional package reset. -/
  | thermalRecovery
  /-- VIO18_RESTORED (R530): VIO18 rising back above 1.6 V while VAUX12 is present, so PERST_N, PWRGOOD, I3C and JTAG are read live again. -/
  | vio18Restored
  /-- ACK_INTERVAL_EXPIRY (R357): 256 LCLK cycles passing without an acknowledgement, which makes the receiver send ACK_V with ACKSEQ of the last good in-order DATA flit. -/
  | ackIntervalExpiry (port : BitVec 6)
  /-- JTAG_ACCESS (R439): An IEEE 1149.1 instruction or scan through TCK/TMS/TDI that reaches the units that the lifecycle and consent records permit. -/
  | jtagAccess (instr : JtagInstr) (unit : JtagUnit)
  /-- RETRIEVAL_OPERATION_DONE (R323): End of a search, insert, compaction, gather, scatter or migration on a search or gather engine, which frees the engine for the next waiting operation in class order. -/
  | retrievalOperationDone (die : BitVec 3) (gather : U1) (engine : BitVec 2)
  deriving DecidableEq, Repr

end Sys2Proof
end

