-- ==== Sys2Proof/Config.lean ====
section
/-! DEFINITION. What the spec leaves open, as constants without a body: nothing in Lean can evaluate one
or prove a value of it, so a statement holds for every value. The cryptographic functions of R410 are
named by standards outside the spec and stand here too (log entry 2). -/

namespace Sys2Proof

/-- The plaintext byte that gesso, which is zero ciphertext, gives in a protected region under a generation at a physical address
(R309, log entry 103). -/
opaque Config.gessoByte : Nat → Nat → BitVec 8

/-- A free value: the `n`-th value the spec does not state, read at the state's counter of free values
(log entry 1). -/
opaque Config.freeValue : Nat → BitVec 64

/-- How a range, its first row or column and their number, lies in a loop register (R227), which the spec does not state. -/
opaque Config.rangeWord : Nat → Nat → BitVec 32

/-- Where a kernel finds the list of an instance's sessions (R227), which the spec does not state: by slice and sessions. -/
opaque Config.listWord : Nat → List Nat → BitVec 32

/-- SHA3-256 (R410, FIPS 202): uninterpreted. -/
opaque Config.sha3 : Bytes → BitVec 256

/-- KMAC256(K, X, L, S) (R410, SP 800-185): key, data, number of bits, customisation string as its bytes. -/
opaque Config.kmac : Bytes → Bytes → Nat → Bytes → Bytes

/-- ML-DSA-44 verification (R410, FIPS 204): public key, message, signature. -/
opaque Config.mldsaVerify : Bytes → Bytes → Bytes → Bool

/-- ML-DSA-44 signing by the key whose seed is given; the third argument is the DRBG's value that hedges it. -/
opaque Config.mldsaSign : Bytes → Bytes → Nat → Bytes

/-- The ML-DSA-44 public key of a seed. -/
opaque Config.mldsaPublic : Bytes → Bytes

/-- ML-KEM-768 decapsulation (R410, FIPS 203) by the key whose seed is given; none where it fails. -/
opaque Config.kemDecap : Bytes → Bytes → Option Bytes

/-- The ML-KEM-768 public key of a seed. -/
opaque Config.kemPublic : Bytes → Bytes

/-- ML-KEM-768 encapsulation to a public key with a DRBG value: ciphertext and secret. -/
opaque Config.kemEncap : Bytes → Nat → Bytes × Bytes

/-- AES-256-GCM sealing (R410): key, IV, additional data, plaintext; answers ciphertext and 16-byte tag. -/
opaque Config.gcmSeal : Bytes → Bytes → Bytes → Bytes → Bytes × Bytes

/-- AES-256-GCM opening: key, IV, additional data, ciphertext, tag; none where the tag fails. -/
opaque Config.gcmOpen : Bytes → Bytes → Bytes → Bytes → Bytes → Option Bytes

/-- The DRBG's `n`-th output byte string of the given length. -/
opaque Config.drbg : Nat → Nat → Bytes

/-- A fuse field that is fused at manufacture and whose value the spec does not give:
die index, offset in the die's fuse space, size in bytes (R414). -/
opaque Config.fuse : Nat → Nat → Nat → Bytes

/-- The Trelnar firmware public key, whose SHA3-256 the boot ROM holds (R503). -/
opaque Config.firmwareKey : Bytes

/-- The ML-DSA-44 public key of the Trelnar product CA, which signs enrolment tokens (R44). -/
opaque Config.productCaKey : Bytes

/-- The hash of the boot ROM, measurement ROM (R427). -/
opaque Config.romHash : BitVec 256

/-- e^x in FP32 as the attention and sampler engines compute it: the spec bounds the error (R166) and does not fix the
value. -/
opaque Config.exp32 : BitVec 32 → BitVec 32

/-- ln of an FP32 value as the sampler engine computes it for LOGPROB (R254). -/
opaque Config.ln32 : BitVec 32 → BitVec 32

/-- An FP32 sum whose order of additions the spec does not fix (R9, R166). -/
opaque Config.sum32 : List (BitVec 32) → BitVec 32

/-- An FP32 dot product whose order of additions the spec does not fix (R166). -/
opaque Config.dot32 : List (BitVec 32 × BitVec 32) → BitVec 32

/-- A value of an elementary function as an engine computes it, whose error the spec bounds (R201): 0x101 exp, 0x102 reciprocal,
0x103 reciprocal square root, 0x104 sigmoid, 0x105 tanh, 0x106 erf, and, of a frequency and a position as the second operand,
0x107 sine and 0x108 cosine of their product (R163). 0x100 is the length of a vector as the search engine forms it (R329). -/
opaque Config.vector : Nat → List (BitVec 32) → BitVec 32

/-- What a requester knows of an embedding table of another device, by owner device and table number (R347): the spec
does not say how it learns the row length in 64-byte units less one, RFORMAT, ROWS and the default row. -/
opaque Config.remoteTable : Nat → Nat → Nat × Nat × Nat × Bytes

/-- The bytes of a T2 canvas that another device wrote (R126, R382), as this device reads them from the pool by the
canvas's locator: no state of this device. -/
opaque Config.remoteCanvas : Nat → Bytes

/-- The record of page n of a coded canvas at a locator, rebuilt from other fragments (R115): a free value, none where it
fails its hash again. -/
opaque Config.rebuiltPage : Nat → Nat → Option Bytes

/-- What a member of the composition other than this device offers by its own image (R371, R373): the mask of its joined
slices and its pool contribution in 64 KiB units, by device number. -/
opaque Config.memberOffer : Nat → Nat × Nat

/-- What the SPDM challenge of another member shows before SEAL_KEY (R376, R423), by device number: its DEVICE_ID, its device
KEM public key, and whether every die is MEASURED and its MODULE is APPROVED. -/
opaque Config.peerAttest : Nat → BitVec 256 × Bytes × Bool

/-- The record of TYPE 3 of a checkpoint's metadata, the device's registries in its own form (R390): by slice and checkpoint
number. -/
opaque Config.ckRegistries : Nat → Nat → Bytes

end Sys2Proof
end

