-- ==== Sys2Proof/Machine/Codes.lean ====
section
/-! DEFINITION. The error codes of the device (R474), each with the number the index gives it. -/

namespace Sys2Proof.Machine

/-- Status 0x0000: success (R474). -/
def eOk : Nat := 0x0000

/-- E_ABORTED. -/
def eAborted : Nat := 0x0001
/-- E_HOST_READ. -/
def eHostRead : Nat := 0x0002
/-- E_HOST_WRITE. -/
def eHostWrite : Nat := 0x0003
/-- E_PRIV. -/
def ePriv : Nat := 0x0004
/-- E_NOT_SUPPORTED. -/
def eNotSupported : Nat := 0x0005
/-- E_DEVICE_FAULT. -/
def eDeviceFault : Nat := 0x0006
/-- E_PATH_DOWN. -/
def ePathDown : Nat := 0x0007
/-- E_BAD_OPCODE. -/
def eBadOpcode : Nat := 0x0101
/-- E_BAD_QUEUE. -/
def eBadQueue : Nat := 0x0102
/-- E_RESERVED_SET. -/
def eReservedSet : Nat := 0x0103
/-- E_BAD_UNIT. -/
def eBadUnit : Nat := 0x0104
/-- E_BAD_LENGTH. -/
def eBadLength : Nat := 0x0105
/-- E_QUEUE_PARAM. -/
def eQueueParam : Nat := 0x0106
/-- E_QUEUE_EXISTS. -/
def eQueueExists : Nat := 0x0107
/-- E_CQ_BUSY. -/
def eCqBusy : Nat := 0x0108
/-- E_BAD_HANDLE. -/
def eBadHandle : Nat := 0x0201
/-- E_STALE_HANDLE. -/
def eStaleHandle : Nat := 0x0202
/-- E_SEASON. -/
def eSeason : Nat := 0x0203
/-- E_SESSION_BUSY. -/
def eSessionBusy : Nat := 0x0204
/-- E_SESSION_PARAM. -/
def eSessionParam : Nat := 0x0205
/-- E_TABLE_FULL. -/
def eTableFull : Nat := 0x0206
/-- E_SESSION_CLOSING. -/
def eSessionClosing : Nat := 0x0207
/-- E_REQ_FULL. -/
def eReqFull : Nat := 0x0208
/-- E_REQ_ACTIVE. -/
def eReqActive : Nat := 0x0209
/-- E_FORK_LIMIT. -/
def eForkLimit : Nat := 0x020A
/-- E_NOT_TAIL. -/
def eNotTail : Nat := 0x020B
/-- E_NO_MIRROR. -/
def eNoMirror : Nat := 0x020C
/-- E_STALE_OWNER. -/
def eStaleOwner : Nat := 0x020D
/-- E_EPOCH_LIMIT. -/
def eEpochLimit : Nat := 0x020E
/-- E_PARK_CANCELLED. -/
def eParkCancelled : Nat := 0x020F
/-- E_SESSION_RESET. -/
def eSessionReset : Nat := 0x0210
/-- E_SESSION_CLOSED. -/
def eSessionClosed : Nat := 0x0211
/-- E_DUP_SESSION_ID. -/
def eDupSessionId : Nat := 0x0212
/-- E_NO_PALETTE. -/
def eNoPalette : Nat := 0x0213
/-- E_NO_WINDOW. -/
def eNoWindow : Nat := 0x0214
/-- E_DUP_REQUEST. -/
def eDupRequest : Nat := 0x0215
/-- E_CANVAS_FORMAT. -/
def eCanvasFormat : Nat := 0x0216
/-- E_CANVAS_HASH. -/
def eCanvasHash : Nat := 0x0217
/-- E_CANVAS_MODEL. -/
def eCanvasModel : Nat := 0x0218
/-- E_CANVAS_SEAL. -/
def eCanvasSeal : Nat := 0x0219
/-- E_NO_WINTER_ROOM. -/
def eNoWinterRoom : Nat := 0x021A
/-- E_CANVAS_TARGET. -/
def eCanvasTarget : Nat := 0x021B
/-- E_THAW_NO_ROOM. -/
def eThawNoRoom : Nat := 0x021C
/-- E_HANDOFF_ABORTED. -/
def eHandoffAborted : Nat := 0x021D
/-- E_CANVAS_LEN. -/
def eCanvasLen : Nat := 0x021E
/-- E_RING_LIMIT. -/
def eRingLimit : Nat := 0x021F
/-- E_RING_MEMBER. -/
def eRingMember : Nat := 0x0220
/-- E_PALETTE_BUSY. -/
def ePaletteBusy : Nat := 0x0221
/-- E_PALETTE_DUP. -/
def ePaletteDup : Nat := 0x0222
/-- E_PALETTE_FULL. -/
def ePaletteFull : Nat := 0x0223
/-- E_RING_LOST. -/
def eRingLost : Nat := 0x0224
/-- E_PALETTE_PARAM. -/
def ePaletteParam : Nat := 0x0225
/-- E_KV_FULL. -/
def eKvFull : Nat := 0x0301
/-- E_SEQ_LIMIT. -/
def eSeqLimit : Nat := 0x0302
/-- E_XLATE. -/
def eXlate : Nat := 0x0303
/-- E_WRITE_PROT. -/
def eWriteProt : Nat := 0x0304
/-- E_BAD_TRING. -/
def eBadTring : Nat := 0x0401
/-- E_TRING_BUSY. -/
def eTringBusy : Nat := 0x0402
/-- E_SAMPLER_PARAM. -/
def eSamplerParam : Nat := 0x0403
/-- E_DEADLINE_PAST. -/
def eDeadlinePast : Nat := 0x0404
/-- E_DEADLINE. -/
def eDeadline : Nat := 0x0405
/-- E_CANCELLED. -/
def eCancelled : Nat := 0x0406
/-- E_ALREADY_DONE. -/
def eAlreadyDone : Nat := 0x0407
/-- E_NO_REQUEST. -/
def eNoRequest : Nat := 0x0408
/-- E_BAD_TOKEN. -/
def eBadToken : Nat := 0x0409
/-- E_INPUT_FAULT. -/
def eInputFault : Nat := 0x040A
/-- E_BAD_LOGITS. -/
def eBadLogits : Nat := 0x040B
/-- E_TRING_PARAM. -/
def eTringParam : Nat := 0x040C
/-- E_TRING_EXISTS. -/
def eTringExists : Nat := 0x040D
/-- E_TRING_LIMIT. -/
def eTringLimit : Nat := 0x040E
/-- E_SERVE_PARAM. -/
def eServeParam : Nat := 0x040F
/-- E_JOB_ACTIVE. -/
def eJobActive : Nat := 0x0430
/-- E_NO_JOB. -/
def eNoJob : Nat := 0x0431
/-- E_JOB_PROGRAM. -/
def eJobProgram : Nat := 0x0432
/-- E_JOB_WEIGHTS. -/
def eJobWeights : Nat := 0x0433
/-- E_KERNEL_FAULT. -/
def eKernelFault : Nat := 0x0434
/-- E_QOS_PARAM. -/
def eQosParam : Nat := 0x0440
/-- E_METER_DROP. -/
def eMeterDrop : Nat := 0x0441
/-- E_TIER_PARAM. -/
def eTierParam : Nat := 0x0501
/-- E_TIER_MODE. -/
def eTierMode : Nat := 0x0502
/-- E_TIER_FULL. -/
def eTierFull : Nat := 0x0503
/-- E_VA_BUSY. -/
def eVaBusy : Nat := 0x0504
/-- E_NO_OBJECT. -/
def eNoObject : Nat := 0x0505
/-- E_OBJECT_BUSY. -/
def eObjectBusy : Nat := 0x0506
/-- E_TIER_PROT. -/
def eTierProt : Nat := 0x0507
/-- E_MEM_POISON. -/
def eMemPoison : Nat := 0x0508
/-- E_POOL_LOST. -/
def ePoolLost : Nat := 0x0509
/-- E_NO_INDEX. -/
def eNoIndex : Nat := 0x0601
/-- E_INDEX_PARAM. -/
def eIndexParam : Nat := 0x0602
/-- E_INDEX_EXISTS. -/
def eIndexExists : Nat := 0x0603
/-- E_INDEX_FULL. -/
def eIndexFull : Nat := 0x0604
/-- E_VECTOR_EXISTS. -/
def eVectorExists : Nat := 0x0605
/-- E_NO_VECTOR. -/
def eNoVector : Nat := 0x0606
/-- E_SEARCH_PARAM. -/
def eSearchParam : Nat := 0x0607
/-- E_CURSOR_STALE. -/
def eCursorStale : Nat := 0x0608
/-- E_NO_TABLE. -/
def eNoTable : Nat := 0x0609
/-- E_TABLE_PARAM. -/
def eTableParam : Nat := 0x060A
/-- E_TABLE_EXISTS. -/
def eTableExists : Nat := 0x060B
/-- E_ROW_FORMAT. -/
def eRowFormat : Nat := 0x060C
/-- E_HOT_PARAM. -/
def eHotParam : Nat := 0x060D
/-- E_VERSION_BUSY. -/
def eVersionBusy : Nat := 0x060E
/-- E_NO_VERSION. -/
def eNoVersion : Nat := 0x060F
/-- E_RET_HOST. -/
def eRetHost : Nat := 0x0610
/-- E_INDEX_LIMIT. -/
def eIndexLimit : Nat := 0x0611
/-- E_TABLE_LIMIT. -/
def eTableLimit : Nat := 0x0612
/-- E_LINK_DOWN. -/
def eLinkDown : Nat := 0x0701
/-- E_LINK_AUTH. -/
def eLinkAuth : Nat := 0x0702
/-- E_STALE_MAP. -/
def eStaleMap : Nat := 0x0703
/-- E_NOT_MEMBER. -/
def eNotMember : Nat := 0x0704
/-- E_NO_QUORUM. -/
def eNoQuorum : Nat := 0x0705
/-- E_COMP_PARAM. -/
def eCompParam : Nat := 0x0706
/-- E_COMP_BUSY. -/
def eCompBusy : Nat := 0x0707
/-- E_DEV_UNREACHABLE. -/
def eDevUnreachable : Nat := 0x0708
/-- E_TARGET_UNSUPPORTED. -/
def eTargetUnsupported : Nat := 0x0709
/-- E_HOP_LIMIT. -/
def eHopLimit : Nat := 0x070A
/-- E_CANVAS_LOST. -/
def eCanvasLost : Nat := 0x070B
/-- E_MAP_EPOCH_LIMIT. -/
def eMapEpochLimit : Nat := 0x070C
/-- E_COMP_PRIV. -/
def eCompPriv : Nat := 0x070D
/-- E_CKPT_NO_TARGET. -/
def eCkptNoTarget : Nat := 0x0801
/-- E_CKPT_TARGET. -/
def eCkptTarget : Nat := 0x0802
/-- E_CKPT_BUSY. -/
def eCkptBusy : Nat := 0x0803
/-- E_CKPT_NONE. -/
def eCkptNone : Nat := 0x0804
/-- E_CKPT_SHAPE. -/
def eCkptShape : Nat := 0x0805
/-- E_CKPT_HASH. -/
def eCkptHash : Nat := 0x0806
/-- E_CKPT_SEAL. -/
def eCkptSeal : Nat := 0x0807
/-- E_CKPT_ABORTED. -/
def eCkptAborted : Nat := 0x0808
/-- E_CKPT_PARAM. -/
def eCkptParam : Nat := 0x0809
/-- E_CKPT_JOB. -/
def eCkptJob : Nat := 0x080A
/-- E_NOT_MEASURED. -/
def eNotMeasured : Nat := 0x0901
/-- E_GEN_IN_USE. -/
def eGenInUse : Nat := 0x0902
/-- E_GEN_RETIRED. -/
def eGenRetired : Nat := 0x0903
/-- E_GEN_EXHAUSTED. -/
def eGenExhausted : Nat := 0x0904
/-- E_KEYGEN_BUSY. -/
def eKeygenBusy : Nat := 0x0905
/-- E_KEY_UNWRAP. -/
def eKeyUnwrap : Nat := 0x0906
/-- E_MEAS_MISMATCH. -/
def eMeasMismatch : Nat := 0x0907
/-- E_RELEASE_STALE. -/
def eReleaseStale : Nat := 0x0908
/-- E_NOT_BOUND. -/
def eNotBound : Nat := 0x0909
/-- E_KEY_POLICY. -/
def eKeyPolicy : Nat := 0x090A
/-- E_CONSENT_DENIED. -/
def eConsentDenied : Nat := 0x090B
/-- E_CONSENT_INVALID. -/
def eConsentInvalid : Nat := 0x090C
/-- E_WEIGHT_AUTH. -/
def eWeightAuth : Nat := 0x090D
/-- E_NO_KEY. -/
def eNoKey : Nat := 0x090E
/-- E_CRYPTO_ERROR. -/
def eCryptoError : Nat := 0x090F
/-- E_SEC_PRIV. -/
def eSecPriv : Nat := 0x0910
/-- E_SEC_PARAM. -/
def eSecParam : Nat := 0x0911
/-- E_SEC_HOST. -/
def eSecHost : Nat := 0x0912
/-- E_IMG_FORMAT. -/
def eImgFormat : Nat := 0x0A01
/-- E_IMG_HASH. -/
def eImgHash : Nat := 0x0A02
/-- E_IMG_SIGNATURE. -/
def eImgSignature : Nat := 0x0A03
/-- E_IMG_AUTHOR. -/
def eImgAuthor : Nat := 0x0A04
/-- E_IMG_ROLLBACK. -/
def eImgRollback : Nat := 0x0A05
/-- E_IMG_PART. -/
def eImgPart : Nat := 0x0A06
/-- E_IMG_OVERLAP. -/
def eImgOverlap : Nat := 0x0A07
/-- E_IMG_RESOURCE. -/
def eImgResource : Nat := 0x0A08
/-- E_IMG_POLICY. -/
def eImgPolicy : Nat := 0x0A09
/-- E_IMG_KERNEL. -/
def eImgKernel : Nat := 0x0A0A
/-- E_IMG_BASE. -/
def eImgBase : Nat := 0x0A0B
/-- E_IMG_SLICE_BUSY. -/
def eImgSliceBusy : Nat := 0x0A0C
/-- E_IMG_BUSY. -/
def eImgBusy : Nat := 0x0A0D
/-- E_IMG_LOCKED. -/
def eImgLocked : Nat := 0x0A0E
/-- E_IMG_PRIV. -/
def eImgPriv : Nat := 0x0A0F
/-- E_IMG_ABORTED. -/
def eImgAborted : Nat := 0x0A10
/-- E_NO_IMAGE. -/
def eNoImage : Nat := 0x0A11
/-- E_IMG_ENROL. -/
def eImgEnrol : Nat := 0x0A12
/-- E_IMG_SLOTS_FULL. -/
def eImgSlotsFull : Nat := 0x0A13
/-- E_POWER_STATE. -/
def ePowerState : Nat := 0x0B01
/-- E_FW_IMAGE. -/
def eFwImage : Nat := 0x0B02
/-- E_FW_ROLLBACK. -/
def eFwRollback : Nat := 0x0B03
/-- E_FW_BUSY. -/
def eFwBusy : Nat := 0x0B04
/-- E_THERMAL. -/
def eThermal : Nat := 0x0B05

end Sys2Proof.Machine
end

