-- ==== Sys2Proof/Machine/RegTable.lean ====
section
/-! DEFINITION. The register map: the blocks of R477 and R478, every register of the table *Register index*
(R489) with the field map of its own chapter: bits, access code (R5), reset value and reset class (R6). -/

namespace Sys2Proof.Machine

/-- The access codes of R5. -/
inductive AccessCode where
  | ro | rw | rw1c | wo | rwl | rws
  deriving DecidableEq, Repr

/-- The reset classes of R6. -/
inductive Cls where
  | k | p | w | d | l | v | f
  deriving DecidableEq, Repr

/-- The register blocks of R477 and R478. -/
inductive Block where
  | glb | clk | img | sess | cnv | kv | att | arith | job | serve | mem | ret | comp | ckpt | sec | host | qos | rst | err | evc | thm | mc | ce | cs | port
  deriving DecidableEq, Repr

/-- One field of a register: lowest bit, width, access, reset value, class, whether the running image gives its
value (R55), and whether it is coarsened in confidential slices (R435). -/
structure Field where
  lo : Nat
  width : Nat
  acc : AccessCode
  rst : Nat
  cls : Cls
  img : Bool
  coarse : Bool
  deriving DecidableEq, Repr

/-- One row of the register index: block, whether its offset lies within a group, offset, how many registers the
row stands for and their stride, whether it is wedge-proof (R488), and its fields. -/
structure RegRow where
  block : Block
  grouped : Bool
  off : Nat
  count : Nat
  stride : Nat
  wedge : Bool
  fields : List Field
  deriving DecidableEq, Repr

/-- Every register of R489. -/
inductive Reg where
  | aqCfg | aqCqBaseLo | aqCqBaseHi | aqSqBaseLo | aqSqBaseHi | arithNan | arithOvf | attSkipped
  | authFail | badIndex | bar4BaseLo | bar4BaseHi | bar4Slice | beYields | ceBytesLo | ceBytesHi
  | ceHashFail | ceParks | cePrioCopies | ceStatus | ceThaws | ckptAbandoned | ckptCommitted | ckptDeferred
  | ckptLastLo | ckptLastHi | ckptPkcIntervalLo | ckptPkcIntervalHi | ckptPrioCopies | ckptStatus | ckptStepIntervalLo | ckptStepIntervalHi
  | ckptTargetLo | ckptTargetHi | clkLock | clkLoss | cmdRejects | compDev | compIdLo | compIdHi
  | coreBusy | crcFail | csCe | csSpare | csUe | dbIgnored | dedupDiscards | dedupHits
  | devId | devMap | draftsAccepted | dropRetries | egrQmap | egrWeight0 | egrWeight1 | eqLost
  | errlogCtrl | errlogHead | errlogTail | errlogWindow | evcCount | evcSel | fecCorr | fecUncorr
  | forwarded | fwStatus | glbGen | glbLock | handoffLimitLo | handoffLimitHi | handoffResolved | heldLimit
  | hostStatus | hotEvery | hotMigrations | imgCtrl | imgHash | imgIdLo | imgIdHi | imgStaged
  | imgStatus | imgSvn | jobCores | jobStatus | jobStepLo | jobStepHi | kfaultCnt | kvCfg
  | kvCowCopies | kvFreeLo | kvFreeHi | kvFullEnds | kvNopageHolds | kvReserveHit | kvReserveMiss | kvWindows
  | kvXlateFaults | lastKfault | lateEnds | liveLimitLo | liveLimitHi | mapEpoch | mcCe0 | mcCe1
  | mcEccCtrl | mcGessoPend | mcLastUeLo | mcLastUeHi | mcPatrolLo | mcPatrolHi | mcPoison0 | mcPoison1
  | mcUe0 | mcUe1 | memEvicts | memFetches | memFetchFree | memPoisonReads | memPoolLost | memT1Free
  | memT2Used | memTier | mtrBurst | mtrCir | mtrPir | mtrRedDrop | mtrRedLc | mtrSel
  | mtrYellowDrop | ownParks | ownParkFail | packIllegal | palEntries | palUnits | pcieLink | pkcLo
  | pkcHi | pkgPower | pkgTemp | placeWaits | portCtrl | portStatus | psBounds | psChanges
  | psState | pwrCap | pwrState | qosErr | qosHoldoff | regAccErr | regAccLast | regBorrows
  | regCeCfg | regCeRate | regHbmCfg | regHbmRate | regLinkCfg | regLinkRate | reissues | rekeys
  | repairs | replays | retCount | retPoison | ringFullHolds | ringHandovers | ringLost | ringStale
  | ringWaitLimitLo | ringWaitLimitHi | rstCause | rstCtrl | satCount | satCtrl | satDemote | satPromote
  | satSel | satState | scatterConflicts | searches | secFuseWindow | secGen | secGenFramesLo | secGenFramesHi
  | secGenSel | secReport | secSelftest | secSlice | secStatus | secSweep | secZeroize | serveBatch
  | serveChunk | serveErr | serveSpec | sessCntAutumn | sessCntOther | sessCntSummer | sessCntWinter | sessIdleLimitLo
  | sessIdleLimitHi | sessLost | sessPolicy | shortResults | sliceDef | staleMapSent | staleOwnerCnt | stopToken
  | thermCtrl | thermStatus | tokensOut | tringBadCredit | txnLimitLo | txnLimitHi
  deriving DecidableEq, Repr

/-- The row of a register (the field map stands in the chapter that owns its block). -/
def Reg.row : Reg → RegRow
  -- AQ_CFG: ENABLE, VECTOR, CQ_LOG2, SQ_LOG2
  | .aqCfg => ⟨.host, true, 0x10, 1, 0, false,
      [⟨31, 1, .rw, 0x0, .v, false, false⟩, ⟨16, 11, .rw, 0x0, .v, false, false⟩, ⟨8, 4, .rw, 0x4, .v, false, false⟩, ⟨0, 4, .rw, 0x4, .v, false, false⟩]⟩
  -- AQ_CQ_BASE_LO: ADDR
  | .aqCqBaseLo => ⟨.host, true, 0x8, 1, 0, false,
      [⟨0, 32, .rw, 0x0, .v, false, false⟩]⟩
  -- AQ_CQ_BASE_HI: ADDR
  | .aqCqBaseHi => ⟨.host, true, 0xc, 1, 0, false,
      [⟨0, 32, .rw, 0x0, .v, false, false⟩]⟩
  -- AQ_SQ_BASE_LO: ADDR
  | .aqSqBaseLo => ⟨.host, true, 0x0, 1, 0, false,
      [⟨0, 32, .rw, 0x0, .v, false, false⟩]⟩
  -- AQ_SQ_BASE_HI: ADDR
  | .aqSqBaseHi => ⟨.host, true, 0x4, 1, 0, false,
      [⟨0, 32, .rw, 0x0, .v, false, false⟩]⟩
  -- ARITH_NAN: COUNT
  | .arithNan => ⟨.arith, false, 0x1000, 1, 0, false,
      [⟨0, 32, .rw1c, 0x0, .p, false, false⟩]⟩
  -- ARITH_OVF: COUNT
  | .arithOvf => ⟨.arith, false, 0x1004, 1, 0, false,
      [⟨0, 32, .rw1c, 0x0, .p, false, false⟩]⟩
  -- ATT_SKIPPED: COUNT
  | .attSkipped => ⟨.att, true, 0x8, 1, 0, false,
      [⟨0, 32, .rw1c, 0x0, .l, false, false⟩]⟩
  -- AUTH_FAIL: COUNT
  | .authFail => ⟨.port, true, 0x18, 1, 0, false,
      [⟨0, 32, .rw1c, 0x0, .d, false, false⟩]⟩
  -- BAD_INDEX: COUNT
  | .badIndex => ⟨.ret, true, 0x10, 1, 0, false,
      [⟨0, 32, .rw1c, 0x0, .l, false, true⟩]⟩
  -- BAR4_BASE_LO: VA
  | .bar4BaseLo => ⟨.host, true, 0x18, 1, 0, false,
      [⟨0, 32, .rw, 0x0, .v, false, false⟩]⟩
  -- BAR4_BASE_HI: VA
  | .bar4BaseHi => ⟨.host, true, 0x1c, 1, 0, false,
      [⟨0, 32, .rw, 0x0, .v, false, false⟩]⟩
  -- BAR4_SLICE: SLICE
  | .bar4Slice => ⟨.host, true, 0x20, 1, 0, false,
      [⟨0, 6, .rw, 0x0, .v, false, false⟩]⟩
  -- BE_YIELDS: COUNT
  | .beYields => ⟨.job, true, 0x14, 1, 0, false,
      [⟨0, 32, .rw1c, 0x0, .l, false, true⟩]⟩
  -- CE_BYTES_LO: BYTES
  | .ceBytesLo => ⟨.ce, false, 0x14, 1, 0, false,
      [⟨0, 32, .ro, 0x0, .d, false, false⟩]⟩
  -- CE_BYTES_HI: BYTES
  | .ceBytesHi => ⟨.ce, false, 0x18, 1, 0, false,
      [⟨0, 32, .ro, 0x0, .d, false, false⟩]⟩
  -- CE_HASH_FAIL: COUNT
  | .ceHashFail => ⟨.ce, false, 0xc, 1, 0, false,
      [⟨0, 32, .rw1c, 0x0, .d, false, false⟩]⟩
  -- CE_PARKS: COUNT
  | .ceParks => ⟨.ce, false, 0x4, 1, 0, false,
      [⟨0, 32, .rw1c, 0x0, .d, false, false⟩]⟩
  -- CE_PRIO_COPIES: COUNT
  | .cePrioCopies => ⟨.ce, false, 0x10, 1, 0, false,
      [⟨0, 32, .rw1c, 0x0, .d, false, false⟩]⟩
  -- CE_STATUS: LC_ACTIVE, BUSY
  | .ceStatus => ⟨.ce, false, 0x0, 1, 0, false,
      [⟨8, 8, .ro, 0x0, .d, false, false⟩, ⟨0, 8, .ro, 0x0, .d, false, false⟩]⟩
  -- CE_THAWS: COUNT
  | .ceThaws => ⟨.ce, false, 0x8, 1, 0, false,
      [⟨0, 32, .rw1c, 0x0, .d, false, false⟩]⟩
  -- CKPT_ABANDONED: COUNT
  | .ckptAbandoned => ⟨.ckpt, true, 0x28, 1, 0, false,
      [⟨0, 32, .rw1c, 0x0, .l, false, true⟩]⟩
  -- CKPT_COMMITTED: COUNT
  | .ckptCommitted => ⟨.ckpt, true, 0x24, 1, 0, false,
      [⟨0, 32, .rw1c, 0x0, .l, false, true⟩]⟩
  -- CKPT_DEFERRED: COUNT
  | .ckptDeferred => ⟨.ckpt, true, 0x2c, 1, 0, false,
      [⟨0, 32, .rw1c, 0x0, .l, false, true⟩]⟩
  -- CKPT_LAST_LO: VALUE
  | .ckptLastLo => ⟨.ckpt, true, 0x14, 1, 0, false,
      [⟨0, 32, .ro, 0x0, .k, false, false⟩]⟩
  -- CKPT_LAST_HI: VALUE
  | .ckptLastHi => ⟨.ckpt, true, 0x18, 1, 0, false,
      [⟨0, 32, .ro, 0x0, .k, false, false⟩]⟩
  -- CKPT_PKC_INTERVAL_LO: INTERVAL
  | .ckptPkcIntervalLo => ⟨.ckpt, true, 0x0, 1, 0, false,
      [⟨0, 32, .rw, 0x0, .l, true, false⟩]⟩
  -- CKPT_PKC_INTERVAL_HI: INTERVAL
  | .ckptPkcIntervalHi => ⟨.ckpt, true, 0x4, 1, 0, false,
      [⟨0, 32, .rw, 0x0, .l, true, false⟩]⟩
  -- CKPT_PRIO_COPIES: COUNT
  | .ckptPrioCopies => ⟨.ckpt, true, 0x30, 1, 0, false,
      [⟨0, 32, .rw1c, 0x0, .l, false, true⟩]⟩
  -- CKPT_STATUS: LAST_ERR, IN_FLIGHT, STAGING, NOW_PENDING
  | .ckptStatus => ⟨.ckpt, true, 0x10, 1, 0, false,
      [⟨16, 16, .ro, 0x0, .l, false, false⟩, ⟨2, 2, .ro, 0x0, .l, false, false⟩, ⟨1, 1, .ro, 0x0, .l, false, false⟩, ⟨0, 1, .ro, 0x0, .l, false, false⟩]⟩
  -- CKPT_STEP_INTERVAL_LO: INTERVAL
  | .ckptStepIntervalLo => ⟨.ckpt, true, 0x8, 1, 0, false,
      [⟨0, 32, .rw, 0x0, .l, true, false⟩]⟩
  -- CKPT_STEP_INTERVAL_HI: INTERVAL
  | .ckptStepIntervalHi => ⟨.ckpt, true, 0xc, 1, 0, false,
      [⟨0, 32, .rw, 0x0, .l, true, false⟩]⟩
  -- CKPT_TARGET_LO: VALUE
  | .ckptTargetLo => ⟨.ckpt, true, 0x1c, 1, 0, false,
      [⟨0, 32, .ro, 0x0, .k, false, false⟩]⟩
  -- CKPT_TARGET_HI: VALUE
  | .ckptTargetHi => ⟨.ckpt, true, 0x20, 1, 0, false,
      [⟨0, 32, .ro, 0x0, .k, false, false⟩]⟩
  -- CLK_LOCK: PCIE_LOCK, DIE_LOCK
  | .clkLock => ⟨.clk, false, 0x8, 1, 0, false,
      [⟨20, 1, .ro, 0x0, .p, false, false⟩, ⟨0, 20, .ro, 0x0, .p, false, false⟩]⟩
  -- CLK_LOSS: PCIE_LOSS, DIE_LOSS
  | .clkLoss => ⟨.clk, false, 0xc, 1, 0, false,
      [⟨20, 1, .rw1c, 0x0, .k, false, false⟩, ⟨0, 20, .rw1c, 0x0, .k, false, false⟩]⟩
  -- CMD_REJECTS: COUNT
  | .cmdRejects => ⟨.host, true, 0x24, 1, 0, false,
      [⟨0, 32, .rw1c, 0x0, .v, false, false⟩]⟩
  -- COMP_DEV: ROLE, DEVICE
  | .compDev => ⟨.comp, false, 0x8, 1, 0, false,
      [⟨16, 3, .ro, 0x0, .w, false, false⟩, ⟨0, 16, .ro, 0xffff, .w, false, false⟩]⟩
  -- COMP_ID_LO: ID
  | .compIdLo => ⟨.comp, false, 0x0, 1, 0, false,
      [⟨0, 32, .ro, 0x0, .w, false, false⟩]⟩
  -- COMP_ID_HI: ID
  | .compIdHi => ⟨.comp, false, 0x4, 1, 0, false,
      [⟨0, 32, .ro, 0x0, .w, false, false⟩]⟩
  -- CORE_BUSY: BUSY
  | .coreBusy => ⟨.job, false, 0x1000, 16, 4, false,
      [⟨0, 32, .ro, 0x0, .d, false, false⟩]⟩
  -- CRC_FAIL: COUNT
  | .crcFail => ⟨.port, true, 0x10, 1, 0, false,
      [⟨0, 32, .rw1c, 0x0, .d, false, false⟩]⟩
  -- CS_CE: COUNT
  | .csCe => ⟨.cs, false, 0x0, 1, 0, false,
      [⟨0, 32, .rw1c, 0x0, .d, false, false⟩]⟩
  -- CS_SPARE: THRESH, USED
  | .csSpare => ⟨.cs, false, 0x8, 1, 0, false,
      [⟨16, 8, .rw, 0x4, .d, false, false⟩, ⟨0, 9, .ro, 0x0, .d, false, false⟩]⟩
  -- CS_UE: COUNT
  | .csUe => ⟨.cs, false, 0x4, 1, 0, false,
      [⟨0, 32, .rw1c, 0x0, .d, false, false⟩]⟩
  -- DB_IGNORED: COUNT
  | .dbIgnored => ⟨.host, true, 0x28, 1, 0, false,
      [⟨0, 32, .rw1c, 0x0, .v, false, false⟩]⟩
  -- DEDUP_DISCARDS: COUNT
  | .dedupDiscards => ⟨.comp, false, 0x30, 1, 0, false,
      [⟨0, 32, .rw1c, 0x0, .p, false, false⟩]⟩
  -- DEDUP_HITS: COUNT
  | .dedupHits => ⟨.comp, false, 0x2c, 1, 0, false,
      [⟨0, 32, .rw1c, 0x0, .p, false, false⟩]⟩
  -- DEV_ID: PART, STEPPING
  | .devId => ⟨.glb, false, 0x0, 1, 0, false,
      [⟨16, 16, .ro, 0x5200, .f, false, false⟩, ⟨0, 8, .ro, 0xb0, .f, false, false⟩]⟩
  -- DEV_MAP: MAP_VERSION
  | .devMap => ⟨.glb, false, 0x4, 1, 0, false,
      [⟨0, 8, .ro, 0x1, .f, false, false⟩]⟩
  -- DRAFTS_ACCEPTED: COUNT
  | .draftsAccepted => ⟨.serve, true, 0x30, 1, 0, false,
      [⟨0, 32, .rw1c, 0x0, .l, false, true⟩]⟩
  -- DROP_RETRIES: COUNT
  | .dropRetries => ⟨.qos, true, 0x6c, 1, 0, false,
      [⟨0, 32, .rw1c, 0x0, .l, false, true⟩]⟩
  -- EGR_QMAP: QUEUE
  | .egrQmap => ⟨.qos, true, 0x50, 1, 0, false,
      [⟨0, 18, .rw, 0x2c688, .l, true, false⟩]⟩
  -- EGR_WEIGHT0: WEIGHT
  | .egrWeight0 => ⟨.qos, true, 0x54, 1, 0, false,
      [⟨0, 32, .rw, 0x1010101, .l, true, false⟩]⟩
  -- EGR_WEIGHT1: WEIGHT
  | .egrWeight1 => ⟨.qos, true, 0x58, 1, 0, false,
      [⟨0, 32, .rw, 0x1010101, .l, true, false⟩]⟩
  -- EQ_LOST: COUNT
  | .eqLost => ⟨.host, true, 0x2c, 1, 0, false,
      [⟨0, 32, .rw1c, 0x0, .v, false, false⟩]⟩
  -- ERRLOG_CTRL: OVERFLOW, CONSUME, PAGE
  | .errlogCtrl => ⟨.err, false, 0x8, 1, 0, true,
      [⟨16, 8, .rw1c, 0x0, .k, false, false⟩, ⟨4, 1, .wo, 0x0, .k, false, false⟩, ⟨0, 4, .rw, 0x0, .k, false, false⟩]⟩
  -- ERRLOG_HEAD: SEQ
  | .errlogHead => ⟨.err, false, 0x0, 1, 0, true,
      [⟨0, 32, .ro, 0x0, .k, false, false⟩]⟩
  -- ERRLOG_TAIL: SEQ
  | .errlogTail => ⟨.err, false, 0x4, 1, 0, true,
      [⟨0, 32, .ro, 0x0, .k, false, false⟩]⟩
  -- ERRLOG_WINDOW: DATA
  | .errlogWindow => ⟨.err, false, 0x1000, 1024, 4, true,
      [⟨0, 32, .ro, 0x0, .k, false, false⟩]⟩
  -- EVC_COUNT: COUNT
  | .evcCount => ⟨.evc, true, 0x4, 16, 8, false,
      [⟨0, 32, .rw1c, 0x0, .l, false, true⟩]⟩
  -- EVC_SEL: FILTER, SOURCE
  | .evcSel => ⟨.evc, true, 0x0, 16, 8, false,
      [⟨8, 8, .rw, 0xff, .l, true, false⟩, ⟨0, 8, .rw, 0x0, .l, true, false⟩]⟩
  -- FEC_CORR: COUNT
  | .fecCorr => ⟨.port, true, 0x8, 1, 0, false,
      [⟨0, 32, .rw1c, 0x0, .d, false, false⟩]⟩
  -- FEC_UNCORR: COUNT
  | .fecUncorr => ⟨.port, true, 0xc, 1, 0, false,
      [⟨0, 32, .rw1c, 0x0, .d, false, false⟩]⟩
  -- FORWARDED: COUNT
  | .forwarded => ⟨.comp, false, 0x24, 1, 0, false,
      [⟨0, 32, .rw1c, 0x0, .p, false, false⟩]⟩
  -- FW_STATUS: SVN, RECOVERY, FALLBACK, TRIAL, PENDING, SLOT
  | .fwStatus => ⟨.rst, false, 0xc, 1, 0, false,
      [⟨16, 16, .ro, 0x0, .p, false, false⟩, ⟨7, 1, .ro, 0x0, .p, false, false⟩, ⟨3, 1, .ro, 0x0, .k, false, false⟩, ⟨2, 1, .ro, 0x0, .p, false, false⟩, ⟨1, 1, .ro, 0x0, .p, false, false⟩, ⟨0, 1, .ro, 0x0, .p, false, false⟩]⟩
  -- GLB_GEN: GEN
  | .glbGen => ⟨.glb, false, 0xc, 1, 0, false,
      [⟨0, 32, .ro, 0x0, .w, false, false⟩]⟩
  -- GLB_LOCK: LOCK
  | .glbLock => ⟨.glb, false, 0x8, 1, 0, false,
      [⟨0, 1, .rws, 0x0, .w, false, false⟩]⟩
  -- HANDOFF_LIMIT_LO: LIMIT
  | .handoffLimitLo => ⟨.cnv, false, 0x0, 1, 0, false,
      [⟨0, 32, .rw, 0x8000000, .w, false, false⟩]⟩
  -- HANDOFF_LIMIT_HI: LIMIT
  | .handoffLimitHi => ⟨.cnv, false, 0x4, 1, 0, false,
      [⟨0, 32, .rw, 0x0, .w, false, false⟩]⟩
  -- HANDOFF_RESOLVED: COUNT
  | .handoffResolved => ⟨.cnv, false, 0x8, 1, 0, false,
      [⟨0, 32, .rw1c, 0x0, .p, false, false⟩]⟩
  -- HELD_LIMIT: LIMIT
  | .heldLimit => ⟨.serve, true, 0x14, 1, 0, false,
      [⟨0, 16, .rw, 0x40, .l, true, false⟩]⟩
  -- HOST_STATUS: FATAL, READY, AQ_ACTIVE
  | .hostStatus => ⟨.host, true, 0x14, 1, 0, false,
      [⟨2, 1, .ro, 0x0, .p, false, false⟩, ⟨1, 1, .ro, 0x0, .p, false, false⟩, ⟨0, 1, .ro, 0x0, .v, false, false⟩]⟩
  -- HOT_EVERY: STEPS
  | .hotEvery => ⟨.ret, true, 0x4, 1, 0, false,
      [⟨0, 16, .rw, 0x40, .l, false, false⟩]⟩
  -- HOT_MIGRATIONS: COUNT
  | .hotMigrations => ⟨.ret, true, 0x18, 1, 0, false,
      [⟨0, 32, .rw1c, 0x0, .l, false, true⟩]⟩
  -- IMG_CTRL: BOOT_HOST, LOCK
  | .imgCtrl => ⟨.img, false, 0x0, 1, 0, false,
      [⟨1, 1, .rwl, 0x0, .k, false, false⟩, ⟨0, 1, .rws, 0x0, .w, false, false⟩]⟩
  -- IMG_HASH: HASH
  | .imgHash => ⟨.img, false, 0x20, 8, 4, false,
      [⟨0, 32, .ro, 0x0, .w, false, false⟩]⟩
  -- IMG_ID_LO: ID
  | .imgIdLo => ⟨.img, false, 0x8, 1, 0, false,
      [⟨0, 32, .ro, 0x0, .w, false, false⟩]⟩
  -- IMG_ID_HI: ID
  | .imgIdHi => ⟨.img, false, 0xc, 1, 0, false,
      [⟨0, 32, .ro, 0x0, .w, false, false⟩]⟩
  -- IMG_STAGED: HASH
  | .imgStaged => ⟨.img, false, 0x40, 8, 4, false,
      [⟨0, 32, .ro, 0x0, .w, false, false⟩]⟩
  -- IMG_STATUS: UPDATE_PENDING, STATE, LAST_ERR
  | .imgStatus => ⟨.img, false, 0x4, 1, 0, false,
      [⟨20, 1, .ro, 0x0, .w, false, false⟩, ⟨16, 4, .ro, 0x0, .w, false, false⟩, ⟨0, 16, .ro, 0x0, .w, false, false⟩]⟩
  -- IMG_SVN: SLOT, SVN
  | .imgSvn => ⟨.img, false, 0x10, 1, 0, false,
      [⟨16, 8, .ro, 0x0, .w, false, false⟩, ⟨0, 16, .ro, 0x0, .w, false, false⟩]⟩
  -- JOB_CORES: FREE, TOTAL
  | .jobCores => ⟨.job, true, 0xc, 1, 0, false,
      [⟨16, 10, .ro, 0x0, .l, false, false⟩, ⟨0, 10, .ro, 0x0, .l, false, false⟩]⟩
  -- JOB_STATUS: PROGRAM, STATE
  | .jobStatus => ⟨.job, true, 0x0, 1, 0, false,
      [⟨4, 4, .ro, 0x0, .l, false, false⟩, ⟨0, 2, .ro, 0x0, .l, false, false⟩]⟩
  -- JOB_STEP_LO: STEP
  | .jobStepLo => ⟨.job, true, 0x4, 1, 0, false,
      [⟨0, 32, .ro, 0x0, .l, false, false⟩]⟩
  -- JOB_STEP_HI: STEP
  | .jobStepHi => ⟨.job, true, 0x8, 1, 0, false,
      [⟨0, 32, .ro, 0x0, .l, false, false⟩]⟩
  -- KFAULT_CNT: COUNT
  | .kfaultCnt => ⟨.job, true, 0x10, 1, 0, false,
      [⟨0, 32, .rw1c, 0x0, .l, false, true⟩]⟩
  -- KV_CFG: PAGE_MAX_LOG2, KV_FORMAT, SROUND, SIDECAR, CAP_LOG2
  | .kvCfg => ⟨.kv, true, 0x8, 1, 0, false,
      [⟨12, 4, .ro, 0x0, .l, false, false⟩, ⟨10, 2, .ro, 0x0, .l, false, false⟩, ⟨9, 1, .ro, 0x0, .l, false, false⟩, ⟨8, 1, .ro, 0x0, .l, false, false⟩, ⟨0, 5, .ro, 0x0, .l, false, false⟩]⟩
  -- KV_COW_COPIES: COUNT
  | .kvCowCopies => ⟨.kv, true, 0x20, 1, 0, false,
      [⟨0, 32, .rw1c, 0x0, .l, false, false⟩]⟩
  -- KV_FREE_LO: UNITS
  | .kvFreeLo => ⟨.kv, true, 0x0, 1, 0, false,
      [⟨0, 32, .ro, 0x0, .l, false, false⟩]⟩
  -- KV_FREE_HI: UNITS
  | .kvFreeHi => ⟨.kv, true, 0x4, 1, 0, false,
      [⟨0, 32, .ro, 0x0, .l, false, false⟩]⟩
  -- KV_FULL_ENDS: COUNT
  | .kvFullEnds => ⟨.kv, true, 0x1c, 1, 0, false,
      [⟨0, 32, .rw1c, 0x0, .l, false, false⟩]⟩
  -- KV_NOPAGE_HOLDS: COUNT
  | .kvNopageHolds => ⟨.kv, true, 0x18, 1, 0, false,
      [⟨0, 32, .rw1c, 0x0, .l, false, false⟩]⟩
  -- KV_RESERVE_HIT: COUNT
  | .kvReserveHit => ⟨.kv, true, 0x10, 1, 0, false,
      [⟨0, 32, .rw1c, 0x0, .l, false, false⟩]⟩
  -- KV_RESERVE_MISS: COUNT
  | .kvReserveMiss => ⟨.kv, true, 0x14, 1, 0, false,
      [⟨0, 32, .rw1c, 0x0, .l, false, false⟩]⟩
  -- KV_WINDOWS: IN_USE
  | .kvWindows => ⟨.kv, true, 0xc, 1, 0, false,
      [⟨0, 15, .ro, 0x0, .l, false, false⟩]⟩
  -- KV_XLATE_FAULTS: COUNT
  | .kvXlateFaults => ⟨.kv, true, 0x24, 1, 0, false,
      [⟨0, 32, .rw1c, 0x0, .l, false, false⟩]⟩
  -- LAST_KFAULT: CAUSE, CORE
  | .lastKfault => ⟨.job, false, 0x1040, 1, 0, false,
      [⟨16, 8, .ro, 0x0, .p, false, false⟩, ⟨0, 9, .ro, 0x0, .p, false, false⟩]⟩
  -- LATE_ENDS: COUNT
  | .lateEnds => ⟨.serve, true, 0x38, 1, 0, false,
      [⟨0, 32, .rw1c, 0x0, .l, false, true⟩]⟩
  -- LIVE_LIMIT_LO: LIMIT
  | .liveLimitLo => ⟨.comp, false, 0x10, 1, 0, false,
      [⟨0, 32, .rw, 0x400000, .w, false, false⟩]⟩
  -- LIVE_LIMIT_HI: LIMIT
  | .liveLimitHi => ⟨.comp, false, 0x14, 1, 0, false,
      [⟨0, 32, .rw, 0x0, .w, false, false⟩]⟩
  -- MAP_EPOCH: EPOCH
  | .mapEpoch => ⟨.comp, false, 0xc, 1, 0, false,
      [⟨0, 32, .ro, 0x0, .w, false, false⟩]⟩
  -- MC_CE0: COUNT
  | .mcCe0 => ⟨.mc, false, 0x10, 1, 0, false,
      [⟨0, 32, .rw1c, 0x0, .p, false, false⟩]⟩
  -- MC_CE1: COUNT
  | .mcCe1 => ⟨.mc, false, 0x1c, 1, 0, false,
      [⟨0, 32, .rw1c, 0x0, .p, false, false⟩]⟩
  -- MC_ECC_CTRL: PATROL_EN, T
  | .mcEccCtrl => ⟨.mc, false, 0x0, 1, 0, false,
      [⟨3, 1, .rw, 0x1, .p, false, false⟩, ⟨0, 3, .rw, 0x4, .p, false, false⟩]⟩
  -- MC_GESSO_PEND: UNITS
  | .mcGessoPend => ⟨.mc, false, 0x30, 1, 0, false,
      [⟨0, 16, .ro, 0x0, .d, false, false⟩]⟩
  -- MC_LAST_UE_LO: ADDR
  | .mcLastUeLo => ⟨.mc, false, 0x28, 1, 0, false,
      [⟨0, 32, .ro, 0x0, .k, false, false⟩]⟩
  -- MC_LAST_UE_HI: VALID, ADDR
  | .mcLastUeHi => ⟨.mc, false, 0x2c, 1, 0, false,
      [⟨31, 1, .ro, 0x0, .k, false, false⟩, ⟨0, 8, .ro, 0x0, .k, false, false⟩]⟩
  -- MC_PATROL_LO: PERIOD
  | .mcPatrolLo => ⟨.mc, false, 0x4, 1, 0, false,
      [⟨0, 32, .rw, 0x0, .p, false, false⟩]⟩
  -- MC_PATROL_HI: PERIOD
  | .mcPatrolHi => ⟨.mc, false, 0x8, 1, 0, false,
      [⟨0, 32, .rw, 0x40, .p, false, false⟩]⟩
  -- MC_POISON0: COUNT
  | .mcPoison0 => ⟨.mc, false, 0x18, 1, 0, false,
      [⟨0, 32, .rw1c, 0x0, .p, false, false⟩]⟩
  -- MC_POISON1: COUNT
  | .mcPoison1 => ⟨.mc, false, 0x24, 1, 0, false,
      [⟨0, 32, .rw1c, 0x0, .p, false, false⟩]⟩
  -- MC_UE0: COUNT
  | .mcUe0 => ⟨.mc, false, 0x14, 1, 0, false,
      [⟨0, 32, .rw1c, 0x0, .p, false, false⟩]⟩
  -- MC_UE1: COUNT
  | .mcUe1 => ⟨.mc, false, 0x20, 1, 0, false,
      [⟨0, 32, .rw1c, 0x0, .p, false, false⟩]⟩
  -- MEM_EVICTS: COUNT
  | .memEvicts => ⟨.mem, true, 0x14, 1, 0, false,
      [⟨0, 32, .rw1c, 0x0, .l, false, true⟩]⟩
  -- MEM_FETCHES: COUNT
  | .memFetches => ⟨.mem, true, 0x10, 1, 0, false,
      [⟨0, 32, .rw1c, 0x0, .l, false, true⟩]⟩
  -- MEM_FETCH_FREE: UNITS
  | .memFetchFree => ⟨.mem, true, 0x8, 1, 0, false,
      [⟨0, 32, .ro, 0x0, .l, false, false⟩]⟩
  -- MEM_POISON_READS: COUNT
  | .memPoisonReads => ⟨.mem, true, 0x18, 1, 0, false,
      [⟨0, 32, .rw1c, 0x0, .l, false, true⟩]⟩
  -- MEM_POOL_LOST: COUNT
  | .memPoolLost => ⟨.mem, true, 0x1c, 1, 0, false,
      [⟨0, 32, .rw1c, 0x0, .l, false, true⟩]⟩
  -- MEM_T1_FREE: UNITS
  | .memT1Free => ⟨.mem, true, 0x4, 1, 0, false,
      [⟨0, 32, .ro, 0x0, .l, false, false⟩]⟩
  -- MEM_T2_USED: UNITS
  | .memT2Used => ⟨.mem, true, 0xc, 1, 0, false,
      [⟨0, 32, .ro, 0x0, .l, false, false⟩]⟩
  -- MEM_TIER: WINTER_TIER, MODE
  | .memTier => ⟨.mem, true, 0x0, 1, 0, false,
      [⟨8, 2, .ro, 0x0, .w, false, false⟩, ⟨0, 1, .ro, 0x0, .w, false, false⟩]⟩
  -- MTR_BURST: PBS, CBS
  | .mtrBurst => ⟨.qos, true, 0x10c, 64, 16, false,
      [⟨16, 16, .rw, 0x0, .l, true, false⟩, ⟨0, 16, .rw, 0x0, .l, true, false⟩]⟩
  -- MTR_CIR: RATE
  | .mtrCir => ⟨.qos, true, 0x104, 64, 16, false,
      [⟨0, 24, .rw, 0x0, .l, true, false⟩]⟩
  -- MTR_PIR: RATE
  | .mtrPir => ⟨.qos, true, 0x108, 64, 16, false,
      [⟨0, 24, .rw, 0x0, .l, true, false⟩]⟩
  -- MTR_RED_DROP: COUNT
  | .mtrRedDrop => ⟨.qos, true, 0x64, 1, 0, false,
      [⟨0, 32, .rw1c, 0x0, .l, false, true⟩]⟩
  -- MTR_RED_LC: COUNT
  | .mtrRedLc => ⟨.qos, true, 0x68, 1, 0, false,
      [⟨0, 32, .rw1c, 0x0, .l, false, true⟩]⟩
  -- MTR_SEL: COLOUR_AWARE, ENABLE, MCLASS, SRC_DEV
  | .mtrSel => ⟨.qos, true, 0x100, 64, 16, false,
      [⟨25, 1, .rw, 0x0, .l, true, false⟩, ⟨24, 1, .rw, 0x0, .l, true, false⟩, ⟨16, 1, .rw, 0x0, .l, true, false⟩, ⟨0, 16, .rw, 0xffff, .l, true, false⟩]⟩
  -- MTR_YELLOW_DROP: COUNT
  | .mtrYellowDrop => ⟨.qos, true, 0x60, 1, 0, false,
      [⟨0, 32, .rw1c, 0x0, .l, false, true⟩]⟩
  -- OWN_PARKS: COUNT
  | .ownParks => ⟨.sess, true, 0x20, 1, 0, false,
      [⟨0, 32, .rw1c, 0x0, .l, false, false⟩]⟩
  -- OWN_PARK_FAIL: COUNT
  | .ownParkFail => ⟨.sess, true, 0x24, 1, 0, false,
      [⟨0, 32, .rw1c, 0x0, .l, false, false⟩]⟩
  -- PACK_ILLEGAL: COUNT
  | .packIllegal => ⟨.arith, false, 0x1008, 1, 0, false,
      [⟨0, 32, .rw1c, 0x0, .p, false, false⟩]⟩
  -- PAL_ENTRIES: COUNT
  | .palEntries => ⟨.att, true, 0x0, 1, 0, false,
      [⟨0, 13, .ro, 0x0, .l, false, false⟩]⟩
  -- PAL_UNITS: UNITS
  | .palUnits => ⟨.att, true, 0x4, 1, 0, false,
      [⟨0, 32, .ro, 0x0, .l, false, false⟩]⟩
  -- PCIE_LINK: WIDTH, SPEED, L0P, FLIT
  | .pcieLink => ⟨.host, false, 0x4000, 1, 0, false,
      [⟨8, 4, .ro, 0x0, .p, false, false⟩, ⟨4, 4, .ro, 0x0, .p, false, false⟩, ⟨1, 1, .ro, 0x0, .p, false, false⟩, ⟨0, 1, .ro, 0x0, .p, false, false⟩]⟩
  -- PKC_LO: COUNT_LO
  | .pkcLo => ⟨.clk, false, 0x0, 1, 0, true,
      [⟨0, 32, .ro, 0x0, .k, false, false⟩]⟩
  -- PKC_HI: COUNT_HI
  | .pkcHi => ⟨.clk, false, 0x4, 1, 0, true,
      [⟨0, 32, .ro, 0x0, .k, false, false⟩]⟩
  -- PKG_POWER: WATTS
  | .pkgPower => ⟨.thm, false, 0x0, 1, 0, true,
      [⟨0, 12, .ro, 0x0, .p, false, true⟩]⟩
  -- PKG_TEMP: HOT_DIE, TEMP
  | .pkgTemp => ⟨.thm, false, 0x4, 1, 0, true,
      [⟨8, 8, .ro, 0xff, .p, false, true⟩, ⟨0, 8, .ro, 0x0, .p, false, true⟩]⟩
  -- PLACE_WAITS: COUNT
  | .placeWaits => ⟨.job, true, 0x18, 1, 0, false,
      [⟨0, 32, .rw1c, 0x0, .l, false, true⟩]⟩
  -- PORT_CTRL: REKEY, RETRAIN, DISABLE
  | .portCtrl => ⟨.port, true, 0x0, 1, 0, true,
      [⟨2, 1, .wo, 0x0, .k, false, false⟩, ⟨1, 1, .wo, 0x0, .k, false, false⟩, ⟨0, 1, .rw, 0x0, .p, false, false⟩]⟩
  -- PORT_STATUS: PEER_DEV, PEER_PORT, CIPHER, KEY_PHASE, WIDTH, STATE
  | .portStatus => ⟨.port, true, 0x4, 1, 0, false,
      [⟨16, 16, .ro, 0xffff, .d, false, false⟩, ⟨10, 6, .ro, 0x0, .d, false, false⟩, ⟨9, 1, .ro, 0x0, .d, false, false⟩, ⟨8, 1, .ro, 0x0, .d, false, false⟩, ⟨4, 4, .ro, 0x0, .d, false, false⟩, ⟨0, 4, .ro, 0x0, .d, false, false⟩]⟩
  -- PS_BOUNDS: UPPER, LOWER
  | .psBounds => ⟨.serve, true, 0x0, 1, 0, false,
      [⟨8, 8, .rw, 0x46, .l, true, false⟩, ⟨0, 8, .rw, 0xa, .l, true, false⟩]⟩
  -- PS_CHANGES: COUNT
  | .psChanges => ⟨.serve, true, 0x3c, 1, 0, false,
      [⟨0, 32, .rw1c, 0x0, .l, false, true⟩]⟩
  -- PS_STATE: CURRENT, CLUSTERS
  | .psState => ⟨.serve, true, 0x4, 1, 0, false,
      [⟨8, 8, .ro, 0x0, .l, false, false⟩, ⟨0, 8, .ro, 0x0, .l, false, false⟩]⟩
  -- PWR_CAP: ENABLE, WATTS
  | .pwrCap => ⟨.thm, false, 0x8, 1, 0, false,
      [⟨31, 1, .rwl, 0x0, .p, false, false⟩, ⟨0, 12, .rwl, 0xbb8, .p, false, false⟩]⟩
  -- PWR_STATE: DOZE_LOG2, ALLOW_DOZE, CURRENT
  | .pwrState => ⟨.rst, false, 0x8, 1, 0, false,
      [⟨8, 5, .rwl, 0x14, .p, false, false⟩, ⟨4, 1, .rwl, 0x0, .p, false, false⟩, ⟨0, 2, .ro, 0x0, .p, false, false⟩]⟩
  -- QOS_ERR: LAST_ERR
  | .qosErr => ⟨.qos, true, 0x5c, 1, 0, false,
      [⟨0, 16, .ro, 0x0, .l, false, false⟩]⟩
  -- QOS_HOLDOFF: COUNTS
  | .qosHoldoff => ⟨.qos, false, 0x20000, 1, 0, false,
      [⟨0, 32, .rw, 0x1000, .w, false, false⟩]⟩
  -- REG_ACC_ERR: COUNT
  | .regAccErr => ⟨.glb, false, 0x10, 1, 0, false,
      [⟨0, 32, .rw1c, 0x0, .p, false, false⟩]⟩
  -- REG_ACC_LAST: FUNC, OFFSET
  | .regAccLast => ⟨.glb, false, 0x14, 1, 0, false,
      [⟨26, 6, .ro, 0x0, .p, false, false⟩, ⟨0, 26, .ro, 0x0, .p, false, false⟩]⟩
  -- REG_BORROWS: COUNT
  | .regBorrows => ⟨.qos, true, 0x70, 1, 0, false,
      [⟨0, 32, .rw1c, 0x0, .l, false, true⟩]⟩
  -- REG_CE_CFG: BURST, BORROW, ENABLE
  | .regCeCfg => ⟨.qos, true, 0x4c, 1, 0, false,
      [⟨16, 16, .rw, 0x0, .l, true, false⟩, ⟨1, 1, .rw, 0x0, .l, true, false⟩, ⟨0, 1, .rw, 0x0, .l, true, false⟩]⟩
  -- REG_CE_RATE: RATE
  | .regCeRate => ⟨.qos, true, 0x48, 1, 0, false,
      [⟨0, 24, .rw, 0x0, .l, true, false⟩]⟩
  -- REG_HBM_CFG: BURST, BORROW, ENABLE
  | .regHbmCfg => ⟨.qos, true, 0x4, 8, 8, false,
      [⟨16, 16, .rw, 0x0, .l, true, false⟩, ⟨1, 1, .rw, 0x0, .l, true, false⟩, ⟨0, 1, .rw, 0x0, .l, true, false⟩]⟩
  -- REG_HBM_RATE: RATE
  | .regHbmRate => ⟨.qos, true, 0x0, 8, 8, false,
      [⟨0, 24, .rw, 0x0, .l, true, false⟩]⟩
  -- REG_LINK_CFG: BURST, BORROW, ENABLE
  | .regLinkCfg => ⟨.qos, true, 0x44, 1, 0, false,
      [⟨16, 16, .rw, 0x0, .l, true, false⟩, ⟨1, 1, .rw, 0x0, .l, true, false⟩, ⟨0, 1, .rw, 0x0, .l, true, false⟩]⟩
  -- REG_LINK_RATE: RATE
  | .regLinkRate => ⟨.qos, true, 0x40, 1, 0, false,
      [⟨0, 24, .rw, 0x0, .l, true, false⟩]⟩
  -- REISSUES: COUNT
  | .reissues => ⟨.comp, false, 0x28, 1, 0, false,
      [⟨0, 32, .rw1c, 0x0, .p, false, false⟩]⟩
  -- REKEYS: COUNT
  | .rekeys => ⟨.port, true, 0x1c, 1, 0, false,
      [⟨0, 32, .rw1c, 0x0, .d, false, false⟩]⟩
  -- REPAIRS: COUNT
  | .repairs => ⟨.comp, false, 0x34, 1, 0, false,
      [⟨0, 32, .rw1c, 0x0, .p, false, false⟩]⟩
  -- REPLAYS: COUNT
  | .replays => ⟨.port, true, 0x14, 1, 0, false,
      [⟨0, 32, .rw1c, 0x0, .d, false, false⟩]⟩
  -- RET_COUNT: TABLES, INDEXES
  | .retCount => ⟨.ret, true, 0x0, 1, 0, false,
      [⟨16, 9, .ro, 0x0, .l, false, false⟩, ⟨0, 9, .ro, 0x0, .l, false, false⟩]⟩
  -- RET_POISON: COUNT
  | .retPoison => ⟨.ret, true, 0x1c, 1, 0, false,
      [⟨0, 32, .rw1c, 0x0, .l, false, true⟩]⟩
  -- RING_FULL_HOLDS: COUNT
  | .ringFullHolds => ⟨.serve, true, 0x34, 1, 0, false,
      [⟨0, 32, .rw1c, 0x0, .l, false, true⟩]⟩
  -- RING_HANDOVERS: COUNT
  | .ringHandovers => ⟨.att, true, 0xc, 1, 0, false,
      [⟨0, 32, .rw1c, 0x0, .l, false, false⟩]⟩
  -- RING_LOST: COUNT
  | .ringLost => ⟨.att, true, 0x10, 1, 0, false,
      [⟨0, 32, .rw1c, 0x0, .l, false, false⟩]⟩
  -- RING_STALE: COUNT
  | .ringStale => ⟨.att, true, 0x14, 1, 0, false,
      [⟨0, 32, .rw1c, 0x0, .l, false, false⟩]⟩
  -- RING_WAIT_LIMIT_LO: LIMIT
  | .ringWaitLimitLo => ⟨.att, false, 0x1000, 1, 0, false,
      [⟨0, 32, .rw, 0x1000000, .w, false, false⟩]⟩
  -- RING_WAIT_LIMIT_HI: LIMIT
  | .ringWaitLimitHi => ⟨.att, false, 0x1004, 1, 0, false,
      [⟨0, 32, .rw, 0x0, .w, false, false⟩]⟩
  -- RST_CAUSE: DIE, KIND, CAUSE
  | .rstCause => ⟨.rst, false, 0x4, 1, 0, false,
      [⟨8, 8, .ro, 0xff, .k, false, false⟩, ⟨4, 4, .ro, 0x1, .k, false, false⟩, ⟨0, 4, .ro, 0x0, .k, false, false⟩]⟩
  -- RST_CTRL: KEY, PKG_RESET
  | .rstCtrl => ⟨.rst, false, 0x0, 1, 0, true,
      [⟨16, 16, .wo, 0x0, .k, false, false⟩, ⟨0, 1, .wo, 0x0, .k, false, false⟩]⟩
  -- SAT_COUNT: COUNT
  | .satCount => ⟨.arith, true, 0x10, 1, 0, false,
      [⟨0, 32, .ro, 0x0, .l, false, true⟩]⟩
  -- SAT_CTRL: WINDOW, CLEAN, ENABLE
  | .satCtrl => ⟨.arith, true, 0x0, 1, 0, false,
      [⟨16, 16, .rw, 0x40, .l, false, false⟩, ⟨8, 8, .rw, 0x4, .l, false, false⟩, ⟨0, 1, .rw, 0x1, .l, false, false⟩]⟩
  -- SAT_DEMOTE: THRESHOLD
  | .satDemote => ⟨.arith, true, 0x8, 1, 0, false,
      [⟨0, 32, .rw, 0x40, .l, false, false⟩]⟩
  -- SAT_PROMOTE: THRESHOLD
  | .satPromote => ⟨.arith, true, 0x4, 1, 0, false,
      [⟨0, 32, .rw, 0x400, .l, false, false⟩]⟩
  -- SAT_SEL: LAYER
  | .satSel => ⟨.arith, true, 0xc, 1, 0, false,
      [⟨0, 8, .rw, 0x0, .l, false, false⟩]⟩
  -- SAT_STATE: PROMOTED
  | .satState => ⟨.arith, true, 0x20, 8, 4, false,
      [⟨0, 32, .ro, 0x0, .l, false, false⟩]⟩
  -- SCATTER_CONFLICTS: COUNT
  | .scatterConflicts => ⟨.ret, true, 0x14, 1, 0, false,
      [⟨0, 32, .rw1c, 0x0, .l, false, true⟩]⟩
  -- SEARCHES: COUNT
  | .searches => ⟨.ret, true, 0x8, 1, 0, false,
      [⟨0, 32, .rw1c, 0x0, .l, false, true⟩]⟩
  -- SEC_FUSE_WINDOW: DATA
  | .secFuseWindow => ⟨.sec, false, 0x400, 256, 4, false,
      [⟨0, 32, .ro, 0x0, .f, false, false⟩]⟩
  -- SEC_GEN: IN_USE, RETIRED
  | .secGen => ⟨.sec, false, 0x4, 1, 0, false,
      [⟨16, 16, .ro, 0x0, .k, false, false⟩, ⟨0, 16, .ro, 0x0, .f, false, false⟩]⟩
  -- SEC_GEN_FRAMES_LO: FRAMES
  | .secGenFramesLo => ⟨.sec, false, 0xc, 1, 0, false,
      [⟨0, 32, .ro, 0x0, .k, false, false⟩]⟩
  -- SEC_GEN_FRAMES_HI: FRAMES
  | .secGenFramesHi => ⟨.sec, false, 0x10, 1, 0, false,
      [⟨0, 32, .ro, 0x0, .k, false, false⟩]⟩
  -- SEC_GEN_SEL: GEN
  | .secGenSel => ⟨.sec, false, 0x8, 1, 0, false,
      [⟨0, 4, .rw, 0x0, .w, false, false⟩]⟩
  -- SEC_REPORT: DATA
  | .secReport => ⟨.sec, false, 0x1000, 2048, 4, true,
      [⟨0, 32, .ro, 0x0, .k, false, false⟩]⟩
  -- SEC_SELFTEST: DIE, TEST
  | .secSelftest => ⟨.sec, false, 0x1c, 1, 0, false,
      [⟨8, 8, .ro, 0x0, .p, false, false⟩, ⟨0, 8, .ro, 0x0, .p, false, false⟩]⟩
  -- SEC_SLICE: SLOTS, GRANTS, CONSENT, DEBUG, CONFIDENTIAL
  | .secSlice => ⟨.sec, false, 0x100, 64, 4, false,
      [⟨16, 16, .ro, 0x0, .l, false, false⟩, ⟨3, 3, .ro, 0x0, .l, false, false⟩, ⟨2, 1, .ro, 0x0, .l, false, false⟩, ⟨1, 1, .ro, 0x0, .w, false, false⟩, ⟨0, 1, .ro, 0x0, .w, false, false⟩]⟩
  -- SEC_STATUS: CURRENT, MODULE, LIFECYCLE, ZEROIZE_PENDING, UNMEASURED, SPENT
  | .secStatus => ⟨.sec, false, 0x0, 1, 0, true,
      [⟨16, 4, .ro, 0x0, .k, false, false⟩, ⟨12, 2, .ro, 0x0, .p, false, false⟩, ⟨8, 2, .ro, 0x0, .f, false, false⟩, ⟨2, 1, .ro, 0x0, .k, false, false⟩, ⟨1, 1, .ro, 0x1, .p, false, false⟩, ⟨0, 1, .ro, 0x0, .f, false, false⟩]⟩
  -- SEC_SWEEP: ACTIVE, PAUSE
  | .secSweep => ⟨.sec, false, 0x14, 1, 0, false,
      [⟨31, 1, .ro, 0x0, .k, false, false⟩, ⟨0, 1, .rw, 0x0, .w, false, false⟩]⟩
  -- SEC_ZEROIZE: CODE
  | .secZeroize => ⟨.sec, false, 0x18, 1, 0, true,
      [⟨0, 32, .wo, 0x0, .k, false, false⟩]⟩
  -- SERVE_BATCH: MAX_BATCH
  | .serveBatch => ⟨.serve, true, 0xc, 1, 0, false,
      [⟨0, 13, .rw, 0x400, .l, false, false⟩]⟩
  -- SERVE_CHUNK: CLUSTER_TOKENS, CHUNK
  | .serveChunk => ⟨.serve, true, 0x8, 1, 0, false,
      [⟨16, 16, .rw, 0x200, .l, false, false⟩, ⟨0, 16, .rw, 0x800, .l, false, false⟩]⟩
  -- SERVE_ERR: LAST_ERR
  | .serveErr => ⟨.serve, true, 0x18, 1, 0, false,
      [⟨0, 16, .ro, 0x0, .l, false, false⟩]⟩
  -- SERVE_SPEC: DRAFTS
  | .serveSpec => ⟨.serve, true, 0x10, 1, 0, false,
      [⟨0, 4, .rw, 0x4, .l, false, false⟩]⟩
  -- SESS_CNT_AUTUMN: COUNT
  | .sessCntAutumn => ⟨.sess, true, 0x14, 1, 0, false,
      [⟨0, 25, .ro, 0x0, .l, false, false⟩]⟩
  -- SESS_CNT_OTHER: COUNT
  | .sessCntOther => ⟨.sess, true, 0x1c, 1, 0, false,
      [⟨0, 25, .ro, 0x0, .l, false, false⟩]⟩
  -- SESS_CNT_SUMMER: COUNT
  | .sessCntSummer => ⟨.sess, true, 0x10, 1, 0, false,
      [⟨0, 25, .ro, 0x0, .l, false, false⟩]⟩
  -- SESS_CNT_WINTER: COUNT
  | .sessCntWinter => ⟨.sess, true, 0x18, 1, 0, false,
      [⟨0, 25, .ro, 0x0, .l, false, false⟩]⟩
  -- SESS_IDLE_LIMIT_LO: LIMIT
  | .sessIdleLimitLo => ⟨.sess, true, 0x0, 1, 0, false,
      [⟨0, 32, .rw, 0x0, .l, true, false⟩]⟩
  -- SESS_IDLE_LIMIT_HI: LIMIT
  | .sessIdleLimitHi => ⟨.sess, true, 0x4, 1, 0, false,
      [⟨0, 32, .rw, 0x0, .l, true, false⟩]⟩
  -- SESS_LOST: COUNT
  | .sessLost => ⟨.sess, false, 0x1000, 1, 0, false,
      [⟨0, 32, .rw1c, 0x0, .k, false, false⟩]⟩
  -- SESS_POLICY: DEEP_OWN
  | .sessPolicy => ⟨.sess, true, 0x8, 1, 0, false,
      [⟨0, 1, .rw, 0x0, .l, false, false⟩]⟩
  -- SHORT_RESULTS: COUNT
  | .shortResults => ⟨.ret, true, 0xc, 1, 0, false,
      [⟨0, 32, .rw1c, 0x0, .l, false, true⟩]⟩
  -- SLICE_DEF: DEBUG, CONFIDENTIAL, STATE
  | .sliceDef => ⟨.img, false, 0x100, 64, 4, false,
      [⟨3, 1, .ro, 0x0, .w, false, false⟩, ⟨2, 1, .ro, 0x0, .w, false, false⟩, ⟨0, 2, .ro, 0x0, .w, false, false⟩]⟩
  -- STALE_MAP_SENT: COUNT
  | .staleMapSent => ⟨.comp, false, 0x20, 1, 0, false,
      [⟨0, 32, .rw1c, 0x0, .p, false, false⟩]⟩
  -- STALE_OWNER_CNT: COUNT
  | .staleOwnerCnt => ⟨.sess, true, 0x28, 1, 0, false,
      [⟨0, 32, .rw1c, 0x0, .l, false, false⟩]⟩
  -- STOP_TOKEN: VALID, TOKEN
  | .stopToken => ⟨.serve, true, 0x1c, 4, 4, false,
      [⟨31, 1, .rw, 0x0, .l, false, false⟩, ⟨0, 24, .rw, 0x0, .l, false, false⟩]⟩
  -- THERM_CTRL: KEY, THROTTLE, AUTO_RECOVER, SHUTDOWN
  | .thermCtrl => ⟨.thm, false, 0xc, 1, 0, true,
      [⟨16, 16, .wo, 0x0, .k, false, false⟩, ⟨8, 8, .rwl, 0x64, .p, false, false⟩, ⟨1, 1, .rwl, 0x1, .k, false, false⟩, ⟨0, 1, .wo, 0x0, .k, false, false⟩]⟩
  -- THERM_STATUS: MAX_TEMP, DUTY, CAP_FAIL, CAPPING, THROTTLING, TRIPPED
  | .thermStatus => ⟨.thm, false, 0x10, 1, 0, false,
      [⟨16, 8, .rw1c, 0x0, .p, false, true⟩, ⟨8, 5, .ro, 0x10, .p, false, false⟩, ⟨3, 1, .rw1c, 0x0, .p, false, false⟩, ⟨2, 1, .ro, 0x0, .p, false, false⟩, ⟨1, 1, .ro, 0x0, .p, false, false⟩, ⟨0, 1, .rw1c, 0x0, .k, false, false⟩]⟩
  -- TOKENS_OUT: COUNT
  | .tokensOut => ⟨.serve, true, 0x2c, 1, 0, false,
      [⟨0, 32, .rw1c, 0x0, .l, false, true⟩]⟩
  -- TRING_BAD_CREDIT: COUNT
  | .tringBadCredit => ⟨.serve, false, 0x1000, 1, 0, false,
      [⟨0, 32, .rw1c, 0x0, .p, false, false⟩]⟩
  -- TXN_LIMIT_LO: LIMIT
  | .txnLimitLo => ⟨.comp, false, 0x18, 1, 0, false,
      [⟨0, 32, .rw, 0x1000000, .w, false, false⟩]⟩
  -- TXN_LIMIT_HI: LIMIT
  | .txnLimitHi => ⟨.comp, false, 0x1c, 1, 0, false,
      [⟨0, 32, .rw, 0x0, .w, false, false⟩]⟩

/-- Registers 0.. of the index. -/
def allRegs0 : List Reg :=
  [.aqCfg, .aqCqBaseLo, .aqCqBaseHi, .aqSqBaseLo, .aqSqBaseHi, .arithNan, .arithOvf, .attSkipped, .authFail, .badIndex, .bar4BaseLo, .bar4BaseHi, .bar4Slice, .beYields, .ceBytesLo, .ceBytesHi, .ceHashFail, .ceParks, .cePrioCopies, .ceStatus]

/-- Registers 20.. of the index. -/
def allRegs1 : List Reg :=
  [.ceThaws, .ckptAbandoned, .ckptCommitted, .ckptDeferred, .ckptLastLo, .ckptLastHi, .ckptPkcIntervalLo, .ckptPkcIntervalHi, .ckptPrioCopies, .ckptStatus, .ckptStepIntervalLo, .ckptStepIntervalHi, .ckptTargetLo, .ckptTargetHi, .clkLock, .clkLoss, .cmdRejects, .compDev, .compIdLo, .compIdHi]

/-- Registers 40.. of the index. -/
def allRegs2 : List Reg :=
  [.coreBusy, .crcFail, .csCe, .csSpare, .csUe, .dbIgnored, .dedupDiscards, .dedupHits, .devId, .devMap, .draftsAccepted, .dropRetries, .egrQmap, .egrWeight0, .egrWeight1, .eqLost, .errlogCtrl, .errlogHead, .errlogTail, .errlogWindow]

/-- Registers 60.. of the index. -/
def allRegs3 : List Reg :=
  [.evcCount, .evcSel, .fecCorr, .fecUncorr, .forwarded, .fwStatus, .glbGen, .glbLock, .handoffLimitLo, .handoffLimitHi, .handoffResolved, .heldLimit, .hostStatus, .hotEvery, .hotMigrations, .imgCtrl, .imgHash, .imgIdLo, .imgIdHi, .imgStaged]

/-- Registers 80.. of the index. -/
def allRegs4 : List Reg :=
  [.imgStatus, .imgSvn, .jobCores, .jobStatus, .jobStepLo, .jobStepHi, .kfaultCnt, .kvCfg, .kvCowCopies, .kvFreeLo, .kvFreeHi, .kvFullEnds, .kvNopageHolds, .kvReserveHit, .kvReserveMiss, .kvWindows, .kvXlateFaults, .lastKfault, .lateEnds, .liveLimitLo]

/-- Registers 100.. of the index. -/
def allRegs5 : List Reg :=
  [.liveLimitHi, .mapEpoch, .mcCe0, .mcCe1, .mcEccCtrl, .mcGessoPend, .mcLastUeLo, .mcLastUeHi, .mcPatrolLo, .mcPatrolHi, .mcPoison0, .mcPoison1, .mcUe0, .mcUe1, .memEvicts, .memFetches, .memFetchFree, .memPoisonReads, .memPoolLost, .memT1Free]

/-- Registers 120.. of the index. -/
def allRegs6 : List Reg :=
  [.memT2Used, .memTier, .mtrBurst, .mtrCir, .mtrPir, .mtrRedDrop, .mtrRedLc, .mtrSel, .mtrYellowDrop, .ownParks, .ownParkFail, .packIllegal, .palEntries, .palUnits, .pcieLink, .pkcLo, .pkcHi, .pkgPower, .pkgTemp, .placeWaits]

/-- Registers 140.. of the index. -/
def allRegs7 : List Reg :=
  [.portCtrl, .portStatus, .psBounds, .psChanges, .psState, .pwrCap, .pwrState, .qosErr, .qosHoldoff, .regAccErr, .regAccLast, .regBorrows, .regCeCfg, .regCeRate, .regHbmCfg, .regHbmRate, .regLinkCfg, .regLinkRate, .reissues, .rekeys]

/-- Registers 160.. of the index. -/
def allRegs8 : List Reg :=
  [.repairs, .replays, .retCount, .retPoison, .ringFullHolds, .ringHandovers, .ringLost, .ringStale, .ringWaitLimitLo, .ringWaitLimitHi, .rstCause, .rstCtrl, .satCount, .satCtrl, .satDemote, .satPromote, .satSel, .satState, .scatterConflicts, .searches]

/-- Registers 180.. of the index. -/
def allRegs9 : List Reg :=
  [.secFuseWindow, .secGen, .secGenFramesLo, .secGenFramesHi, .secGenSel, .secReport, .secSelftest, .secSlice, .secStatus, .secSweep, .secZeroize, .serveBatch, .serveChunk, .serveErr, .serveSpec, .sessCntAutumn, .sessCntOther, .sessCntSummer, .sessCntWinter, .sessIdleLimitLo]

/-- Registers 200.. of the index. -/
def allRegs10 : List Reg :=
  [.sessIdleLimitHi, .sessLost, .sessPolicy, .shortResults, .sliceDef, .staleMapSent, .staleOwnerCnt, .stopToken, .thermCtrl, .thermStatus, .tokensOut, .tringBadCredit, .txnLimitLo, .txnLimitHi]

/-- Every register of the index, in its order. -/
def allRegs : List Reg :=
  allRegs0 ++ allRegs1 ++ allRegs2 ++ allRegs3 ++ allRegs4 ++ allRegs5 ++ allRegs6 ++ allRegs7 ++ allRegs8 ++ allRegs9 ++ allRegs10

/-- Where a block lies: base in BAR0 of its first group (R477, R478), distance between groups, number of groups
(1 for a block without groups). -/
def Block.place : Block → Nat × Nat × Nat
  | .glb => (0x00_0000, 0, 1)
  | .clk => (0x01_0000, 0, 1)
  | .img => (0x02_0000, 0, 1)
  | .sess => (0x03_0000, 0x40, 64)
  | .cnv => (0x04_0000, 0, 1)
  | .kv => (0x05_0000, 0x40, 64)
  | .att => (0x06_0000, 0x40, 64)
  | .arith => (0x07_0000, 0x40, 64)
  | .job => (0x08_0000, 0x40, 64)
  | .serve => (0x09_0000, 0x40, 64)
  | .mem => (0x0A_0000, 0x40, 64)
  | .ret => (0x0B_0000, 0x40, 64)
  | .comp => (0x0C_0000, 0, 1)
  | .ckpt => (0x0D_0000, 0x40, 64)
  | .sec => (0x0E_0000, 0, 1)
  | .host => (0x0F_0000, 0x100, 64)
  | .qos => (0x10_0000, 0x800, 64)
  | .rst => (0x14_0000, 0, 1)
  | .err => (0x15_0000, 0, 1)
  | .evc => (0x16_0000, 0x100, 64)
  | .thm => (0x17_0000, 0, 1)
  | .mc => (0x100_0000, 0x10_0000, 8)
  | .ce => (0x101_0000, 0x10_0000, 8)
  | .cs => (0x180_0000, 0x10_0000, 8)
  | .port => (0x200_0000, 0x100, 48)

/-- The BAR0 offset of a block's unit `u` (R476..R478): a slice, a function, a die number or a port; the ports of
link die n lie in that die's own region. -/
def Block.at (b : Block) (u : Nat) : Nat :=
  match b with
  | .port => 0x200_0000 + 0x10_0000 * (u / 16) + 0x100 * (u % 16)
  | _ => b.place.1 + b.place.2.1 * u

/-- The BAR0 offset of register `r` of unit `u`, number `i` of its row. -/
def Reg.addr (r : Reg) (u i : Nat) : Nat :=
  let row := r.row
  if row.grouped || row.block == .mc || row.block == .ce || row.block == .cs
  then row.block.at u + row.off + row.stride * i
  else row.block.place.1 + row.off + row.stride * i

/-- How many units have register `r`. -/
def Reg.units (r : Reg) : Nat :=
  let row := r.row
  if row.grouped || row.block == .mc || row.block == .ce || row.block == .cs then row.block.place.2.2 else 1

/-- The unit and number by which register `r` lies at BAR0 offset `a`, if it does. -/
def Reg.matchAt (r : Reg) (a : Nat) : Option (Nat × Nat) :=
  let row := r.row
  let inRow (rel : Nat) : Option Nat :=
    if rel < row.off then none
    else if row.count ≤ 1 then (if rel = row.off then some 0 else none)
    else if (rel - row.off) % row.stride = 0 ∧ (rel - row.off) / row.stride < row.count
    then some ((rel - row.off) / row.stride) else none
  if row.block = .port then
    if a < 0x200_0000 ∨ 0x230_0000 ≤ a ∨ 0x1000 ≤ (a - 0x200_0000) % 0x10_0000 then none
    else
      let n := (a - 0x200_0000) / 0x10_0000
      let p := (a - 0x200_0000) % 0x10_0000 / 0x100
      (inRow ((a - 0x200_0000) % 0x100)).map fun i => (16 * n + p, i)
  else
    let base := row.block.place.1
    let str := row.block.place.2.1
    if a < base then none
    else if r.units = 1 then (inRow (a - base)).map fun i => (0, i)
    else if (a - base) / str < row.block.place.2.2 then
      (inRow ((a - base) % str)).map fun i => ((a - base) / str, i)
    else none

/-- The register at a BAR0 offset among `l`: the first that matches. -/
def regFind (a : Nat) : List Reg → Option (Reg × Nat × Nat)
  | [] => none
  | r :: l =>
    match r.matchAt a with
    | some (u, i) => some (r, u, i)
    | none => regFind a l

/-- The register at a BAR0 offset (R489), with its unit and number; none at a reserved offset. -/
def regAt (a : Nat) : Option (Reg × Nat × Nat) := regFind a allRegs

/-- The reset value of a register. -/
def Reg.rstVal (r : Reg) : Nat := r.row.fields.foldl (fun n f => n + f.rst * 2 ^ f.lo) 0

end Sys2Proof.Machine
end

