-- ==== Sys2Proof/Machine/Types.lean ====
section
/-! DEFINITION. Records the state is made of, first part: dies, rails and power (chapters 01, 18, 19), the image
(02), security (15), the host interface (16) and the error log (18). Fields marked "model's own" are no state of
the spec's; every other field cites the rule that names it. Plain data throughout. -/

namespace Sys2Proof.Machine

/-- A byte-addressed memory: pairs of an address and a byte, addresses strictly rising, no byte 0 listed
(an unlisted address reads as 0, log entry 3). -/
abbrev Mem := List Host.Cell

/-! ## Dies, rails and power -/

/-- Who a completion goes to: function, SQ and CQ ids, CID, and the function's queue epoch (model's own: queues
destroyed by a reset of the function get no completion, R472). -/
structure Tag where
  fn : Nat
  sq : Nat
  cq : Nat
  cid : U16
  epoch : Nat
  deriving DecidableEq, Repr

/-- One die (R12): what R27, R28, R430 and R493 give it. -/
structure Die where
  /-- The die is powered (R430: an unpowered die has DIE_STATE 2). -/
  powered : Bool := false
  /-- Its root PLL is locked (R27). -/
  locked : Bool := false
  /-- Master PKC when the PLL last locked (R27: release after 2^16 REFCLK cycles). -/
  lockPkc : U64 := 0
  /-- The die has been released from die reset (R27, CLK_LOCK). -/
  released : Bool := false
  /-- Its firmware stage has been measured since its boot (R430). -/
  measured : Bool := false
  /-- Measurement register DIE_d (R427); zero while the die is not MEASURED. -/
  meas : U256 := 0
  /-- The die certificate has been issued (R415, class D). -/
  certified : Bool := false
  /-- The firmware watchdog is armed (R493). -/
  wdArmed : Bool := false
  /-- The die's PKC copy at the firmware's last restart of the watchdog (R493). -/
  wdPkc : U64 := 0
  /-- A JTAG session that a consent record grants holds the die sequencer halted (R439, R493). -/
  halted : Bool := false
  /-- The self-tests of the die's cipher pipe (on die 19, of the security root) have passed since its reset (R411). -/
  pipeTested : Bool := false
  /-- The die's PKC copy (R28): started from the master when the die is powered, reloaded when it is released from die reset or
  leaves Hibernate, stopped while its root PLL is not locked. The model's copies do not lag the master (DESIGN CHOICE, log entry
  76: the spec allows any two to differ by up to 4 counts). -/
  pkc : U64 := 0
  /-- Last reading of the junction sensor in °C (R513). -/
  temp : Nat := 0
  /-- DEV_RESET commands that complete once the die is released and measured (R492). -/
  tags : List Tag := []
  deriving DecidableEq, Repr

/-- Hibernate's progress (R497..R500). -/
inductive HibPhase where
  | awake | entering | asleep | waking
  deriving DecidableEq, Repr

/-- Rails, pins, clocks, bridges and power management. -/
structure Pkg where
  /-- The PKC master copy (R7, R28, R29). Every PKC that a rule stamps or compares on some die is this one: the copies of the
  released dies are equal to it (DESIGN CHOICE, log entry 76). -/
  pkc : U64 := 0
  /-- VAUX12 is present (R529, R530). -/
  vaux12 : Bool := true
  /-- VIO18 is above 1.6 V (R530). -/
  vio18 : Bool := true
  /-- VIN48 lies between the monitor's limits, with its hysteresis (R530). -/
  vin48 : Bool := false
  /-- The PWRGOOD land as driven by the board (R530, R532). -/
  pwrgood : Bool := false
  /-- PERST_N is asserted by the board (R490, R532). -/
  perst : Bool := true
  /-- REFCLK runs; otherwise the always-on island runs from its internal oscillator (R531). -/
  refclk : Bool := true
  /-- The conversion stages are on (R530). -/
  conversion : Bool := false
  /-- A cold reset waits for conversion to start (R490: VIN48 or VAUX12 applied or removed). -/
  coldPending : Bool := true
  /-- STRAP7..STRAP0 as sampled (R533). -/
  straps : U8 := 0
  /-- The die records by die index 0..19 (R12). -/
  dies : Tab Die := []
  /-- The PCIe PLL is locked (R27). -/
  pcieLocked : Bool := false
  /-- Bridges marked down since the last package reset, ascending (R16). -/
  bridgesDown : List Nat := []
  /-- Hibernate phase (R498, R500). -/
  hib : HibPhase := .awake
  /-- The POWER_STATE commands that entry or wake will complete (R498, R500). -/
  hibTags : List Tag := []
  /-- PKC since which nothing has been busy, while Idle (R497). -/
  idleSince : U64 := 0
  /-- Thermal DUTY, 4..16 (R514). -/
  thermDuty : Nat := 16
  /-- Capping DUTY, 4..16 (R515). -/
  capDuty : Nat := 16
  /-- BE placement is withheld (R515). -/
  beWithheld : Bool := false
  /-- Consecutive periods above the cap with capping DUTY at 4 (R515). -/
  capPeriods : Nat := 0
  /-- The last 2^20-count average of input power in W, exact (R513, R515). -/
  watts : Nat := 0
  /-- The last 128 samples of 2^20 counts each, the newest first: input power in W, package temperature in °C; the averages over
  2^27 counts of coarsened reads come from them (R435). -/
  powerLog : List Nat := []
  tempLog : List Nat := []
  /-- Thermal shutdown in force (R516) and the PKC at which it began. -/
  shutdown : Bool := false
  shutdownPkc : U64 := 0
  /-- THERMTRIP_N is asserted (R516). -/
  thermtrip : Bool := false
  /-- HOST_STATUS.READY: firmware and an image run and commands are fetched (R473, R504 step 10). -/
  ready : Bool := false
  /-- HOST_STATUS.FATAL: the device stopped fetching after a FATAL log entry (R510). -/
  fatal : Bool := false
  /-- HBM is in self-refresh (R490, R498, R516). -/
  selfRefresh : Bool := false
  /-- HBM contents were lost and have not been gesso-filled yet (R490, R504 step 8). -/
  hbmLost : Bool := true
  /-- The last period of 2^20 PKC counts in which late requests were looked for (R265), thermal DUTY was adjusted (R514) and input
  power was compared with the cap (R515): PKC ÷ 2^20. -/
  latePeriod : Nat := 0
  thermPeriod : Nat := 0
  capPeriod : Nat := 0
  deriving DecidableEq, Repr

/-! ## Boot flash and firmware -/

/-- A boot record (R502); `valid` says its MAGIC and HASH hold. -/
structure BootRec where
  valid : Bool := false
  active : U1 := 0
  trial : Bool := false
  goodA : Bool := false
  goodB : Bool := false
  fwMinSvn : U16 := 0
  seq : U64 := 0
  deriving DecidableEq, Repr

/-- The boot flash (R502) and what the boot ROM and firmware loads keep (R505..R507). -/
structure Flash where
  rec0 : BootRec := {}
  rec1 : BootRec := {}
  slotA : Bytes := []
  slotB : Bytes := []
  /-- Default image area; empty: none. -/
  image : Bytes := []
  /-- Certificate area (R415). -/
  certs : Bytes := []
  /-- A firmware bundle is staged in the slot that is not ACTIVE (R506 FW_PENDING). -/
  staged : Bool := false
  /-- The slot it is staged in. -/
  stagedSlot : U1 := 0
  /-- STAGED_FW (R503). -/
  stagedHash : U256 := 0
  /-- Header of the bundle that the boot ROM chose (R503, R504 step 5); empty in recovery. -/
  running : Bytes := []
  /-- PKC at which the trial boot began (R507). -/
  trialPkc : U64 := 0
  deriving DecidableEq, Repr

/-! ## Error log -/

/-- An error log entry (R508). -/
structure LogEntry where
  seq : Nat
  severity : Nat
  die : Nat
  slice : Nat
  lflags : Nat
  pkc : U64
  code : Nat
  source : Nat
  unit : Nat
  addr : Nat
  detail : Bytes
  deriving DecidableEq, Repr

/-- The error log of the always-on island (R508, R509; class K). -/
structure ErrLog where
  /-- Entries by slot, sequence number mod 1,024. -/
  slots : Tab LogEntry := []
  /-- Sequence numbers of the UNCORRECTED and FATAL entries that still hold ALERT_N (R509). -/
  alert : List Nat := []
  /-- PKC of the last CORRECTED entry per source and unit (R509: one per 2^26 counts):
  key source × 2^32 + unit. -/
  lastCorrected : Tab U64 := []
  deriving DecidableEq, Repr

/-! ## Host interface -/

/-- A submission queue (R463, R464). -/
structure Sq where
  fn : Nat
  cq : Nat
  log2 : Nat
  base : U64
  /-- Device's fetch position (R461 SQ_HEAD). -/
  head : Nat
  /-- Last accepted tail doorbell. -/
  tail : Nat
  deriving DecidableEq, Repr

/-- A completion queue (R461..R466). -/
structure Cq where
  fn : Nat
  log2 : Nat
  base : U64
  vector : Nat
  ien : Bool
  /-- Index of the next entry to write, and the PHASE it is written with. -/
  tail : Nat
  phase : Bool
  /-- Last accepted head doorbell. -/
  head : Nat
  /-- A message was sent since the last head doorbell (R466). -/
  msgSent : Bool
  /-- Commands fetched and not yet completed (R462). -/
  outstanding : Nat
  deriving DecidableEq, Repr

/-- An event queue (R467, R468), by number: 0..63 the slice's, 64 the device's. -/
structure Evq where
  fn : Nat
  log2 : Nat
  base : U64
  vector : Nat
  tail : Nat
  phase : Bool
  head : Nat
  msgSent : Bool
  /-- Events were lost since the last record written (OVERFLOW). -/
  lost : Bool
  deriving DecidableEq, Repr

/-- The states of a TDI (R471). -/
inductive Tdi where
  | unlocked | locked | run | error
  deriving DecidableEq, Repr

/-- What the block sends out beside writes to host memory (model's own record of its outputs, newest first). -/
inductive Output where
  /-- An MSI-X message of a function (R466). -/
  | msix (fn vector : Nat)
  /-- The value a register or BAR4 read returned to a function. -/
  | readData (fn : Nat) (value : Bytes)
  /-- A read or write completed as Unsupported Request (R455 row 1). -/
  | unsupported (fn : Nat)
  /-- A read completed with all-ones data and EP (R455 row 6). -/
  | poisoned (fn : Nat)
  /-- A write to host memory sent as a poisoned TLP (R313): its address and length. -/
  | poisonedWrite (addr len : Nat)
  /-- An SPDM response or ERROR (R429): the bytes after the SPDM header, by request code. -/
  | spdm (code : Nat) (body : Bytes)
  /-- A TDISP answer: message code and body (R471). -/
  | tdisp (code : Nat) (body : Bytes)
  /-- A PLDM answer (R517). -/
  | pldm (body : Bytes)
  /-- A PLDM event message for a log entry (R517). -/
  | pldmEvent (seq : Nat)
  /-- A transaction sent over a port to a device: TYPE, OP, TAG; LC, QUEUE, HOPS, FWD, SRC_DEV, MAP_EPOCH, TSLICE of its
  header; operands in the order of its table; payload (R359, R360). -/
  | link (port dev type op tag : Nat) (hdr args : List Nat) (payload : Bytes)
  /-- A CONTROL flit sent on a port: code and operands (R366). -/
  | control (port code : Nat) (args : List Nat)
  /-- A flit-level answer on a port: acknowledgement or NAK and sequence number (R357). -/
  | flit (port code : Nat) (args : List Nat)
  /-- An AER error: 0 non-fatal, 1 fatal (R509). -/
  | aer (fatal : Nat)
  /-- The end of a JTAG scan: whether the unit was reached (R439). -/
  | jtag (reached : Bool)
  deriving DecidableEq, Repr

/-- SPDM connection of the responder (R429). -/
structure Spdm where
  version : Bool := false
  capabilities : Bool := false
  algorithms : Bool := false
  /-- A secured session is running; its handshake secret. -/
  secured : Option Bytes := none
  /-- Number of key updates in the session. -/
  keyUpdates : Nat := 0
  /-- The transcript so far. -/
  transcript : Bytes := []
  deriving DecidableEq, Repr

/-- The host side: queues, doorbells, interrupts, TDIs, IDE streams and host memory. -/
structure HostSt where
  sqs : Tab Sq := []
  cqs : Tab Cq := []
  eqs : Tab Evq := []
  /-- Unmasked MSI-X vectors, key function × 2,048 + vector, ascending (R466). -/
  msixOn : List Nat := []
  /-- The MSI-X pending bit array, by the same key. -/
  msixPending : List Nat := []
  /-- TDI of VF k, by function index (R471). -/
  tdis : Tab Tdi := []
  /-- Selective IDE streams: stream 0..7 to the function it is bound to (R470). -/
  ide : Tab Nat := []
  /-- BAR4 size of a function as log2, 30..40 (R454). -/
  bar4Log2 : Tab Nat := []
  spdm : Spdm := {}
  /-- PKC_HI latch and the other LO/HI latches: key function × 2^26 + BAR0 offset of the HI register (R30, R483). -/
  latches : Tab U32 := []
  /-- Pending LO writes: key function × 2^26 + BAR0 offset of the LO register (R483). -/
  pendLo : Tab U32 := []
  /-- Coarsened counters as of the last multiple of 2^20 counts, by BAR0 offset (R435). -/
  snapshot : Tab U32 := []
  /-- Queue epochs (model's own): per function, raised when a reset destroys its queues; at 64 + function, raised when AQ_CFG
  destroys its admin queues. -/
  epochs : Tab Nat := []
  /-- Host memory as the device reads and writes it. -/
  mem : Mem := []
  /-- Ranges (address, length) of host memory that cannot be read or written (model's own). -/
  holes : List (Nat × Nat) := []
  /-- Outputs, newest first (model's own). -/
  out : List Output := []
  deriving DecidableEq, Repr

/-! ## Security -/

/-- An author slot (R41). -/
structure Author where
  fused : Bool := false
  keyHash : U256 := 0
  revoked : Bool := false
  /-- Thermometer of minimum SVN: number of bits blown, 0..32. -/
  minSvn : Nat := 0
  deriving DecidableEq, Repr

/-- A content key slot (R440). -/
structure KeySlot where
  key : Bytes
  packageId : U256
  deriving DecidableEq, Repr

/-- An installed consent record (R436). -/
structure Consent where
  cflags : Nat
  expiry : U64
  hash : U256
  deriving DecidableEq, Repr

/-- Where the re-key sweep stands (R420). -/
structure Sweep where
  active : Bool := false
  /-- Generation of every 2 MiB unit of the device reserve that `genMap` does not list; none before an image has laid the
  reserve out. -/
  base : Option Nat := none
  /-- Generation by 2 MiB unit: of the device reserve, key PCG × 2^13 + unit, where it is not `base`; of the pool
  contribution, key 2^20 + physical address ÷ 2 MiB, where the unit holds data. -/
  genMap : Tab Nat := []
  deriving DecidableEq, Repr

/-- Fuses, keys, generations, attestation (R407..R451). -/
structure Sec where
  /-- RETIRED masks of the state dies agree (R421 blows all eight); bit g. -/
  retired : Nat := 0
  /-- ZCOUNT bits blown (R414). -/
  zcount : Nat := 0
  /-- LIFECYCLE: 1 PRODUCTION, 3 RETURNED (R414, R439). -/
  lifecycle : Nat := 1
  authors : Tab Author := []
  /-- Current-generation pointer (R416). -/
  current : Nat := 0
  sweep : Sweep := {}
  zeroizePending : Bool := false
  /-- PKC of an ARM not yet followed by FIRE, per path: register and PLDM (R447, R517). -/
  armed : Option U64 := none
  armedPldm : Option U64 := none
  /-- Content key slots, key 16 × slice + k (R440). -/
  slots : Tab KeySlot := []
  consents : Tab Consent := []
  /-- Composition sealing key, and its copy in the device reserve (R423). -/
  csk : Option U256 := none
  cskReserve : Option U256 := none
  /-- Cipher pipes have erased their keys (R412, R447). -/
  keysErased : Bool := false
  /-- IMAGE, STAGED and POLICY_s measurement registers by index 22, 23, 25 + s (R427). -/
  meas : Tab U256 := []
  romMeasured : Bool := false
  /-- A measurement register changed at this PKC and no report has been made since (R431). -/
  reportDue : Option U64 := none
  /-- Bytes of the last sealed report (R431). -/
  report : Bytes := []
  /-- The nonces of the last 16 reports with their PKC, newest first (R431). -/
  nonces : List (U256 × U64) := []
  /-- JTAG sessions granted and running: slice numbers (R438, R439). -/
  jtag : List Nat := []
  deriving DecidableEq, Repr

end Sys2Proof.Machine
end

