-- ==== Sys2Proof/Machine/TypesSession.lean ====
section
/-! DEFINITION. Records of the state, second part: the running and staged image (02), sessions (03). -/

namespace Sys2Proof.Machine

/-! ## The Voltiov image -/

/-- A section of an image (R33, R34): TYPE, SLICE, INDEX and its bytes. -/
structure Section where
  type : Nat
  slice : Nat
  index : Nat
  data : Bytes
  deriving DecidableEq, Repr

/-- A slice entry (R36): bit masks of clusters, pseudo-channel groups and ports. -/
structure SliceEnt where
  clusters : Nat := 0
  pcgs : Nat := 0
  ports : Nat := 0
  deriving DecidableEq, Repr

/-- An image as the device runs it (R32..R38, R47): header values, slice entries, sections. -/
structure Image where
  /-- KIND 2: partial. -/
  partial_ : Bool := false
  raiseSvn : Bool := false
  discard : Bool := false
  svn : Nat := 0
  imageId : U64 := 0
  baseId : U64 := 0
  tableLog2 : Nat := 16
  /-- Content hash (R35). -/
  hash : U256 := 0
  /-- Author slot. -/
  slot : Nat := 0
  slices : Tab SliceEnt := []
  sections : List Section := []
  deriving DecidableEq, Repr

/-- IMG_STATUS.STATE (R57). -/
inductive ImgState where
  | none | loaded | fetching | verifying | staged | installing
  deriving DecidableEq, Repr

/-- An image load under way: between steps 6 and 9 of the partial load sequence (R48). -/
structure Load where
  image : Image
  /-- Slices the load names. -/
  named : List Nat
  tag : Option Tag
  /-- The image had been staged by MODE 1 and is loaded by MODE 2 (R51). -/
  second : Bool := false
  deriving DecidableEq, Repr

/-- The image side of the device (R32..R58). -/
structure ImgSt where
  running : Option Image := none
  /-- A verified staged image (R51). -/
  staged : Option Image := none
  /-- The image that ran before a warm or package reset: whose slices held the Winter areas and pool contributions that HBM still
  holds, for the decision of R93 and R320 at the boot load (model's own). -/
  before : Option Image := none
  load : Option Load := none
  deriving DecidableEq, Repr

/-! ## Sessions -/

/-- Season encoding (R66). -/
inductive Season where
  | empty | autumn | summer | winter | spring | closing
  deriving DecidableEq, Repr

/-- The encoding of a season (table *Season encoding*). -/
def Season.code : Season → Nat
  | .empty => 0 | .autumn => 1 | .summer => 2 | .winter => 3 | .spring => 4 | .closing => 5

/-- Operations in progress (R66). -/
inductive SessOp where
  | none | parkHost | parkOwn | thaw | migrateOut | migrateIn | fork | close
  deriving DecidableEq, Repr

/-- The encoding of OP (table *Operations in progress*). -/
def SessOp.code : SessOp → Nat
  | .none => 0 | .parkHost => 1 | .parkOwn => 2 | .thaw => 3 | .migrateOut => 4 | .migrateIn => 5
  | .fork => 6 | .close => 7

/-- Owner states (R90). -/
inductive OwnerState where
  | none | owned | handing | prepared | committed
  deriving DecidableEq, Repr

/-- The encoding of OWNER_STATE (table *Owner states*). -/
def OwnerState.code : OwnerState → Nat
  | .none => 0 | .owned => 1 | .handing => 2 | .prepared => 3 | .committed => 4

/-- Held reasons (R66). -/
inductive HeldReason where
  | none | noPage | owner | ringFull
  deriving DecidableEq, Repr

/-- The encoding of HELD_REASON (table *Held reasons*). -/
def HeldReason.code : HeldReason → Nat
  | .none => 0 | .noPage => 1 | .owner => 2 | .ringFull => 3

/-- A request entry (R68). `tag` says where its completion goes (model's own). -/
structure Request where
  /-- OPCODE: 0x10 live, 0x00 completed or empty. -/
  opcode : Nat := 0
  kind : Nat := 0
  rflags : Nat := 0
  reqSeq : U32 := 0
  handle : U64 := 0
  requestId : U64 := 0
  inputAddr : U64 := 0
  inputLen : Nat := 0
  maxNew : Nat := 0
  deadline : U64 := 0
  tokenRing : Nat := 0
  temp : U16 := 0
  topP : U16 := 0
  topK : Nat := 0
  seed : U64 := 0
  tag : Option Tag := none
  /-- Its token ring and completion queue lie at this device and slice since a tail handover (R175). -/
  away : Option (Nat × Nat) := none
  /-- When its home die accepted it (R245): a number of the model's own that rises with each. -/
  order : Nat := 0
  deriving DecidableEq, Repr

/-- A session descriptor (R66). -/
structure Desc where
  season : Season := .empty
  ownerState : OwnerState := .none
  gen : Nat := 1
  slice : Nat := 0
  ringPos : Nat := 0
  pageMaxLog2 : Nat := 0
  runahead : Bool := false
  stream : Bool := false
  tail : Bool := false
  deep : Bool := false
  deepOk : Bool := false
  dclass : Nat := 0
  prot : Bool := false
  pinned : Bool := false
  sessionId : U64 := 0
  ownerEpoch : Nat := 0
  mapEpoch : Nat := 0
  palette : Nat := 0xFFFF
  ringSize : Nat := 0
  op : SessOp := .none
  pageBudget : Nat := 0
  windowBase : Nat := 0
  ptRoot : Nat := 0
  stretchOffset : Nat := 0
  committedLen : Nat := 0
  tentativeLen : Nat := 0
  pagesHeld : Nat := 0
  lastSummerPkc : U64 := 0
  canvasAddr : U64 := 0
  canvasLen : Nat := 0
  canvasTier : Nat := 0
  heldReason : HeldReason := .none
  heldSteps : Nat := 0
  parent : U64 := 0
  children : Nat := 0
  ringNext : Nat := 0xFFFF
  ringPrev : Nat := 0xFFFF
  mirrorDev : Nat := 0xFFFF
  scratchLen : Nat := 0
  cursors : Nat := 0
  scratchAddr : Nat := 0
  reservePage : Nat := 0
  active : Request := {}
  pending : Request := {}
  deriving DecidableEq, Repr

/-- What the device keeps about a session's descriptor beside its 256 bytes: the commands that wait for its
operation (R71), the order of Empty descriptors (R65), and a CLOSE or FORK taken at the step end. -/
structure DescAux where
  /-- When the descriptor became Empty: 0 for one that has never been used (model's own counter of R65's order). -/
  emptyAt : Nat := 0
  parkTag : Option Tag := none
  thawTags : List Tag := []
  closeTag : Option Tag := none
  /-- CLOSE accepted in Summer, taken at the step end (R71). -/
  closeAtEnd : Bool := false
  /-- A page of its stream failed twice while it was Summer: it returns to Winter at the step end (R115). -/
  streamFailed : Bool := false
  /-- Its request ended with E_RING_LOST: it goes to Autumn at the step end, a pending request or none (R172). -/
  leaves : Bool := false
  /-- Devices of the ring that have sent this tail a RESULT, or that it has added (R120, R169): model's own. -/
  ringDevs : List Nat := []
  /-- A ring member's stretch is lost: every later request ends with E_RING_LOST (R173). -/
  ringLost : Bool := false
  /-- The cause of the own park under way: 1 idle, 2 pressure (R75). -/
  parkCause : Nat := 0
  /-- A child of a FORK that has not completed (R86): what its descriptor was before, for one that an earlier session had held
  (SLICE and `emptyAt`). -/
  before : Option (Option (Nat × Nat)) := none
  /-- The slice of RING_NEXT, by the standby's handle (R169). -/
  nextSlice : Nat := 0xFF
  deriving DecidableEq, Repr

end Sys2Proof.Machine
end

