-- ==== Sys2Proof/Machine/TypesMemory.lean ====
section
/-! DEFINITION. Records of the state, third part: HBM and its allocation, KV pages, objects (05, 11), canvases and
canvas work (04). -/

namespace Sys2Proof.Machine

/-! ## T1 memory -/

/-- An allocated region of HBM: physical address (R292), bytes, the slice it belongs to, whether it is protected and
under which key generation its bytes were written (R135, R158). -/
structure Region where
  pa : Nat
  size : Nat
  slice : Nat
  prot : Bool
  keygen : Nat
  deriving DecidableEq, Repr

/-- A KV page of one layer (R142) with the physical address of each of its three regions (R140), its count record
(RCP), and the bits of its leaves (R135). -/
structure KvPage where
  layer : Nat
  log2 : Nat
  /-- First stretch-local token. -/
  first : Nat
  elem : Nat
  scale : Nat
  side : Nat
  /-- Index of the count record; 0: never shared. -/
  rcp : Nat := 0
  /-- Not present: a streaming thaw has not brought it yet (R114). -/
  np : Bool := false
  /-- Some copy set holds the page and has not copied it (R118). -/
  guard : Bool := false
  deriving DecidableEq, Repr

/-- A granule that holds regions below 4 KiB (R144): area 0 elements, 1 scales, 2 sidecar; layer; number m. -/
structure Granule where
  area : Nat
  layer : Nat
  m : Nat
  pa : Nat
  rcp : Nat := 0
  deriving DecidableEq, Repr

/-- One layer's entry of a reserve record (R153). An address is 0 where the region lies in a granule that the session
already holds, or is absent. -/
structure ResEnt where
  layer : Nat
  elem : Nat
  scale : Nat
  side : Nat
  log2 : Nat
  /-- Granules newly taken with the reservation (R144). -/
  granules : List Granule
  deriving DecidableEq, Repr

/-- A translation table of a slice (R134): its level 0..3, its number (the virtual address bits above those it indexes), and
its physical address. What its entries hold is `State.entry`. Level 4 is no table but the page of the sampler records of 32
windows (R267), whose bytes are those of the sessions' records. -/
structure PtTable where
  slice : Nat
  level : Nat
  number : Nat
  pa : Nat
  deriving DecidableEq, Repr

/-- A leaf held in a translation cache (R137): its slice, the start and log2 of its span, the entry. -/
structure Cached where
  slice : Nat
  va : Nat
  log2 : Nat
  word : U64
  deriving DecidableEq, Repr

/-- A sampler record (R102, R267). -/
structure Sampler where
  counter : Nat := 0
  emitted : Nat := 0
  counterP : Nat := 0
  emittedP : Nat := 0
  /-- CARRY; 0xFFFF_FFFF for none. -/
  carry : Nat := 0xFFFFFFFF
  inputDone : Nat := 0
  cancel : Bool := false
  heldDue : Bool := false
  drafts : List Nat := []
  deriving DecidableEq, Repr

/-- A retrieval cursor slot of a window (R342). -/
structure Cursor where
  valid : Bool := false
  index : Nat := 0
  bytes : Bytes := []
  deriving DecidableEq, Repr

/-- What a resident session holds beside its descriptor. -/
structure SessKv where
  pages : List KvPage := []
  granules : List Granule := []
  reserve : List ResEnt := []
  /-- Physical address of the scratch objects (1 MiB) and of the cursor area; 0: none. -/
  scratchPa : Nat := 0
  cursorPa : Nat := 0
  sampler : Sampler := {}
  deriving DecidableEq, Repr

/-- A freed region that waits for its gesso (R317). `window` is slice × 2^14 + window when the region belonged to a
freed window (R131); `reset` says that a slice reset asked for it (R318). -/
structure Gesso where
  pa : Nat
  size : Nat
  slice : Nat
  window : Option Nat := none
  reset : Bool := false
  deriving DecidableEq, Repr

/-- An object of a slice (R295, R298): type code, range, tier, placement, and where its bytes lie. -/
structure Obj where
  type : Nat
  slice : Nat
  va : Nat
  /-- Length in 4 KiB units. -/
  units : Nat
  tier : Nat
  prot : Bool
  fetchLog2 : Nat := 0
  /-- T1: pieces (offset in the object, physical address, bytes). -/
  pieces : List (Nat × Nat × Nat) := []
  /-- T2: stripe members and the pool locator on each. -/
  members : List (Nat × Nat) := []
  /-- Stripe members whose POOL_ALLOC is not yet answered, and the MEM_ALLOC that waits for them. -/
  awaited : List Nat := []
  tag : Option Tag := none
  /-- Stripe members that left the composition or failed a READ (R305). -/
  failed : List Nat := []
  deriving DecidableEq, Repr

/-- A granule of a T2 object in the fetch area (R301..R304). -/
structure FetchGran where
  slice : Nat
  va : Nat
  size : Nat
  pa : Nat
  /-- The fetch is in flight. -/
  inflight : Bool
  /-- Order of the fetches: the earliest is evicted first. -/
  order : Nat
  /-- Unacknowledged WRITEs to its home. -/
  writes : Nat
  /-- The object is protected, and the generation the granule was fetched under (R420). -/
  prot : Bool := false
  keygen : Nat := 0
  deriving DecidableEq, Repr

/-- The memory side of the device. -/
structure MemSt where
  /-- HBM bytes by physical address (R292). -/
  data : Mem := []
  /-- Bytes of protected regions that nothing has written since their gesso (R309): start, length, generation. -/
  gessoed : List (Nat × Nat × Nat) := []
  /-- Physical addresses of poisoned sectors (R311, R312), ascending. -/
  poison : List Nat := []
  /-- 2 MiB units that hold written data (R318 dirty map), ascending, by physical address ÷ 2 MiB. -/
  dirty : List Nat := []
  regions : List Region := []
  gesso : List Gesso := []
  /-- Windows whose last gesso write has not completed (R131): slice × 2^14 + window. -/
  winGesso : List Nat := []
  /-- Count stores (R146): key die × 2^20 + record; value the count. -/
  counts : Tab Nat := []
  /-- KV state by descriptor index. -/
  kv : Tab SessKv := []
  objects : List Obj := []
  fetched : List FetchGran := []
  fetchOrder : Nat := 0
  /-- The granule of the last fetch fault (R301): slice × 2^52 + address. -/
  lastMiss : Option Nat := none
  /-- Corrected errors per core store row since the die's reset: key core × 2^17 + bank × 2^12 + row (R316). -/
  rowErrs : Tab Nat := []
  /-- Spare rows used per bank by run-time replacement: key core × 32 + bank (R316). -/
  spares : Tab Nat := []
  /-- The first bank without a spare has been reported, by core (R316). -/
  degraded : List Nat := []
  /-- Rows replaced at run time (R316), by the key of `rowErrs`. -/
  replaced : List Nat := []
  /-- Program INDEX of the slice's running job, or of its last job since its last slice reset (R133), by slice. -/
  curProg : Tab Nat := []
  /-- Translation tables (R134), in the order in which they were taken. -/
  tables : List PtTable := []
  /-- Translation caches of cores, and of walkers by 16 × die + walker (R137), oldest leaf first. -/
  coreTlb : Tab (List Cached) := []
  walkTlb : Tab (List Cached) := []
  /-- Where the next patrol read of a state die stands (R314), by die. -/
  patrolAt : Tab Nat := []
  deriving DecidableEq, Repr

/-! ## Canvases -/

/-- A page record of a canvas: its page map fields (R103) and its record (R104) before sealing. `bad` says its stored bytes
do not match PAGE_HASH. -/
structure CanvasPage where
  layer : Nat
  log2 : Nat
  first : Nat
  tokens : Nat
  compressed : Bool
  shared : Bool
  data : Bytes
  bad : Bool := false
  deriving DecidableEq, Repr

/-- A canvas (R99..R106) as its contents; `Canvas.bytes` writes its layout. -/
structure Canvas where
  prot : Bool := false
  deep : Bool := false
  compressed : Bool := false
  /-- SEAL: 0 none, 1 device, 2 composition. -/
  sealMode : Nat := 0
  sessionId : U64 := 0
  ownerEpoch : Nat := 0
  mapEpoch : Nat := 0
  /-- CANVAS_LEN in 4 KiB units. -/
  len : Nat := 0
  kvFormat : Nat := 0
  layers : Nat := 0
  stretchOffset : Nat := 0
  committedLen : Nat := 0
  compositionId : U64 := 0
  sourceDev : Nat := 0xFFFF
  sealNonce : Bytes := []
  modelHash : U256 := 0
  parkPkc : U64 := 0
  /-- The DESCRIPTOR section (R102). -/
  desc : Desc := {}
  sampler : Sampler := {}
  /-- PALETTE_REF: content hash and length in tokens. -/
  palette : Option (U256 × Nat) := none
  pages : List CanvasPage := []
  scratch : Bytes := []
  cursors : List Cursor := []
  /-- The trailer is written and complete (R105). -/
  complete : Bool := false
  /-- TRAILER_HASH matches. -/
  hashOk : Bool := true
  /-- DESCRIPTOR and PAGE_MAP match their directory hashes. -/
  mapOk : Bool := true
  /-- SAMPLER, PALETTE_REF, SCRATCH and CURSORS match their directory hashes. -/
  smallOk : Bool := true
  /-- The KV section matches its directory hash. -/
  kvOk : Bool := true
  /-- Reserved fields of the header block and the trailer are zero, and those of the page map. -/
  reservedOk : Bool := true
  mapZero : Bool := true
  /-- RAW_LENGTH of the KV section (R101). -/
  kvRaw : Nat := 0
  /-- Identity of the sealing device for SEAL 1: its DEVICE_ID and ZCOUNT at sealing. -/
  sealer : Nat := 0
  deriving DecidableEq, Repr

/-- The repair of a coded canvas under way (R383): the lost places in its list of members with the replacement of each and the
base that one has given; how far it has come: 0 the replacements' POOL_ALLOC, 1 reading, 2 writing. -/
structure Repair where
  repl : List (Nat × Nat × Option Nat)
  step : Nat := 0
  deriving DecidableEq, Repr

/-- Where a canvas lies: tier 1 in the slice's Winter area, 2 in the pool under a locator, 3 in host memory. -/
structure Stored where
  tier : Nat
  slice : Nat
  addr : U64
  /-- Freed, and waiting for its gesso. -/
  canvas : Canvas
  /-- Pool members that hold it, with the fragment each holds (R382). -/
  members : List (Nat × Nat) := []
  /-- Record generation RGEN of its canvas record (R382). -/
  rgen : Nat := 0
  repair : Option Repair := none
  /-- T1: the key generation it was written under (R418). -/
  keygen : Nat := 0
  deriving DecidableEq, Repr

/-- A canvas operation under way (R97, R107, R113, R114, R121): which, on which session, its class, the canvas it
makes or reads, and the pages (by position) still to copy or bring. -/
structure CanvasOp where
  index : Nat
  /-- 1 park, 2 thaw, 3 migration out, 4 migration in. -/
  kind : Nat
  lc : Bool
  canvas : Canvas
  tier : Nat
  addr : U64
  /-- Page records not yet written (park, migration) or rebuilt (thaw). -/
  todo : List Nat
  /-- Small sections still to do. -/
  small : Bool
  /-- Thaw end has been reached and pages are still streaming (R114). -/
  streaming : Bool := false
  /-- A page failed its hash once (R115). -/
  retried : List Nat := []
  /-- T2: the pool members that take it, with the base each has answered (R379, R382). -/
  members : List (Nat × Option Nat) := []
  /-- The operation waits for the end of a stream before its cut (R114). -/
  waiting : Bool := false
  /-- T2: its bytes have been sent to its members; the first failure among their responses. -/
  sent : Bool := false
  status : Nat := 0
  deriving DecidableEq, Repr

/-- The canvas side of the device. -/
structure CanvasSt where
  stored : List Stored := []
  ops : List CanvasOp := []
  /-- What each canvas engine runs, by package index 8n + e (R97, R128): session index, kind of its operation, item, and
  whether it is LC. -/
  engines : Tab (Nat × Nat × Nat × Bool) := []
  /-- Guarded pages (physical address of their elements) that a writer waits for (R118), ascending. -/
  prio : List Nat := []
  /-- Each state die's last idle park check (R81): PKC ÷ 2^26. -/
  idleChecked : Tab Nat := []
  deriving DecidableEq, Repr

end Sys2Proof.Machine
end

