-- ==== Sys2Proof/Machine/TypesServe.lean ====
section
/-! DEFINITION. Records of the state, fourth part: the palette and rings (06), saturation monitors (07), cores, jobs
and instances (08), steps, commit records and token rings (09). -/

namespace Sys2Proof.Machine

/-! ## Palette and rings -/

/-- A palette entry (R177..R181). -/
structure Pal where
  slice : Nat
  /-- Hash of the model program it is compiled for, and that program's INDEX. -/
  program : U256
  index : Nat
  /-- SHA3-256 of the source bytes, and their host address (R178). -/
  content : U256
  src : U64
  tokens : Nat
  /-- References (R181). -/
  refs : Nat := 0
  /-- The compile has ended (R179). -/
  ready : Bool := false
  prot : Bool := false
  /-- Parts by area and layer: offset in the entry's slot, physical address, bytes (R180). -/
  parts : List (Nat × Nat × Nat) := []
  tag : Option Tag := none
  deriving DecidableEq, Repr

/-- What a tail knows of one message of a layer it has sent round its ring (R170..R172). -/
structure RingWait where
  index : Nat
  layer : Nat
  part : Nat
  step : Nat
  /-- PKC at the QUERY's send. -/
  sent : U64
  /-- Devices whose RESULT has arrived, and the bodies of those results in arrival order. -/
  got : List Nat := []
  bodies : List Bytes := []
  /-- The QUERY as sent, to be sent again to a promoted member (R385). -/
  query : Bytes := []
  /-- Query head of its first column, which the message itself does not carry (model's own). -/
  head0 : Nat := 0
  deriving DecidableEq, Repr

/-- A QUERY that a member serves (R168, R170). -/
structure MemberQuery where
  index : Nat
  layer : Nat
  part : Nat
  step : Nat
  epoch : Nat
  tailDev : Nat
  rows : Nat
  heads : Nat
  pos0 : Nat
  body : Bytes
  deriving DecidableEq, Repr

/-! ## Saturation monitors (R210..R213) -/

/-- The monitors of a slice, by layer. -/
structure Sat where
  /-- Saturations of the running window; of MXFP4's shadow conversion while promoted. -/
  cur : Tab Nat := []
  /-- Count of the last completed window (SAT_COUNT). -/
  last : Tab Nat := []
  /-- Consecutive clean windows of promoted layers. -/
  clean : Tab Nat := []
  /-- Promoted layers, ascending (SAT_STATEk). -/
  promoted : List Nat := []
  /-- Changes that take effect at the next step start: layer, and 1 promote or 2 demote. -/
  change : List (Nat × Nat) := []
  deriving DecidableEq, Repr

/-! ## Cores and instances -/

/-- An engine command in its queue (R222, R226): opcode, the flags it sets, the flags it waits for, and whether its work
is done. -/
structure EngCmd where
  op : Nat
  setMask : Nat
  waitMask : Nat := 0
  /-- CLEAR_WAIT of the record. -/
  clear : Bool := false
  operands : Bytes := []
  done : Bool := false
  deriving DecidableEq, Repr

/-- Classes of instances (R237): ring partial, LC stage, BE. -/
inductive InstClass where
  | partial_ | lc | be
  deriving DecidableEq, Repr

/-- Partial states that an ATTN has written: where in core store and how many bytes, for which session, positions and query heads
(model's own; R167 merges partials of one query row and head). -/
structure AttnOut where
  at_ : Nat
  bytes : Nat
  index : Nat
  pos0 : Nat
  rows : Nat
  head0 : Nat
  heads : Nat
  deriving DecidableEq, Repr

/-- A kernel instance (R226, R227, R235). -/
structure Inst where
  slice : Nat
  kernel : Nat
  cls : InstClass
  /-- 0 decode rows, 1 prefill rows. -/
  phase : Nat := 0
  layer : Nat := 0
  /-- Index of its stage in the step plan. -/
  stage : Nat := 0
  part : Nat := 0
  parts : Nat := 1
  /-- Rows of the tensor it covers (SPLIT 1): first and number. -/
  rows : Nat × Nat := (0, 0)
  /-- KV head it covers (SPLIT 3). -/
  head : Nat := 0
  /-- Sessions whose rows it covers. -/
  sessions : List Nat := []
  /-- Next record, in records from the start of the code. -/
  pos : Nat := 0
  flags : Nat := 0
  loops : List Nat := []
  /-- Its END record has issued. -/
  ending : Bool := false
  /-- A kernel fault has stopped it (R238). -/
  faulted : Bool := false
  /-- The QUERY a partial instance serves. -/
  query : Option MemberQuery := none
  /-- The partial states it has written to core store, oldest first; those of a ring partial's earlier stages with their
  bytes. -/
  outs : List AttnOut := []
  gathered : List (AttnOut × Bytes) := []
  deriving DecidableEq, Repr

/-- A core (R221, R228, R230): its instance, engine queues by index, accumulators and store. -/
structure Core where
  inst : Option Inst := none
  queues : Tab (List EngCmd) := []
  /-- Accumulators of ME m, bank b: key ((4m + b) × 64 + row) × 64 + column. -/
  acc : Tab U32 := []
  /-- Core store bytes by offset. -/
  store : Mem := []
  /-- 4 KiB blocks whose written bit is set, ascending. -/
  written : List Nat := []
  /-- Lines (64 B) that hold poisoned data, ascending (R315). -/
  poison : List Nat := []
  deriving DecidableEq, Repr

/-! ## Jobs and steps -/

/-- A session's part in the running step (R246..R251). -/
structure BatchRow where
  index : Nat
  /-- Whether it brings its carry token (R246 row 1). -/
  carry : Bool := false
  /-- Input rows, and whether they exhaust the input (R247). -/
  chunk : Nat := 0
  last : Bool := false
  /-- Drafts it brings (R255). -/
  drafts : List Nat := []
  /-- Held at this step start. -/
  held : HeldReason := .none
  /-- Only the rows that fit are appended, and no token is sampled (R157). -/
  limited : Bool := false
  /-- Rows it brings, after a limit. -/
  rows : Nat := 0
  /-- Drafts that the step's draft head stages propose for the next step (R255). -/
  proposed : List Nat := []
  /-- First cause of R251 order 1 met in the step; 0 for none. -/
  cause : Nat := 0
  committed : Bool := false
  /-- COMMITTED_LEN at the step start. -/
  base : Nat := 0
  /-- Bytes of the pages it could not get (R82). -/
  wants : Nat := 0
  deriving DecidableEq, Repr

/-- A commit record (R224, R250): the handle, rows accepted, tokens delivered with their log-probabilities, how many of them
are accepted drafts, outcome (0xFFFF: the request goes on). -/
structure CommitRec where
  handle : U64
  rows : Nat := 0
  tokens : List Nat := []
  logprobs : List Nat := []
  accepted : Nat := 0
  outcome : Nat := 0xFFFF
  deriving DecidableEq, Repr

/-- One phase of a step (R235): stages still to dispatch as (stage, layer), and instances not yet ended. -/
structure Phase where
  todo : List (Nat × Nat) := []
  live : Nat := 0
  deriving DecidableEq, Repr

/-- JOB_STATUS.STATE (R243). -/
inductive JobState where
  | running | ending | suspended
  deriving DecidableEq, Repr

/-- The encoding of JOB_STATUS.STATE. -/
def JobState.code : JobState → Nat
  | .running => 1 | .ending => 2 | .suspended => 3

/-- A job (R239..R241, R245..R249). -/
structure Job where
  program : Nat
  state : JobState := .running
  /-- Number of the next step, or of the step that runs. -/
  next : Nat := 0
  inStep : Bool := false
  batch : List BatchRow := []
  decode : Phase := {}
  prefill : Phase := {}
  /-- P (R248), and P from the next step start on. -/
  share : Nat := 0
  nextShare : Nat := 0
  /-- The window of R248: Qp0, WP, WD, E, and whether its first step has started. -/
  qp0 : Nat := 0
  wp : Nat := 0
  wd : Nat := 0
  noPrefill : Nat := 0
  winOpen : Bool := false
  /-- Waiting LC stage instances in expansion order; BE instances in order; ring partial instances. -/
  lcWait : List Inst := []
  beWait : List Inst := []
  partialWait : List Inst := []
  /-- The commit log (R224, R250), newest first. -/
  log : List CommitRec := []
  endTag : Option Tag := none
  deriving DecidableEq, Repr

/-- A token ring (R257, R260). -/
structure TRing where
  fn : Nat
  log2 : Nat
  base : U64
  tailAddr : U64
  vector : Nat
  ien : Bool
  /-- P and C, modulo 2^32. -/
  p : Nat := 0
  c : Nat := 0
  /-- A message was sent in the running step (R259). -/
  msgSent : Bool := false
  deriving DecidableEq, Repr

/-- A FORK of a ring's tail that waits for the other members (R89): the parent, the children's ids and descriptors, where
their handles go, its completion. -/
structure ForkPend where
  index : Nat
  ids : List U64
  children : List Nat
  outAddr : Nat
  tag : Tag
  /-- Count records made for the FORK (R146), by key. -/
  fresh : List Nat := []
  deriving DecidableEq, Repr

/-- A request that a tail handover gave away (R175): the handle it named, its id, slice and token ring, where its completion
goes, and the device and slice that serve it. -/
structure Handed where
  handle : U64
  requestId : U64
  /-- Its session (R91). -/
  sid : U64 := 0
  slice : Nat
  ring : Nat
  tag : Option Tag
  dev : Nat
  devSlice : Nat
  /-- This device had the request from another one, where its ring and queue lie. -/
  via : Option (Nat × Nat) := none
  deriving DecidableEq, Repr

/-- Cores, jobs, token rings, palette, rings and monitors. -/
structure ServeSt where
  /-- Cores by global index 0..511. -/
  cores : Tab Core := []
  /-- Jobs by slice. -/
  jobs : Tab Job := []
  /-- Token rings, key slice × 2^14 + ring. -/
  rings : Tab TRing := []
  pals : Tab Pal := []
  sat : Tab Sat := []
  waits : List RingWait := []
  /-- Requests that home dies have accepted so far (R245, model's own). -/
  acceptCtr : Nat := 0
  /-- Requests of a reset function that end at their next commit point (R93): a session's index for its active request, index
  plus 2^24 for its pending one. -/
  dropped : List Nat := []
  /-- Cause that ends a session's active request at its next commit point, 0 none (R251 order 1). -/
  causes : Tab Nat := []
  /-- CANCEL commands that wait for the end of a session's request: index and tag (R264). -/
  cancels : List (Nat × Tag) := []
  /-- FORK commands taken at the step end (R71): parent index, operands and tag. -/
  forks : List (Nat × List Nat × Tag) := []
  /-- RING_EXTEND commands taken at the step end (R169): tail index, target device and slice, tag. -/
  extends_ : List (Nat × Nat × Nat × Tag) := []
  forkPends : List ForkPend := []
  handed : List Handed := []
  /-- Token rings of other devices that handed-over requests write to, key session index × 2^14 + ring (R175). -/
  awayRings : Tab TRing := []
  deriving DecidableEq, Repr

end Sys2Proof.Machine
end

