-- ==== Sys2Proof/Machine/TypesComp.lean ====
section
/-! DEFINITION. Records of the state, fifth part: the composition map, its quorum and liveness, pool ranges,
apertures, mirrors and handoffs (13, 04). -/

namespace Sys2Proof.Machine

/-- A map entry (R371). -/
structure Member where
  /-- 1 QW5200, 2 appliance. -/
  kind : Nat
  /-- 1 ACTIVE, 2 REMOVED. -/
  state : Nat := 1
  /-- Joined slices, bit s. -/
  slices : Nat := 0
  /-- 64 KiB units offered. -/
  pool : Nat := 0
  identity : U256 := 0
  /-- Epoch at which it was removed (entries are kept for two epochs). -/
  gone : Nat := 0
  deriving DecidableEq, Repr

/-- A link-state record (R378): PKC of its last refresh, its up ports with peer device and peer port, and the
appliances attached. -/
structure LinkRec where
  seen : U64
  ports : List (Nat × Nat × Nat) := []
  appliances : List Nat := []
  deriving DecidableEq, Repr

/-- A map change (R373, R375) with the member that proposed it. -/
structure MapChange where
  op : Nat
  device : Nat := 0
  slice : Nat := 0
  kind : Nat := 1
  identity : U256 := 0
  pool : Nat := 0
  force : Bool := false
  qlist : List Nat := []
  proposer : Nat := 0
  deriving DecidableEq, Repr

/-- What an outstanding request of this device belongs to (model's own: which operation its response continues). -/
inductive Purpose where
  /-- No operation waits for the response. -/
  | none
  /-- POOL_ALLOC of a canvas operation of a session (R107, R381). -/
  | canvasAlloc (index : Nat)
  /-- POOL_ALLOC of a T2 object (R298) or of an aperture (R380), by slice and address. -/
  | objAlloc (slice va : Nat)
  | aperture (slice va : Nat)
  /-- READ of a granule of a T2 object (R301). -/
  | fetch (slice va off : Nat)
  /-- WRITE of a T2 object's data to its home (R303). -/
  | homeWrite (slice va : Nat)
  /-- A mover transfer of a core (R225): READ into core store, or WRITE. -/
  | mover (core : Nat) (dst len : Nat)
  /-- MIRROR_ROWS, MIRROR_COMMIT or MIRROR_STATE of a session (R85, R152, R363). -/
  | mirror (index step : Nat)
  /-- A handoff message about a session (R122). -/
  | handoff (index : Nat)
  /-- RING_CMD: the command it carries and the session. -/
  | ring (kind index : Nat)
  /-- A part of a retrieval operation (R344, R345), by operation and row. -/
  | ret (op row : Nat)
  /-- A message of the map quorum (R373, R374). -/
  | map
  /-- Checkpoint data or its commit record (R396..R400), by slice and checkpoint number. -/
  | ckpt (slice num : Nat)
  /-- Canvas bytes or fragments of a session (R111, R382). -/
  | canvasData (index : Nat)
  /-- The repair of a coded canvas (R383), by its locator. -/
  | repair (addr : Nat)
  /-- RECORD_QUERY of the arbiter about a session (R123); the device asked. -/
  | arb (sid dev : Nat)
  /-- RESOLVE of the arbiter (R123); how many sides have to apply it after this one. -/
  | resolve (sid remaining : Nat)
  /-- PROPOSE of the COMP_CHANGE that waits under a number (R373). -/
  | propose (id : Nat)
  deriving DecidableEq, Repr

/-- A request of this device that has no response yet (R361, R362). -/
structure Txn where
  dev : Nat
  tag : Nat
  type : Nat
  op : Nat
  slice : Nat
  args : List Nat
  payload : Bytes
  /-- PKC when it was first sent and when it was last sent; times it was sent again. -/
  first : U64
  last : U64
  tries : Nat := 0
  /-- It waits because 4,096 requests to the device are outstanding. -/
  held : Bool := false
  /-- PKC of the DROP that a meter answered it with, until it is issued again (R284). -/
  dropped : Option U64 := none
  /-- The port it left on; 48: no route existed (R364). -/
  port : Nat := 48
  /-- It was answered with E_STALE_MAP and waits for a newer map (R377). -/
  stale : Bool := false
  purpose : Purpose
  deriving DecidableEq, Repr

/-- The tag window a target keeps per source (R361): the highest tag received, status and result of the executed ones, and
the tags of requests that are answered later. -/
structure TagWindow where
  highest : Nat
  done : Tab (Nat × Nat) := []
  running : List Nat := []
  deriving DecidableEq, Repr

/-- A RING_CMD that this device has carried on to the next member and whose answer it awaits (R67, R89, R120): its kind, the
session here, a FORK's ids, and who is answered: the member above, or a host command. -/
structure Relay where
  kind : Nat
  index : Nat
  ids : List U64 := []
  hdr : Option TxHdr := none
  tag : Option Tag := none
  /-- Count records made here for a FORK (R146), by key. -/
  fresh : List Nat := []
  deriving DecidableEq, Repr

/-- A handoff the arbiter resolves (R123, R124): the session, the giver and the receiver, each side's owner record once
known (OWNER_STATE and OWNER_EPOCH × 2^8), the PKC of the last questions. -/
structure ArbCase where
  sid : U64
  giver : Nat
  receiver : Nat
  given : Option Nat := none
  received : Option Nat := none
  asked : U64 := 0
  /-- The decision once made: the receiver owns, and the owner epoch; and how many sides still have to apply it. -/
  decided : Option (Bool × Nat) := none
  remaining : Nat := 2
  deriving DecidableEq, Repr

/-- A change that waits at the arbiter (R373): the PROPOSE it came with, or the number of this device's own COMP_CHANGE;
neither for a change this device proposes itself. -/
structure Proposal where
  change : MapChange
  hdr : Option TxHdr := none
  own : Option Nat := none
  deriving DecidableEq, Repr

/-- Ring roles and records aside, what a device keeps of its composition (R371..R378, R387). -/
structure CompSt where
  id : U64 := 0
  epoch : Nat := 0
  quorum : List Nat := []
  members : Tab Member := []
  links : Tab LinkRec := []
  /-- Since when (PKC) this device has found a member unreachable (R378). -/
  cutSince : Tab U64 := []
  /-- The vote record (R373, R374): the epoch and change voted for or prepared. -/
  vote : Option (Nat × MapChange) := none
  /-- The vote record was lost in a cold reset (R374). -/
  voteLost : Bool := false
  /-- Arbiter: proposals in arrival order; yes votes for the one at the front; PKC of its PREPARE. -/
  queue : List Proposal := []
  votes : List Nat := []
  prepared : Option U64 := none
  /-- COMP_CHANGE commands that wait (R373 step 6), by a number of the model's own: where the completion goes. -/
  waiting : Tab Tag := []
  /-- This device has been the arbiter since it last looked, and MAP_STATE replies it has had since then (R374). -/
  leads : Bool := false
  heard : List Nat := []
  /-- Forwarding records (R377): kind of target, its number, the new holder, the epoch at which it left. -/
  forward : List (Nat × Nat × Nat × Nat) := []
  /-- Next TAG by destination; outstanding requests, oldest first; tag windows by source (R361). -/
  nextTag : Tab Nat := []
  outst : List Txn := []
  windows : Tab TagWindow := []
  relays : List Relay := []
  arbCases : List ArbCase := []
  /-- Sessions this device has given away: id, slice and the handle they had here (R123). -/
  left : List (U64 × Nat × U64) := []
  deriving DecidableEq, Repr

/-- A range of this device's pool contribution (R379): base in 64 KiB units, units, owner device and slice, the slice
whose contribution it lies in. -/
structure PoolRange where
  base : Nat
  units : Nat
  owner : Nat
  ownerSlice : Nat
  slice : Nat
  /-- Kept because it begins with a valid canvas record (R379). -/
  kept : Bool := false
  deriving DecidableEq, Repr

/-- An aperture (R380). -/
structure Aperture where
  slice : Nat
  va : Nat
  units : Nat
  member : Nat
  /-- Base address on the member; none until POOL_ALLOC is answered. -/
  base : Option Nat
  tag : Option Tag := none
  deriving DecidableEq, Repr

/-- A mirror this device holds (R384); its pages lie in the KV table under `mirrorKey`. -/
structure Mirror where
  sessionId : U64
  ringPos : Nat
  epoch : Nat
  offset : Nat
  committed : Nat
  tentative : Nat
  slice : Nat
  window : Nat
  primary : Nat
  sampler : Sampler := {}
  prot : Bool := false
  scratch : Bytes := []
  cursors : List Cursor := []
  deriving DecidableEq, Repr

/-- A handoff as one side records it (R121..R127). -/
structure Handoff where
  index : Nat
  /-- This side gives. -/
  giver : Bool
  peer : Nat
  peerSlice : Nat
  /-- Epoch offered. -/
  epoch : Nat
  /-- Last step of *Ownership handoff* or *Tail handover* reached. -/
  step : Nat
  /-- A tail handover (R174) rather than a migration. -/
  tail : Bool := false
  tier : Nat := 0
  /-- PKC since which the next message is awaited (HANDOFF_LIMIT). -/
  since : U64
  /-- Handle of the receiver's descriptor once known; handle of the giver's. -/
  peerHandle : U64 := 0
  own : U64 := 0
  tag : Option Tag := none
  /-- The request of the tail that carries a member's MIGRATE (R120). -/
  reply : Option TxHdr := none
  sid : U64 := 0
  /-- This side's slice. -/
  slice : Nat := 0
  /-- A reset has ended the giver's session (R127). -/
  lost : Bool := false
  /-- The session is Winter; only its descriptor moves (R126). -/
  winter : Bool := false
  descOnly : Bool := false
  /-- Receiver: pieces of the canvas stream, by offset. -/
  stream : Tab Bytes := []
  deriving DecidableEq, Repr

end Sys2Proof.Machine
end

