-- ==== Sys2Proof/Machine/TypesNet.lean ====
section
/-! DEFINITION. Records of the state, sixth part: Barsar ports (R354..R369), egress queues (R278, R280), token buckets
of regulators and meters (R274..R284), and requests held for a newer map (R377). -/

namespace Sys2Proof.Machine

/-- A token bucket (R275, R282): its content in milli-bytes as of a PKC value. -/
structure Bucket where
  level : Int := 0
  at_ : U64 := 0
  deriving DecidableEq, Repr

/-- A transaction that waits in an egress queue of a port (R278): the virtual lane it travels on, the queue (0..3
strict, 4..11 the DRR queues), the flits of the transaction and those not yet sent. -/
structure Egress where
  vl : Nat
  queue : Nat
  size : Nat
  left : Nat
  /-- The request of this device that it is, by destination and tag; none for a response or transit traffic. -/
  who : Option (Nat × Nat) := none
  deriving DecidableEq, Repr

/-- A port (R354..R368, R388). -/
structure Port where
  /-- STATE of the table *Port states*. -/
  state : Nat := 0
  /-- Active lanes. -/
  width : Nat := 0
  /-- Of a port at ×4, the group that trained: 0 lanes 0..3, 1 lanes 4..7 (R354). -/
  half : Nat := 0
  /-- Step of *Port bring-up* the port waits at; 0 when it is not being brought up. -/
  step : Nat := 0
  /-- PKC at which a bring-up step failed or the port entered FAILED (R366). -/
  failedAt : U64 := 0
  peerDev : Nat := 0xFFFF
  peerPort : Nat := 0
  peerKind : Nat := 0
  cipher : Bool := false
  /-- KEY_PHASE of the transmit and of the receive direction (R368). -/
  keyPhase : Bool := false
  rxPhase : Bool := false
  /-- Frames of each direction under its current key (R367). -/
  txFrames : Nat := 0
  rxFrames : Nat := 0
  /-- A rekey of the transmit direction is under way; its new key is ready (R368). -/
  rekeying : Bool := false
  /-- Number of keys derived for the port since bring-up (the keys themselves are uninterpreted). -/
  keys : Nat := 0
  /-- Next SEQ of a DATA flit, and the flits in the retry buffer: SEQ, replays, and the request they belong to, oldest
  first (R357). -/
  txSeq : Nat := 0
  unacked : List (Nat × Nat × Option (Nat × Nat)) := []
  /-- Expected SEQ, DATA flits received since the last acknowledgement, and the PKC of that acknowledgement. -/
  rxSeq : Nat := 0
  sinceAck : Nat := 0
  lastAck : U64 := 0
  /-- A NAK has been sent for the expected flit, and it has not arrived. -/
  nakSent : Bool := false
  /-- Credits this end holds per lane, and flits in its ingress buffers per lane (R358). -/
  credits : Tab Nat := []
  ingress : Tab Nat := []
  /-- Transactions that wait for egress, in arrival order (R278), and deficit counters by DRR queue (R280). -/
  egress : List Egress := []
  deficit : Tab Nat := []
  /-- Meter buckets by entry: committed and peak (R282). -/
  meters : Tab (Bucket × Bucket) := []
  deriving DecidableEq, Repr

/-- A request held while the receiver fetches a newer map (R377 order 3). -/
structure HeldTx where
  since : U64
  hdr : TxHdr
  cmd : Instr
  deriving DecidableEq, Repr

/-- The link side of the device. -/
structure NetSt where
  ports : Tab Port := []
  /-- Regulator buckets, key 16 × slice + regulator: 0..7 HBM, 8 LINK, 9 CANVAS (R274). -/
  buckets : Tab Bucket := []
  /-- Committed RATE and CFG of each regulator, by the same key (R277). -/
  regCfg : Tab (Nat × Nat) := []
  /-- Committed SEL, CIR, PIR and BURST of each meter entry, key 64 × slice + entry (R288). -/
  meterCfg : Tab (Nat × Nat × Nat × Nat) := []
  /-- Regulators at which an LC transfer waits for tokens (R275), by the key of `buckets`. -/
  lcWaits : List Nat := []
  held : List HeldTx := []
  /-- The request being decided was held and is decided again (R377; set only within EPOCH_HOLD_EXPIRY; model's own). -/
  redo : Bool := false
  /-- Round robin position of the spreading of transactions over ports (R364). -/
  next : Nat := 0
  deriving DecidableEq, Repr

end Sys2Proof.Machine
end

