-- ==== Sys2Proof/Machine/TypesRet.lean ====
section
/-! DEFINITION. Records of the state, seventh part: vector indexes, embedding tables and the operations on their engines
(12). -/

namespace Sys2Proof.Machine

/-- An index (R325). Its arrays lie in slice memory from `va` on, the rerank copy from `rva` on. -/
structure Index where
  slice : Nat
  num : Nat
  die : Nat
  dims : Nat
  vformat : Nat
  rformat : Nat
  metric : Nat
  degree0 : Nat
  degree : Nat
  levels : Nat
  beam : Nat
  attrBytes : Nat
  capacity : Nat
  upperCap : Nat
  serial : U64
  va : Nat
  rva : Nat
  /-- The entry point (R331); none while no vector is published. -/
  entry : Option Nat := none
  /-- The top level: the level of the entry point. -/
  top : Nat := 0
  /-- Upper link records in use: first and number (R327). -/
  uppers : List (Nat × Nat) := []
  /-- INDEX_DESTROY has been accepted (R349), and where its completion goes. -/
  destroyed : Bool := false
  dtag : Option Tag := none
  deriving DecidableEq, Repr

/-- A hot-row migration that waits (R350): the row, its hot slot, and whether it moves in. -/
structure Migration where
  row : Nat
  slot : Nat
  into : Bool
  deriving DecidableEq, Repr

/-- An embedding table (R343). -/
structure Table where
  slice : Nat
  num : Nat
  die : Nat
  rows : Nat
  rowBytes : Nat
  rformat : Nat
  shared : Bool
  tier : Nat
  prot : Bool
  hotMax : Nat
  /-- Addresses of the base object, hot area, hot map and default row. -/
  va : Nat
  hotVa : Nat
  mapVa : Nat
  defaultVa : Nat
  version : Nat := 1
  /-- The staged base object (R348). -/
  staged : Option Nat := none
  /-- An accepted TABLE_SWITCH that has not taken effect, and where its completion goes. -/
  switching : Option (Option Tag) := none
  /-- A switch that has taken effect: the discarded base, the requests that started before it, its completion. -/
  discarded : Option (Nat × List Nat × Option Tag) := none
  /-- The hot map: slot to row. -/
  hot : Tab Nat := []
  /-- The pending hot list (R350). -/
  pendingHot : Option (List Nat) := none
  migrations : List Migration := []
  /-- By row, the source device of the last update and the step boundary number or PKC it was applied at (R346). -/
  lastUpdate : Tab (Nat × Nat) := []
  destroyed : Bool := false
  /-- Where the completion of TABLE_DESTROY goes. -/
  dtag : Option Tag := none
  /-- The hot map of the version that a switch discarded, for the requests started before it (R348). -/
  hotOld : Tab Nat := []
  deriving DecidableEq, Repr

/-- What a search or gather engine does (R323). -/
inductive RetKind where
  | search | insert | delete | compact | gather | scatterAdd | scatterSet
  deriving DecidableEq, Repr

/-- A retrieval operation accepted and not yet ended. -/
structure RetOp where
  /-- Order of acceptance. -/
  id : Nat
  kind : RetKind
  slice : Nat
  num : Nat
  /-- State die (0..7) whose engines run it. -/
  die : Nat
  lc : Bool := false
  tag : Option Tag := none
  /-- The engine that runs it; none while it waits. -/
  engine : Option Nat := none
  sflags : Nat := 0
  k : Nat := 0
  beam : Nat := 0
  cand : Nat := 0
  hops : Nat := 0
  fillHops : Nat := 0
  query : Bytes := []
  filter : Bytes := []
  /-- Result, destination or source address; in slice memory where `isVa`. -/
  addr : Nat := 0
  isVa : Bool := false
  /-- Session, cursor slot and QUERY_OFF of a SEARCH with SAVE. -/
  save : Option (Nat × Nat × Nat) := none
  /-- Session and cursor slot of a SEARCH_NEXT, and the node after which it goes on. -/
  cursor : Option (Nat × Nat) := none
  after : Option (U32 × Nat) := none
  /-- Vector id, source elements and attributes of an INSERT. -/
  vec : Nat := 0
  elems : Bytes := []
  attrs : Bytes := []
  /-- Index list of a gather or scatter, the owner device, and a scatter's rows. -/
  list : List Nat := []
  owner : Nat := 0xFFFF
  rows : List Bytes := []
  /-- Table version it started under (R348). -/
  version : Nat := 0
  /-- Remote rows that have arrived, by position in the list; requests still without a response; first error. -/
  got : Tab Bytes := []
  /-- Those of them that are poisoned. -/
  gotBad : List Nat := []
  waiting : Nat := 0
  status : Nat := 0
  /-- A compaction has rewritten its lists and waits for these searches (R340). -/
  released : Option (List Nat) := none
  deriving DecidableEq, Repr

/-- A row of an ATOMIC that arrives in parts (R363): source device, slice, locator, operation, number of parts, and the
parts that have arrived. -/
structure PartRow where
  src : Nat
  slice : Nat
  addr : Nat
  op : Nat
  parts : Nat
  got : Tab Bytes := []
  deriving DecidableEq, Repr

/-- The retrieval side of the device. -/
structure RetSt where
  indexes : List Index := []
  tables : List Table := []
  ops : List RetOp := []
  nextId : Nat := 0
  /-- The slice served last by the engines of a die (R273): key 2 × die, + 1 for its gather engines. -/
  turn : Tab Nat := []
  parts : List PartRow := []
  deriving DecidableEq, Repr

end Sys2Proof.Machine
end

