-- ==== Sys2Proof/Machine/TypesCkpt.lean ====
section
/-! DEFINITION. Records of the state, eighth part: checkpoints (14). -/

namespace Sys2Proof.Machine

/-- A 4 KiB frame as a checkpoint holds it (R395, R398): its number (physical address ÷ 4,096), its bytes other than 0,
its protection and generation, and its poisoned sectors. -/
structure CkFrame where
  frame : Nat
  data : Mem
  prot : Bool
  keygen : Nat
  poison : List Nat
  /-- The packed blocks of a frame stored PACKED, where an image read from the pool holds them; empty where this device coded the
  frame (R399). -/
  packed : Bytes := []
  /-- A protected frame that nothing has written since its gesso: its stored bytes are all zero (R309, R399). -/
  gesso : Bool := false
  deriving DecidableEq, Repr

/-- A checkpoint image on its target (R397, R398), as its contents: the manifest's fields, the metadata of R390 and the
frames. -/
structure CkImage where
  slice : Nat
  ckpt : Nat
  step : Nat
  pkc : U64
  clusters : Nat
  pcgs : Nat
  tableLog2 : Nat
  device : Nat
  count : Nat
  modelHash : Option U256
  /-- The commit record is present and its hash holds. -/
  committed : Bool := false
  /-- Every DIGEST, the frame table and the metadata match. -/
  hashOk : Bool := true
  frames : List CkFrame := []
  desc : Tab Desc := []
  kv : Tab SessKv := []
  counts : Tab Nat := []
  regions : List Region := []
  objects : List Obj := []
  pals : Tab Pal := []
  ptables : List PtTable := []
  indexes : List Index := []
  tables : List Table := []
  /-- T1 canvases, which lie in general capacity (R390). -/
  stored : List Stored := []
  deriving DecidableEq, Repr

/-- How far a checkpoint in flight has come (R397, R395, R400). -/
inductive CkPhase where
  /-- POOL_ALLOC of the target is not answered yet. -/
  | target
  /-- Frames are copied into the spare slots. -/
  | staging
  /-- The old commit record is being overwritten with zeros. -/
  | zeroing
  /-- Frames, table, metadata and manifest are being written. -/
  | draining
  /-- The commit record is being written. -/
  | committing
  deriving DecidableEq, Repr

/-- A checkpoint in flight. -/
structure Ckpt where
  slice : Nat
  num : Nat
  phase : CkPhase := .staging
  /-- Frames of the new set and of the old set that are not copied yet. -/
  fresh : List Nat := []
  old : List Nat := []
  /-- PCGs of the slice whose staging has not ended. -/
  pcgs : List Nat := []
  /-- Every staging record so far could be written (R395). -/
  records : Bool := true
  image : CkImage
  tag : Option Tag := none
  /-- Its drain goes on after a reset (R404). -/
  resumed : Bool := false
  deriving DecidableEq, Repr

/-- The target of a slice (R397): its members with the base each gave, and the last image of each parity. -/
structure CkTarget where
  slice : Nat
  members : List (Nat × Option Nat)
  /-- RGEN of the target records (R425). -/
  rgen : Nat := 0
  even : Option CkImage := none
  odd : Option CkImage := none
  deriving DecidableEq, Repr

/-- A restore under way (R403). -/
structure CkRestore where
  slice : Nat
  image : CkImage
  tag : Option Tag
  deriving DecidableEq, Repr

/-- The checkpoint side of the device. -/
structure CkptSt where
  flight : List Ckpt := []
  targets : List CkTarget := []
  /-- Frames (physical address ÷ 4,096) whose bits D0 and D1 are set, ascending (R391). -/
  d0 : List Nat := []
  d1 : List Nat := []
  /-- Parities of a slice all of whose bits are set (R397, R401, R403): bit 0 even, bit 1 odd. -/
  full : Tab Nat := []
  /-- PKC of the last cut or JOB_START, and the number of the step after it, by slice (R392). -/
  lastPkc : Tab U64 := []
  lastStep : Tab Nat := []
  /-- Number of the last step that ended, by slice (R392). -/
  ended : Tab Nat := []
  /-- Number of the next checkpoint, by slice. -/
  next : Tab Nat := []
  /-- CKPT_NOW commands that wait for a step end, by slice. -/
  now : Tab Tag := []
  restores : List CkRestore := []
  /-- Checkpoints whose drain resumes when their slice is defined again (R404). -/
  kept : List Ckpt := []
  deriving DecidableEq, Repr

end Sys2Proof.Machine

/-- A checkpoint target that this device did not allocate, as its target records and images read, by locator (R402): no state
of this device. -/
opaque Sys2Proof.Config.remoteTarget : Nat → Option Sys2Proof.Machine.CkTarget
end

