-- ==== Sys2Proof/Machine/State.lean ====
section
/-! DEFINITION. The state of the block, what a step can stop with, and the state after reset. -/

namespace Sys2Proof.Machine

/-- The whole state of one QW5200. -/
structure State where
  /-- Commands waiting, first in, first out. -/
  pending : List Instr := []
  /-- How many free values the machine has drawn (model's own field, log entry 1). -/
  free : Nat := 0
  /-- Stored register values by BAR0 offset; a register not listed holds its reset value (R489). -/
  regs : Tab U32 := []
  /-- Rails, clocks, dies, power. -/
  pkg : Pkg := {}
  flash : Flash := {}
  log : ErrLog := {}
  host : HostSt := {}
  sec : Sec := {}
  img : ImgSt := {}
  /-- Session descriptors by index; one not listed is Empty and has never been used (R59, R66). -/
  desc : Tab Desc := []
  /-- What the device keeps beside a descriptor. -/
  aux : Tab DescAux := []
  /-- Orders the descriptors by the time they became Empty (R65; model's own). -/
  emptyCtr : Nat := 0
  /-- HBM, KV pages, objects (chapters 05, 11). -/
  mem : MemSt := {}
  /-- Canvases and canvas work (chapter 04). -/
  cnv : CanvasSt := {}
  /-- Cores, jobs, token rings, the palette (chapters 06..09). -/
  srv : ServeSt := {}
  /-- The composition (chapter 13). -/
  comp : CompSt := {}
  pool : List PoolRange := []
  apertures : List Aperture := []
  mirrors : List Mirror := []
  handoffs : List Handoff := []
  /-- Ports, egress, regulators and meters (chapters 10, 13). -/
  net : NetSt := {}
  /-- Indexes, tables and retrieval operations (chapter 12). -/
  ret : RetSt := {}
  /-- Checkpoints (chapter 14). -/
  ck : CkptSt := {}
  deriving DecidableEq, Repr

/-- Why the machine stops with a fault. -/
inductive Fault where
  /-- Raised by PATROL_READ of an address above 40 bits, which names no memory (R292). Safe: it stops. -/
  | noSuchAddress (a : Nat)
  deriving DecidableEq, Repr

/-- Why the machine refuses a command. -/
inductive Refusal where
  /-- Raised by an arm of `exec` whose command has no meaning yet. Safe: it stops. -/
  | notModelled (mnemonic : String)
  deriving DecidableEq, Repr

/-- The machine right after a cold reset has begun: VAUX12, VIO18 and REFCLK present, VIN48 absent, every register
at its reset value (R489), no memory listed, no session, no queue, no command waiting. -/
def State.reset : State := {}

end Sys2Proof.Machine
end

