-- ==== Sys2Proof/Machine/Ops.lean ====
section
/-! DEFINITION. Named operations over tables, byte strings, memory, registers, host memory, queues, events and the
error log: what every command's meaning is written with. -/

namespace Sys2Proof.Machine

/-! ## Tables -/

/-- The value at a key, if the table has one. -/
def tabGet {α : Type} : Tab α → Nat → Option α
  | [], _ => none
  | (k, v) :: t, i => if k = i then some v else tabGet t i

/-- The value at a key, or `d`. -/
def tabGetD {α : Type} (t : Tab α) (d : α) (i : Nat) : α := (tabGet t i).getD d

/-- The table with `v` at key `i`; keys keep rising. -/
def tabPut {α : Type} : Tab α → Nat → α → Tab α
  | [], i, v => [(i, v)]
  | (k, w) :: t, i, v =>
    if i < k then (i, v) :: (k, w) :: t
    else if i = k then (i, v) :: t
    else (k, w) :: tabPut t i v

/-- The table without key `i`. -/
def tabDel {α : Type} : Tab α → Nat → Tab α
  | [], _ => []
  | (k, w) :: t, i => if k = i then tabDel t i else (k, w) :: tabDel t i

/-- The smallest number from `n` on that is no key (of a table with rising keys). -/
def tabFresh {α : Type} : Tab α → Nat → Nat
  | [], n => n
  | (k, _) :: t, n => if k < n then tabFresh t n else if k = n then tabFresh t (n + 1) else n

/-- A set of numbers, ascending, with `n` in it. -/
def setInsert : List Nat → Nat → List Nat
  | [], n => [n]
  | k :: t, n => if n < k then n :: k :: t else if n = k then k :: t else k :: setInsert t n

/-! ## Byte strings (R3) -/

/-- The byte at an offset, 0 beyond the end. -/
def byteAt (b : Bytes) (i : Nat) : Nat := ((b.drop i).headD 0).toNat

/-- The little-endian number of the first `n` bytes (bytes beyond the end count as 0). -/
def leNat : Bytes → Nat → Nat
  | _, 0 => 0
  | [], _ + 1 => 0
  | x :: b, n + 1 => x.toNat + 256 * leNat b n

/-- The little-endian number of `n` bytes at an offset (R3). -/
def le (b : Bytes) (off n : Nat) : Nat := leNat (b.drop off) n

/-- The `n` bytes at an offset. -/
def sub (b : Bytes) (off n : Nat) : Bytes := (b.drop off).take n

/-- The `n` little-endian bytes of a number (R3). -/
def bytesOf : Nat → Nat → Bytes
  | 0, _ => []
  | n + 1, v => BitVec.ofNat 8 v :: bytesOf n (v / 256)

/-- `n` zero bytes. -/
def zeros (n : Nat) : Bytes := List.replicate n 0

/-- A string padded with zeros to `n` bytes. -/
def padTo (n : Nat) (b : Bytes) : Bytes := (b ++ zeros n).take n

/-- A 32-byte hash or key read at an offset. -/
def hashAt (b : Bytes) (off : Nat) : U256 := BitVec.ofNat 256 (le b off 32)

/-- The byte string of a hash. -/
def hashBytes (h : U256) : Bytes := bytesOf 32 h.toNat

/-- The `n` bytes at an offset are all zero. -/
def zeroAt (b : Bytes) (off n : Nat) : Bool := (sub b off n).all (· == 0)

/-! ## Memory -/

/-- The byte at an address; 0 where nothing is listed (log entry 3). -/
def memGet (m : Mem) (a : Nat) : U8 := tabGetD m 0 a

/-- A byte written; writing 0 removes the entry, so that equal memories are equal data. -/
def memPut (m : Mem) (a : Nat) (b : U8) : Mem := if b = 0 then tabDel m a else tabPut m a b

/-- `n` bytes from an address up. -/
def memRead (m : Mem) (a : Nat) : Nat → Bytes
  | 0 => []
  | n + 1 => memGet m a :: memRead m (a + 1) n

/-- Bytes written from an address up. -/
def memWrite (m : Mem) (a : Nat) : Bytes → Mem
  | [] => m
  | b :: bs => memWrite (memPut m a b) (a + 1) bs

/-- Every listed byte of the range removed: the range reads as 0. -/
def memClear (m : Mem) (a n : Nat) : Mem := m.filter fun c => c.1 < a || a + n ≤ c.1

/-- Canonical form: addresses strictly rising, no byte 0 listed. -/
def Mem.wf : Mem → Bool
  | [] => true
  | [(_, b)] => b != 0
  | (a, b) :: (a', b') :: m => b != 0 && decide (a < a') && Mem.wf ((a', b') :: m)

/-- The byte at a physical address (R309): one that nothing has written since its region's gesso is what zero ciphertext
decrypts to; else what memory lists. -/
def State.pget (s : State) (pa : Nat) : U8 :=
  match s.mem.gessoed.find? fun g => g.1 ≤ pa && pa < g.1 + g.2.1 with
  | some g => Config.gessoByte g.2.2 pa
  | none => memGet s.mem.data pa

/-- `n` bytes from a physical address up. -/
def State.pread (s : State) (pa : Nat) : Nat → Bytes
  | 0 => []
  | n + 1 => s.pget pa :: s.pread (pa + 1) n

/-- The ranges of gesso that are left once `n` bytes from `pa` on have been written. -/
def cutGesso (l : List (Nat × Nat × Nat)) (pa n : Nat) : List (Nat × Nat × Nat) :=
  if n = 0 then l
  else l.flatMap fun g =>
    if pa + n ≤ g.1 ∨ g.1 + g.2.1 ≤ pa then [g]
    else
      (if g.1 < pa then [(g.1, pa - g.1, g.2.2)] else []) ++
      (if pa + n < g.1 + g.2.1 then [(pa + n, g.1 + g.2.1 - (pa + n), g.2.2)] else [])

/-! ## Free values -/

/-- The next free value: a value the spec does not state (log entry 1). -/
def State.freeVal (s : State) : U64 := Config.freeValue s.free

/-- The state after a free value has been drawn. -/
def State.drew (s : State) : State := { s with free := s.free + 1 }

/-! ## Registers -/

/-- The stored value of a register: of unit `u`, number `i` of its row. -/
def State.reg (s : State) (r : Reg) (u i : Nat) : Nat :=
  match tabGet s.regs (r.addr u i) with
  | some v => v.toNat
  | none => r.rstVal

/-- A register's stored value set. -/
def State.setReg (s : State) (r : Reg) (u i v : Nat) : State :=
  { s with regs := tabPut s.regs (r.addr u i) (BitVec.ofNat 32 v) }

/-- A field of a register. -/
def State.fld (s : State) (r : Reg) (u i lo w : Nat) : Nat := bitsOf (s.reg r u i) lo w

/-- A field of a register set. -/
def State.setFld (s : State) (r : Reg) (u i lo w v : Nat) : State :=
  s.setReg r u i (putBits (s.reg r u i) lo w v)

/-- A counter raised by `n`, stopping at 0xFFFF_FFFF (R484). -/
def State.bump (s : State) (r : Reg) (u n : Nat) : State :=
  s.setReg r u 0 (min 0xFFFFFFFF (s.reg r u 0 + n))

/-- The 64-bit value of a LO and HI pair. -/
def State.reg64 (s : State) (lo hi : Reg) (u : Nat) : Nat := s.reg lo u 0 + 2 ^ 32 * s.reg hi u 0

/-- A LO and HI pair set. -/
def State.setReg64 (s : State) (lo hi : Reg) (u v : Nat) : State :=
  (s.setReg lo u 0 (v % 2 ^ 32)).setReg hi u 0 (v / 2 ^ 32 % 2 ^ 32)

/-- A discarded or refused BAR0 access counted and recorded (R480, R487). -/
def State.accErr (s : State) (fn off : Nat) : State :=
  (s.bump .regAccErr 0 1).setReg .regAccLast 0 0 (2 ^ 26 * (fn % 64) + off % 2 ^ 26)

/-! ## Time, dies, power -/

/-- The package count (R7). -/
def State.pkc (s : State) : Nat := s.pkg.pkc.toNat

/-- The period of 2^20 PKC counts that runs: what a rule does every 2^20 counts it does once in each (R265, R514, R515). -/
def State.period (s : State) : Nat := s.pkc / 2 ^ 20

/-- A die's record. -/
def State.die (s : State) (d : Nat) : Die := tabGetD s.pkg.dies {} d

/-- A die's record replaced. -/
def State.setDie (s : State) (d : Nat) (x : Die) : State :=
  { s with pkg := { s.pkg with dies := tabPut s.pkg.dies d x } }

/-- DIE_STATE of a die (R430): 0 MEASURED, 1 UNMEASURED, 2 UNPOWERED. -/
def State.dieState (s : State) (d : Nat) : Nat :=
  let x := s.die d
  if !x.powered then 2 else if x.released && x.measured then 0 else 1

/-- Some die is not MEASURED (R430 UNMEASURED). -/
def State.unmeasured (s : State) : Bool := (List.range 20).any fun d => s.dieState d != 0

/-- No engine is busy, no instance waits, no command is outstanding (R497). -/
def State.quiet (s : State) : Bool :=
  s.srv.cores.all (·.2.inst.isNone) &&
  s.srv.jobs.all (fun j => !j.2.inStep && j.2.lcWait.isEmpty && j.2.beWait.isEmpty && j.2.partialWait.isEmpty) &&
  s.cnv.ops.isEmpty && s.ret.ops.isEmpty && s.mem.gesso.isEmpty && s.ck.flight.isEmpty &&
  s.mem.fetched.all (!·.inflight) && s.host.cqs.all (·.2.outstanding == 0)

/-- PWR_STATE.CURRENT (R497): 0 Active, 1 Idle, 2 Doze, 3 Hibernate. Idle is left at once, on any work. -/
def State.power (s : State) : Nat :=
  let v := s.fld .pwrState 0 0 0 2
  if v = 1 ∧ ¬ s.quiet then 0 else v

/-- The compute dies have no clocks or no power: Doze, Hibernate, thermal shutdown (R497, R516). -/
def State.clocksOff (s : State) : Bool := s.power == 2 || s.power == 3 || s.pkg.shutdown

/-- The device is in Hibernate (R499). -/
def State.hibernating (s : State) : Bool := s.power == 3

/-- SEC_STATUS.MODULE (R411): 0 SELFTEST, 1 APPROVED, 2 ERROR. -/
def State.module (s : State) : Nat := s.fld .secStatus 0 0 12 2

/-! ## The running image -/

/-- The slice entry of a slice the running image defines (R52). -/
def State.sliceEnt (s : State) (sl : Nat) : Option SliceEnt :=
  s.img.running.bind fun i => tabGet i.slices sl

/-- The running image defines the slice (R52). -/
def State.defined (s : State) (sl : Nat) : Bool := (s.sliceEnt sl).isSome

/-- A slice is in LOADING (step 6 of the partial load sequence). -/
def State.loading (s : State) (sl : Nat) : Bool :=
  match s.img.load with
  | some l => l.named.contains sl
  | none => false

/-- A section of an image. -/
def Image.sect (i : Image) (type sl index : Nat) : Option Bytes :=
  (i.sections.find? fun x => x.type == type && x.slice == sl && x.index == index).map (·.data)

/-- A section of the running image; empty where the image has none. -/
def State.sect (s : State) (type sl index : Nat) : Option Bytes :=
  s.img.running.bind fun i => i.sect type sl index

/-- The security policy section of a slice (R432). -/
def State.policy (s : State) (sl : Nat) : Bytes := (s.sect 0x0008 sl 0).getD []

/-- The slice runs in confidential mode (R432 CONFIDENTIAL). -/
def State.confidential (s : State) (sl : Nat) : Bool := s.defined sl && bitAt (byteAt (s.policy sl) 0) 0

/-- The slice of function `f` (R453): VFk serves slice k − 1; none for PF0 and PF1. -/
def fnSlice (f : Nat) : Option Nat := if f < 2 then none else some (f - 2)

/-- The function that serves a slice (R453), if one does: slices 62 and 63 have no VF. -/
def sliceFn (sl : Nat) : Option Nat := if sl < 62 then some (sl + 2) else none

/-- The slice a command names: from a VF its own slice, whatever the operand (R453). -/
def cmdSlice (fn sl : Nat) : Nat := (fnSlice fn).getD sl

/-- Dies with resources of a slice (R6, R27): compute dies by its clusters, state dies by its PCGs, link dies by
its ports. -/
def SliceEnt.dies (e : SliceEnt) : List Nat :=
  (List.range 8).filter (fun d => bitsOf e.clusters (8 * d) 8 != 0) ++
  ((List.range 8).filter fun n => bitsOf e.pcgs (8 * n) 8 != 0).map (· + 8) ++
  ((List.range 3).filter fun n => bitsOf e.ports (16 * n) 16 != 0).map (· + 16)

/-- The slices the running image defines. -/
def State.slices (s : State) : List Nat :=
  match s.img.running with
  | some i => i.slices.map (·.1)
  | none => []

/-! ## Outputs -/

/-- An output sent. -/
def State.emit (s : State) (o : Output) : State := { s with host := { s.host with out := o :: s.host.out } }

/-! ## Host memory -/

/-- The range can be read and written (model's own holes of host memory, log entry 4). -/
def State.hostOk (s : State) (a n : Nat) : Bool :=
  s.host.holes.all fun h => a + n ≤ h.1 || h.1 + h.2 ≤ a

/-- Host memory read; none where it cannot be read (E_HOST_READ). -/
def State.hostRead (s : State) (a n : Nat) : Option Bytes :=
  if s.hostOk a n then some (memRead s.host.mem a n) else none

/-- Host memory written; a range that cannot be written stays as it is. -/
def State.hostWrite (s : State) (a : Nat) (b : Bytes) : State :=
  if s.hostOk a b.length then { s with host := { s.host with mem := memWrite s.host.mem a b } } else s

/-! ## Queues, completions, interrupts, events -/

/-- The queue epoch of a CQ of a function: raised when a reset destroys the function's queues and, for its admin queues (ids
below 64), also when AQ_CFG destroys those (R472, R473). -/
def State.epoch (s : State) (fn cq : Nat) : Nat :=
  tabGetD s.host.epochs 0 fn + (if cq < 64 then tabGetD s.host.epochs 0 (64 + fn) else 0)

/-- MSI-X table size of a function (R452). -/
def msixSize (fn : Nat) : Nat := if fn < 2 then 2048 else 256

/-- A function's MSI-X message sent, or its pending bit set while the vector is masked (R466). -/
def State.interrupt (s : State) (fn vector : Nat) : State :=
  let k := 2048 * fn + vector
  if s.host.msixOn.contains k then s.emit (.msix fn vector)
  else { s with host := { s.host with msixPending := setInsert s.host.msixPending k } }

/-- The 32 bytes of a completion (R461). -/
def completionBytes (result : Bytes) (sq head cid status info : Nat) (phase : Bool) : Bytes :=
  (result ++ zeros 16).take 16 ++ bytesOf 2 sq ++ bytesOf 2 head ++ bytesOf 2 cid ++ bytesOf 2 status ++
  bytesOf 4 info ++ bytesOf 2 (boolBit phase) ++ zeros 2

/-- A completion written to its CQ (R461, R466). Nothing is written for a tag whose function's queues a reset has
destroyed (R472), nor while the device has stopped after a FATAL entry (R510). -/
def State.complete (s : State) (t : Tag) (status info : Nat) (result : Bytes) : State :=
  if s.epoch t.fn t.cq ≠ t.epoch ∨ s.pkg.fatal then s
  else
    match tabGet s.host.cqs t.cq with
    | none => s
    | some c =>
      let head := match tabGet s.host.sqs t.sq with
        | some q => q.head
        | none => 0
      let b := completionBytes result t.sq head t.cid.toNat status info c.phase
      let s1 := s.hostWrite (c.base.toNat + 32 * c.tail) b
      let last := c.tail + 1 = 2 ^ c.log2
      let send := c.ien && !c.msgSent
      let c' := { c with
        tail := if last then 0 else c.tail + 1
        phase := if last then !c.phase else c.phase
        outstanding := c.outstanding - 1
        msgSent := c.msgSent || c.ien }
      let s2 := { s1 with host := { s1.host with cqs := tabPut s1.host.cqs t.cq c' } }
      if send then s2.interrupt t.fn c.vector else s2

/-- Completes a command that may have no tag (its queue did not survive). -/
def State.completeOpt (s : State) (t : Option Tag) (status : Nat) (result : Bytes) : State :=
  match t with
  | some t => s.complete t status 0 result
  | none => s

/-- The 32 bytes of an event record (R467). -/
def eventBytes (type slice status pkc : Nat) (data : Bytes) (phase lost : Bool) : Bytes :=
  bytesOf 1 type ++ bytesOf 1 (boolBit phase + 2 * boolBit lost) ++ bytesOf 1 slice ++ zeros 1 ++
  bytesOf 2 status ++ zeros 2 ++ bytesOf 8 pkc ++ (data ++ zeros 16).take 16

/-- An event posted to event queue `q` (R467, R468): discarded where there is none; a full queue loses the event,
counts it in EQ_LOST and marks the next record. -/
def State.post (s : State) (q type slice status : Nat) (data : Bytes) : State :=
  match tabGet s.host.eqs q with
  | none => s
  | some e =>
    let n := 2 ^ e.log2
    let used := (e.tail + 2 * n - e.head) % (2 * n)
    if used ≥ n then
      ({ s with host := { s.host with eqs := tabPut s.host.eqs q { e with lost := true } } }).bump .eqLost e.fn 1
    else
      let b := eventBytes type slice status s.pkc data (e.tail < n) e.lost
      let s1 := s.hostWrite (e.base.toNat + 32 * (e.tail % n)) b
      let e' := { e with tail := (e.tail + 1) % (2 * n), lost := false, msgSent := true }
      let s2 := { s1 with host := { s1.host with eqs := tabPut s1.host.eqs q e' } }
      if e.msgSent then s2 else s2.interrupt e.fn e.vector

/-! ## The error log (R508..R510) -/

/-- The 64 bytes of an entry (R508). -/
def LogEntry.bytes (e : LogEntry) : Bytes :=
  bytesOf 4 e.seq ++ bytesOf 1 e.severity ++ bytesOf 1 e.die ++ bytesOf 1 e.slice ++ bytesOf 1 e.lflags ++
  bytesOf 8 e.pkc.toNat ++ bytesOf 2 e.code ++ bytesOf 2 e.source ++ bytesOf 4 e.unit ++ bytesOf 8 e.addr ++
  (e.detail ++ zeros 32).take 32

/-- Severity of a log source (table *Log sources*): 1 CORRECTED, 2 UNCORRECTED, 3 FATAL, 4 INFO. -/
def sourceSeverity (source : Nat) : Nat :=
  if source = 0x0001 ∨ source = 0x000A then 1
  else if source = 0x0010 ∨ source = 0x0011 then 3
  else if source = 0x000C then 4 else 2

/-- Writes an entry, unconditionally: sequence number, overwriting of the oldest, ALERT_N, the ERRLOG event, the
PLDM event message, AER, and HOST_STATUS.FATAL (R508..R510, R517). -/
def State.logWrite (s : State) (source die slice code unit : Nat) (addr : Option Nat) (detail : Bytes) : State :=
  let sev := sourceSeverity source
  let seq := s.reg .errlogTail 0 0
  let conf := slice < 64 && s.confidential slice
  let a := match addr with
    | some a => if conf then 2 ^ 21 * (a / 2 ^ 21) else a
    | none => 0
  let e : LogEntry :=
    { seq := seq, severity := sev, die := die, slice := slice
      lflags := boolBit addr.isSome + 2 * boolBit conf
      pkc := s.pkg.pkc, code := code, source := source, unit := unit, addr := a, detail := detail }
  let full := seq - s.reg .errlogHead 0 0 ≥ 1024
  let s1 := { s with log := { s.log with slots := tabPut s.log.slots (seq % 1024) e } }
  let s2 := s1.setReg .errlogTail 0 0 (seq + 1)
  let s3 := if full then
      (s2.setReg .errlogHead 0 0 (seq + 1 - 1024)).setFld .errlogCtrl 0 0 16 8
        (min 0xFF (s2.fld .errlogCtrl 0 0 16 8 + 1))
    else s2
  if sev = 2 ∨ sev = 3 then
    let s4 := { s3 with log := { s3.log with alert := s3.log.alert ++ [seq] } }
    let s5 := ((s4.post 64 0x05 0xFF 0 (bytesOf 4 seq)).emit (.aer (boolBit (sev = 3)))).emit (.pldmEvent seq)
    if sev = 3 then { s5 with pkg := { s5.pkg with fatal := true } } else s5
  else s3

/-- Logs an error (R509): a CORRECTED source at most once per unit per 2^26 counts. -/
def State.logErr (s : State) (source die slice code unit : Nat) (addr : Option Nat) : State :=
  if sourceSeverity source = 1 then
    let k := 2 ^ 32 * source + unit
    match tabGet s.log.lastCorrected k with
    | some p =>
      if s.pkc - p.toNat < 2 ^ 26 then s
      else ({ s with log := { s.log with lastCorrected := tabPut s.log.lastCorrected k s.pkg.pkc } }).logWrite
        source die slice code unit addr []
    | none => ({ s with log := { s.log with lastCorrected := tabPut s.log.lastCorrected k s.pkg.pkc } }).logWrite
        source die slice code unit addr []
  else s.logWrite source die slice code unit addr []

/-- ALERT_N is asserted (R509). -/
def State.alertN (s : State) : Bool := !s.log.alert.isEmpty

/-! ## Measurement registers (R427, R431) -/

/-- A measurement register changed: an AUTO report is due within 2^20 counts (R431). -/
def State.measChanged (s : State) : State :=
  match s.sec.reportDue with
  | some _ => s
  | none => { s with sec := { s.sec with reportDue := some s.pkg.pkc } }

/-- A measurement register set (R427). -/
def State.setMeas (s : State) (i : Nat) (v : U256) : State :=
  if tabGetD s.sec.meas 0 i = v then s
  else ({ s with sec := { s.sec with meas := tabPut s.sec.meas i v } }).measChanged

/-- GLB_GEN raised by one, wrapping (R485, R487). -/
def State.genUp (s : State) : State := s.setReg .glbGen 0 0 ((s.reg .glbGen 0 0 + 1) % 2 ^ 32)

/-! ## Event counters (R242, R511) -/

/-- `n` events of a source in a unit of a slice: each counter of the slice that selects the source, with the unit or
0xFF as its filter, rises. -/
def State.evc (s : State) (sl source unit n : Nat) : State :=
  (List.range 16).foldl (fun t k =>
    let sel := t.reg .evcSel sl k
    if bitsOf sel 0 8 = source ∧ (bitsOf sel 8 8 = 0xFF ∨ bitsOf sel 8 8 = unit) then
      t.setReg .evcCount sl k (min 0xFFFFFFFF (t.reg .evcCount sl k + n))
    else t) s

/-- A condition as a number of bits: all ones of the mask where it holds. -/
def whenB (b : Bool) (n : Nat) : Nat := if b then n else 0

end Sys2Proof.Machine
end

