-- ==== Sys2Proof/Machine/Clock.lean ====
section
/-! DEFINITION. The package count's advance (R7, R29, R529). -/

namespace Sys2Proof.Machine

/-- Counts the master copy gains in one idle step: one CCLK cycle, or the ten of an AON cycle while the root PLL of RT is
unlocked or unpowered (R7, R29); none without VAUX12. -/
def State.tickSize (s : State) : Nat :=
  if ¬ s.pkg.vaux12 then 0 else if (s.die 19).powered ∧ (s.die 19).locked then 1 else 10

/-- A die's PKC copy advanced by `n`: it is clocked by the CCLK of its own die (R28). -/
def Die.count (x : Die) (n : Nat) : Die := if x.powered ∧ x.locked then { x with pkc := x.pkc + BitVec.ofNat 64 n } else x

/-- The package count, the master and the copies, advanced with no command waiting. -/
def State.tick (s : State) : State :=
  { s with pkg := { s.pkg with
      pkc := s.pkg.pkc + BitVec.ofNat 64 s.tickSize
      dies := s.pkg.dies.map fun x => (x.1, x.2.count s.tickSize) } }

end Sys2Proof.Machine
end

