-- ==== Sys2Proof/Machine/Fabric.lean ====
section
/-! DEFINITION. The package fabric and the management lanes: the bridges between dies, the path of a transfer and of a management
packet (R14..R17, R20, R21). -/

namespace Sys2Proof.Machine

/-- The two dies that a bridge joins, by die index (table *Die-to-die bridges*, R14): XB0 to XB33. -/
def bridgeEnds : List (Nat × Nat) :=
  [(0, 8), (1, 9), (2, 10), (3, 11), (4, 12), (5, 13), (6, 14), (7, 15),
   (0, 1), (1, 2), (2, 3), (4, 5), (5, 6), (6, 7),
   (0, 4), (1, 5), (2, 6), (3, 7),
   (8, 9), (9, 10), (10, 11), (12, 13), (13, 14), (14, 15),
   (16, 3), (16, 11), (17, 3), (17, 7), (18, 7), (18, 15), (19, 0), (19, 4), (19, 8), (19, 12)]

/-- The bridge between two adjacent dies. -/
def bridgeOf (a b : Nat) : Option Nat := bridgeEnds.findIdx? fun e => e == (a, b) || e == (b, a)

/-! ## Fixed paths (R15) -/

/-- The row, 0 or 1, in which a die lies: CD0..CD3, SD0..SD3 and LD0, or CD4..CD7, SD4..SD7 and LD2. LD1 and RT lie in neither;
between these two row 0 counts (DESIGN CHOICE, log entry 75). -/
def rowOf (d : Nat) : Nat := if d < 16 then d % 8 / 4 else if d = 18 then 1 else 0

/-- The entry compute die of a die for rule 5 of *Fabric routing*, `other` being the other end (R15). -/
def entryDie (d other : Nat) : Nat :=
  if d < 16 then d % 8
  else if d = 16 then 3
  else if d = 18 then 7
  else if d = 17 then (if rowOf other = 0 then 3 else 7)
  else if rowOf other = 0 then 0 else 4

/-- The dies from `a` to `b` along one row of dies with rising indexes, `b` last, `a` left out. -/
def along (a b : Nat) : List Nat :=
  if a ≤ b then (List.range (b - a)).map (a + 1 + ·) else (List.range (a - b)).map (a - 1 - ·)

/-- Across the compute mesh from CD `a` to CD `b`: along the row of `a` first, then along the column; `a` left out. -/
def meshPath (a b : Nat) : List Nat := along a (4 * (a / 4) + b % 4) ++ if a / 4 = b / 4 then [] else [b]

/-- Both are state dies of one row. -/
def sameStateRow (a b : Nat) : Bool := 8 ≤ a && a < 16 && 8 ≤ b && b < 16 && rowOf a == rowOf b

/-- The state die through which a link die or RT is entered from the state row of die `d` (rules 3 and 4). -/
def rowGate (far d : Nat) : Option Nat :=
  if d < 8 ∨ 16 ≤ d then none
  else if far = 16 ∧ d < 12 then some 11
  else if far = 18 ∧ 12 ≤ d then some 15
  else if far = 19 then some (if d < 12 then 8 else 12)
  else none

/-- The dies of the fixed path from `a` to `b`, both ends included: the first rule of *Fabric routing* that matches (R15). -/
def fixedDies (a b : Nat) : List Nat :=
  if a = b then [a]
  else if (bridgeOf a b).isSome then [a, b]
  else if sameStateRow a b then a :: along a b
  else match rowGate a b, rowGate b a with
    | some g, _ => a :: g :: along g b
    | none, some g => a :: along a g ++ [b]
    | none, none =>
      let x := entryDie a b
      let y := entryDie b a
      let l := a :: (if x = a then [] else [x]) ++ meshPath x y
      if y = b then l else l ++ [b]

/-- The bridges that a sequence of dies crosses; none where two of them are not adjacent. -/
def bridgesAlong : List Nat → Option (List Nat)
  | a :: b :: l => match bridgeOf a b, bridgesAlong (b :: l) with
    | some x, some xs => some (x :: xs)
    | _, _ => none
  | _ => some []

/-! ## Paths that avoid some bridges (R16, R20) -/

/-- The dies one bridge of `up` away from a die, lowest bridge first. -/
def hopsFrom (up : List Nat) (d : Nat) : List Nat :=
  up.filterMap fun b =>
    let e := bridgeEnds.getD b (99, 99)
    if e.1 = d then some e.2 else if e.2 = d then some e.1 else none

/-- One more round of a breadth-first search: each path found so far, reversed, goes on to dies not yet reached. -/
def widen (up : List Nat) (paths : List (List Nat)) (seen : List Nat) : List (List Nat) × List Nat :=
  paths.foldl (fun a p =>
    (hopsFrom up (p.headD 99)).foldl (fun (a : List (List Nat) × List Nat) d =>
      if a.2.contains d then a else (a.1 ++ [d :: p], a.2 ++ [d])) a) ([], seen)

/-- The shortest path to `b` over bridges of `up`, found within `n` more rounds; of several the first in the order of bridge
numbers (DESIGN CHOICE, log entry 75). -/
def shortest (up : List Nat) (b : Nat) : Nat → List (List Nat) → List Nat → Option (List Nat)
  | 0, _, _ => none
  | n + 1, paths, seen =>
    match paths.find? fun p => p.headD 99 == b with
    | some p => some p.reverse
    | none =>
      let w := widen up paths seen
      shortest up b n w.1 w.2

/-- The path from `a` to `b` where only the bridges of `up` can be crossed: the fixed path if it avoids the others, else the
shortest one (R15, R16). -/
def pathOver (up : List Nat) (a b : Nat) : Option (List Nat) :=
  match bridgesAlong (fixedDies a b) with
  | some l => if l.all up.contains then some (fixedDies a b) else shortest up b 21 [[a]] [a]
  | none => shortest up b 21 [[a]] [a]

/-- Both dies of a bridge are powered. -/
def State.bridgePowered (s : State) (b : Nat) : Bool :=
  let e := bridgeEnds.getD b (99, 99)
  (s.die e.1).powered && (s.die e.2).powered

/-- The bridges whose management lanes carry packets (R14, R20, R21): those whose both ends are powered. A lane does not depend on
the bridge's data link, and a die in reset or with a stopped sequencer goes on relaying. -/
def State.lanes (s : State) : List Nat := (List.range 34).filter s.bridgePowered

/-- The bridges that carry data (R16, R17): not down, both dies powered. -/
def State.upBridges (s : State) : List Nat := s.lanes.filter fun b => !s.pkg.bridgesDown.contains b

/-- The path of a transfer between two dies (R15, R16): all bridges being up, the fixed one. -/
def State.fabricPath (s : State) (a b : Nat) : Option (List Nat) := pathOver s.upBridges a b

/-- Two dies have a path between them (R17). -/
def State.pathOk (s : State) (a b : Nat) : Bool := (s.fabricPath a b).isSome

/-- No path leads from a die to the state die of a physical address (R17). -/
def State.cutAt (s : State) (d pa : Nat) : Bool := !s.pathOk d (pa / 2 ^ 37 + 8)

/-- No path leads from a die to any port of a slice (R17). -/
def State.netCut (s : State) (d sl : Nat) : Bool :=
  let ds := ((setBits ((s.sliceEnt sl).getD {}).ports 48).map (16 + · / 16)).eraseDups
  !ds.isEmpty && !ds.any (s.pathOk d)

/-- The path of a management packet from the package controller on RT to a die (R20, R21): the same rules over the lanes. In
Hibernate, the compute and link dies being unpowered, it goes by XB32 or XB33 along the state rows. -/
def State.mgmtPath (s : State) (d : Nat) : Option (List Nat) := pathOver s.lanes 19 d

/-- A command or a register access reaches a die (R20). -/
def State.mgmtOk (s : State) (d : Nat) : Bool := d == 19 || (s.mgmtPath d).isSome

/-- The sequencer of a die takes no command and its blocks do not answer: the die is in die reset or unpowered, its sequencer is
halted (R481), or no management path leads to it (R20). -/
def State.seqDown (s : State) (d : Nat) : Bool :=
  let x := s.die d
  !(x.powered && x.released) || x.halted || !s.mgmtOk d

/-- A command that enters the control hierarchy at the sequencers of the dies given (R22, R94) waits for one of them. -/
def State.entryWaits (s : State) (ds : List Nat) : Bool := ds.any s.seqDown

end Sys2Proof.Machine
end

