-- ==== Sys2Proof/Machine/Egress.lean ====
section
/-! DEFINITION. The composition as a device sees it (R370..R372, R378), routing (R364), and how a transaction leaves: its
virtual lane and egress queue (R279, R358, R360), the service of the queues flit by flit (R278, R280), credits and the
retry buffer (R357, R358). -/

namespace Sys2Proof.Machine

/-! ## The composition, as a device sees it (R370..R372, R378) -/

/-- The device form of the Composition section (R370). -/
def State.compSect (s : State) : Option Bytes := s.sect 0x0004 0xFF 0

/-- This device's number, while its image names a composition whose map it is ACTIVE in. -/
def State.devNo (s : State) : Option Nat :=
  s.compSect.bind fun b =>
    let n := le b 8 2
    match tabGet s.comp.members n with
    | some m => if m.state = 1 then some n else none
    | none => none

/-- This device's number by its image, whether or not the map has it yet (R370). -/
def State.ownNo (s : State) : Option Nat := s.compSect.map fun b => le b 8 2

/-- The ACTIVE map entry of a device. -/
def State.member (s : State) (dev : Nat) : Option Member :=
  match tabGet s.comp.members dev with
  | some m => if m.state = 1 then some m else none
  | none => none

/-- The SFLAGS of a slice's Composition section (R370): 0 where it has none. -/
def State.sliceComp (s : State) (sl : Nat) : Nat := ((s.sect 0x0004 sl 0).map fun b => byteAt b 0).getD 0

/-- This device uses the slice in composition traffic (R372). -/
def State.joined (s : State) (sl : Nat) : Bool :=
  match s.devNo.bind s.member with
  | some m => bitAt m.slices sl
  | none => false

/-- Devices one link away from `dev`, by its own record confirmed by the other end, or an appliance on it (R378). -/
def State.neighbours (s : State) (dev : Nat) : List Nat :=
  match tabGet s.comp.links dev with
  | none => []
  | some r =>
    (r.ports.filter fun p =>
        match tabGet s.comp.links p.2.1 with
        | some q => q.ports.any fun x => x.1 == p.2.2 && x.2.1 == dev && x.2.2 == p.1
        | none => false).map (·.2.1) ++ r.appliances

/-- Devices reached in at most `k` links from a list of devices. -/
def State.reachFrom (s : State) : Nat → List Nat → List Nat
  | 0, l => l
  | k + 1, l => s.reachFrom k (l ++ ((l.flatMap s.neighbours).filter fun d => !l.contains d).eraseDups)

/-- Peers of this device's up ports among the ports of a mask (bit = global port number). -/
def State.firstHops (s : State) (ports : Nat) : List Nat :=
  match s.ownNo.bind fun n => tabGet s.comp.links n with
  | none => []
  | some r => (r.ports.filter fun p => bitAt ports p.1).map (·.2.1) ++ r.appliances

/-- A device is reachable over a port of the slice (R120, R169, R378). -/
def State.reachable (s : State) (sl dev : Nat) : Bool :=
  (s.member dev).isSome &&
  match s.sliceEnt sl with
  | none => false
  | some e => (s.reachFrom (s.comp.links.length) (s.firstHops e.ports)).contains dev

/-- A device cannot be reached over any port (R378). -/
def State.unreachable (s : State) (dev : Nat) : Bool :=
  s.ownNo != some dev && !(s.reachFrom s.comp.links.length (s.firstHops (2 ^ 48 - 1))).contains dev

/-! ## Ports and routes (R364) -/

/-- A port. -/
def State.port (s : State) (p : Nat) : Port := tabGetD s.net.ports {} p

/-- A port written. -/
def State.setPort (s : State) (p : Nat) (x : Port) : State :=
  { s with net := { s.net with ports := tabPut s.net.ports p x } }

/-- The slice that holds a port (R37), if one does. -/
def State.portSlice (s : State) (p : Nat) : Option Nat :=
  s.img.running.bind fun i => (i.slices.find? fun x => bitAt x.2.ports p).map (·.1)

/-- A port carries transactions of a type: UP and DEGRADED every one, LIMITED only MAP and MGMT LINK_STATE, IDENTIFY and
SPDM (R366). -/
def Port.carries (x : Port) (type op : Nat) : Bool :=
  x.state == 3 || x.state == 4 ||
  (x.state == 5 && (type == 6 || type == 8 || (type == 7 && (op == 0x28 || op == 0x30 || op == 0x38))))

/-- Hops from a device to another over the links both ends report (R378); none within the 8 hops a source allows. -/
def State.hops (s : State) (a b : Nat) : Option Nat := (List.range 9).find? fun k => (s.reachFrom k [a]).contains b

/-- The ports a transaction of a slice (0xFF: of the device) to `dev` may leave on: those whose far end has the fewest
hops, at most 16 (R364). A port without cipher leads to an appliance only (R366), which protected data is never sent to
(R308). -/
def State.routePorts (s : State) (sl dev type op : Nat) : List Nat :=
  let mask := match s.sliceEnt sl with
    | some e => e.ports
    | none => 2 ^ 48 - 1
  let up := (List.range 48).filter fun p => bitAt mask p && (s.port p).carries type op
  let far := up.filterMap fun p => (s.hops (s.port p).peerDev dev).map fun h => (p, h)
  let least := far.foldl (fun m x => min m x.2) 9
  ((far.filter fun x => x.2 == least).map (·.1)).take 16

/-- The port the next transaction takes, round robin (R364); none where no route exists. -/
def State.route (s : State) (sl dev type op : Nat) : Option Nat :=
  let l := s.routePorts sl dev type op
  l[s.net.next % max 1 l.length]?

/-! ## Lanes and queues (R279, R358, R360) -/

/-- The traffic kind of a request (R279). -/
def trafficKind (type : Nat) (lc : Bool) : Nat :=
  match type, lc with
  | 2, true => 0 | 3, true => 1 | 1, _ => 2 | 2, false => 3 | 3, false => 4 | _, _ => 5

/-- The DRR queue of a request of a slice (R279). -/
def State.drrQueue (s : State) (sl type : Nat) (lc : Bool) : Nat :=
  let map := if sl < 64 then s.reg .egrQmap sl 0 else 0x2C688
  bitsOf map (3 * trafficKind type lc) 3

/-- Egress queue of a request (R360): 0..3 the strict queues, 4 + q a DRR queue. -/
def State.egressQueue (s : State) (sl type : Nat) (lc : Bool) : Nat :=
  if type = 6 ∨ type = 7 then 0 else if type = 4 then 1
  else if type = 5 ∧ lc then 2 else if type = 1 ∧ lc then 3 else 4 + s.drrQueue sl type lc

/-- The virtual lane of a queue's requests and of its responses (table *Virtual lanes*). -/
def laneOf (queue : Nat) (response : Bool) : Nat :=
  match queue with
  | 0 => boolBit response
  | 1 => 2
  | 2 => 3 + boolBit response
  | 3 => 5 + boolBit response
  | q => if response then 15 else 7 + (q - 4)

/-- Ingress buffer of a lane in flits (table *Virtual lanes*). -/
def laneBuffer (vl : Nat) : Nat :=
  if vl = 2 ∨ vl = 15 then 384 else if vl = 3 ∨ vl = 6 then 512 else if 7 ≤ vl ∧ vl ≤ 14 then 256 else 64

/-- Flits of a transaction with a payload of `n` bytes (R359). -/
def flitsOf (n : Nat) : Nat := divUp (48 + n) 244

/-! ## Egress service (R278, R280) -/

/-- Weight of a DRR queue of the slice that holds a port. -/
def State.drrWeight (s : State) (p q : Nat) : Nat :=
  match s.portSlice p with
  | some sl => bitsOf (s.reg (if q < 4 then .egrWeight0 else .egrWeight1) sl 0) (8 * (q % 4)) 8
  | none => 1

/-- The first transaction of a queue. -/
def Port.headOf (x : Port) (q : Nat) : Option Egress := x.egress.find? (·.queue == q)

/-- A flit of the transaction can be sent: a credit of its lane, room in the retry buffer, a frame left under the key
(R357, R358, R368). -/
def Port.ready (x : Port) (e : Egress) : Bool :=
  0 < tabGetD x.credits 0 e.vl && x.unacked.length < 512 && (x.txFrames < 2 ^ 32 || e.left < e.size)

/-- The DRR queue that sends next: one whose transaction has begun, else the first whose deficit counter covers its
head. -/
def Port.drrPick (x : Port) : Option Egress :=
  match (List.range 8).filterMap (fun q => (x.headOf (4 + q)).bind fun e =>
      if e.left < e.size && x.ready e then some e else none) with
  | e :: _ => some e
  | [] => ((List.range 8).filterMap fun q => (x.headOf (4 + q)).bind fun e =>
      if x.ready e && decide (e.size * 256 ≤ tabGetD x.deficit 0 q) then some e else none).head?

/-- One visit to every DRR queue (R280): a non-empty one gains its weight, an empty one is set to 0. -/
def State.drrVisit (s : State) (p : Nat) (x : Port) : Port :=
  { x with deficit := (List.range 8).map fun q =>
      (q, if (x.headOf (4 + q)).isSome then tabGetD x.deficit 0 q + 256 * s.drrWeight p q else 0) }

/-- The transaction whose flit is sent next: a strict queue only when every higher strict queue is empty, the DRR group
only when all four are (R278). `n` bounds the DRR visits. -/
def State.egressPick (s : State) (p : Nat) : Nat → Port → Option (Port × Egress)
  | n, x =>
    match (List.range 4).findSome? x.headOf with
    | some e => if x.ready e then some (x, e) else none
    | none =>
      match x.drrPick, n with
      | some e, _ => some (x, e)
      | none, 0 => none
      | none, k + 1 => if x.egress.any x.ready then s.egressPick p k (s.drrVisit p x) else none

/-- A flit of a transaction sent (R357, R358): numbered, kept for replay, one credit used; the last one ends the frame. -/
def Port.sendFlit (x : Port) (e : Egress) : Port :=
  let first := e.left == e.size
  let q := e.queue - 4
  let l := x.egress.foldl (fun (acc : List Egress × Bool) y =>
    if !acc.2 && y == e then (if e.left ≤ 1 then (acc.1, true) else (acc.1 ++ [{ y with left := y.left - 1 }], true))
    else (acc.1 ++ [y], acc.2)) ([], false)
  { x with
    egress := l.1, txSeq := (x.txSeq + 1) % 4096, unacked := x.unacked ++ [(x.txSeq, 0, e.who)]
    credits := tabPut x.credits e.vl (tabGetD x.credits 0 e.vl - 1)
    txFrames := if first then x.txFrames + 1 else x.txFrames
    deficit := if first && 4 ≤ e.queue then tabPut x.deficit q (tabGetD x.deficit 0 q - e.size * 256) else x.deficit }

/-- Flits sent as credits and the retry buffer allow, at most `n`. -/
def State.pump (s : State) (p : Nat) : Nat → State
  | 0 => s
  | n + 1 =>
    let x := s.port p
    if x.state < 3 ∨ 5 < x.state then s
    else match s.egressPick p 64 x with
      | none => s
      | some (y, e) =>
        let s1 := (s.setPort p (y.sendFlit e)).emit (.flit p 1 [e.vl, y.txSeq])
        (match s.portSlice p with
          | some sl => s1.evc sl 0x20 p 1
          | none => s1).pump p n

/-- A transaction put into a port's egress queue. -/
def State.enqueue (s : State) (p vl queue payload : Nat) (who : Option (Nat × Nat) := none) : State :=
  let x := s.port p
  let n := flitsOf payload
  ((s.setPort p { x with egress := x.egress ++ [⟨vl, queue, n, n, who⟩] }).pump p 512)

/-! ## Sending (R359..R362) -/

/-- Class of a request by what it belongs to (R272): checkpoint drains and repairs are BE, and the copy of a stretch to a new mirror (R176); a canvas stream has the class
of its operation; mirror writes, movers, faults and write-throughs of engines are LC. -/
def State.sendClass (s : State) : Purpose → Bool
  | .ckpt _ _ | .repair _ => false
  | .mirror _ step => decide (step < 2 ^ 64)
  | .canvasData i | .canvasAlloc i => (s.cnv.ops.find? (·.index == i)).any (·.lc)
  | .ret o _ => (s.ret.ops.find? (·.id == o)).any (·.lc)
  | _ => true

/-- LC, QUEUE, HOPS, FWD, SRC_DEV, MAP_EPOCH and TSLICE of a transaction that starts here (R359): every request leaves its
source green. -/
def State.srcHdr (s : State) (lc : Bool) (drr sl : Nat) : List Nat :=
  [boolBit lc, drr, 8, 0, s.ownNo.getD 0xFFFF, s.comp.epoch, sl]

/-- The port a request leaves on: when it is sent again for want of a response, another than the one it left on before, where
one exists (R362). -/
def State.txnRoute (s : State) (t : Txn) : Option Nat :=
  let l := s.routePorts t.slice t.dev t.type t.op
  let other := l.filter (· != t.port)
  let m := if t.tries = 0 ∨ other.isEmpty then l else other
  m[s.net.next % max 1 m.length]?

/-- An outstanding request put on a port by its route; where none exists it stays without a port (R364). -/
def State.transmit (s : State) (t : Txn) : State :=
  match s.txnRoute t with
  | none => s
  | some p =>
    let lc := s.sendClass t.purpose
    let q := s.egressQueue t.slice t.type lc
    let out := s.comp.outst.map fun (x : Txn) => if x.dev = t.dev ∧ x.tag = t.tag then { x with port := p } else x
    let s1 := { s with net := { s.net with next := s.net.next + 1 }, comp := { s.comp with outst := out } }
    (s1.emit (.link p t.dev t.type t.op t.tag (s.srcHdr lc (q - 4) t.slice) t.args t.payload)).enqueue p (laneOf q false) q t.payload.length
      (some (t.dev, t.tag))

/-- A request sent to a device (R361): it takes the next tag of that destination and stays outstanding until its
response; while 4,096 requests to the device are outstanding it waits. -/
def State.send (s : State) (dev type op sl : Nat) (args : List Nat) (payload : Bytes) (p : Purpose) : State :=
  let tag := tabGetD s.comp.nextTag 0 dev
  let held := decide (4096 ≤ (s.comp.outst.filter fun t => t.dev == dev).length)
  let t : Txn := { dev := dev, tag := tag, type := type, op := op, slice := sl, args := args, payload := payload
                   first := s.pkg.pkc, last := s.pkg.pkc, held := held, purpose := p }
  let s1 := { s with comp := { s.comp with
    nextTag := tabPut s.comp.nextTag dev ((tag + 1) % 2 ^ 32), outst := s.comp.outst ++ [t] } }
  if held then s1 else s1.transmit t

/-- A message of a slice that has no response sent (PARTIAL, R362), on the slice's ports (R364): lost where no route exists. -/
def State.sendOne (s : State) (sl dev type op tag : Nat) (args : List Nat) (payload : Bytes) : State :=
  match s.route sl dev type op with
  | none => s
  | some p =>
    let q := if type = 4 then 1 else 0
    (({ s with net := { s.net with next := s.net.next + 1 } }).emit (.link p dev type op tag (s.srcHdr true 0 0xFF) args payload)).enqueue p
      (laneOf q (decide (type = 8))) q payload.length

end Sys2Proof.Machine
end

