-- ==== Sys2Proof/Machine/Operands.lean ====
section
/-! DEFINITION. Operand forms: how a host command's operands are packed (R457, R458), what every host command is
checked for before its chapter's own checks (R459, R460), and how it is fetched, rejected and completed
(R461, R462). -/

namespace Sys2Proof.Machine

/-! ## Packing (R457) -/

/-- The smallest power of two not below `w`, at most 64. -/
def packAlign (w : Nat) : Nat :=
  if w ≤ 1 then 1 else if w ≤ 2 then 2 else if w ≤ 4 then 4 else if w ≤ 8 then 8
  else if w ≤ 16 then 16 else if w ≤ 32 then 32 else 64

/-- The bit offset of an operand of width `w` that follows bit `e`. -/
def packAt (e w : Nat) : Nat := divUp e (packAlign w) * packAlign w

/-- The end of the packed operands of the given widths, in bits, from bit `e` on. -/
def packEnd (e : Nat) : List Nat → Nat
  | [] => e
  | w :: ws => packEnd (packAt e w + w) ws

/-- The packed length in bytes of operands of the given widths. -/
def packLen (ws : List Nat) : Nat := divUp (packEnd 0 ws) 8

/-- The number whose bits are the packed values: pairs of width and value, from bit `e` on. -/
def packVal (e : Nat) : List (Nat × Nat) → Nat
  | [] => 0
  | (w, v) :: l => v % 2 ^ w * 2 ^ packAt e w + packVal (packAt e w + w) l

/-- The bytes of a packed RESULT or DATA field of 16 bytes (R457, R461, R467). -/
def packBytes (l : List (Nat × Nat)) : Bytes := bytesOf 16 (packVal 0 l)

/-! ## Where commands enter (R22) -/

/-- The state dies, by die index, on which a slice has PCGs. -/
def State.stateNodes (s : State) (sl : Nat) : List Nat :=
  ((s.sliceEnt sl).map fun e => (List.range' 8 8).filter fun d => bitsOf e.pcgs (8 * (d - 8)) 8 != 0).getD []

/-- The compute dies on which a slice has clusters. -/
def State.computeNodes (s : State) (sl : Nat) : List Nat :=
  ((s.sliceEnt sl).map fun e => (List.range 8).filter fun d => bitsOf e.clusters (8 * d) 8 != 0).getD []

/-- The home state die of the session a handle names: that of its INDEX, bits 23:0 (R59, R63). -/
def handleNode (h : U64) : List Nat := [8 + h.toNat % 64 / 8]

/-- The link die that carries a port (R12). -/
def portNode (port : BitVec 6) : List Nat := [16 + port.toNat / 16]

/-! ## Command classes -/

/-- The functions a command is accepted from (R460). -/
inductive FnSet where
  | any | pf0 | notPf0
  deriving DecidableEq, Repr

/-- Whether function `f` is in the set. -/
def FnSet.has : FnSet → Nat → Bool
  | .any, _ => true
  | .pf0, f => f == 0
  | .notPf0, f => f != 0

/-- What the general checks need to know of a command: its functions and the privilege code of its chapter (R459
step 4), whether it is a queue-management command (step 5), the widths of its operands (step 2), and when the
device accepts it: in Hibernate (R499), in thermal shutdown and other stops because it is wedge-proof (R501),
without an image (R52), in boot ROM recovery (R505); and the dies, by die index, whose sequencers it enters at (R22, R94): none
for a command that ends at the package controller or the always-on island. -/
structure CmdSpec where
  fns : FnSet := .notPf0
  priv : Nat := ePriv
  admin : Bool := false
  widths : List Nat := []
  hibernate : Bool := false
  wedge : Bool := false
  noImage : Bool := false
  recovery : Bool := false
  entry : List Nat := []
  deriving DecidableEq, Repr

/-- How a command's own meaning answers: rejected with no effect; ended with a status and a RESULT; or accepted, to
complete later. -/
inductive Reply where
  | reject (code : Nat) (info : Nat := 0) (result : List (Nat × Nat) := [])
  | done (s : State) (status : Nat := 0) (result : List (Nat × Nat) := [])
  | later (s : State)
  deriving DecidableEq, Repr

/-! ## Fetching (R462, R464, R473) -/

/-- A command of the header's SQ can be fetched: the device is ready (in recovery only for PF0, R505) and has not
stopped (R510), the SQ is the function's and holds a descriptor below its tail, and its CQ has room for one more
completion (R462). -/
def State.fetchable (s : State) (h : Hdr) : Bool :=
  let fn := h.fn.toNat
  (s.pkg.ready || (s.fld .fwStatus 0 0 7 1 == 1 && fn == 0)) && !s.pkg.fatal &&
  match tabGet s.host.sqs h.sq.toNat with
  | none => false
  | some q =>
    q.fn == fn && q.head != q.tail &&
    match tabGet s.host.cqs q.cq with
    | none => false
    | some c => decide (c.outstanding + (c.tail + 2 ^ c.log2 - c.head) % 2 ^ c.log2 + 1 < 2 ^ c.log2)

/-- The state after the fetch, and where the completion goes. -/
def State.fetch (s : State) (h : Hdr) : State × Tag :=
  match tabGet s.host.sqs h.sq.toNat with
  | none => (s, ⟨h.fn.toNat, h.sq.toNat, 0, h.cid, s.epoch h.fn.toNat 0⟩)
  | some q =>
    let q' := { q with head := (q.head + 1) % 2 ^ q.log2 }
    let s1 := { s with host := { s.host with sqs := tabPut s.host.sqs h.sq.toNat q' } }
    let s2 := match tabGet s1.host.cqs q.cq with
      | none => s1
      | some c =>
        { s1 with host := { s1.host with
            cqs := tabPut s1.host.cqs q.cq { c with outstanding := c.outstanding + 1 } } }
    (s2, ⟨h.fn.toNat, h.sq.toNat, q.cq, h.cid, s.epoch h.fn.toNat q.cq⟩)

/-! ## The general checks (R459) -/

/-- Steps 2 to 5 of R459, then the refusals by device state: thermal shutdown (R516), Hibernate (R499), recovery
(R505), no image at all (R52). Answers the code and INFO of the first that fails. -/
def State.generalCheck (s : State) (c : CmdSpec) (h : Hdr) : Option (Nat × Nat) :=
  let need := packLen c.widths
  if h.indirect ≠ decide (need > 56) then some (eBadLength, 0)
  else if h.indirect ∧ (h.indLen.toNat ≠ divUp need 8 * 8 ∨ h.indLen.toNat > 4096) then some (eBadLength, 0)
  else if h.indirect ∧ ¬ h.indOk then some (eHostRead, 0)
  else match h.rsvd with
  | some o => some (eReservedSet, o.toNat)
  | none =>
    if ¬ c.fns.has h.fn.toNat then some (c.priv, 0)
    else if c.admin ∧ h.sq.toNat ≠ h.fn.toNat then some (eBadQueue, 0)
    else if s.pkg.shutdown ∧ ¬ c.wedge then some (eThermal, 0)
    else if s.hibernating ∧ ¬ c.hibernate ∧ ¬ c.wedge then some (ePowerState, 0)
    else if s.fld .fwStatus 0 0 7 1 = 1 ∧ ¬ c.recovery ∧ ¬ c.wedge then some (eNoImage, 0)
    else if s.img.running.isNone ∧ ¬ (c.noImage ∧ h.fn = 0) ∧ ¬ c.wedge then some (eNoImage, 0)
    else none

/-- A rejected command: no effect but its completion and CMD_REJECTS (R459, R473). -/
def State.reject (s : State) (t : Tag) (code info : Nat) (result : List (Nat × Nat) := []) : State :=
  (s.bump .cmdRejects t.fn 1).complete t code info (packBytes result)

/-- A host command: fetched, checked, given its meaning, completed. A command whose SQ holds no descriptor to fetch
has no effect (log entry 5); nor has one that has passed the general checks while a die it enters at is in die reset, halted or
cut off: it waits at the package controller (R22, R94; in its queue: log entry 78). -/
def hostCmd (c : CmdSpec) (h : Hdr) (body : State → Tag → Reply) (s : State) :
    Host.Outcome State Fault Refusal :=
  if ¬ s.fetchable h then .next s
  else
    let f := s.fetch h
    match f.1.generalCheck c h with
    | some (code, info) => .next (f.1.reject f.2 code info)
    | none =>
      if s.entryWaits c.entry then .next s
      else match body f.1 f.2 with
      | .reject code info result => .next (f.1.reject f.2 code info result)
      | .done s' status result => .next (s'.complete f.2 status 0 (packBytes result))
      | .later s' => .next s'

/-- A command that names a slice the running image does not define is rejected (R52). -/
def State.inSlice (s : State) (sl : Nat) (r : Reply) : Reply := if s.defined sl then r else .reject eNoImage

/-- The first check of a list that fails gives the error. -/
def firstFail : List (Bool × Nat) → Option Nat
  | [] => none
  | (bad, code) :: l => if bad then some code else firstFail l

/-- Checks in the spec's order, then the effect. -/
def checked (l : List (Bool × Nat)) (r : Reply) : Reply :=
  match firstFail l with
  | some code => .reject code
  | none => r

end Sys2Proof.Machine
end

