-- ==== Sys2Proof/Machine/Memory.lean ====
section
/-! DEFINITION. HBM and the slice address spaces: which dies a slice has, the KV geometry its model program fixes
(R131, R132), the growth rule (R142), allocation and freeing with gesso (R292, R293, R317), and translation
(R130..R139, R291, R299). -/

namespace Sys2Proof.Machine

/-! ## Model programs (R205) -/

/-- The header of a model program section (R205). -/
structure Prog where
  layers : Nat
  kvHeads : Nat
  qHeads : Nat
  headDim : Nat
  rotDim : Nat
  kvFormat : Nat
  sround : Bool
  /-- PAGE_MAX_LOG2, with 0xFF read as 8 (R143). -/
  pageMax : Nat
  tensors : Nat
  hidden : Nat
  ffn : Nat
  vocab : Nat
  smScale : Nat
  tensorOff : Nat
  freqOff : Nat
  deriving DecidableEq, Repr

/-- The header of a model program section. -/
def progOf (b : Bytes) : Prog :=
  { layers := le b 0 2, kvHeads := le b 2 2, qHeads := le b 4 2, headDim := le b 6 2, rotDim := le b 8 2
    kvFormat := byteAt b 0x0A, sround := bitAt (byteAt b 0x0B) 0
    pageMax := if byteAt b 0x0C = 0xFF then 8 else byteAt b 0x0C
    tensors := le b 0x0E 2, hidden := le b 0x10 4, ffn := le b 0x14 4, vocab := le b 0x18 4
    smScale := le b 0x1C 4, tensorOff := le b 0x20 4, freqOff := le b 0x24 4 }

/-- The current model program of a slice (R133): INDEX of its running or last job, else 0 if the image has one. -/
def State.curIndex (s : State) (sl : Nat) : Option Nat :=
  match tabGet s.mem.curProg sl with
  | some i => some i
  | none => (s.sect 0x0007 sl 0).map fun _ => 0

/-- The bytes of a slice's current model program section. -/
def State.curSect (s : State) (sl : Nat) : Option Bytes :=
  (s.curIndex sl).bind fun i => s.sect 0x0007 sl i

/-- The header of a slice's current model program. -/
def State.curProg (s : State) (sl : Nat) : Option Prog := (s.curSect sl).map progOf

/-- MODEL_HASH: SHA3-256 of the current model program section (R100). -/
def State.modelHash (s : State) (sl : Nat) : Option U256 := (s.curSect sl).map Config.sha3

/-! ## KV geometry (R131, R132) -/

/-- The smallest power of two not below `n` (1 for 0), searched among 2^0..2^63. -/
def pow2Ceil (n : Nat) : Nat := ((List.range 64).map (2 ^ ·)).find? (fun p => n ≤ p) |>.getD 1

/-- Bytes per token per layer: elements, scales, sidecar, each rounded up to a power of two (R131). -/
structure Geom where
  layers : Nat
  e : Nat
  s : Nat
  c : Nat
  /-- Stretch cap N (R132). -/
  cap : Nat
  deriving DecidableEq, Repr

/-- Sidecar groups of a key head (R147). -/
def sideGroups (d : Nat) : Nat := max 1 (d / 128)

/-- The stretch cap for a number of bytes per token in all layers (R132): the largest power of two N ≤ 2^20 with
L (E + S + C) (N + 16,384) ≤ 124 GiB; 0 where there is none. -/
def stretchCap (perToken : Nat) : Nat :=
  (((List.range 21).map fun k => 2 ^ (20 - k)).find? fun n => perToken * (16384 + n) ≤ 124 * 2 ^ 30).getD 0

/-- The KV geometry of a model program (R131, R132). -/
def Prog.geom (p : Prog) : Geom :=
  let hd := p.kvHeads * p.headDim
  let e := pow2Ceil (if p.kvFormat = 0 then hd else 2 * hd)
  let sc := pow2Ceil (2 * hd / 32)
  let c := if p.kvFormat = 0 then pow2Ceil (4 * p.kvHeads * sideGroups p.headDim) else 0
  ⟨p.layers, e, sc, c, stretchCap (p.layers * (e + sc + c))⟩

/-- The geometry of a slice's windows. -/
def State.geom (s : State) (sl : Nat) : Option Geom := (s.curProg sl).map Prog.geom

/-- Bytes per token of area `a`: 0 elements, 1 scales, 2 sidecar. -/
def Geom.unit (g : Geom) : Nat → Nat
  | 0 => g.e
  | 1 => g.s
  | _ => g.c

/-- Window offset of area `a` of layer `l` (R132). -/
def Geom.areaAt (g : Geom) (a l : Nat) : Nat :=
  let n := 16384 + g.cap
  match a with
  | 0 => l * g.e * n
  | 1 => g.layers * g.e * n + l * g.s * n
  | _ => g.layers * (g.e + g.s) * n + l * g.c * n

/-! ## The growth rule (R142) -/

/-- Size exponent of page `j` under page maximum `m`. -/
def pageLog2 (j m : Nat) : Nat := min j m

/-- First stretch-local token of page `j` under page maximum `m`. -/
def pageFirst (j m : Nat) : Nat :=
  if j ≤ m then 16 * (2 ^ j - 1) else 16 * (2 ^ (m + 1) - 1) + (j - m - 1) * 16 * 2 ^ m

/-- Pages per layer that `n` stretch-local tokens need. -/
def pagesFor (n m : Nat) : Nat :=
  if n = 0 then 0
  else if n ≤ 16 * (2 ^ (m + 1) - 1) then
    ((List.range (m + 1)).find? fun j => n ≤ pageFirst j m + 16 * 2 ^ j).getD m + 1
  else m + 1 + divUp (n - 16 * (2 ^ (m + 1) - 1)) (16 * 2 ^ m)

/-! ## Dies of a slice and free memory -/

/-- The slice's state die list (R145): ascending dies on which it holds a PCG. -/
def SliceEnt.stateDies (e : SliceEnt) : List Nat :=
  (List.range 8).filter fun n => bitsOf e.pcgs (8 * n) 8 != 0

/-- Device reserve per PCG (R39). -/
def reservePerPcg (tableLog2 : Nat) : Nat := 2 ^ tableLog2 * 256 / 64 + 2 * 2 ^ 20

/-- General capacity of a PCG before the reserve: 10.5 GiB (R39). -/
def pcgGeneral : Nat := 21 * 2 ^ 29

/-- Number of PCGs a slice holds on state die `n`, and the lowest's n-local index (R293). -/
def SliceEnt.pcgsOn (e : SliceEnt) (n : Nat) : Nat × Nat :=
  let m := bitsOf e.pcgs (8 * n) 8
  (countBits m 8, ((List.range 8).find? (bitAt m)).getD 0)

/-- TABLE_LOG2 of the running image; 16 while none runs. -/
def State.tableLog2 (s : State) : Nat := (s.img.running.map (·.tableLog2)).getD 16

/-- The tier map section of a slice (R295). -/
def State.tierMap (s : State) (sl : Nat) : Bytes := (s.sect 0x0003 sl 0).getD []

/-- Units of 2 MiB that die number `i` of `nd` gives when `u` units are taken in equal shares (R296). -/
def shareOf (u nd i : Nat) : Nat := u / nd + boolBit (i < u % nd)

/-- The units the tier map takes from the top of die number `i`: Winter area, fetch area, pool contribution. -/
def topUnits (tm : Bytes) (nd i : Nat) : Nat :=
  shareOf (le tm 4 4) nd i + shareOf (le tm 8 4) nd i + shareOf (le tm 0xC 4) nd i

/-- The general memory of a slice on state die `n`: first physical address and bytes, less the tier map's units
(R292, R293, R296). -/
def State.general (s : State) (sl n : Nat) : Nat × Nat :=
  match s.sliceEnt sl with
  | none => (0, 0)
  | some e =>
    let (k, g0) := e.pcgsOn n
    let dies := e.stateDies
    let i := (dies.findIdx? (· == n)).getD 0
    let size := k * (pcgGeneral - reservePerPcg s.tableLog2)
    (2 ^ 37 * n + pcgGeneral * g0, size - 2 ^ 21 * topUnits (s.tierMap sl) dies.length i)

/-- Bytes of a list of (address, size) pairs on state die `n`. -/
def bytesOn (n : Nat) (l : List (Nat × Nat)) : Nat :=
  (l.filter fun x => x.1 / 2 ^ 37 == n).foldl (fun t x => t + x.2) 0

/-- Gesso of a slice reset is pending (R318): JOB_START, OPEN and MEM_ALLOC on the slice wait. -/
def State.gessoWaits (s : State) (sl : Nat) : Bool := s.mem.gesso.any fun g => g.reset && g.slice == sl

/-- What is taken of HBM: allocated regions and freed ones whose gesso is not complete (R317). -/
def State.taken (s : State) : List (Nat × Nat) :=
  s.mem.regions.map (fun r => (r.pa, r.size)) ++ s.mem.gesso.map fun g => (g.pa, g.size)

/-- Free general memory of a slice on a state die, in bytes. -/
def State.freeOn (s : State) (sl n : Nat) : Nat :=
  let (base, size) := s.general sl n
  size - ((s.taken.filter fun x => base ≤ x.1 && x.1 < base + size).foldl (fun t x => t + x.2) 0)

/-- Free general memory of a slice, in bytes. -/
def State.freeBytes (s : State) (sl : Nat) : Nat :=
  match s.sliceEnt sl with
  | none => 0
  | some e => e.stateDies.foldl (fun t n => t + s.freeOn sl n) 0

/-- Candidate starts for a region: the base, the next aligned address, and the ends of what is taken, aligned up. -/
def candidates (base align : Nat) (taken : List (Nat × Nat)) : List Nat :=
  (base :: (base + 1) :: taken.map fun x => x.1 + x.2).map fun a => divUp a align * align

/-- The lowest aligned free start for `size` bytes of a slice's general memory on die `n`; the device chooses frames
for itself (R145, log entry 8), and never the frame at physical address 0, which RESERVE_PAGE and a reserve record use for
none (R66, R153). -/
def State.findFrame (s : State) (sl n size align : Nat) : Option Nat :=
  let (base, total) := s.general sl n
  let t := s.taken.filter fun x => x.1 / 2 ^ 37 == n
  let ok := (candidates base align t).filter fun a =>
    a != 0 && base ≤ a && a + size ≤ base + total && t.all fun x => a + size ≤ x.1 || x.1 + x.2 ≤ a
  ok.foldl (fun m a => match m with
    | none => some a
    | some b => some (min a b)) none

/-- Allocates a region, which holds gesso (R309); its bytes will be written under the current generation (R158). -/
def State.allocAt (s : State) (sl pa size : Nat) (prot : Bool) : State :=
  { s with mem := { s.mem with
      regions := s.mem.regions ++ [⟨pa, size, sl, prot, s.sec.current⟩]
      gessoed := cutGesso s.mem.gessoed pa size ++ if prot then [(pa, size, s.sec.current)] else [] } }

/-- Allocates `size` bytes on die `n` of a slice. -/
def State.alloc (s : State) (sl n size align : Nat) (prot : Bool) : Option (State × Nat) :=
  (s.findFrame sl n size align).map fun pa => (s.allocAt sl pa size prot, pa)

/-- Frees the region that starts at a physical address: it waits for gesso before it returns to its pool (R317). -/
def State.freeAt (s : State) (pa : Nat) : State :=
  match s.mem.regions.find? (·.pa == pa) with
  | none => s
  | some r =>
    { s with mem := { s.mem with
        regions := s.mem.regions.filter (·.pa != pa)
        gesso := s.mem.gesso ++ [{ pa := r.pa, size := r.size, slice := r.slice }] } }

/-- The region that holds a physical address. -/
def State.regionAt (s : State) (pa : Nat) : Option Region :=
  s.mem.regions.find? fun r => r.pa ≤ pa && pa < r.pa + r.size

/-- The 2 MiB units of the device reserve of PCG `j` (R39), as keys of the sweep's map (R420). -/
def State.reserveUnits (s : State) (j : Nat) : List Nat :=
  (List.range (divUp (reservePerPcg s.tableLog2) (2 ^ 21))).map (· + j * 2 ^ 13)

/-- The generation of a unit of the sweep's map. -/
def State.unitGen (s : State) (k : Nat) : Option Nat :=
  match tabGet s.sec.sweep.genMap k with
  | some g => some g
  | none => if k < 2 ^ 20 then s.sec.sweep.base else none

/-- Frames of 4 KiB that a state die counts under a generation (R418): protected regions and T1 canvases (counted at the
slice's first state die), fetched granules, the device reserve, the pool contribution, staged spare copies. Gesso-filled
frames count under none. -/
def State.frames (s : State) (n g : Nat) : Nat :=
  let sum (l : List Nat) : Nat := l.foldl (· + ·) 0
  let canvases := s.cnv.stored.filter fun c => c.tier == 1 && c.canvas.prot && c.keygen == g &&
    ((s.sliceEnt c.slice).bind (·.stateDies.head?)) == some n
  sum ((s.mem.regions.filter fun r => r.prot && r.keygen == g && r.pa / 2 ^ 37 == n).map fun r => divUp r.size 4096) +
  sum (canvases.map (·.canvas.len)) +
  sum ((s.mem.fetched.filter fun f => f.prot && f.keygen == g && f.pa / 2 ^ 37 == n).map fun f => divUp f.size 4096) +
  512 * (((List.range 8).flatMap fun j => s.reserveUnits (8 * n + j)).filter fun k => s.unitGen k == some g).length +
  512 * (s.sec.sweep.genMap.filter fun x => 2 ^ 20 ≤ x.1 && x.1 % 2 ^ 20 / 2 ^ 16 == n && x.2 == g).length +
  sum (s.ck.flight.map fun c => (c.image.frames.filter fun f => f.prot && f.keygen == g && f.frame / 2 ^ 25 == n).length)

/-- The in-use mask: generations with frames on some state die (R428). -/
def State.inUse (s : State) : Nat :=
  maskOf ((List.range 16).filter fun g => (List.range 8).any fun n => s.frames n g != 0)

/-! ## Windows (R130, R131) -/

/-- Base address of window `w`. -/
def windowBase (w : Nat) : Nat := 0x8_0000_0000_0000 + 0x20_0000_0000 * w

/-- The window an address lies in, if it lies in one. -/
def windowOf (va : Nat) : Option Nat :=
  if 0x8_0000_0000_0000 ≤ va ∧ va < 2 ^ 52 then some ((va - 0x8_0000_0000_0000) / 0x20_0000_0000) else none

/-- Windows of a slice in use (R131): those of its sessions and those whose gesso is not complete. -/
def State.windowsUsed (s : State) (sl : Nat) : List Nat :=
  ((s.desc.filter fun d => d.2.slice == sl && d.2.windowBase != 0).filterMap fun d => windowOf d.2.windowBase) ++
  (s.mem.winGesso.filter fun x => x / 2 ^ 14 == sl).map (· % 2 ^ 14) ++
  (s.mirrors.filter (·.slice == sl)).map (·.window)

/-- The lowest number from `n` up, among `k` numbers, that is not in the list. -/
def lowestFree (l : List Nat) (n : Nat) : Nat → Option Nat
  | 0 => none
  | k + 1 => if l.contains n then lowestFree l (n + 1) k else some n

/-! ## Translation (R130, R134..R139, R291, R299) -/

/-- A leaf (R135): the start and log2 of its span, the physical address of the region (none: the sentinel frame), and its
other fields. -/
structure Leaf where
  va : Nat
  log2 : Nat
  pa : Option Nat
  prot : Bool
  ro : Bool := false
  cow : Bool := false
  guard : Bool := false
  np : Bool := false
  rcp : Nat := 0
  keygen : Nat := 0
  deriving DecidableEq, Repr

/-- The 8-byte leaf entry (table *Leaf entry*); a leaf that is not present names frame 0xFFF_FFFF (R135, R301). -/
def Leaf.word (l : Leaf) : U64 :=
  let frame := if l.np then 0xFFFFFFF else (l.pa.map (· / 4096)).getD 0xFFFFFFF
  BitVec.ofNat 64 (2 ^ 63 + 2 ^ 62 + 2 ^ 57 * (l.log2 - 12) + 2 ^ 53 * l.keygen + 2 ^ 52 * boolBit l.prot +
    2 ^ 51 * boolBit l.ro + 2 ^ 50 * boolBit l.cow + 2 ^ 49 * boolBit l.guard + 2 ^ 48 * boolBit l.np + 2 ^ 28 * l.rcp + frame)

/-- The 8-byte entry that names a table (table *Table entry*). -/
def tableWord (pa : Nat) : U64 := BitVec.ofNat 64 (2 ^ 63 + pa / 2 ^ 13)

/-- What a leaf says of an address (R135): the physical address of the byte (none: the sentinel frame), PROT, RO,
not present, guarded, copy-on-write, and the generation of its bytes. -/
structure Xlate where
  pa : Option Nat
  prot : Bool
  ro : Bool := false
  np : Bool := false
  guard : Bool := false
  cow : Bool := false
  keygen : Nat := 0
  deriving DecidableEq, Repr

/-- The leaf as an engine meets it at an address inside its span. -/
def Leaf.at_ (l : Leaf) (va : Nat) : Xlate :=
  { pa := l.pa.map fun p => p + (va - l.va), prot := l.prot, ro := l.ro, np := l.np, guard := l.guard, cow := l.cow
    keygen := l.keygen }

/-- The region of page `p` in area `a`: physical address. -/
def KvPage.areaPa (p : KvPage) : Nat → Nat
  | 0 => p.elem
  | 1 => p.scale
  | _ => p.side

/-- A page has a region in the granule (R144). -/
def Granule.serves (gr : Granule) (g : Geom) (p : KvPage) : Bool :=
  let u := g.unit gr.area
  p.layer == gr.layer && 16 * 2 ^ p.log2 * u < 4096 && u != 0 && (p.first + 16) * u / 4096 == gr.m

/-- The session whose window is `w` of slice `sl`. -/
def State.windowOwner (s : State) (sl w : Nat) : Option (Nat × Desc) :=
  s.desc.find? fun d => d.2.slice == sl && d.2.windowBase == windowBase w

/-- KV state of a session. -/
def State.kvOf (s : State) (i : Nat) : SessKv := tabGetD s.mem.kv {} i

/-- KV state of a session set. -/
def State.setKv (s : State) (i : Nat) (k : SessKv) : State :=
  { s with mem := { s.mem with kv := tabPut s.mem.kv i k } }

/-- The key under which the KV table holds the pages of the mirror in a window (R384). -/
def mirrorKey (sl w : Nat) : Nat := 2 ^ 24 + 2 ^ 14 * sl + w

/-- The KV state that a window maps, and whether it is protected: a session's, or a mirror's (R384). -/
def State.windowKv (s : State) (sl w : Nat) : Option (SessKv × Bool) :=
  match s.windowOwner sl w with
  | some x => some (s.kvOf x.1, x.2.prot)
  | none => (s.mirrors.find? fun m => m.slice == sl && m.window == w).map fun m => (s.kvOf (mirrorKey sl w), m.prot)

/-- The generation a physical address was written under. -/
def State.keygenAt (s : State) (pa : Nat) : Nat := ((s.regionAt pa).map (·.keygen)).getD s.sec.current

/-- A checkpoint in flight still has to copy the frame. -/
def Ckpt.wants (c : Ckpt) (f : Nat) : Bool := c.fresh.contains f || c.old.contains f

/-- A checkpoint in flight has not copied some frame of a region (R393): its leaves carry GUARD. -/
def State.ckHolds (s : State) (pa n : Nat) : Bool :=
  s.ck.flight.any fun c => (c.fresh ++ c.old).any fun f => pa / 4096 ≤ f && f * 4096 < pa + n

/-- The leaf of a KV area's address (R141, R144): a granule's where the page's region is below 4 KiB, else the region's own,
in spans of at most 1 GiB (R136). -/
def State.leafKv (s : State) (g : Geom) (prot : Bool) (k : SessKv) (base a off : Nat) : Option Leaf :=
  let n := 16384 + g.cap
  let u := g.unit a
  if u = 0 then none
  else
    let l := (off - g.areaAt a 0) / (u * n)
    let inLayer := (off - g.areaAt a 0) % (u * n)
    let slot := inLayer / u
    match k.granules.find? fun gr => gr.area == a && gr.layer == l && gr.m == inLayer / 4096 with
    | some gr =>
      let ps := k.pages.filter fun p => gr.serves g p
      some { va := base + g.areaAt a l + 4096 * gr.m, log2 := 12, pa := some gr.pa, prot := prot, cow := gr.rcp != 0
             guard := ps.any (·.guard) || s.ckHolds gr.pa 4096, np := !ps.isEmpty && ps.all (·.np), rcp := gr.rcp
             keygen := s.keygenAt gr.pa }
    | none =>
      (k.pages.find? fun p =>
        p.layer == l && p.first + 16 ≤ slot && slot < p.first + 16 + 16 * 2 ^ p.log2).bind fun p =>
      if p.areaPa a = 0 then none
      else
        let size := 16 * 2 ^ p.log2 * u
        let into := (inLayer - (p.first + 16) * u) / 2 ^ 30 * 2 ^ 30
        let pa := p.areaPa a + into
        some { va := base + g.areaAt a l + (p.first + 16) * u + into, log2 := min 30 size.log2, pa := some pa, prot := prot
               cow := p.rcp != 0, guard := p.guard || s.ckHolds pa (min size (2 ^ 30)), np := p.np, rcp := p.rcp
               keygen := s.keygenAt pa }

/-- The page that holds a KV area's address has not arrived (R114): its rows wait, whatever leaf maps them. -/
def pageAway (g : Geom) (k : SessKv) (a off : Nat) : Bool :=
  let n := 16384 + g.cap
  let u := g.unit a
  let l := (off - g.areaAt a 0) / (u * n)
  let slot := (off - g.areaAt a 0) % (u * n) / u
  k.pages.any fun p => p.np && p.layer == l && p.first + 16 ≤ slot && slot < p.first + 16 + 16 * 2 ^ p.log2

/-- The KV area a window offset lies in (R132). -/
def Geom.areaOf (g : Geom) (off : Nat) : Option Nat :=
  let n := 16384 + g.cap
  if off < g.layers * g.e * n then some 0
  else if off < g.layers * (g.e + g.s) * n then some 1
  else if off < g.layers * (g.e + g.s + g.c) * n then some 2
  else none

/-- A KV area's address translated: layer and slot give the page whose region holds it (R141). -/
def State.xlateKv (s : State) (g : Geom) (prot : Bool) (k : SessKv) (base a off : Nat) : Option Xlate :=
  (s.leafKv g prot k base a off).map fun l => { l.at_ (base + off) with np := l.np || pageAway g k a off }

/-- The leaf of a window's scratch objects or cursors (R132). -/
def State.leafSide (s : State) (prot : Bool) (k : SessKv) (base off : Nat) : Option Leaf :=
  if 0x1F_0000_0000 ≤ off ∧ off < 0x1F_0010_0000 ∧ k.scratchPa ≠ 0 then
    some { va := base + 0x1F_0000_0000, log2 := 20, pa := some k.scratchPa, prot := prot, guard := s.ckHolds k.scratchPa (2 ^ 20)
           keygen := s.keygenAt k.scratchPa }
  else if 0x1F_0010_0000 ≤ off ∧ off < 0x1F_0010_1000 ∧ k.cursorPa ≠ 0 then
    some { va := base + 0x1F_0010_0000, log2 := 12, pa := some k.cursorPa, prot := prot, guard := s.ckHolds k.cursorPa 4096
           keygen := s.keygenAt k.cursorPa }
  else none

/-- The object of a slice that holds an address. -/
def State.objAt (s : State) (sl va : Nat) : Option Obj :=
  s.mem.objects.find? fun o => o.awaited.isEmpty && o.slice == sl && o.va ≤ va && va < o.va + o.units * 4096

/-- The largest span, of at most 2^`most` bytes, that holds an address and lies inside a run of `n` bytes from `start` on,
mapped at `pa`, virtual and physical starts aligned to it (R136, R299): its log2. -/
def spanAt (start n pa most va : Nat) : Nat :=
  (((List.range (most - 11)).map fun k => most - k).find? fun k =>
    let b := va / 2 ^ k * 2 ^ k
    start ≤ b && b + 2 ^ k ≤ start + n && (pa + (b - start)) % 2 ^ k == 0).getD 12

/-- The leaf of an address inside a run of memory, in spans of at most 2^`most` bytes. -/
def State.leafRun (s : State) (start n pa most : Nat) (prot ro : Bool) (va : Nat) : Leaf :=
  let k := spanAt start n pa most va
  let b := va / 2 ^ k * 2 ^ k
  let p := pa + (b - start)
  { va := b, log2 := k, pa := some p, prot := prot, ro := ro, guard := s.ckHolds p (2 ^ k), keygen := s.keygenAt p }

/-- The leaf of an address of an object: T1 by its pieces, of at most 2 MiB where it is striped (R299); T2 by its fetch
granules, present while they lie in the fetch area (R301). -/
def State.leafObj (s : State) (o : Obj) (va : Nat) : Option Leaf :=
  if o.tier = 1 then
    (o.pieces.find? fun p => p.1 ≤ va - o.va && va - o.va < p.1 + p.2.2).map fun p =>
      s.leafRun (o.va + p.1) p.2.2 p.2.1 (if o.pieces.length = 1 then 30 else 21) o.prot false va
  else
    let k := 12 + o.fetchLog2
    match s.mem.fetched.find? fun f => f.slice == o.slice && f.va ≤ va && va < f.va + f.size && !f.inflight with
    | some f => some { va := f.va, log2 := k, pa := some f.pa, prot := o.prot, keygen := s.keygenAt f.pa }
    | none => some { va := o.va + (va - o.va) / 2 ^ k * 2 ^ k, log2 := k, pa := none, prot := o.prot, np := true }

/-- The palette entry whose slot holds an address (R180): 4 GiB slots from 0x7_F000_0000_0000 up. -/
def palSlot (va : Nat) : Option (Nat × Nat) :=
  let b := 0x7_F000_0000_0000
  if b ≤ va ∧ va < 4096 * 2 ^ 32 + b then some ((va - b) / 2 ^ 32, (va - b) % 2 ^ 32) else none

/-- The first address of palette entry `e`. -/
def palBase (e : Nat) : Nat := 0x7_F000_0000_0000 + e * 2 ^ 32

/-- The leaf of an address of a palette entry (R180): read-only, from the completion of its compile on (R179). -/
def State.leafPal (s : State) (sl e off : Nat) : Option Leaf :=
  match tabGet s.srv.pals e with
  | none => none
  | some p =>
    if ¬ p.ready ∨ p.slice ≠ sl then none
    else (p.parts.find? fun x => x.1 ≤ off && off < x.1 + x.2.2).map fun x =>
      s.leafRun (palBase e + x.1) x.2.2 x.2.1 30 p.prot true (palBase e + off)

/-- The 128 bytes of a sampler record (R102, R267). -/
def Sampler.bytes (m : Sampler) : Bytes :=
  bytesOf 8 m.counter ++ bytesOf 4 m.emitted ++ zeros 4 ++ bytesOf 8 m.counterP ++ bytesOf 4 m.emittedP ++ zeros 4 ++
  bytesOf 4 m.carry ++ bytesOf 4 m.inputDone ++ bytesOf 1 m.drafts.length ++
  bytesOf 1 (boolBit m.cancel + 2 * boolBit m.heldDue) ++ zeros 6 ++
  padTo 32 (m.drafts.flatMap (bytesOf 4)) ++ zeros 48

/-- The window whose sampler record (R267) lies at an address. -/
def samplerSlot (va : Nat) : Option Nat :=
  let b := 0x7_E000_0000_0000
  if b ≤ va ∧ va < b + 128 * 2 ^ 14 then some ((va - b) / 128) else none

/-- The page of the sampler records of 32 windows, which only the device writes (R267). -/
def State.leafSampler (s : State) (sl w : Nat) : Option Leaf :=
  (s.mem.tables.find? fun t => t.slice == sl && t.level == 4 && t.number == w / 32).map fun t =>
    { va := 0x7_E000_0000_0000 + 4096 * (w / 32), log2 := 12, pa := some t.pa, prot := s.confidential sl, ro := true
      keygen := s.keygenAt t.pa }

/-- A byte of the sampler record of window `w`: 0 where no session or mirror has the window. -/
def State.samplerByte (s : State) (sl w k : Nat) : U8 := (((s.windowKv sl w).map (·.1.sampler.bytes)).getD []).getD k 0

/-- The leaf that maps an address of a slice; none: no valid leaf (R139). -/
def State.leafAt (s : State) (sl va : Nat) : Option Leaf :=
  match windowOf va, palSlot va with
  | some w, _ =>
    let off := va - windowBase w
    match s.windowKv sl w, s.geom sl with
    | some x, some g => match g.areaOf off with
      | some a => s.leafKv g x.2 x.1 (windowBase w) a off
      | none => s.leafSide x.2 x.1 (windowBase w) off
    | _, _ => none
  | none, some e => s.leafPal sl e.1 e.2
  | none, none => match samplerSlot va with
    | some w => s.leafSampler sl w
    | none => (s.objAt sl va).bind fun o => s.leafObj o va

/-- An address of a session window translated (R132). -/
def State.xlateWindow (s : State) (sl w off : Nat) : Option Xlate :=
  match s.windowKv sl w, s.geom sl with
  | some x, some g => match g.areaOf off with
    | some a => s.xlateKv g x.2 x.1 (windowBase w) a off
    | none => (s.leafSide x.2 x.1 (windowBase w) off).map fun l => l.at_ (windowBase w + off)
  | _, _ => none

/-- What an engine of a slice meets at an address; none: no valid leaf (R139). -/
def State.xlate (s : State) (sl va : Nat) : Option Xlate :=
  match windowOf va with
  | some w => s.xlateWindow sl w (va - windowBase w)
  | none => (s.leafAt sl va).map fun l => l.at_ va

/-- The aperture of a slice that holds an address (R380). -/
def State.apertureAt (s : State) (sl va : Nat) : Option Aperture :=
  s.apertures.find? fun a => a.slice == sl && a.va ≤ va && va < a.va + 65536 * a.units && a.base.isSome

/-- A physical sector is poisoned, or its region's generation is retired (R312, R422). -/
def State.poisoned (s : State) (pa keygen : Nat) (prot : Bool) : Bool :=
  s.mem.poison.contains (pa / 128 * 128) || (prot && (bitAt s.sec.retired keygen || s.sec.keysErased))

/-- Some byte of physical ranges is poisoned. -/
def State.prangesBad (s : State) (prot : Bool) (l : List (Nat × Nat)) : Bool :=
  l.any fun r => ((List.range ((r.1 + r.2 - 1) / 128 + 1 - r.1 / 128)).any fun k =>
    s.poisoned ((r.1 / 128 + k) * 128) (s.keygenAt r.1) prot)

/-- A translation fault (R139): logged and counted. -/
def State.xlateFault (s : State) (sl va : Nat) : State :=
  (s.bump .kvXlateFaults sl 1).logErr 0x0006 0xFF sl eXlate 0 (some va)

/-- One byte of a slice's memory: none on a fault; poisoned bytes are marked. -/
def State.vbyte (s : State) (sl va : Nat) : Option (U8 × Bool) :=
  (s.xlate sl va).bind fun x => x.pa.map fun pa =>
    (match samplerSlot va with
      | some w => s.samplerByte sl w (va % 128)
      | none => s.pget pa, s.poisoned pa x.keygen x.prot)

/-- `n` bytes of a slice's memory; a byte with no valid leaf reads as poisoned 0 (R139). -/
def State.vread (s : State) (sl va : Nat) : Nat → Bytes
  | 0 => []
  | n + 1 => ((s.vbyte sl va).map (·.1)).getD 0 :: s.vread sl (va + 1) n

/-- Some byte of the range is poisoned or has no valid leaf. -/
def State.vbad (s : State) (sl va : Nat) : Nat → Bool
  | 0 => false
  | n + 1 => (match s.vbyte sl va with
    | some x => x.2
    | none => true) || s.vbad sl (va + 1) n

/-- A sector whose 128 bytes are all written loses its poison (R312). -/
def clearPoison (poison : List Nat) (pa n : Nat) : List Nat :=
  poison.filter fun p => !(pa ≤ p && p + 128 ≤ pa + n)

/-! ## Cached leaves (R138) -/

/-- A cached leaf is still the one its tables hold. -/
def State.current (s : State) (c : Cached) : Bool := (s.leafAt c.slice c.va).any fun l => l.word == c.word && l.log2 == c.log2

/-- Cached leaves of a slice that have changed are invalidated in every cache, which all acknowledge (R138 step 2). -/
def State.invalidate (s : State) (sl : Nat) : State :=
  let keep (t : Tab (List Cached)) : Tab (List Cached) :=
    t.map fun x => (x.1, x.2.filter fun c => c.slice != sl || s.current c)
  { s with mem := { s.mem with coreTlb := keep s.mem.coreTlb, walkTlb := keep s.mem.walkTlb } }

/-! ## The checkpoint guard (R391, R393) -/

/-- A frame as it stands, for a checkpoint (R395). -/
def State.frameCopy (s : State) (f : Nat) : CkFrame :=
  let lo := f * 4096
  let r := s.regionAt lo
  let whole := s.mem.gessoed.any fun g => g.1 ≤ lo && lo + 4096 ≤ g.1 + g.2.1
  let none_ := s.mem.gessoed.all fun g => lo + 4096 ≤ g.1 || g.1 + g.2.1 ≤ lo
  { frame := f
    data := if whole ∨ none_ then s.mem.data.filter fun c => lo ≤ c.1 && c.1 < lo + 4096
      else ((List.range 4096).map fun k => (lo + k, s.pget (lo + k))).filter (·.2 != 0)
    gesso := whole
    prot := (r.map (·.prot)).getD false, keygen := s.keygenAt lo
    poison := s.mem.poison.filter fun p => lo ≤ p && p < lo + 4096 }

/-- A frame copied into a checkpoint's spare slot. -/
def State.stageFrame (s : State) (c : Ckpt) (f : Nat) : Ckpt :=
  { c with
    fresh := c.fresh.filter (· != f), old := c.old.filter (· != f)
    image := { c.image with frames := c.image.frames.filter (fun x => x.frame != f) ++ [s.frameCopy f] } }

/-- Before a write to a frame: every checkpoint that has not copied it makes a priority copy (R393, R399). -/
def State.ckGuard (s : State) (f : Nat) : State :=
  let hit := s.ck.flight.filter (·.wants f)
  if hit.isEmpty then s
  else
    let fl := s.ck.flight.map fun c => if c.wants f then s.stageFrame c f else c
    hit.foldl (fun t c => (t.bump .ckptPrioCopies c.slice 1).invalidate c.slice) { s with ck := { s.ck with flight := fl } }

/-- The frames a range of physical addresses touches. -/
def framesOf (pa n : Nat) : List Nat :=
  if n = 0 then [] else (List.range ((pa + n - 1) / 4096 + 1 - pa / 4096)).map (· + pa / 4096)

/-- Writes to a range of HBM seen by the dirty maps (R318, R391): the 2 MiB units and both checkpoint bits of each
frame, after any priority copy. -/
def State.touch (s : State) (pa n : Nat) : State :=
  if n = 0 then s
  else
    let fs := framesOf pa n
    let s1 := fs.foldl State.ckGuard s
    { s1 with
      mem := { s1.mem with dirty := setInsert (setInsert s1.mem.dirty (pa / 2 ^ 21)) ((pa + n - 1) / 2 ^ 21) }
      ck := { s1.ck with d0 := fs.foldl setInsert s1.ck.d0, d1 := fs.foldl setInsert s1.ck.d1 } }

/-- Bytes written at a physical address. -/
def State.pwrite (s : State) (pa : Nat) (b : Bytes) : State :=
  let s1 := s.touch pa b.length
  { s1 with mem := { s1.mem with
      data := memWrite s1.mem.data pa b, poison := clearPoison s1.mem.poison pa b.length
      gessoed := cutGesso s1.mem.gessoed pa b.length } }

/-- The bytes of a freed region written as zero: the data, poison and dirty maps, and the checkpoint bits of its
frames. -/
def State.gessoFill (s : State) (pa n : Nat) : State :=
  let s1 := if pa < 2 ^ 40 then s.touch pa n else s
  let whole (u : Nat) : Bool := decide (pa ≤ 2 ^ 21 * u) && decide (2 ^ 21 * (u + 1) ≤ pa + n)
  let sw := s1.sec.sweep
  { s1 with
    sec := { s1.sec with sweep := { sw with genMap := sw.genMap.filter fun x => !(2 ^ 20 ≤ x.1 && whole (x.1 % 2 ^ 20)) } }
    mem := { s1.mem with
      data := memClear s1.mem.data pa n
      gessoed := cutGesso s1.mem.gessoed pa n
      poison := s1.mem.poison.filter fun p => !(pa ≤ p && p < pa + n)
      dirty := s1.mem.dirty.filter fun u => !whole u } }

/-- Bytes written to a slice's memory, byte by byte: a byte with no valid leaf, a read-only one or one not present
is discarded (R139). -/
def State.vwriteBytes (s : State) (sl va : Nat) : Bytes → State
  | [] => s
  | b :: bs =>
    let s1 := match s.xlate sl va with
      | some x => match x.pa with
        | some pa => if x.ro then s else s.pwrite pa [b]
        | none => s
      | none => s
    s1.vwriteBytes sl (va + 1) bs

/-- Physical addresses of the 128-byte sectors that lie wholly in a range of a slice's memory. -/
def State.wholeSectors (s : State) (sl va n : Nat) : List Nat :=
  let first := divUp va 128
  let last := (va + n) / 128
  (List.range (last - first)).filterMap fun i => (s.xlate sl ((first + i) * 128)).bind (·.pa)

/-- Bytes written to a slice's memory; a sector all of whose 128 bytes are written loses its poison (R312). -/
def State.vwrite (s : State) (sl va : Nat) (b : Bytes) : State :=
  let whole := s.wholeSectors sl va b.length
  let s1 := s.vwriteBytes sl va b
  { s1 with mem := { s1.mem with poison := s1.mem.poison.filter fun p => !whole.contains p } }

end Sys2Proof.Machine
end

