-- ==== Sys2Proof/Machine/PageTable.lean ====
section
/-! DEFINITION. Translation tables and caches (R134, R136..R138): which tables a slice's leaves need, where they lie, what
their entries hold, the leaves that cores and walkers hold, and a change of leaves. -/

namespace Sys2Proof.Machine

/-- The state die list of a slice (R145). -/
def State.dieList (s : State) (sl : Nat) : List Nat := ((s.sliceEnt sl).map SliceEnt.stateDies).getD []

/-! ## Tables and their entries (R134..R136) -/

/-- A table of a slice. -/
def State.tableAt (s : State) (sl level number : Nat) : Option PtTable :=
  s.mem.tables.find? fun t => t.slice == sl && t.level == level && t.number == number

/-- The virtual address bits below those that number a level's entries: 12, 22, 32, 42. -/
def entryShift (level : Nat) : Nat := 12 + 10 * level

/-- Whether a leaf sits at a level: at L0 up to 2 MiB, else at L1 (R136). -/
def Leaf.atLevel (l : Leaf) (level : Nat) : Bool := level == if l.log2 ≤ 21 then 0 else 1

/-- Entry `k` of table `number` of a level (R134..R136): the leaf that covers it, the same word in every entry of its span, or
the table below it; V = 0 elsewhere. -/
def State.entry (s : State) (sl level number k : Nat) : U64 :=
  let va := (number * 1024 + k) * 2 ^ entryShift level
  match s.leafAt sl va with
  | some l =>
    if l.atLevel level then l.word
    else (if level = 0 then none else s.tableAt sl (level - 1) (number * 1024 + k)).elim 0 fun t => tableWord t.pa
  | none => (if level = 0 then none else s.tableAt sl (level - 1) (number * 1024 + k)).elim 0 fun t => tableWord t.pa

/-- The 8 KiB of a table. -/
def State.tableBytes (s : State) (t : PtTable) : Bytes :=
  (List.range 1024).flatMap fun k => bytesOf 8 (s.entry t.slice t.level t.number k).toNat

/-! ## Which tables a slice needs -/

/-- A run of mapped addresses: start, bytes, and whether its leaves sit at L0. -/
abbrev Run := Nat × Nat × Bool

/-- Runs of a window's KV state (R132, R144). -/
def SessKv.runs (k : SessKv) (g : Geom) (base : Nat) : List Run :=
  let region (p : KvPage) (a : Nat) : List Run :=
    let n := 16 * 2 ^ p.log2 * g.unit a
    if 4096 ≤ n then [(base + g.areaAt a p.layer + (p.first + 16) * g.unit a, n, decide (n ≤ 2 ^ 21))] else []
  k.pages.flatMap (fun p => region p 0 ++ region p 1 ++ region p 2) ++
  k.granules.map (fun gr => (base + g.areaAt gr.area gr.layer + 4096 * gr.m, 4096, true)) ++
  (if k.scratchPa = 0 then [] else [(base + 0x1F_0000_0000, 2 ^ 20, true)]) ++
  (if k.cursorPa = 0 then [] else [(base + 0x1F_0010_0000, 4096, true)])

/-- Runs of an object (R299, R301). -/
def Obj.runs (o : Obj) : List Run :=
  if ¬ o.awaited.isEmpty then []
  else if o.tier = 1 then o.pieces.map fun p => (o.va + p.1, p.2.2, true)
  else [(o.va, o.units * 4096, true)]

/-- Every run of a slice: windows of sessions and mirrors, palette entries, objects. -/
def State.runs (s : State) (sl : Nat) : List Run :=
  let g := (s.geom sl).getD ⟨0, 0, 0, 0, 0⟩
  (s.desc.filter fun d => d.2.slice == sl && d.2.windowBase != 0).flatMap (fun d => (s.kvOf d.1).runs g d.2.windowBase) ++
  (s.mirrors.filter (·.slice == sl)).flatMap (fun m => (s.kvOf (mirrorKey sl m.window)).runs g (windowBase m.window)) ++
  (s.srv.pals.filter fun p => p.2.slice == sl).flatMap (fun p =>
    p.2.parts.map fun x => (palBase p.1 + x.1, x.2.2, true)) ++
  (s.mem.objects.filter (·.slice == sl)).flatMap Obj.runs

/-- Numbers of the tables of a level that a run of `n` bytes from `va` on passes through. -/
def tablesOf (level va n : Nat) : List (Nat × Nat) :=
  let k := 2 ^ entryShift (level + 1)
  if n = 0 then [] else (List.range ((va + n - 1) / k + 1 - va / k)).map fun j => (level, va / k + j)

/-- Tables a run needs below the root. -/
def Run.tables (r : Run) : List (Nat × Nat) :=
  tablesOf 2 r.1 r.2.1 ++ tablesOf 1 r.1 r.2.1 ++ if r.2.2 then tablesOf 0 r.1 r.2.1 else []

/-- What window `w` needs beside its pages (R134, R267): the root, the L2 table of its group, the page of its sampler record and
the tables that page needs. -/
def groupTables (w : Nat) : List (Nat × Nat) :=
  [(3, 0), (2, 512 + w / 32), (4, w / 32)] ++ Run.tables (0x7_E000_0000_0000 + 4096 * (w / 32), 4096, true)

/-- Tables a slice needs: those of its windows in use and of its runs, and with any of them the root. -/
def State.tablesNeeded (s : State) (sl : Nat) : List (Nat × Nat) :=
  let l := (s.windowsUsed sl).flatMap groupTables ++ (s.runs sl).flatMap Run.tables
  if l.isEmpty then [] else ((3, 0) :: l).eraseDups

/-- Bytes of a table, or of a page of sampler records. -/
def frameSize (level : Nat) : Nat := if level = 4 then 4096 else 8192

/-- Tables taken from the slice's general capacity (R134), those there already left; none where there is no room. -/
def State.takeTables (s : State) (sl : Nat) : List (Nat × Nat) → Option State
  | [] => some s
  | x :: xs =>
    if (s.tableAt sl x.1 x.2).isSome then s.takeTables sl xs
    else ((s.dieList sl).findSome? fun n => s.alloc sl n (frameSize x.1) (frameSize x.1) false).bind fun (a : State × Nat) =>
      ({ a.1 with mem := { a.1.mem with tables := a.1.mem.tables ++ [PtTable.mk sl x.1 x.2 a.2] } }).takeTables sl xs

/-- Tables of a slice that nothing needs any more are freed, gesso-filled (R134). -/
def State.dropUnneeded (s : State) (sl : Nat) : State :=
  let need := s.tablesNeeded sl
  let gone := s.mem.tables.filter fun t => t.slice == sl && !need.contains (t.level, t.number)
  gone.foldl (fun u t => u.freeAt t.pa)
    { s with mem := { s.mem with tables := s.mem.tables.filter fun t => !gone.contains t } }

/-! ## Caches (R137, R138) -/

/-- Leaves of a slice have changed (R138): tables that are newly needed are taken, those no longer needed are freed, and no
cache keeps a leaf that has changed. None where there is no room for a table. -/
def State.remap (s : State) (sl : Nat) : Option State :=
  (s.takeTables sl (s.tablesNeeded sl)).map fun t => (t.dropUnneeded sl).invalidate sl

/-- A change of leaves that takes no new table. -/
def State.unmapped (s : State) (sl : Nat) : State := (s.dropUnneeded sl).invalidate sl

/-- A leaf put into a cache of `n` leaves; a full cache gives up the leaf it has held longest (the model's choice). -/
def cachePut (n : Nat) (c : Cached) (l : List Cached) : List Cached :=
  if l.contains c then l else (l ++ [c]).drop (l.length + 1 - n)

/-- The walker of a die that serves an address: by its 4 KiB unit (the model's choice). -/
def walkerOf (die va : Nat) : Nat := 16 * die + va / 4096 % 16

/-- A walk for an address of a slice at a die's walkers (R137): its leaf is held by the walker. -/
def State.walk (s : State) (die sl va : Nat) : State :=
  match s.leafAt sl va with
  | none => s
  | some l =>
    let k := walkerOf die va
    { s with mem := { s.mem with
      walkTlb := tabPut s.mem.walkTlb k (cachePut 4096 ⟨sl, l.va, l.log2, l.word⟩ (tabGetD s.mem.walkTlb [] k)) } }

/-- A core's miss (R137): the walkers of the state die on its home bridge give the leaf, which the core holds too. -/
def State.walkFor (s : State) (core sl va : Nat) : State :=
  match s.leafAt sl va with
  | none => s
  | some l =>
    let s1 := s.walk (core / 64) sl va
    { s1 with mem := { s1.mem with
      coreTlb := tabPut s1.mem.coreTlb core (cachePut 256 ⟨sl, l.va, l.log2, l.word⟩ (tabGetD s1.mem.coreTlb [] core)) } }

/-! ## Windows (R131, R134) -/

/-- What a window needs beside its pages can be had. -/
def State.groupRoom (s : State) (sl w : Nat) : Bool := (s.takeTables sl (groupTables w)).isSome

/-- The lowest-numbered free window of a slice (R131); none where its tables cannot be had (the model's choice). -/
def State.freeWindow (s : State) (sl : Nat) : Option Nat :=
  let used := s.windowsUsed sl
  if used.length ≥ 16384 then none
  else (lowestFree used 0 (used.length + 1)).bind fun w => if s.groupRoom sl w then some w else none

/-- PT_ROOT of window `w`: its 256-byte segment of the L2 table of its group (R134). -/
def State.windowRoot (s : State) (sl w : Nat) : Nat :=
  ((s.tableAt sl 2 (512 + w / 32)).map (·.pa)).getD 0 + 256 * (w % 32)

/-- What a window needs beside its pages, taken. -/
def State.takeGroup (s : State) (sl w : Nat) : State := (s.takeTables sl (groupTables w)).getD s

/-- A session takes the lowest free window of its slice (R131, R134). -/
def State.takeWindow (s : State) (i : Nat) : State :=
  let d := tabGetD s.desc {} i
  match s.freeWindow d.slice with
  | none => s
  | some w =>
    let r := s.takeGroup d.slice w
    { r with desc := tabPut r.desc i { d with
      windowBase := windowBase w, ptRoot := r.windowRoot d.slice w, scratchAddr := 0x1F_0000_0000 + windowBase w } }

/-- The state die that holds layer `l` of a slice (R145). -/
def State.layerDie (s : State) (sl l : Nat) : Nat :=
  match s.sliceEnt sl with
  | none => 0
  | some e =>
    let dies := e.stateDies
    dies.getD (l % max 1 dies.length) 0

end Sys2Proof.Machine
end

