-- ==== Sys2Proof/Machine/Kv.lean ====
section
/-! DEFINITION. KV pages: allocation under the growth rule, granules, reservation, copy-on-write and freeing
(R142..R146, R151, R153, R154, R159, R86..R88, R131). -/

namespace Sys2Proof.Machine

/-! ## Allocation -/

/-- One region of a page (R140, R144): of its own when it is 4 KiB or more, else inside the granule of its slot, which
is taken when the session does not hold it. Answers the physical address, the granules held, and the state. -/
def State.takeRegion (s : State) (sl : Nat) (prot : Bool) (gs : List Granule) (area layer slot unit tokens : Nat) :
    Option (State × List Granule × Nat) :=
  if unit = 0 then some (s, gs, 0)
  else
    let n := s.layerDie sl layer
    let size := tokens * unit
    if 4096 ≤ size then (s.alloc sl n size size prot).map fun x => (x.1, gs, x.2)
    else
      let m := slot * unit / 4096
      match gs.find? fun g => g.area == area && g.layer == layer && g.m == m with
      | some g => some (s, gs, g.pa + slot * unit % 4096)
      | none => (s.alloc sl n 4096 4096 prot).map fun x =>
          (x.1, gs ++ [⟨area, layer, m, x.2, 0⟩], x.2 + slot * unit % 4096)

/-- Page `j` of a layer taken: its three regions (R140..R144). -/
def State.takePage (s : State) (sl : Nat) (g : Geom) (prot : Bool) (gs : List Granule) (layer j m : Nat) :
    Option (State × List Granule × KvPage) :=
  let k := pageLog2 j m
  let first := pageFirst j m
  let slot := first + 16
  let n := 16 * 2 ^ k
  (s.takeRegion sl prot gs 0 layer slot g.e n).bind fun a =>
  (a.1.takeRegion sl prot a.2.1 1 layer slot g.s n).bind fun b =>
  (b.1.takeRegion sl prot b.2.1 2 layer slot g.c n).map fun c =>
    (c.1, c.2.1, { layer := layer, log2 := k, first := first, elem := a.2.2, scale := b.2.2, side := c.2.2 })

/-- Page `j` taken in each of the layers `ls` (all or nothing, R154). -/
def State.takeLayers (s : State) (sl : Nat) (g : Geom) (prot : Bool) (j m : Nat) :
    List Nat → SessKv → Option (State × SessKv)
  | [], k => some (s, k)
  | l :: ls, k =>
    (s.takePage sl g prot k.granules l j m).bind fun x =>
      x.1.takeLayers sl g prot j m ls { k with granules := x.2.1, pages := k.pages ++ [x.2.2] }

/-- The next `n` pages of every layer, from page `j` on (all or nothing). -/
def State.takePages (s : State) (sl : Nat) (g : Geom) (prot : Bool) (m : Nat) :
    Nat → Nat → SessKv → Option (State × SessKv)
  | 0, _, k => some (s, k)
  | n + 1, j, k =>
    (s.takeLayers sl g prot j m (List.range g.layers) k).bind fun x => x.1.takePages sl g prot m n (j + 1) x.2

/-- Pages a session holds per layer. -/
def SessKv.perLayer (k : SessKv) : Nat := (k.pages.filter (·.layer == 0)).length

/-! ## Reservation (R153) -/

/-- The region of page `p` in an area lies in a granule that is held already (R144). -/
def SessKv.inHeld (k : SessKv) (g : Geom) (p : KvPage) (a : Nat) : Bool :=
  k.granules.any fun gr => gr.area == a && gr.serves g p

/-- The reserve entry of one layer for page `j`: no address for a region in a granule that the session already holds. -/
def State.reserveLayer (s : State) (sl : Nat) (g : Geom) (prot : Bool) (k : SessKv) (j m l : Nat) :
    Option (State × ResEnt) :=
  (s.takePage sl g prot k.granules l j m).map fun x =>
    let p := x.2.2
    let at_ (a : Nat) : Nat := if k.inHeld g p a then 0 else p.areaPa a
    (x.1, ⟨l, at_ 0, at_ 1, at_ 2, p.log2, x.2.1.drop k.granules.length⟩)

/-- The 32 bytes of a layer's entry of the reserve record (R153). -/
def ResEnt.bytes (r : ResEnt) : Bytes :=
  bytesOf 8 r.elem ++ bytesOf 8 r.scale ++ bytesOf 8 r.side ++ bytesOf 1 r.log2 ++ zeros 7

/-- The next page of every layer put into the reserve record. -/
def State.reservePages (s : State) (sl : Nat) (g : Geom) (prot : Bool) (k : SessKv) (j m : Nat) :
    List Nat → List ResEnt → Option (State × List ResEnt)
  | [], acc => some (s, acc)
  | l :: ls, acc =>
    (s.reserveLayer sl g prot k j m l).bind fun x => x.1.reservePages sl g prot k j m ls (acc ++ [x.2])

/-- The reserved pages mapped: they become the session's next pages, regions without an address in the granules held. -/
def SessKv.useReserve (k : SessKv) (g : Geom) (m : Nat) : SessKv :=
  let j := k.perLayer
  let grs := k.granules ++ k.reserve.flatMap (·.granules)
  let page (r : ResEnt) : KvPage :=
    let p : KvPage := { layer := r.layer, log2 := r.log2, first := pageFirst j m, elem := r.elem, scale := r.scale, side := r.side }
    let at_ (a : Nat) : Nat :=
      if p.areaPa a ≠ 0 then p.areaPa a
      else ((grs.find? fun gr => gr.area == a && gr.serves g p).map fun gr =>
        gr.pa + (p.first + 16) * g.unit a % 4096).getD 0
    { p with elem := at_ 0, scale := at_ 1, side := at_ 2 }
  { k with pages := k.pages ++ k.reserve.map page, granules := grs, reserve := [] }

/-! ## Counts and freeing (R88, R146, R151, R159) -/

/-- Key of a count record: the die's store and the record's index. -/
def countKey (pa rcp : Nat) : Nat := 2 ^ 20 * (pa / 2 ^ 37) + rcp

/-- The count of a page or granule at `pa` whose record is `rcp`: 1 when never shared. -/
def State.count (s : State) (pa rcp : Nat) : Nat :=
  if rcp = 0 then 1 else tabGetD s.mem.counts 1 (countKey pa rcp)

/-- A count record set; a count of 0 frees it. -/
def State.setCount (s : State) (pa rcp n : Nat) : State :=
  if rcp = 0 then s
  else { s with mem := { s.mem with
    counts := if n = 0 then tabDel s.mem.counts (countKey pa rcp) else tabPut s.mem.counts (countKey pa rcp) n } }

/-- The lowest free count record of a die's store, 1..1,048,575 (R146). -/
def State.freeRecord (s : State) (n : Nat) : Option Nat :=
  let used := (s.mem.counts.filter fun c => c.1 / 2 ^ 20 == n).map fun c => c.1 % 2 ^ 20
  lowestFree used 1 (min 1048575 (used.length + 1))

/-- Frees the regions of page `p` that are not inside a granule. -/
def State.freeRegions (s : State) (g : Geom) (p : KvPage) : State :=
  let n := 16 * 2 ^ p.log2
  let f (s : State) (pa unit : Nat) : State := if 4096 ≤ n * unit then s.freeAt pa else s
  f (f (f s p.elem g.e) p.scale g.s) p.side g.c

/-- One reference to page `p` dropped: freed, gesso-filled, when its count reaches 0 (R88). -/
def State.dropPage (s : State) (g : Geom) (p : KvPage) : State :=
  let c := s.count p.elem p.rcp
  if c ≤ 1 then (s.setCount p.elem p.rcp 0).freeRegions g p else s.setCount p.elem p.rcp (c - 1)

/-- One reference to each of some granules dropped (R144, R159). The counts are those before the drop, so a record that
a layer's head granules share falls by one. -/
def State.dropGranules (s : State) (grs : List Granule) : State :=
  grs.foldl (fun t gr =>
    let c := s.count gr.pa gr.rcp
    if c ≤ 1 then (t.setCount gr.pa gr.rcp 0).freeAt gr.pa else t.setCount gr.pa gr.rcp (c - 1)) s

/-- The reserved pages released to the free pool. -/
def State.releaseReserve (s : State) (g : Geom) (i : Nat) : State :=
  let k := s.kvOf i
  let s1 := k.reserve.foldl (fun t r =>
    let p : KvPage := { layer := r.layer, log2 := r.log2, first := 0, elem := r.elem, scale := r.scale, side := r.side }
    r.granules.foldl (fun t gr => t.freeAt gr.pa) (t.freeRegions g p)) s
  let d := tabGetD s.desc {} i
  let s2 := s1.setKv i { k with reserve := [] }
  if d.reservePage = 0 then s2
  else { s2.freeAt d.reservePage with desc := tabPut s2.desc i { d with reservePage := 0 } }

/-- Pages of session `i` from page number `j` per layer on are unmapped and freed, with the granules no page left
needs (R151, R159); head granules (m = 0) go with page 0 (R144). -/
def State.dropFrom (s : State) (g : Geom) (i j m : Nat) : State :=
  let k := s.kvOf i
  let cut := pageFirst j m
  let (gone, kept) := k.pages.partition fun p => cut ≤ p.first
  let (grKept, grGone) := k.granules.partition fun gr =>
    kept.any (fun p => gr.serves g p) || (gr.m == 0 && kept.any fun p => p.layer == gr.layer)
  let s1 := gone.foldl (fun t p => t.dropPage g p) s
  let s2 := s1.dropGranules grGone
  s2.setKv i { k with pages := kept, granules := grKept }

/-- Every page, granule, reserve, scratch area and cursor area of a session freed, and its window gesso-filled before
reuse (R131, R159). -/
def State.freeSession (s : State) (i : Nat) : State :=
  let d := tabGetD s.desc {} i
  let g := (s.geom d.slice).getD ⟨0, 0, 0, 0, 0⟩
  let s1 := (s.releaseReserve g i).dropFrom g i 0 0
  let k := s1.kvOf i
  let s2 := if k.scratchPa = 0 then s1 else s1.freeAt k.scratchPa
  let a := if k.cursorPa = 0 then s2 else s2.freeAt k.cursorPa
  let s3 := ({ a with mem := { a.mem with kv := tabDel a.mem.kv i } }).unmapped d.slice
  let n := s.mem.gesso.length
  let key : Option Nat := match windowOf d.windowBase with
    | some w => if d.windowBase = 0 then none else some (d.slice * 2 ^ 14 + w)
    | none => none
  let gs := s3.mem.gesso.take n ++ (s3.mem.gesso.drop n).map fun x => { x with window := key }
  let wg := match key with
    | some w => if gs.length ≤ n then s3.mem.winGesso else s3.mem.winGesso ++ [w]
    | none => s3.mem.winGesso
  { s3 with mem := { s3.mem with gesso := gs, winGesso := wg } }

/-! ## Copy-on-write (R88, R144) -/

/-- Granules that a write into page `p` meets (R144): those that serve it, and with a head granule every head granule of the
layer, which one count record counts. -/
def SessKv.granulesOf (k : SessKv) (g : Geom) (p : KvPage) : List Granule :=
  let head := k.granules.any fun gr => gr.m == 0 && gr.serves g p
  k.granules.filter fun gr => gr.serves g p || (head && gr.m == 0 && gr.layer == p.layer)

/-- Private copies of some granules taken, whole (R144): the granules as they are then, old and new. -/
def State.copyGranules (s : State) (sl : Nat) (prot : Bool) : List Granule → Option (State × List (Granule × Granule))
  | [] => some (s, [])
  | gr :: grs =>
    (s.alloc sl (s.layerDie sl gr.layer) 4096 4096 prot).bind fun a =>
      ((a.1.pwrite a.2 (a.1.pread gr.pa 4096)).copyGranules sl prot grs).map fun x =>
        (x.1, (gr, { gr with pa := a.2, rcp := 0 }) :: x.2)

/-- Granules replaced by their copies: the regions of a session's pages that lie in them move with them. -/
def SessKv.moveGranules (k : SessKv) (g : Geom) (l : List (Granule × Granule)) : SessKv :=
  let new (gr : Granule) : Granule := ((l.find? fun x => x.1 == gr).map (·.2)).getD gr
  let at_ (p : KvPage) (a : Nat) : Nat := match l.find? fun x => x.1.area == a && x.1.serves g p with
    | some x => x.2.pa + p.areaPa a % 4096
    | none => p.areaPa a
  { k with granules := k.granules.map new
           pages := k.pages.map fun p => { p with elem := at_ p 0, scale := at_ p 1, side := at_ p 2 } }

/-- Page `q` of a session put in the place of the page of its layer and first token. -/
def SessKv.putPage (k : SessKv) (q : KvPage) : SessKv :=
  { k with pages := k.pages.map fun p => if p.layer = q.layer ∧ p.first = q.first then q else p }

/-- Before a write into page `p` (R88, R144, R146): a shared page gets a private replacement with its committed rows copied,
and each shared granule it uses a private copy; a page or granule whose count has fallen to 1 is written in place, and its
record is freed. None where no page can be had. -/
def State.privatePage (s : State) (sl : Nat) (g : Geom) (d : Desc) (k : SessKv) (p : KvPage) :
    Option (State × SessKv × KvPage) :=
  let (shared, own) := (k.granulesOf g p).partition fun gr => decide (1 < s.count gr.pa gr.rcp)
  let s0 := own.foldl (fun t gr => t.setCount gr.pa gr.rcp 0) s
  let k0 := { k with granules := k.granules.map fun gr => if own.contains gr then { gr with rcp := 0 } else gr }
  (s0.copyGranules sl d.prot shared).bind fun a =>
    let k1 := k0.moveGranules g a.2
    let s1 := a.1.dropGranules shared
    let q := (k1.pages.find? fun q => q.layer == p.layer && q.first == p.first).getD p
    if s.count p.elem p.rcp ≤ 1 then
      let q' := { q with rcp := 0 }
      let s2 := if shared.isEmpty then s1 else s1.bump .kvCowCopies sl 1
      some (s2.setCount p.elem p.rcp 0, k1.putPage q', q')
    else
      let j := (k1.pages.filter fun r => r.layer == p.layer && r.first < p.first).length
      (s1.takePage sl g d.prot k1.granules p.layer j d.pageMaxLog2).map fun x =>
        let rows := d.committedLen - d.stretchOffset - p.first
        let cp (t : State) (src dst unit : Nat) : State :=
          if src = 0 ∨ src = dst then t else t.pwrite dst (t.pread src (min rows (16 * 2 ^ p.log2) * unit))
        let r := x.2.2
        let s2 := cp (cp (cp x.1 q.elem r.elem g.e) q.scale r.scale g.s) q.side r.side g.c
        ((s2.dropPage g p).bump .kvCowCopies sl 1, { k1 with granules := x.2.1 }.putPage r, r)

/-- Each of some pages made private before a write into it (R88), all leaves changed at once (R138). -/
def State.privateAll (s : State) (sl : Nat) (g : Geom) (d : Desc) (i : Nat) : List KvPage → Option State
  | [] => s.remap sl
  | p :: ps =>
    match (s.kvOf i).pages.find? fun q => q.layer == p.layer && q.first == p.first with
    | none => s.privateAll sl g d i ps
    | some q => (s.privatePage sl g d (s.kvOf i) q).bind fun x => (x.1.setKv i x.2.1).privateAll sl g d i ps

/-! ## Sharing (R86, R87, R146) -/

/-- A page gets `n` more references: a record with its first sharing, else a higher count; none where the die has no
free record or the count would pass 65,535. -/
def State.sharePage (s : State) (p : KvPage) (n : Nat) : Option (State × KvPage) :=
  if p.rcp = 0 then
    (s.freeRecord (p.elem / 2 ^ 37)).map fun r => (s.setCount p.elem r (1 + n), { p with rcp := r })
  else
    let c := s.count p.elem p.rcp
    if 65535 < c + n then none else some (s.setCount p.elem p.rcp (c + n), p)

/-- The same for a granule; a layer's head granules share one record (R144). -/
def State.shareGranule (s : State) (gr : Granule) (n : Nat) : Option (State × Granule) :=
  if gr.rcp = 0 then
    (s.freeRecord (gr.pa / 2 ^ 37)).map fun r => (s.setCount gr.pa r (1 + n), { gr with rcp := r })
  else
    let c := s.count gr.pa gr.rcp
    if 65535 < c + n then none else some (s.setCount gr.pa gr.rcp (c + n), gr)

/-- All pages shared. -/
def State.sharePages (s : State) (n : Nat) : List KvPage → List KvPage → Option (State × List KvPage)
  | [], acc => some (s, acc)
  | p :: ps, acc => (s.sharePage p n).bind fun x => x.1.sharePages n ps (acc ++ [x.2])

/-- All granules shared. -/
def State.shareGranules (s : State) (n : Nat) : List Granule → List Granule → Option (State × List Granule)
  | [], acc => some (s, acc)
  | p :: ps, acc =>
    match acc.find? fun q => q.layer == p.layer && q.m == 0 && p.m == 0 with
    | some q => s.shareGranules n ps (acc ++ [{ p with rcp := q.rcp }])
    | none => (s.shareGranule p n).bind fun x => x.1.shareGranules n ps (acc ++ [x.2])

end Sys2Proof.Machine
end

