-- ==== Sys2Proof/Machine/SessOps.lean ====
section
/-! DEFINITION. What every session command is written with: descriptors as bytes (R66, R68), handles (R63, R64), the
composition as a session sees it (R370..R372, R378), token rings (R258..R260), session events (R75), the order of Empty
descriptors (R65), palette references (R181), and the ends of requests (R70, R251, R264, R265). -/

namespace Sys2Proof.Machine

/-! ## Descriptors -/

/-- The descriptor of an index; one not listed is Empty and has never been used. -/
def State.d (s : State) (i : Nat) : Desc := tabGetD s.desc {} i

/-- A descriptor written. -/
def State.setD (s : State) (i : Nat) (d : Desc) : State := { s with desc := tabPut s.desc i d }

/-- What the device keeps beside a descriptor. -/
def State.ax (s : State) (i : Nat) : DescAux := tabGetD s.aux {} i

/-- The same, written. -/
def State.setAx (s : State) (i : Nat) (a : DescAux) : State := { s with aux := tabPut s.aux i a }

/-- The request slot holds a live request (R71). -/
def Request.live (r : Request) : Bool := r.opcode != 0

/-- The session holds a live request. -/
def Desc.liveReq (d : Desc) : Bool := d.active.live || d.pending.live

/-- The season is one a session has. -/
def Desc.used (d : Desc) : Bool := d.season != .empty

/-- The 64 bytes of a request entry (R68). -/
def Request.bytes (r : Request) : Bytes :=
  bytesOf 1 r.opcode ++ bytesOf 1 r.kind ++ bytesOf 2 r.rflags ++ bytesOf 4 r.reqSeq.toNat ++
  bytesOf 8 r.handle.toNat ++ bytesOf 8 r.requestId.toNat ++ bytesOf 8 r.inputAddr.toNat ++ bytesOf 4 r.inputLen ++
  bytesOf 4 r.maxNew ++ bytesOf 8 r.deadline.toNat ++ bytesOf 2 r.tokenRing ++ bytesOf 2 r.temp.toNat ++
  bytesOf 2 r.topP.toNat ++ bytesOf 2 r.topK ++ bytesOf 8 r.seed.toNat

/-- The FLAGS word (table *Descriptor flags*). -/
def Desc.flags (d : Desc) : Nat :=
  boolBit d.pinned + 2 * boolBit d.prot + 4 * d.dclass + 32 * boolBit d.deepOk + 64 * boolBit d.deep +
  128 * boolBit d.tail + 256 * boolBit d.stream + 512 * boolBit d.runahead + 4096 * d.pageMaxLog2

/-- The 256 bytes of a descriptor (R66). -/
def Desc.bytes (d : Desc) : Bytes :=
  bytesOf 1 d.season.code ++ bytesOf 1 d.ownerState.code ++ bytesOf 2 d.gen ++ bytesOf 1 d.slice ++
  bytesOf 1 d.ringPos ++ bytesOf 2 d.flags ++ bytesOf 8 d.sessionId.toNat ++ bytesOf 4 d.ownerEpoch ++
  bytesOf 4 d.mapEpoch ++ bytesOf 2 d.palette ++ bytesOf 1 d.ringSize ++ bytesOf 1 d.op.code ++
  bytesOf 4 d.pageBudget ++ bytesOf 8 d.windowBase ++ bytesOf 8 d.ptRoot ++ bytesOf 4 d.stretchOffset ++
  bytesOf 4 d.committedLen ++ bytesOf 4 d.tentativeLen ++ bytesOf 4 d.pagesHeld ++ bytesOf 8 d.lastSummerPkc.toNat ++
  bytesOf 8 d.canvasAddr.toNat ++ bytesOf 4 d.canvasLen ++ bytesOf 1 d.canvasTier ++ bytesOf 1 d.heldReason.code ++
  bytesOf 2 d.heldSteps ++ bytesOf 8 d.parent.toNat ++ bytesOf 2 d.children ++ bytesOf 2 d.ringNext ++
  bytesOf 2 d.ringPrev ++ bytesOf 2 d.mirrorDev ++ bytesOf 4 d.scratchLen ++ bytesOf 2 d.cursors ++ zeros 2 ++
  bytesOf 8 d.scratchAddr ++ bytesOf 8 d.reservePage ++ d.active.bytes ++ d.pending.bytes

/-- A request entry read from its 64 bytes (R68). -/
def requestOf (b : Bytes) : Request :=
  { opcode := byteAt b 0, kind := byteAt b 1, rflags := le b 2 2, reqSeq := BitVec.ofNat 32 (le b 4 4)
    handle := BitVec.ofNat 64 (le b 8 8), requestId := BitVec.ofNat 64 (le b 16 8)
    inputAddr := BitVec.ofNat 64 (le b 24 8), inputLen := le b 32 4, maxNew := le b 36 4
    deadline := BitVec.ofNat 64 (le b 40 8), tokenRing := le b 48 2, temp := BitVec.ofNat 16 (le b 50 2)
    topP := BitVec.ofNat 16 (le b 52 2), topK := le b 54 2, seed := BitVec.ofNat 64 (le b 56 8) }

/-- The fields a thaw takes from a DESCRIPTOR section (R113), read from its bytes. -/
def descOfBytes (b : Bytes) : Desc :=
  let f := le b 6 2
  { season := .autumn, gen := le b 2 2, slice := byteAt b 4, ringPos := byteAt b 5
    pageMaxLog2 := f / 4096, tail := bitAt f 7, deep := bitAt f 6, deepOk := bitAt f 5
    dclass := bitsOf f 2 2, prot := bitAt f 1, pinned := bitAt f 0
    sessionId := BitVec.ofNat 64 (le b 8 8), ownerEpoch := le b 0x10 4, mapEpoch := le b 0x14 4
    palette := le b 0x18 2, ringSize := byteAt b 0x1A, pageBudget := le b 0x1C 4
    stretchOffset := le b 0x30 4, committedLen := le b 0x34 4, tentativeLen := le b 0x38 4
    pagesHeld := le b 0x3C 4, lastSummerPkc := BitVec.ofNat 64 (le b 0x40 8)
    parent := BitVec.ofNat 64 (le b 0x58 8), children := le b 0x60 2, ringNext := le b 0x62 2
    ringPrev := le b 0x64 2, mirrorDev := le b 0x66 2, scratchLen := le b 0x68 4, cursors := le b 0x6C 2
    scratchAddr := le b 0x70 8, active := requestOf (sub b 0x80 64), pending := requestOf (sub b 0xC0 64) }

/-- Where descriptor `i` lies (R59): its PCG, and its byte offset in the PCG's part of the session table. -/
def descPlace (i : Nat) : Nat × Nat := (i % 64, i / 64 * 256)

/-- The home state die of a session (R59): the die that serves its descriptor's PCG. -/
def homeDie (i : Nat) : Nat := (descPlace i).1 / 8

/-! ## Handles (R63, R64) -/

/-- The handle of descriptor `i`. -/
def handleOf (i : Nat) (d : Desc) : U64 := BitVec.ofNat 64 (2 ^ 40 * d.slice + 2 ^ 24 * d.gen + i)

/-- Descriptors of the session table (R59). -/
def State.tableSize (s : State) : Nat := 2 ^ s.tableLog2

/-- The physical address of descriptor `i` (R59, R292): its PCG's device reserve, which begins with the session table (DESIGN
CHOICE, log entry 104). -/
def descPa (i : Nat) : Nat :=
  let p := descPlace i
  2 ^ 37 * (p.1 / 8) + 0x1E_0000_0000 + p.1 % 8 * 0x800_0000 + p.2

/-- A sector of descriptor `i` is poisoned (R313). -/
def State.descBad (s : State) (i : Nat) : Bool := s.mem.poison.contains (descPa i) || s.mem.poison.contains (descPa i + 128)

/-- Descriptor `i` written whole: it loses its poison (R312). -/
def State.descWritten (s : State) (i : Nat) : State :=
  { s with mem := { s.mem with poison := s.mem.poison.filter fun p => p != descPa i && p != descPa i + 128 } }

/-- The checks of R64, in order: the index, or the code of the first that fails. A poisoned descriptor gives E_MEM_POISON to a
command that may name its slice (R313). -/
def State.handle (s : State) (fn : Nat) (h : U64) : Except Nat Nat :=
  let n := h.toNat
  let i := bitsOf n 0 24
  let d := s.d i
  if bitsOf n 46 18 ≠ 0 then .error eReservedSet
  else if s.tableSize ≤ i then .error eBadHandle
  else if s.descBad i then (if fn = 1 ∨ sliceFn (bitsOf n 40 6) = some fn then .error eMemPoison else .error eBadHandle)
  else if bitsOf n 40 6 ≠ d.slice ∨ (fn ≠ 1 ∧ sliceFn d.slice ≠ some fn) then .error eBadHandle
  else if bitsOf n 24 16 ≠ d.gen then .error eStaleHandle
  else .ok i

/-- A session is Closing, or in Summer with a CLOSE accepted (R71). -/
def State.closing (s : State) (i : Nat) : Bool := (s.d i).season == .closing || (s.ax i).closeAtEnd

/-- The checks every session command but SESSION_QUERY begins with: the handle (R64), Empty (R71), the tail (R67). -/
def State.tailHandle (s : State) (fn : Nat) (h : U64) : Except Nat Nat :=
  match s.handle fn h with
  | .error c => .error c
  | .ok i =>
    if ¬ (s.d i).used then .error eStaleHandle
    else if ¬ (s.d i).tail then .error eNotTail
    else .ok i

/-! ## Token rings (R257..R262) -/

/-- The key of a slice's token ring. -/
def ringKey (sl ring : Nat) : Nat := 2 ^ 14 * sl + ring

/-- A slice's token ring. -/
def State.tring (s : State) (sl ring : Nat) : Option TRing :=
  if ring < 2 ^ 14 then tabGet s.srv.rings (ringKey sl ring) else none

/-- A token ring written. -/
def State.setRing (s : State) (k : Nat) (t : TRing) : State :=
  { s with srv := { s.srv with rings := tabPut s.srv.rings k t } }

/-- Credit of a ring: size − (P − C), counted modulo 2^32 (R260). -/
def TRing.credit (t : TRing) : Nat := 2 ^ t.log2 - (2 ^ 32 + t.p - t.c) % 2 ^ 32

/-- The request names a ring of this device. -/
def Request.names (r : Request) (ring : Nat) : Bool := r.live && r.away.isNone && r.tokenRing == ring

/-- Live requests of a descriptor that name a ring of this device. -/
def Desc.naming (d : Desc) (ring : Nat) : Nat := boolBit (d.active.names ring) + boolBit (d.pending.names ring)

/-- The ring's reserve r: live requests that name it (R260), those that a handover has given away among them (R175). -/
def State.ringReserve (s : State) (sl ring : Nat) : Nat :=
  (s.desc.filter fun x => x.2.slice == sl).foldl (fun n x => n + x.2.naming ring) 0 +
  (s.srv.handed.filter fun h => h.slice == sl && h.ring == ring && h.via.isNone).length

/-- The token ring of a session's request: of its slice, or of the device it was handed over from (R175). -/
def State.reqRing (s : State) (i : Nat) (r : Request) : Option TRing :=
  match r.away with
  | none => s.tring (s.d i).slice r.tokenRing
  | some _ => tabGet s.srv.awayRings (i * 2 ^ 14 + r.tokenRing)

/-- The reserve of a session's request's ring. -/
def State.reqReserve (s : State) (i : Nat) (r : Request) : Nat :=
  match r.away with
  | none => s.ringReserve (s.d i).slice r.tokenRing
  | some _ => boolBit ((s.d i).active.live && (s.d i).active.tokenRing == r.tokenRing) +
      boolBit ((s.d i).pending.live && (s.d i).pending.tokenRing == r.tokenRing)

/-- A token ring entry (R258). -/
structure RingEntry where
  token : Nat
  position : Nat
  flags : Nat
  logprob : Nat
  seq : U32
  deriving DecidableEq, Repr

/-- Its 16 bytes. -/
def RingEntry.bytes (e : RingEntry) : Bytes :=
  bytesOf 4 e.token ++ bytesOf 4 e.position ++ bytesOf 2 e.flags ++ bytesOf 2 e.logprob ++ bytesOf 4 e.seq.toNat

/-- A step of the slice's job is running. -/
def State.inStep (s : State) (sl : Nat) : Bool :=
  match tabGet s.srv.jobs sl with
  | some j => j.inStep
  | none => false

/-- Entries written to a ring, then P to TAIL_ADDR, then the ring's message, at most once per step (R259); token
entries count in TOKENS_OUT. -/
def State.ringWrite (s : State) (sl ring : Nat) (es : List RingEntry) : State :=
  match s.tring sl ring with
  | none => s
  | some t =>
    if es.isEmpty then s
    else
      let n := 2 ^ t.log2
      let s1 := es.zipIdx.foldl (fun u p => u.hostWrite (t.base.toNat + 16 * ((t.p + p.2) % n)) p.1.bytes) s
      let p' := (t.p + es.length) % 2 ^ 32
      let s2 := s1.hostWrite t.tailAddr.toNat (bytesOf 4 p')
      let st := s.inStep sl
      let s3 := s2.setRing (ringKey sl ring) { t with p := p', msgSent := st && (t.msgSent || t.ien) }
      let s4 := if t.ien && !(st && t.msgSent) then s3.interrupt t.fn t.vector else s3
      let k := (es.filter fun e => e.token != 0xFFFFFFFF).length
      if k = 0 then s4 else s4.bump .tokensOut sl k

/-- Entries of a session's request written to its ring; to a ring of another device each goes as a WRITE (R175), with the
ring's number as its address and the session's OWNER_EPOCH (R91) in AUX (log entry 26). -/
def State.reqWrite (s : State) (i : Nat) (r : Request) (es : List RingEntry) : State :=
  match r.away with
  | none => s.ringWrite (s.d i).slice r.tokenRing es
  | some (dev, sl) =>
    let k := i * 2 ^ 14 + r.tokenRing
    let s1 := match tabGet s.srv.awayRings k with
      | none => s
      | some t => { s with srv := { s.srv with
          awayRings := tabPut s.srv.awayRings k { t with p := (t.p + es.length) % 2 ^ 32 } } }
    es.foldl (fun t e => t.send dev 2 0 sl [r.tokenRing, (s.d i).ownerEpoch] e.bytes .none) s1

/-- OWNER_EPOCH of this device's own descriptor of a session; 0 for none. -/
def State.epochOf (s : State) (sid : U64) : Nat :=
  ((s.desc.find? fun x => x.2.used && x.2.sessionId == sid).map (·.2.ownerEpoch)).getD 0

/-- P and C of a ring whose requests were handed over, passed to the devices that serve them (R175). -/
def State.passCredit (s : State) (sl ring : Nat) : State :=
  match s.tring sl ring with
  | none => s
  | some t => (s.srv.handed.filter fun h => h.slice == sl && h.ring == ring && h.via.isNone).foldl (fun (u : State) h =>
      u.send h.dev 2 0 h.devSlice [2 ^ 32 + ring, u.epochOf h.sid]
        (bytesOf 8 h.handle.toNat ++ bytesOf 4 t.p ++ bytesOf 4 t.c ++ bytesOf 4 t.log2) .none) s

/-! ## Session events and counts -/

/-- A session event (R75): to the slice's queue, with the handle, old and new season and cause. -/
def State.sessEvent (s : State) (i : Nat) (old new : Season) (cause : Nat) : State :=
  let d := s.d i
  s.post d.slice 0x01 d.slice 0
    (packBytes [(64, (handleOf i d).toNat), (8, old.code), (8, new.code), (8, cause)])

/-- A reference to a palette entry taken or dropped (R181). -/
def State.palRef (s : State) (e : Nat) (up : Bool) : State :=
  match tabGet s.srv.pals e with
  | none => s
  | some p =>
    { s with srv := { s.srv with
      pals := tabPut s.srv.pals e { p with refs := if up then p.refs + 1 else p.refs - 1 } } }

/-- A usable palette entry of a slice, compiled for its current model program (R177, R179). -/
def State.palOk (s : State) (sl e : Nat) : Bool :=
  match tabGet s.srv.pals e, s.modelHash sl with
  | some p, some h => p.ready && p.slice == sl && p.program == h
  | _, _ => false

/-- The usable entry of a slice with a content hash and length, if one is loaded. -/
def State.palFind (s : State) (sl : Nat) (content : U256) (tokens : Nat) : Option Nat :=
  (s.srv.pals.find? fun x => s.palOk sl x.1 && x.2.content == content && x.2.tokens == tokens).map (·.1)

/-- The Empty descriptor that OPEN takes (R65): a never-used index, lowest first, else the one that became Empty
longest ago (log entry 17). -/
def State.emptyIndex (s : State) : Option Nat :=
  let fresh := tabFresh s.desc 0
  if fresh < s.tableSize then some fresh
  else
    ((s.desc.filter fun x => !x.2.used && x.1 < s.tableSize).foldl (fun (b : Option (Nat × Nat)) x =>
      let t := (s.ax x.1).emptyAt
      match b with
      | none => some (x.1, t)
      | some y => if t < y.2 then some (x.1, t) else b) none).map (·.1)

/-- A descriptor becomes Empty (R65, R66, R72, R181): GEN advances, SLICE stays, the palette reference is released, the
parent loses a child while its descriptor holds the same GEN (R89). -/
def State.toEmpty (s : State) (i : Nat) : State :=
  let d := s.d i
  let s1 := if d.palette < 4096 then s.palRef d.palette false else s
  let pi := bitsOf d.parent.toNat 0 24
  let p := s1.d pi
  let s2 :=
    if d.parent ≠ 0 ∧ p.gen = bitsOf d.parent.toNat 24 16 ∧ p.used then
      s1.setD pi { p with children := p.children - 1 }
    else s1
  let s3 := s2.setD i { gen := if d.gen = 0xFFFF then 1 else d.gen + 1, slice := d.slice }
  (({ s3 with emptyCtr := s3.emptyCtr + 1 }).setAx i { emptyAt := s3.emptyCtr + 1 }).descWritten i

/-! ## Requests (R70, R251, R264, R265) -/

/-- Flags of a token ring entry (table *Entry flags*). -/
def fLast : Nat := 1
def fCancelled : Nat := 2
def fLate : Nat := 4
def fDraftOk : Nat := 8
def fHeld : Nat := 16

/-- The completion of a request (R461): REQUEST_ID, then the tokens emitted; it goes to the device the request was handed
over from (R175), with the session's OWNER_EPOCH (R91). -/
def State.completeReq (s : State) (i : Nat) (r : Request) (status emitted : Nat) : State :=
  match r.away with
  | none => s.completeOpt r.tag status (packBytes [(64, r.requestId.toNat), (32, emitted)])
  | some (dev, sl) => s.send dev 2 0 sl [2 ^ 33, (s.d i).ownerEpoch]
      (bytesOf 8 r.handle.toNat ++ bytesOf 8 r.requestId.toNat ++ bytesOf 4 status ++ bytesOf 4 emitted) .none

/-- CANCEL commands that wait for the session's active request complete with 0 (R264). -/
def State.endCancels (s : State) (i : Nat) : State :=
  let mine := s.srv.cancels.filter (·.1 == i)
  let s1 := { s with srv := { s.srv with cancels := s.srv.cancels.filter (·.1 != i) } }
  mine.foldl (fun t c => t.complete c.2 0 0 []) s1

/-- PENDING becomes active where ACTIVE holds no live request (R70): its generator counter and tokens emitted become
the active ones (R102). -/
def State.promote (s : State) (i : Nat) : State :=
  let d := s.d i
  if d.active.live || !d.pending.live then s
  else
    let k := s.kvOf i
    let m := { k.sampler with
      counter := k.sampler.counterP, emitted := k.sampler.emittedP, counterP := 0, emittedP := 0
      inputDone := 0, cancel := false }
    -- a pending request whose function has been reset keeps its mark (R93)
    let l := if s.srv.dropped.contains (2 ^ 24 + i) then i :: s.srv.dropped.filter (· != 2 ^ 24 + i) else s.srv.dropped
    ({ s with srv := { s.srv with dropped := l } }).setD i { d with active := d.pending, pending := {} }
      |>.setKv i { k with sampler := m }

/-- The no-token entry that ends a request (R251): POSITION is COMMITTED_LEN; HELD after a hold (R262). -/
def State.noToken (s : State) (i : Nat) (r : Request) (flags : Nat) : State :=
  let d := s.d i
  let due := (s.kvOf i).sampler.heldDue && r == d.active
  s.reqWrite i r
    [⟨0xFFFFFFFF, d.committedLen, flags ||| whenB due fHeld, 0x7E00, r.reqSeq⟩]

/-- A counter of request ends (R160, R269). -/
def State.countEnd (s : State) (sl status : Nat) : State :=
  if status = eDeadline then s.bump .lateEnds sl 1
  else if status = eKvFull then s.bump .kvFullEnds sl 1
  else if status = eRingLost then s.bump .ringLost sl 1
  else s

/-- The active request of session `i` ends with a status: its no-token entry where `entry` says so, ACTIVE keeps the
entry with OPCODE 0x00, HELD is cleared, the completion goes out (R70, R251, R259). -/
def State.endActive (s : State) (i status flags : Nat) (entry : Bool) : State :=
  let d := s.d i
  if ¬ d.active.live then s
  else
    let s1 := if entry then s.noToken i d.active flags else s
    let k := s1.kvOf i
    let em := k.sampler.emitted
    let s2 := s1.setKv i { k with sampler := { k.sampler with cancel := false, heldDue := false, drafts := [] } }
    let d2 := s2.d i
    let s3 := s2.setD i { d2 with
      active := { d2.active with opcode := 0, tag := none }, heldReason := .none, heldSteps := 0 }
    ((s3.countEnd d.slice status).completeReq i d.active status em).endCancels i

/-- The request in PENDING is removed (R264). -/
def State.endPending (s : State) (i status flags : Nat) : State :=
  let d := s.d i
  if ¬ d.pending.live then s
  else
    let s1 := s.noToken i d.pending flags
    ((s1.setD i { s1.d i with pending := {} }).countEnd d.slice status).completeReq i d.pending status
      (s.kvOf i).sampler.emittedP

/-- Every live request of a session ends with a status and no ring entry (R93). -/
def State.dropRequests (s : State) (i status : Nat) : State :=
  let d := s.d i
  let em := (s.kvOf i).sampler.emitted
  let s1 := if d.active.live then s.completeReq i d.active status em else s
  let s2 := if d.pending.live then s1.completeReq i d.pending status 0 else s1
  (s2.setD i { s2.d i with active := {}, pending := {} }).endCancels i

/-- A deadline has passed (R265). -/
def State.late (s : State) (r : Request) : Bool := r.deadline != 0 && r.deadline.toNat ≤ s.pkc

end Sys2Proof.Machine
end

