-- ==== Sys2Proof/Machine/Cores.lean ====
section
/-! DEFINITION. Cores and kernels: the kernel library (R231..R233), core store (R228, R230, R315), sequencer records
(R222, R226, R227), yields and faults of kernels (R237, R238), and the event counters they feed (R242, R511). -/

namespace Sys2Proof.Machine

/-! ## The kernel library -/

/-- A kernel entry (R232). -/
structure Kernel where
  engines : Nat
  be : Bool
  code : Nat
  len : Nat
  store : Nat
  consts : List Nat
  deriving DecidableEq, Repr

/-- A stage entry (R233). -/
structure Stage where
  kernel : Nat
  scope : Nat
  role : Nat
  phase : Nat
  split : Nat
  maxParts : Nat
  shared : Nat
  sharedLen : Nat
  deriving DecidableEq, Repr

/-- The kernel library section of a slice. -/
def State.klib (s : State) (sl : Nat) : Bytes := (s.sect 0x0006 sl 0).getD []

/-- Kernel `k` of a library (R231, R232). -/
def kernelOf (b : Bytes) (k : Nat) : Kernel :=
  let o := le b 4 4 + 32 * k
  { engines := byteAt b o, be := bitAt (byteAt b (o + 1)) 0, code := le b (o + 4) 4, len := le b (o + 8) 4
    store := le b (o + 0xC) 4, consts := [le b (o + 0x10) 4, le b (o + 0x14) 4, le b (o + 0x18) 4] }

/-- The stage entry at an offset. -/
def stageOf (b : Bytes) (o : Nat) : Stage :=
  { kernel := le b o 2, scope := byteAt b (o + 2), role := byteAt b (o + 3), phase := byteAt b (o + 4)
    split := byteAt b (o + 5), maxParts := le b (o + 6) 2, shared := le b (o + 8) 8 % 2 ^ 52
    sharedLen := le b (o + 8) 8 / 2 ^ 52 }

/-- The step plan of a model program: its stages in table order (R231, R233). -/
def planOf (b : Bytes) (prog : Nat) : List Stage :=
  let entries := (List.range (le b 2 2)).map fun j => le b 8 4 + 8 * j
  match entries.find? fun o => byteAt b o == prog with
  | none => []
  | some o => (List.range (le b (o + 2) 2)).map fun j => stageOf b (le b (o + 4) 4 + 16 * j)

/-! ## Cores -/

/-- A core. -/
def State.core (s : State) (c : Nat) : Core := tabGetD s.srv.cores {} c

/-- A core written. -/
def State.setCore (s : State) (c : Nat) (x : Core) : State :=
  { s with srv := { s.srv with cores := tabPut s.srv.cores c x } }

/-- The cores of a slice, ascending by global index: the cores of its clusters (R37). Core k of cluster c of die d has
index 64d + 8c + k; a cluster's bit is 8d + c. -/
def SliceEnt.cores (e : SliceEnt) : List Nat :=
  (List.range 512).filter fun i => bitAt e.clusters (i / 8)

/-- The slice that holds a core. -/
def State.coreSlice (s : State) (c : Nat) : Option Nat :=
  match s.img.running with
  | none => none
  | some i => (i.slices.find? fun x => bitAt x.2.clusters (c / 8)).map (·.1)

/-- The engine power byte of a core (R38): the section lists the slice's cores in ascending global index. -/
def State.engines (s : State) (sl c : Nat) : Nat :=
  match s.sliceEnt sl with
  | none => 0
  | some e =>
    let at_ := (e.cores.filter (· < c)).length
    if e.cores.contains c then byteAt ((s.sect 0x0002 sl 0).getD []) at_ else 0

/-- The dispatch rank of a core (R236): 64k + 8c + d. -/
def dispatchRank (i : Nat) : Nat := 64 * (i % 8) + 8 * (i / 8 % 8) + i / 64

/-- The cluster rank (R236, R248) of a core's cluster: 8c + d. -/
def clusterRank (i : Nat) : Nat := 8 * (i / 8 % 8) + i / 64

/-! ## Core store (R228, R230, R315) -/

/-- The 4 KiB blocks a range touches. -/
def blocksOf (a n : Nat) : List Nat :=
  if n = 0 then [] else (List.range ((a + n - 1) / 4096 + 1 - a / 4096)).map (· + a / 4096)

/-- The 64-byte lines a range touches. -/
def linesOf (a n : Nat) : List Nat :=
  if n = 0 then [] else (List.range ((a + n - 1) / 64 + 1 - a / 64)).map (· + a / 64)

/-- Bytes read from core store: a block whose written bit is clear reads as zeros. -/
def Core.read (c : Core) (a n : Nat) : Bytes :=
  (memRead c.store a n).zipIdx.map fun p => if c.written.contains ((a + p.2) / 4096) then p.1 else 0

/-- Some word of the range is poisoned. -/
def Core.bad (c : Core) (a n : Nat) : Bool :=
  (linesOf a n).any fun l => c.poison.contains l && c.written.contains (l / 64)

/-- Poisoned words in a range (R315): of 8 bytes, in poisoned lines of written blocks. -/
def Core.badWords (c : Core) (a n : Nat) : Nat :=
  if n = 0 then 0
  else (((List.range ((a + n - 1) / 8 + 1 - a / 8)).map (· + a / 8)).filter fun w =>
    c.poison.contains (w / 8) && c.written.contains (w / 512)).length

/-- Bytes written to core store: the first write to a block zero-fills it (R230); whole lines lose their poison, and
`bad` marks the lines as poisoned (R315). -/
def Core.write (c : Core) (a : Nat) (b : Bytes) (bad : Bool := false) : Core :=
  let fresh := (blocksOf a b.length).filter fun k => !c.written.contains k
  let store := fresh.foldl (fun m k => memClear m (k * 4096) 4096) c.store
  let lines := linesOf a b.length
  let kept := c.poison.filter fun l =>
    !fresh.contains (l / 64) && !(lines.contains l && a ≤ l * 64 && l * 64 + 64 ≤ a + b.length)
  { c with
    store := memWrite store a b
    written := fresh.foldl setInsert c.written
    poison := if bad then lines.foldl setInsert kept else kept }

/-- All written bits of a slice's cores cleared (R230). -/
def State.clearWritten (s : State) (sl : Nat) : State :=
  match s.sliceEnt sl with
  | none => s
  | some e =>
    let own := e.cores
    let clear (c : Nat × Core) : Nat × Core :=
      if own.contains c.1 then (c.1, { c.2 with written := [], poison := [], store := [], acc := [] }) else c
    { s with srv := { s.srv with cores := s.srv.cores.map clear } }

/-! ## Causes and kernel faults (R238, R251) -/

/-- The first cause of R251 order 1 met in the step for a session's row. -/
def State.rowCause (s : State) (sl i code : Nat) : State :=
  match tabGet s.srv.jobs sl with
  | none => s
  | some j =>
    { s with srv := { s.srv with jobs := tabPut s.srv.jobs sl { j with batch := j.batch.map fun r =>
      if r.index = i ∧ r.cause = 0 ∧ ¬ r.committed then { r with cause := code } else r } } }

/-- A cause for every request of the step (R139: an address outside every window). -/
def State.stepCause (s : State) (sl code : Nat) : State :=
  match tabGet s.srv.jobs sl with
  | none => s
  | some j => (j.batch.map (·.index)).foldl (fun t i => t.rowCause sl i code) s

/-- A transfer without a path: logged, and the requests whose rows the instance covers end with E_PATH_DOWN (R17). -/
def State.pathLost (s : State) (c : Nat) (i : Inst) : State :=
  (i.sessions.foldl (fun (t : State) n => t.rowCause i.slice n ePathDown) s).logErr 0x0008 (c / 64) i.slice ePathDown c none

/-- An engine access that faults (R139): logged, counted, and the request of the window's session, or every request of
the step, ends at its commit point with the code. An address in a window that no session owns counts as one outside every window
(DESIGN CHOICE, log entry 88). -/
def State.engineFault (s : State) (sl va code : Nat) : State :=
  let s1 := (s.bump .kvXlateFaults sl 1).logErr 0x0006 0xFF sl code 0 (some va)
  match (windowOf va).bind fun w => s.windowOwner sl w with
  | some x => s1.rowCause sl x.1 code
  | none => s1.stepCause sl code

/-- Sessions that bring rows of a phase: decode rows are carry and draft rows, prefill rows the chunk (R246). -/
def Job.phaseSessions (j : Job) (phase : Nat) : List Nat :=
  (j.batch.filter fun r => r.held == .none &&
    if phase = 0 then r.carry || !r.drafts.isEmpty else r.chunk != 0).map (·.index)

/-- The sessions whose rows the stage of an instance covers, over all its parts (R238). -/
def State.stageSessions (s : State) (i : Inst) : List Nat :=
  match i.cls, tabGet s.srv.jobs i.slice with
  | .partial_, _ => i.sessions
  | _, some j => j.phaseSessions i.phase
  | _, none => i.sessions

/-- A kernel fault of the instance on a core (R238): it stops issuing; the requests whose rows its stage covers end with
E_KERNEL_FAULT; counted and logged. Cause: 1 record fault, 2 unpowered engine, 3 poisoned core store data. -/
def State.kernelFault (s : State) (c cause : Nat) : State :=
  let x := s.core c
  match x.inst with
  | none => s
  | some i =>
    let s1 := s.setCore c { x with inst := some { i with faulted := true } }
    let s2 := (s.stageSessions i).foldl (fun t n => t.rowCause i.slice n eKernelFault) s1
    let s3 := ((s2.bump .kfaultCnt i.slice 1).setFld .lastKfault 0 0 16 8 cause).setFld .lastKfault 0 0 0 9 c
    s3.logErr 0x0005 (c / 64) i.slice eKernelFault c none

/-! ## Records (R226) -/

/-- A sequencer record. -/
structure Rec where
  kind : Nat
  engine : Nat
  op : Nat
  clear : Bool
  setMask : Nat
  waitMask : Nat
  operands : Bytes
  deriving DecidableEq, Repr

/-- A record of 32 bytes. -/
def recOf (b : Bytes) : Rec :=
  { kind := byteAt b 0, engine := byteAt b 1, op := byteAt b 2, clear := bitAt (byteAt b 3) 0, setMask := le b 4 4
    waitMask := le b 8 4, operands := sub b 0xC 20 }

/-- The instance of a core that still issues, with its next record. -/
def State.nextRec (s : State) (c : Nat) : Option (Inst × Rec) :=
  (s.core c).inst.bind fun i =>
    if i.ending || i.faulted then none
    else
      let lib := s.klib i.slice
      some (i, recOf (sub lib ((kernelOf lib i.kernel).code + 32 * i.pos) 32))

/-- The flags of a mask are all set. -/
def flagsSet (flags mask : Nat) : Bool := flags &&& mask == mask

/-- The flags without those of a mask. -/
def flagsLess (flags mask : Nat) : Nat := flags - (flags &&& mask)

/-- The engine and opcode stand in *Engine opcodes* (R227). -/
def opcodeKnown (engine op : Nat) : Bool :=
  match engine with
  | 0 | 1 | 2 | 5 | 6 => op == 1 || op == 2
  | 3 | 4 => op == 1
  | _ => false

/-- The depth of an engine's queue (R221). -/
def queueDepth : Nat → Nat
  | 3 => 32
  | 5 => 8
  | 6 => 64
  | _ => 16

/-- A core's queue of an engine. -/
def Core.queue (c : Core) (e : Nat) : List EngCmd := tabGetD c.queues [] e

/-- Every queued command has completed. -/
def Core.drained (c : Core) : Bool := c.queues.all fun q => q.2.isEmpty

/-- The instance of a core moved to record `pos` after issuing a record that waits for and sets flags. -/
def State.issued (s : State) (c : Nat) (i : Inst) (r : Rec) (pos : Nat) : State :=
  let f := if r.clear then flagsLess i.flags r.waitMask else i.flags
  let x := s.core c
  s.setCore c { x with inst := some { i with pos := pos, flags := f ||| r.setMask } }

/-- An ENGINE record issued (R222, R226): an unknown opcode, a record of reserved kind, or a position past the code
raises a record fault, an unpowered engine a fault of its own; a full queue stalls; otherwise the command is queued. -/
def State.issueEngine (s : State) (c : Nat) (i : Inst) (r : Rec) : State :=
  let x := s.core c
  let k := kernelOf (s.klib i.slice) i.kernel
  if k.len ≤ 32 * i.pos ∨ r.kind = 0 ∨ 7 ≤ r.kind ∨ ¬ opcodeKnown r.engine r.op then s.kernelFault c 1
  else if ¬ bitAt (s.engines i.slice c) r.engine then s.kernelFault c 2
  else if queueDepth r.engine ≤ (x.queue r.engine).length then s
  else
    let cmd : EngCmd := { op := r.op, setMask := r.setMask, waitMask := r.waitMask, clear := r.clear
                          operands := r.operands }
    s.setCore c { x with
      inst := some { i with pos := i.pos + 1 }
      queues := tabPut x.queues r.engine (x.queue r.engine ++ [cmd]) }

/-- ENGINE_RECORD (R222). -/
def execEngineRecord (core : BitVec 9) (s : State) : Host.Outcome State Fault Refusal :=
  match s.nextRec core.toNat with
  | none => .next s
  | some (i, r) => if 2 ≤ r.kind ∧ r.kind ≤ 6 then .next s else .next (s.issueEngine core.toNat i r)

/-- The record that the sequencer of a core issues next, when it is of a kind and its flags are set. -/
def State.ready (s : State) (c kind : Nat) : Option (Inst × Rec) :=
  match s.nextRec c with
  | none => none
  | some (i, r) => if r.kind = kind ∧ flagsSet i.flags r.waitMask then some (i, r) else none

/-- WAIT_RECORD (R226). -/
def execWaitRecord (core : BitVec 9) (s : State) : Host.Outcome State Fault Refusal :=
  match s.ready core.toNat 2 with
  | none => .next s
  | some (i, r) => .next (s.issued core.toNat i r (i.pos + 1))

/-- SIGNAL_RECORD (R226). -/
def execSignalRecord (core : BitVec 9) (s : State) : Host.Outcome State Fault Refusal :=
  match s.ready core.toNat 3 with
  | none => .next s
  | some (i, r) => .next (s.issued core.toNat i r (i.pos + 1))

/-- A LOOP record (R226, R227): the loop register falls by one, modulo 2^32; while it is non-zero the sequencer goes
back OPERANDS[15:0] records. A register above 7, or a branch before the first record, is a record fault. -/
def State.loop (s : State) (c : Nat) (i : Inst) (r : Rec) : State :=
  let back := le r.operands 0 2
  let v := (2 ^ 32 + i.loops.getD r.op 0 - 1) % 2 ^ 32
  if 8 ≤ r.op ∨ (v ≠ 0 ∧ i.pos < back) then s.kernelFault c 1
  else
    s.issued c { i with loops := ((i.loops ++ List.replicate 8 0).take 8).set r.op v } r
      (if v = 0 then i.pos + 1 else i.pos - back)

/-- LOOP_RECORD (R227). -/
def execLoopRecord (core : BitVec 9) (s : State) : Host.Outcome State Fault Refusal :=
  match s.ready core.toNat 4 with
  | none => .next s
  | some (i, r) => .next (s.loop core.toNat i r)

/-- A job written. -/
def State.setJob (s : State) (sl : Nat) (j : Job) : State :=
  { s with srv := { s.srv with jobs := tabPut s.srv.jobs sl j } }

/-- An LC instance of a slice waits for a core (R237). -/
def Job.lcWaits (j : Job) : Bool := !j.partialWait.isEmpty || !j.lcWait.isEmpty

/-- A BE instance at a YIELD (R237, R240): while the job ends it stops and is not resumed; while an LC instance waits it
goes back to the head of the BE queue; else it goes on. -/
def State.yield (s : State) (c : Nat) (i : Inst) (r : Rec) : State :=
  let x := s.core c
  let go := s.issued c i r (i.pos + 1)
  if i.cls ≠ .be then go
  else match tabGet s.srv.jobs i.slice with
    | none => go
    | some j =>
      if j.state = .ending then s.issued c { i with ending := true } r (i.pos + 1)
      else if j.lcWaits then
        if x.drained then
          let s1 := s.setCore c { x with inst := none }
          let f := if r.clear then flagsLess i.flags r.waitMask else i.flags
          ((s1.setJob i.slice { j with beWait := { i with pos := i.pos + 1, flags := f ||| r.setMask } :: j.beWait }).bump
            .beYields i.slice 1).evc i.slice 0x4C (c / 64) 1
        else s
      else go

/-- YIELD_RECORD (R237). -/
def execYieldRecord (core : BitVec 9) (s : State) : Host.Outcome State Fault Refusal :=
  match s.ready core.toNat 5 with
  | none => .next s
  | some (i, r) => .next (s.yield core.toNat i r)

/-- END_RECORD (R226): nothing more is issued; the instance ends once its commands have completed. -/
def execEndRecord (core : BitVec 9) (s : State) : Host.Outcome State Fault Refusal :=
  match s.ready core.toNat 6 with
  | none => .next s
  | some (i, r) => .next (s.issued core.toNat { i with ending := true } r (i.pos + 1))

/-! ## Engine commands -/

/-- The command at the head of an engine's queue, if it is of an opcode, not yet done, and its flags are set (R222). -/
def State.engHead (s : State) (c e op : Nat) : Option (Inst × EngCmd) :=
  let x := s.core c
  match x.inst, (x.queue e).head? with
  | some i, some q => if q.op = op ∧ ¬ q.done ∧ flagsSet i.flags q.waitMask then some (i, q) else none
  | _, _ => none

/-- The head command of an engine's queue marked as done; its WAIT_MASK flags are cleared where its record says so. -/
def State.engDone (s : State) (c e : Nat) : State :=
  let x := s.core c
  match x.queue e with
  | [] => s
  | q :: rest =>
    s.setCore c { x with
      queues := tabPut x.queues e ({ q with done := true } :: rest)
      inst := x.inst.map fun i => if q.clear then { i with flags := flagsLess i.flags q.waitMask } else i }

/-- The effect of the head command of an engine's queue: it runs on the state and is then done. -/
def State.engRun (s : State) (c e op : Nat) (f : Inst → State → State) : State :=
  match s.engHead c e op with
  | none => s
  | some (i, _) => (f i s).engDone c e

/-- ENGINE_COMMAND_DONE (R222): the head command of an engine's queue has done its work; it leaves the queue and its
flags are set. -/
def execEngineCommandDone (core : BitVec 9) (engine : BitVec 3) (s : State) : Host.Outcome State Fault Refusal :=
  let c := core.toNat
  let e := engine.toNat
  let x := s.core c
  match x.queue e with
  | [] => .next s
  | q :: rest =>
    if ¬ q.done then .next s
    else .next (s.setCore c { x with
      queues := tabPut x.queues e rest
      inst := x.inst.map fun i => { i with flags := i.flags ||| q.setMask } })

/-- An operand range of a command lies within its kernel's STORE_NEED (R226). -/
def State.inStore (s : State) (i : Inst) (a n : Nat) : Bool :=
  a + n ≤ (kernelOf (s.klib i.slice) i.kernel).store

/-- Core store read: its poisoned words are uncorrectable and counted in CS_UE (R315). -/
def State.storeRead (s : State) (c : Nat) (reads : List (Nat × Nat)) : State :=
  let n := reads.foldl (fun k r => k + (s.core c).badWords r.1 r.2) 0
  if n = 0 then s else s.bump .csUe (c / 64) n

/-- Ranges of core store that a command reads, and those it writes: outside STORE_NEED is a record fault, poisoned data
a poison fault (R226, R238); else the work is done. -/
def State.withStore (s : State) (c : Nat) (i : Inst) (reads writes : List (Nat × Nat)) (f : Core → State) : State :=
  if ¬ (reads ++ writes).all fun r => s.inStore i r.1 r.2 then s.kernelFault c 1
  else
    let x := s.core c
    if reads.any fun r => x.bad r.1 r.2 then (s.storeRead c reads).kernelFault c 3 else f x

end Sys2Proof.Machine
end

