-- ==== Sys2Proof/Machine/Float.lean ====
section
/-! DEFINITION. The number formats of chapter 07: exact values, FP32 and BF16 (R185, R190..R192, R197), the element
formats and their packing (R185, R186), block conversion with rounding and saturation (R193..R196), decoding of MX, QW2
and QWT blocks and of sidecars (R187..R189, R202, R203), Deep Winter blocks (R204), and packed blocks (R214..R216). -/

namespace Sys2Proof.Machine

/-! ## Exact values -/

/-- A value: NaN, an infinity, or the exact number m × 2^e. -/
inductive Num where
  | nan
  | inf (neg : Bool)
  | fin (m : Int) (e : Int)
  deriving DecidableEq, Repr

/-- Zero. -/
def Num.zero : Num := .fin 0 0

/-- 2^k for an exponent k, split into numerator and denominator powers. -/
def scaleUp (m : Int) (k : Int) : Int := m * 2 ^ k.toNat

/-- The two mantissas of a pair brought to the smaller exponent. -/
def alignDy (m e m' e' : Int) : Int × Int × Int :=
  let q := min e e'
  (scaleUp m (e - q), scaleUp m' (e' - q), q)

/-- The exact sum (R200 for infinities of opposite sign and NaN). -/
def Num.add : Num → Num → Num
  | .nan, _ => .nan
  | _, .nan => .nan
  | .inf a, .inf b => if a = b then .inf a else .nan
  | .inf a, .fin _ _ => .inf a
  | .fin _ _, .inf b => .inf b
  | .fin m e, .fin m' e' =>
    let x := alignDy m e m' e'
    .fin (x.1 + x.2.1) x.2.2

/-- The value with its sign changed. -/
def Num.neg : Num → Num
  | .nan => .nan
  | .inf a => .inf !a
  | .fin m e => .fin (-m) e

/-- The exact product (R200 where an infinity meets zero). -/
def Num.mul : Num → Num → Num
  | .nan, _ => .nan
  | _, .nan => .nan
  | .inf a, .inf b => .inf (a != b)
  | .inf a, .fin m _ => if m = 0 then .nan else .inf (a != decide (m < 0))
  | .fin m _, .inf b => if m = 0 then .nan else .inf (b != decide (m < 0))
  | .fin m e, .fin m' e' => .fin (m * m') (e + e')

/-- The exact value times 2^k. -/
def Num.shift (k : Int) : Num → Num
  | .fin m e => .fin m (e + k)
  | x => x

/-- The number is zero. -/
def Num.isZero : Num → Bool
  | .fin m _ => m == 0
  | _ => false

/-- The value is NaN. -/
def Num.isNan : Num → Bool
  | .nan => true
  | _ => false

/-- The value is an infinity. -/
def Num.isInf : Num → Bool
  | .inf _ => true
  | _ => false

/-- The value is negative. -/
def Num.isNeg : Num → Bool
  | .fin m _ => decide (m < 0)
  | .inf a => a
  | .nan => false

/-- a < b; false where either is NaN. -/
def Num.lt : Num → Num → Bool
  | .nan, _ => false
  | _, .nan => false
  | .inf a, .inf b => a && !b
  | .inf a, .fin _ _ => a
  | .fin _ _, .inf b => !b
  | .fin m e, .fin m' e' =>
    let x := alignDy m e m' e'
    decide (x.1 < x.2.1)

/-- The magnitude. -/
def Num.abs : Num → Num
  | .fin m e => .fin m.natAbs e
  | .inf _ => .inf false
  | .nan => .nan

/-- The larger of two values. -/
def Num.max (a b : Num) : Num := if a.lt b then b else a

/-! ## Rounding -/

/-- m × 2^e rounded to an integer: to nearest with ties to even. -/
def rne (m : Nat) (e : Int) : Nat :=
  if 0 ≤ e then m * 2 ^ e.toNat
  else
    let d := 2 ^ (-e).toNat
    let q := m / d
    let r := m % d
    if 2 * r > d ∨ (2 * r = d ∧ q % 2 = 1) then q + 1 else q

/-- m × 2^e rounded down after `frac` 2^−16ths of the last place have been added (R196). -/
def stochastic (frac : Nat) (m : Nat) (e : Int) : Nat :=
  if 0 ≤ e then m * 2 ^ e.toNat
  else
    let d := 2 ^ (-e).toNat
    (65536 * m + frac * d) / (65536 * d)

/-- ⌊log2⌋ of m × 2^e, m > 0. -/
def floorLog (m : Nat) (e : Int) : Int := Int.ofNat (Nat.log2 m) + e

/-- A magnitude rounded to `p` significant bits, the last place not below 2^`lsb`: answers n and q of n × 2^q. -/
def roundMag (rnd : Nat → Int → Nat) (p : Nat) (lsb : Int) (m : Nat) (e : Int) : Nat × Int :=
  if m = 0 then (0, lsb)
  else
    let q := max (floorLog m e - (p - 1 : Int)) lsb
    (rnd m (e - q), q)

/-- A binary format of one sign bit: exponent and mantissa widths and the bias. -/
structure Fmt where
  ew : Nat
  mw : Nat
  bias : Int
  deriving DecidableEq, Repr

/-- The code of a non-negative magnitude n × 2^q that the format holds (subnormals kept). -/
def Fmt.code (f : Fmt) (n : Nat) (q : Int) : Nat :=
  if n = 0 then 0
  else
    let k := floorLog n q
    if k < 1 - f.bias then
      -- subnormal: q is the last place
      n * 2 ^ (q - (1 - f.bias - f.mw)).toNat
    else
      let m := n * 2 ^ (q - (k - f.mw)).toNat / 2 ^ ((k - f.mw) - q).toNat
      (k + f.bias).toNat * 2 ^ f.mw + (m - 2 ^ f.mw)

/-- The exact value of a code's exponent and mantissa fields (R185). -/
def Fmt.value (f : Fmt) (code : Nat) : Num :=
  let s := bitAt code (f.ew + f.mw)
  let e := bitsOf code f.mw f.ew
  let m := bitsOf code 0 f.mw
  let mag : Int := if e = 0 then m else 2 ^ f.mw + m
  let ex : Int := (if e = 0 then 1 - f.bias else e - f.bias) - f.mw
  .fin (if s then -mag else mag) ex

/-- FP32 and BF16 (table *Element formats*). -/
def fp32 : Fmt := ⟨8, 23, 127⟩
def bf16 : Fmt := ⟨8, 7, 127⟩

/-- A BF16 or FP32 code read (R190, R191): E = 255 is an infinity or NaN, E = 0 is zero. -/
def Fmt.read (f : Fmt) (code : Nat) : Num :=
  if bitsOf code f.mw f.ew = 255 then
    if bitsOf code 0 f.mw = 0 then .inf (bitAt code (f.ew + f.mw)) else .nan
  else if bitsOf code f.mw f.ew = 0 then .zero
  else f.value code

/-- The result of an exact value written in BF16 or FP32 (R191, R192, R197): ties to even, overflow to infinity, a
subnormal result as zero, every NaN as one code. -/
def Fmt.write (f : Fmt) : Num → Nat
  | .nan => 255 * 2 ^ f.mw + 2 ^ (f.mw - 1)
  | .inf a => boolBit a * 2 ^ (f.ew + f.mw) + 255 * 2 ^ f.mw
  | .fin m e =>
    let r := roundMag rne (f.mw + 1) (1 - f.bias - f.mw) m.natAbs e
    let c := f.code r.1 r.2
    let s := boolBit (decide (m < 0)) * 2 ^ (f.ew + f.mw)
    if c < 2 ^ f.mw then 0
    else if 255 * 2 ^ f.mw ≤ c then s + 255 * 2 ^ f.mw
    else s + c

/-- FP32 word to value. -/
def rd32 (w : U32) : Num := fp32.read w.toNat

/-- Value to FP32 word. -/
def wr32 (x : Num) : U32 := BitVec.ofNat 32 (fp32.write x)

/-- An exact finite value whose FP32 form is infinite (R200 ARITH_OVF). -/
def overflows (x : Num) : Bool :=
  match x with
  | .fin _ _ => (rd32 (wr32 x)).isInf
  | _ => false

/-- FP32 sum, difference, product (R197). -/
def add32 (a b : U32) : U32 := wr32 ((rd32 a).add (rd32 b))
def sub32 (a b : U32) : U32 := wr32 ((rd32 a).add (rd32 b).neg)
def mul32 (a b : U32) : U32 := wr32 ((rd32 a).mul (rd32 b))

/-- The exact quotient of two finite values to 64 significant bits with a sticky last bit, so that rounding it to FP32
is right. -/
def Num.div : Num → Num → Num
  | .nan, _ => .nan
  | _, .nan => .nan
  | .inf _, .inf _ => .nan
  | .inf a, .fin m _ => .inf (a != decide (m < 0))
  | .fin _ _, .inf _ => .zero
  | .fin m e, .fin m' e' =>
    if m' = 0 then (if m = 0 then .nan else .inf (decide (m < 0)))
    else
      let neg := decide (m < 0) != decide (m' < 0)
      let k := 64 + Nat.log2 m'.natAbs
      let num := m.natAbs * 2 ^ k
      let q := num / m'.natAbs
      let st := if num % m'.natAbs = 0 then 0 else 1
      let v : Int := 2 * q + st
      .fin (if neg then -v else v) (e - e' - (k : Int) - 1)

/-- FP32 quotient. -/
def div32 (a b : U32) : U32 := wr32 ((rd32 a).div (rd32 b))

/-- FP16 code to value (R68 TEMP, TOP_P): subnormals at full value. -/
def rd16 (code : Nat) : Num :=
  let f : Fmt := ⟨5, 10, 15⟩
  if bitsOf code 10 5 = 31 then
    if bitsOf code 0 10 = 0 then .inf (bitAt code 15) else .nan
  else f.value code

/-- A value as FP16 with ties to even, clamped at −65,504 (R254). -/
def wrLogprob : Num → Nat
  | .nan => 0x7E00
  | .inf true => 0xFBFF
  | .inf false => 0x7BFF
  | .fin m e =>
    let f : Fmt := ⟨5, 10, 15⟩
    let r := roundMag rne 11 (1 - 15 - 10) m.natAbs e
    let c := min (f.code r.1 r.2) 0x7BFF
    boolBit (decide (m < 0)) * 2 ^ 15 + c

/-! ## Element formats (R185, R190) -/

/-- Bits of an element by format code (table *Format codes*). -/
def elemBits (fmt : Nat) : Nat :=
  match fmt with
  | 0 => 4 | 1 => 6 | 2 => 6 | 3 => 8 | 4 => 8 | 5 => 8 | 6 => 2 | 8 => 16 | 9 => 32 | _ => 8

/-- The floating layouts of the MX formats. -/
def elemFmt (fmt : Nat) : Fmt :=
  match fmt with
  | 0 => ⟨2, 1, 1⟩ | 1 => ⟨2, 3, 1⟩ | 2 => ⟨3, 2, 3⟩ | 3 => ⟨4, 3, 7⟩ | _ => ⟨5, 2, 15⟩

/-- emax of the table *Element formats*. -/
def elemEmax (fmt : Nat) : Int :=
  match fmt with
  | 0 => 2 | 1 => 2 | 2 => 4 | 3 => 8 | 4 => 15 | _ => 0

/-- Largest finite value of an MX format, exact (R190). -/
def elemMax (fmt : Nat) : Num :=
  match fmt with
  | 0 => .fin 6 0 | 1 => .fin 15 (-1) | 2 => .fin 28 0 | 3 => .fin 448 0 | 4 => .fin 57344 0 | _ => .fin 127 (-6)

/-- The code of the largest finite value, sign bit clear. -/
def elemMaxCode (fmt : Nat) : Nat :=
  match fmt with
  | 0 => 7 | 1 => 31 | 2 => 31 | 3 => 0x7E | 4 => 0x7B | _ => 127

/-- The value of an element code (R185, R190); INT8 is n × 2^−6. -/
def elemValue (fmt code : Nat) : Num :=
  match fmt with
  | 5 => .fin (if code < 128 then (code : Int) else (code : Int) - 256) (-6)
  | 3 => if code % 128 = 127 then .nan else (elemFmt 3).value code
  | 4 => if code % 128 = 124 then .inf (decide (128 ≤ code)) else if 124 < code % 128 then .nan
    else (elemFmt 4).value code
  | 6 => .fin (if code < 2 then (code : Int) else (code : Int) - 4) 0
  | 8 => bf16.read code
  | 9 => fp32.read code
  | f => (elemFmt f).value code

/-- The value of an E8M0 scale byte (R187): the exponent, or none for NaN. -/
def scaleExp (byte : Nat) : Option Int := if byte = 255 then none else some ((byte : Int) - 127)

/-- An element converted (R194): its code and whether it saturates. `rnd` is the rounding in force. -/
def elemEncode (fmt : Nat) (rnd : Nat → Int → Nat) (x : Num) : Nat × Bool :=
  let signBit (neg : Bool) (c : Nat) : Nat :=
    if fmt = 5 then (if neg then (256 - c) % 256 else c) else boolBit neg * 2 ^ (elemBits fmt - 1) + c
  match x with
  | .nan => (0x7F, false)
  | .inf a => (signBit a (elemMaxCode fmt), true)
  | .fin m e =>
    let neg := decide (m < 0)
    if (elemMax fmt).lt x.abs then (signBit neg (elemMaxCode fmt), true)
    else if fmt = 5 then (signBit neg (min 127 (rnd m.natAbs (e + 6))), false)
    else
      let f := elemFmt fmt
      let r := roundMag rnd (f.mw + 1) (1 - f.bias - f.mw) m.natAbs e
      let c := f.code r.1 r.2
      (if c = 0 then 0 else signBit neg (min c (elemMaxCode fmt)), false)

/-! ## Blocks (R186, R187, R193..R196) -/

/-- Elements packed from bit 0 upward in element order (R186). -/
def packCodes (bits : Nat) (codes : List Nat) : Bytes :=
  bytesLe (divUp (bits * codes.length) 8) (codes.foldr (fun c n => c % 2 ^ bits + n * 2 ^ bits) 0)
where
  /-- Little-endian bytes. -/
  bytesLe : Nat → Nat → Bytes
    | 0, _ => []
    | n + 1, v => BitVec.ofNat 8 v :: bytesLe n (v / 256)

/-- The number of a byte string, little-endian. -/
def numLe : Bytes → Nat
  | [] => 0
  | b :: bs => b.toNat + 256 * numLe bs

/-- `k` element codes of a byte string (R186). -/
def unpackCodes (bits k : Nat) (b : Bytes) : List Nat :=
  let n := numLe b
  (List.range k).map fun i => bitsOf n (bits * i) bits

/-- A converted block: scale byte, element codes, saturated elements. -/
structure Blk where
  scale : Nat
  codes : List Nat
  sat : Nat
  deriving DecidableEq, Repr

/-- The largest magnitude among finite values. -/
def maxMag (xs : List Num) : Num :=
  xs.foldl (fun m x => if x.isInf || x.isNan then m else m.max x.abs) .zero

/-- The shared exponent X (R193 steps 1 and 2) of the values, which are not all zero. -/
def sharedExp (fmt : Nat) (xs : List Num) : Int :=
  match maxMag xs with
  | .fin m e => max (-127) (min 127 (floorLog m.natAbs e - elemEmax fmt))
  | _ => -127

/-- A block converted (R193..R195): `skip i` says that a sidecar holds element `i`, whose code is 0; `rnd i` is the
rounding of element `i`. Where a NaN makes the scale 0xFF, every code is 0 and no saturation is counted (DESIGN CHOICE, log
entry 93). -/
def quantBlock (fmt : Nat) (skip : Nat → Bool) (rnd : Nat → Nat → Int → Nat) (xs : List Num) : Blk :=
  let kept := (xs.zipIdx.filter fun p => !skip p.2).map (·.1)
  if xs.any Num.isNan && (fmt ≠ 3 ∧ fmt ≠ 4) then ⟨255, xs.map fun _ => 0, 0⟩
  else
    let zero := (maxMag kept).isZero
    let ex := if zero then -127 else sharedExp fmt kept
    let enc := xs.zipIdx.map fun p =>
      if skip p.2 then (0, false) else elemEncode fmt (rnd p.2) (p.1.shift (-ex))
    ⟨(ex + 127).toNat, enc.map (·.1), (enc.filter (·.2)).length⟩

/-- The two positions of largest magnitude among the values (R147, R203): ties to the lower index; a non-zero value
only; ascending. -/
def outliers (xs : List Num) : List Nat :=
  let pick (l : List (Num × Nat)) : Option Nat :=
    (l.foldl (fun (best : Option (Num × Nat)) p =>
      match best with
      | none => if p.1.isZero || p.1.isNan then none else some p
      | some b => if b.1.abs.lt p.1.abs then some p else best) none).map (·.2)
  let ix := xs.zipIdx
  match pick ix with
  | none => []
  | some i => match pick (ix.filter fun p => p.2 ≠ i) with
    | none => [i]
    | some j => if i < j then [i, j] else [j, i]

/-- E4M3 of a value, to nearest even, saturating at ±448 (R147, R203): code and whether it saturated. -/
def sideValue (x : Num) : Nat × Bool := elemEncode 3 rne x

/-- A block sidecar word (R202): COUNT, IDX1, IDX0, VAL1, VAL0. -/
def blockSideWord (l : List (Nat × Nat)) : Nat :=
  match l with
  | [] => 0
  | [(i, v)] => 1 * 2 ^ 30 + 2 ^ 20 * i + v
  | (i, v) :: (j, w) :: _ => 2 * 2 ^ 30 + 2 ^ 25 * j + 2 ^ 20 * i + w * 2 ^ 8 + v

/-- A key sidecar word (R147). -/
def keySideWord (l : List (Nat × Nat)) : Nat :=
  match l with
  | [] => 0
  | [(i, v)] => 1 * 2 ^ 30 + 2 ^ 16 * i + v
  | (i, v) :: (j, w) :: _ => 2 * 2 ^ 30 + 2 ^ 23 * j + 2 ^ 16 * i + w * 2 ^ 8 + v

/-- The entries of a key sidecar word: element index in the group and value code. -/
def keySideEntries (w : Nat) : List (Nat × Nat) :=
  let c := bitsOf w 30 2
  (if 1 ≤ c then [(bitsOf w 16 7, bitsOf w 0 8)] else []) ++ (if c = 2 then [(bitsOf w 23 7, bitsOf w 8 8)] else [])

/-- The entries of a block sidecar word (R202). -/
def blockSideEntries (w : Nat) : List (Nat × Nat) :=
  let c := bitsOf w 30 2
  (if 1 ≤ c then [(bitsOf w 20 5, bitsOf w 0 8)] else []) ++ (if c = 2 then [(bitsOf w 25 5, bitsOf w 8 8)] else [])

/-- A block sidecar word that makes its block decode as poisoned (R203). -/
def blockSideIllegal (w : Nat) : Bool :=
  bitsOf w 30 2 == 3 || bitsOf w 16 4 != 0 || (bitsOf w 30 2 == 2 && bitsOf w 25 5 ≤ bitsOf w 20 5)

/-! ## Decoding blocks (R187..R189) -/

/-- The trits of a QWT byte. -/
def trits (b : Nat) : List Int := (List.range 5).map fun j => ((b / 3 ^ j % 3 : Nat) : Int) - 1

/-- A QWT block's bytes are illegal (R189). -/
def qwtIllegal (b : Bytes) : Bool :=
  (b.take 7).any (fun x => 243 ≤ x.toNat) || ((trits (numLe ((b.drop 6).take 1))).drop 2).any (· ≠ 0)

/-- The 32 values of a block in format `fmt` (R187..R189), the sidecar entries replaced (R203). -/
def blockValues (fmt : Nat) (elems : Bytes) (scale offset : Nat) (side : List (Nat × Nat)) : List Num :=
  match scaleExp scale with
  | none => List.replicate 32 .nan
  | some x =>
    let base : List Num :=
      if fmt = 6 then
        let f := elemValue 3 offset
        (unpackCodes 2 32 elems).map fun c => ((elemValue 6 c).add f).shift x
      else if fmt = 7 then
        (((elems.take 7).flatMap fun b => trits b.toNat).take 32).map fun t => .fin t x
      else (unpackCodes (elemBits fmt) 32 elems).map fun c => (elemValue fmt c).shift x
    base.zipIdx.map fun p => match side.find? (·.1 == p.2) with
      | some v => (elemValue 3 v.2).shift x
      | none => p.1

/-! ## Deep Winter (R204) -/

/-- The smallest exponent X of R204 step 2. -/
def deepExp (lo hi : Num) : Int :=
  let ok (x : Int) : Bool :=
    !((Num.fin 3 x).lt (hi.add lo.neg)) && !((Num.fin 446 x).lt (lo.abs.max hi.abs))
  (((List.range 255).map fun k => (k : Int) - 127).find? ok).getD 127

/-- A 32-element block converted to QW2 (R204): scale byte, offset byte, codes; a NaN block has offset 0 and codes 0 (DESIGN
CHOICE, log entry 93). -/
def deepBlock (skip : Nat → Bool) (vs : List Num) : Nat × Nat × List Nat :=
  if vs.any Num.isNan then (255, 0, vs.map fun _ => 0)
  else
    let kept := (vs.zipIdx.filter fun p => !skip p.2).map (·.1)
    let lo := kept.foldl (fun m v => if v.lt m then v else m) (kept.headD .zero)
    let hi := kept.foldl Num.max (kept.headD .zero)
    if kept.all Num.isZero then (0, 0, vs.map fun _ => 0)
    else
      let x := deepExp lo hi
      let f := (elemEncode 3 rne ((lo.shift (-x)).add (.fin 2 0))).1
      let fv := elemValue 3 f
      let q (v : Num) : Nat :=
        match (v.shift (-x)).add fv.neg with
        | .fin m e =>
          let r : Int := if m < 0 then -(rne m.natAbs e : Int) else rne m.natAbs e
          ((max (-2) (min 1 r) + 4) % 4).toNat
        | _ => 0
      ((x + 127).toNat, f, vs.zipIdx.map fun p => if skip p.2 then 0 else q p.1)

/-! ## Packed 16-bit blocks (R214..R216) -/

/-- The exponents that BASE leaves outside BASE..BASE + 3. -/
def packEscapes (base : Nat) (vs : List Nat) : List (Nat × Nat) :=
  (vs.zipIdx.map fun p => (p.2, bitsOf p.1 7 8)).filter fun p => p.2 < base || base + 3 < p.2

/-- BASE (R216): the value 0..252 with the fewest exponents outside, the lowest on ties. -/
def packBase (vs : List Nat) : Nat :=
  ((List.range 253).foldl (fun (b : Nat × Nat) k =>
    let n := (packEscapes k vs).length
    if n < b.2 then (k, n) else b) (0, 65)).1

/-- A block of 64 values packed, or written RAW when more than 4 escapes would remain (R214, R216). -/
def packBlock (vs : List Nat) : Bytes :=
  let base := packBase vs
  let esc := packEscapes base vs
  if 4 < esc.length then
    packCodes 16 [1 * 2 ^ 8] ++ packCodes 16 vs
  else
    packCodes 16 [base + esc.length * 2 ^ 10] ++
    packCodes 8 (vs.map fun v => bitsOf v 15 1 * 128 + bitsOf v 0 7) ++
    packCodes 2 (vs.map fun v => let e := bitsOf v 7 8; if e < base ∨ base + 3 < e then 0 else e - base) ++
    packCodes 14 (esc.map fun p => p.1 + p.2 * 64)

/-- The stored length of a block by its header (R214): 130 for RAW. -/
def packedLen (hdr : Nat) : Nat :=
  if bitsOf hdr 8 2 = 1 then 130 else 82 + divUp (14 * bitsOf hdr 10 3) 8

/-- The 64 values of a packed block; none where it is illegal (R215). -/
def unpackBlock (b : Bytes) : Option (List Nat) :=
  let hdr := numLe (b.take 2)
  let base := bitsOf hdr 0 8
  let n := bitsOf hdr 10 3
  let mode := bitsOf hdr 8 2
  if bitsOf hdr 13 3 ≠ 0 ∨ 2 ≤ mode then none
  else if mode = 1 then
    if base ≠ 0 ∨ n ≠ 0 then none else some (unpackCodes 16 64 (b.drop 2))
  else if 4 < n then none
  else
    let sm := unpackCodes 8 64 (b.drop 2)
    let dl := unpackCodes 2 64 (b.drop 66)
    let escN := numLe ((b.drop 82).take (divUp (14 * n) 8))
    let esc := (List.range n).map fun i => (bitsOf escN (14 * i) 6, bitsOf escN (14 * i + 6) 8)
    let ascending := (esc.zip (esc.drop 1)).all fun p => p.1.1 < p.2.1
    let fill := escN / 2 ^ (14 * n) = 0
    let vals := (sm.zip dl).zipIdx.map fun p =>
      match esc.find? (·.1 == p.2) with
      | some e => (p.1.1, e.2, p.1.2 == 0)
      | none => (p.1.1, base + p.1.2, base + p.1.2 ≤ 255)
    if ascending && fill && vals.all (·.2.2) then
      some (vals.map fun v => v.1 / 128 * 2 ^ 15 + v.2.1 * 2 ^ 7 + v.1 % 128)
    else none

end Sys2Proof.Machine
end

