-- ==== Sys2Proof/Machine/KvRow.lean ====
section
/-! DEFINITION. Rows of KV as bytes (R140) and as values: encoding at append, at palette compilation and at a Deep
Winter thaw (R147..R149, R117, R179), decoding by the attention engine (R166), Deep Winter requantisation of a row
(R104, R110, R204). -/

namespace Sys2Proof.Machine

/-- A row of one layer: its element, scale and sidecar bytes, not yet padded to E, S, C. -/
structure KvRow where
  elem : Bytes
  scale : Bytes
  side : Bytes
  deriving DecidableEq, Repr

/-- `n` consecutive pieces of `k` elements of a list. -/
def pieces {α : Type} (k : Nat) : Nat → List α → List (List α)
  | 0, _ => []
  | n + 1, l => l.take k :: pieces k n (l.drop k)

/-- Element format of KV: E2M1 in MXFP4 mode, E4M3 in MXFP8 mode (R148). -/
def Prog.kvElem (p : Prog) : Nat := if p.kvFormat = 0 then 0 else 3

/-- The size of a sidecar group (R147). -/
def Prog.group (p : Prog) : Nat := min p.headDim 128

/-- A vector of blocks converted, the positions of `skip` held in a sidecar: codes and scales. -/
def encBlocks (fmt : Nat) (skip : Nat → Bool) (rnd : Nat → Nat → Int → Nat) (xs : List Num) : List Nat × List Nat :=
  let bs := (pieces 32 (xs.length / 32) xs).zipIdx.map fun p =>
    quantBlock fmt (fun j => skip (32 * p.2 + j)) (fun j => rnd (32 * p.2 + j)) p.1
  (bs.flatMap (·.codes), bs.map (·.scale))

/-- A key head vector encoded in MXFP4 mode: codes, scales, sidecar words (R147). -/
def encKey (group : Nat) (rnd : Nat → Nat → Int → Nat) (xs : List Num) : List Nat × List Nat × List Nat :=
  let gs := (pieces group (xs.length / group) xs).zipIdx.map fun p =>
    let out := outliers p.1
    let e := encBlocks 0 (fun j => out.contains j) (fun j => rnd (group * p.2 + j)) p.1
    let word := keySideWord (out.map fun o =>
      let x := (e.2.getD (o / 32) 0 : Int) - 127
      (o, (sideValue ((p.1.getD o .zero).shift (-x))).1))
    (e.1, e.2, word)
  (gs.flatMap (·.1), gs.flatMap (·.2.1), gs.map (·.2.2))

/-- A row encoded from its keys and values by head (R140, R147..R149); `rnd v h` gives the roundings of value (v = 1)
or key (v = 0) head `h`. -/
def encRow (p : Prog) (rnd : Nat → Nat → Nat → Nat → Int → Nat) (keys vals : List (List Num)) : KvRow :=
  let fmt := p.kvElem
  let ks := keys.zipIdx.map fun k =>
    if p.kvFormat = 0 then encKey p.group (rnd 0 k.2) k.1
    else
      let e := encBlocks fmt (fun _ => false) (rnd 0 k.2) k.1
      (e.1, e.2, [])
  let vs := vals.zipIdx.map fun v => encBlocks fmt (fun _ => false) (rnd 1 v.2) v.1
  { elem := packCodes (elemBits fmt) (ks.flatMap (·.1) ++ vs.flatMap (·.1))
    scale := packCodes 8 (ks.flatMap (·.2.1) ++ vs.flatMap (·.2))
    side := packCodes 32 (ks.flatMap (·.2.2)) }

/-- Values of consecutive blocks whose codes and scales are given. -/
def decBlocks (fmt : Nat) (codes scales : List Nat) : List Num :=
  (pieces 32 scales.length codes).zipIdx.flatMap fun p =>
    match scaleExp (scales.getD p.2 0) with
    | none => List.replicate 32 .nan
    | some x => p.1.map fun c => (elemValue fmt c).shift x

/-- The d values of head vector `h` of a row's keys (`v = 0`) or values (`v = 1`), sidecar outliers in place (R166). -/
def decHead (p : Prog) (r : KvRow) (v h : Nat) : List Num :=
  let d := p.headDim
  let fmt := p.kvElem
  let n := p.kvHeads
  let at_ := (v * n + h) * d
  let codes := unpackCodes (elemBits fmt) d (sub r.elem (at_ * elemBits fmt / 8) (d * elemBits fmt / 8))
  let sc := (sub r.scale ((v * n + h) * (d / 32)) (d / 32)).map (·.toNat)
  let base := decBlocks fmt codes sc
  if v = 0 ∧ p.kvFormat = 0 then
    let g := p.group
    let ent := (List.range (d / g)).flatMap fun k =>
      (keySideEntries (le r.side (4 * (h * (d / g) + k)) 4)).map fun e => (g * k + e.1, e.2)
    base.zipIdx.map fun q => match ent.find? (·.1 == q.2) with
      | some e => match scaleExp (sc.getD (q.2 / 32) 0) with
        | some x => (elemValue 3 e.2).shift x
        | none => .nan
      | none => q.1
  else base

/-- Positions of a key head vector that its sidecar words hold. -/
def sidePositions (p : Prog) (r : KvRow) (h : Nat) : List Nat :=
  let g := p.group
  (List.range (p.headDim / g)).flatMap fun k =>
    (keySideEntries (le r.side (4 * (h * (p.headDim / g) + k)) 4)).map fun e => g * k + e.1

/-! ## Deep Winter rows (R104, R110, R117, R204) -/

/-- Rows of a Deep Winter record: QW2 elements, scales, offsets. -/
structure DeepRow where
  elem : Bytes
  scale : Bytes
  offs : Bytes
  deriving DecidableEq, Repr

/-- A row requantised to QW2; outlier positions of keys take code 0 (R204). -/
def deepRow (p : Prog) (r : KvRow) : DeepRow :=
  let n := p.kvHeads
  let one (v h : Nat) : List (Nat × Nat × List Nat) :=
    let out := if v = 0 ∧ p.kvFormat = 0 then sidePositions p r h else []
    let xs := decHead p r v h
    (pieces 32 (xs.length / 32) xs).zipIdx.map fun b => deepBlock (fun j => out.contains (32 * b.2 + j)) b.1
  let bs := (List.range n).flatMap (one 0) ++ (List.range n).flatMap (one 1)
  { elem := packCodes 2 (bs.flatMap (·.2.2)), scale := packCodes 8 (bs.map (·.1)), offs := packCodes 8 (bs.map (·.2.1)) }

/-- The values of head vector `h` of a Deep Winter row (R117, R188). -/
def deepHead (p : Prog) (r : DeepRow) (side : Bytes) (v h : Nat) : List Num :=
  let nb := p.headDim / 32
  let at_ := (v * p.kvHeads + h) * nb
  let base := (List.range nb).flatMap fun b =>
    blockValues 6 (sub r.elem ((at_ + b) * 8) 8) (byteAt r.scale (at_ + b)) (byteAt r.offs (at_ + b)) []
  if v = 0 ∧ p.kvFormat = 0 then
    let g := p.group
    let ent := (List.range (p.headDim / g)).flatMap fun k =>
      (keySideEntries (le side (4 * (h * (p.headDim / g) + k)) 4)).map fun e => (g * k + e.1, e.2)
    base.zipIdx.map fun q => match ent.find? (·.1 == q.2) with
      | some e => match scaleExp (byteAt r.scale (at_ + q.2 / 32)) with
        | some x => (elemValue 3 e.2).shift x
        | none => .nan
      | none => q.1
  else base

/-- A Deep Winter row rebuilt in the program's KV format, always to nearest even (R117). -/
def deepToRow (p : Prog) (r : DeepRow) (side : Bytes) : KvRow :=
  encRow p (fun _ _ _ => rne) ((List.range p.kvHeads).map (deepHead p r side 0))
    ((List.range p.kvHeads).map (deepHead p r side 1))

/-! ## Page records (R104) -/

/-- Rows of a page in HBM: `n` tokens. -/
def State.pageRows (s : State) (g : Geom) (pg : KvPage) (n : Nat) : List KvRow :=
  (List.range n).map fun t =>
    { elem := s.pread (pg.elem + t * g.e) g.e
      scale := s.pread (pg.scale + t * g.s) g.s
      side := s.pread (pg.side + t * g.c) g.c }

/-- A record padded to a multiple of 64 bytes. -/
def pad64 (b : Bytes) : Bytes := b ++ zeros (divUp b.length 64 * 64 - b.length)

/-- The raw record of a page (R104). -/
def recordOf (p : Prog) (deep : Bool) (rows : List KvRow) : Bytes :=
  if deep then
    let ds := rows.map (deepRow p)
    pad64 (ds.flatMap (·.elem) ++ ds.flatMap (·.scale) ++ ds.flatMap (·.offs) ++ rows.flatMap (·.side))
  else pad64 (rows.flatMap (·.elem) ++ rows.flatMap (·.scale) ++ rows.flatMap (·.side))

/-- Bytes of a Deep Winter row's element and scale parts. -/
def Prog.deepElem (p : Prog) : Nat := 2 * p.kvHeads * p.headDim / 4
def Prog.blocks (p : Prog) : Nat := 2 * p.kvHeads * p.headDim / 32

/-- The length of a raw record of `n` tokens. -/
def recordLen (p : Prog) (deep : Bool) (n : Nat) : Nat :=
  let g := p.geom
  divUp (n * (if deep then p.deepElem + 2 * p.blocks + g.c else g.e + g.s + g.c)) 64 * 64

/-- A raw record compressed (R104): a bitmap of its 512-byte blocks, then those that are not all zero; as it stands
where that is not shorter. -/
def compress (b : Bytes) : Bytes × Bool :=
  let bs := pieces 512 (divUp b.length 512) b
  let keep := bs.map fun x => x.any (· != 0)
  let map := pad64 (packCodes 1 (keep.map boolBit))
  let out := pad64 (map ++ (bs.zip keep).flatMap fun x => if x.2 then x.1 else [])
  if out.length < b.length then (out, true) else (b, false)

/-- A compressed record expanded to `n` bytes. -/
def expand (b : Bytes) (n : Nat) : Bytes :=
  let k := divUp n 512
  let bits := unpackCodes 1 k b
  let body := b.drop (divUp (divUp k 8) 64 * 64)
  let r := bits.foldl (fun (acc : Bytes × Bytes) x =>
    if x = 1 then (acc.1 ++ acc.2.take 512, acc.2.drop 512) else (acc.1 ++ zeros 512, acc.2)) ([], body)
  r.1.take n

/-- Rows of a raw record of `n` tokens in the program's KV format (R113, R117). -/
def rowsOf (p : Prog) (deep : Bool) (n : Nat) (b : Bytes) : List KvRow :=
  let g := p.geom
  if deep then
    let e := p.deepElem
    let k := p.blocks
    (List.range n).map fun t =>
      let side := sub b (n * (e + 2 * k) + t * g.c) g.c
      deepToRow p ⟨sub b (t * e) e, sub b (n * e + t * k) k, sub b (n * (e + k) + t * k) k⟩ side
  else
    (List.range n).map fun t =>
      ⟨sub b (t * g.e) g.e, sub b (n * g.e + t * g.s) g.s, sub b (n * (g.e + g.s) + t * g.c) g.c⟩

/-- A row written at token `t` of a page. -/
def State.writeRow (s : State) (g : Geom) (pg : KvPage) (t : Nat) (r : KvRow) : State :=
  let w (s : State) (pa u : Nat) (b : Bytes) : State :=
    if u = 0 then s else s.pwrite (pa + t * u) (padTo u b)
  w (w (w s pg.elem g.e r.elem) pg.scale g.s r.scale) pg.side g.c r.side

/-- Rows written from token 0 of a page up. -/
def State.writeRows (s : State) (g : Geom) (pg : KvPage) (rows : List KvRow) : State :=
  rows.zipIdx.foldl (fun t r => t.writeRow g pg r.2 r.1) s

end Sys2Proof.Machine
end

