-- ==== Sys2Proof/Machine/Arithmetic.lean ====
section
/-! DEFINITION. The matrix engines (R198..R200, R202, R203, R219), the vector engine's functions (R163, R201, R223) and
the saturation monitors (R210..R213). -/

namespace Sys2Proof.Machine

/-! ## Values in core store -/

/-- `n` FP32 words of core store. -/
def Core.words (c : Core) (a n : Nat) : List U32 :=
  (pieces 4 n (c.read a (4 * n))).map fun b => BitVec.ofNat 32 (leNat b 4)

/-- `n` BF16 values of core store as FP32 words. -/
def Core.halves (c : Core) (a n : Nat) : List U32 :=
  (pieces 2 n (c.read a (2 * n))).map fun b => wr32 (bf16.read (leNat b 2))

/-- FP32 words as bytes. -/
def wordBytes (l : List U32) : Bytes := l.flatMap fun w => bytesOf 4 w.toNat

/-- FP32 words rounded to BF16 (R197), as bytes. -/
def halfBytes (l : List U32) : Bytes := l.flatMap fun w => bytesOf 2 (bf16.write (rd32 w))

/-- Results written by the ME, AE or VE that are NaN (ARITH_NAN), and those that have overflowed (ARITH_OVF) (R200). -/
def State.countResults (s : State) (nans ovfs : Nat) : State :=
  let s1 := if nans = 0 then s else s.bump .arithNan 0 nans
  if ovfs = 0 then s1 else s1.bump .arithOvf 0 ovfs

/-- NaNs among FP32 words. -/
def nansOf (l : List U32) : Nat := (l.filter fun w => (rd32 w).isNan).length

/-- Results that are infinite though no input they rest on is (R200). -/
def newInfs (inputs out : List U32) : Nat :=
  if inputs.any fun x => (rd32 x).isInf then 0 else (out.filter fun x => (rd32 x).isInf).length

/-- 1 in FP32. -/
def one32 : U32 := 0x3F800000

/-! ## Saturation monitors (R210, R211) -/

/-- The monitors of a slice. -/
def State.sat (s : State) (sl : Nat) : Sat := tabGetD s.srv.sat {} sl

/-- The monitors written. -/
def State.setSat (s : State) (sl : Nat) (x : Sat) : State := { s with srv := { s.srv with sat := tabPut s.srv.sat sl x } }

/-- `n` saturated elements of a layer's monitored activations (R194, R210). -/
def State.saturated (s : State) (sl layer n : Nat) : State :=
  if n = 0 then s
  else
    let x := s.sat sl
    s.setSat sl { x with cur := tabPut x.cur layer (tabGetD x.cur 0 layer + n) }

/-! ## Matrix engines -/

/-- The pair stands in *Matrix engine rates* (R198). -/
def pairSupported (fa fb : Nat) : Bool :=
  (fa == 8 && fb == 8) || (decide (fa ≤ 5) && decide (fb ≤ 7))

/-- Bytes of a block's elements: 32 elements, 7 bytes for QWT (R186, R189), 64 bytes for BF16. -/
def blockBytes (fmt : Nat) : Nat := if fmt = 7 then 7 else 32 * elemBits fmt / 8

/-- Where a packed block lies in core store (R217): its group's index entry gives the group's first block in the stream, and the
headers of the blocks before it in the group are walked. `elem` is the stream, `scale` the index, and `offset` twice the block's
number, and 1 for its upper half. -/
def Core.packedAt (c : Core) (r : BlkRef) : Nat :=
  let k := r.offset.toNat / 2
  let first := r.elem.toNat + le (c.read (r.scale.toNat + 8 * (k / 32)) 6) 0 6
  (List.range (k % 32)).foldl (fun a _ => a + packedLen (le (c.read a 2) 0 2)) first

/-- The ranges of core store a block is read from: of a packed one its group's index entry and the walk from the group's first
block to the end of its own. -/
def blkRanges (r : BlkRef) (fmt : Nat) (side packed : Bool) (c : Core) : List (Nat × Nat) :=
  if packed then
    let e := r.scale.toNat + 8 * (r.offset.toNat / 64)
    let first := r.elem.toNat + le (c.read e 6) 0 6
    let at_ := c.packedAt r
    [(e, 8), (first, at_ - first + packedLen (le (c.read at_ 2) 0 2))]
  else
    [(r.elem.toNat, blockBytes fmt)] ++ (if fmt ≤ 7 then [(r.scale.toNat, 1)] else []) ++
    (if fmt = 6 then [(r.offset.toNat, 1)] else []) ++ (if side then [(r.side.toNat, 4)] else [])

/-- The 32 values of an operand block; none where its bytes are illegal (R189, R203, R215). -/
def Core.blockOf (c : Core) (r : BlkRef) (fmt : Nat) (side packed : Bool) : Option (List Num) :=
  if packed then
    let a := c.packedAt r
    let n := packedLen (le (c.read a 2) 0 2)
    (unpackBlock (c.read a n)).map fun vs => ((vs.drop (32 * (r.offset.toNat % 2))).take 32).map bf16.read
  else
    let e := c.read r.elem.toNat (blockBytes fmt)
    if fmt = 8 then some ((unpackCodes 16 32 e).map bf16.read)
    else
      let w := if side then le (c.read r.side.toNat 4) 0 4 else 0
      if (fmt = 7 ∧ qwtIllegal e) ∨ blockSideIllegal w then none
      else some (blockValues fmt e (byteAt (c.read r.scale.toNat 1) 0) (byteAt (c.read r.offset.toNat 1) 0)
        (blockSideEntries w))

/-- The exact sum of the products of one group (R199). -/
def groupSum (a b : List Num) : Num := (a.zip b).foldl (fun t p => t.add (p.1.mul p.2)) .zero

/-- A group's sum added to an accumulator (R199), and whether it overflowed (R200). -/
def accumulate (acc : U32) (g : Num) : U32 × Nat :=
  let y := (rd32 acc).add g
  (wr32 y, boolBit (overflows y))

/-- One output element: groups added in ascending reduction order. -/
def mmCell (acc : U32) (a b : List (List Num)) : U32 × Nat :=
  (a.zip b).foldl (fun t p =>
    let r := accumulate t.1 (groupSum p.1 p.2)
    (r.1, t.2 + r.2)) (acc, 0)

/-- Key of an accumulator. -/
def accKey (me bank row col : Nat) : Nat := ((4 * me + bank) * 64 + row) * 64 + col

/-- The tile product of MM added into an accumulator bank (R199): at most 64 rows of each operand. -/
def mmTile (acc : Tab U32) (me bank : Nat) (clear : Bool) (a b : List (List (List Num))) : Tab U32 × Nat :=
  let cells := (a.take 64).zipIdx.flatMap fun ra => (b.take 64).zipIdx.map fun rb => (ra, rb)
  cells.foldl (fun t x =>
    let k := accKey me bank x.1.2 x.2.2
    let r := mmCell (if clear then 0 else tabGetD t.1 0 k) x.1.1 x.2.1
    (tabPut t.1 k r.1, t.2 + r.2)) (acc, 0)

/-- The values of an operand's blocks, row by row; none of an illegal block. -/
def Core.operand (c : Core) (rows : List (List BlkRef)) (fmt : Nat) (side packed : Bool) : List (List (Option (List Num))) :=
  rows.map fun r => r.map fun b => c.blockOf b fmt side packed

/-- Blocks of an operand that are illegal: each counts in PACK_ILLEGAL (R189, R203, R215). -/
def illegalIn (rows : List (List (Option (List Num)))) : Nat := ((rows.flatten).filter (·.isNone)).length

/-- The format in which a monitored MXFP4 activation of a layer is written and read: MXFP8 E4M3 while the layer is promoted
(R211). -/
def State.promotedFormat (s : State) (sl layer fmt : Nat) (monitored : Bool) : Nat :=
  if monitored && fmt == 0 && (s.sat sl).promoted.contains layer then 3 else fmt

/-- MM (R198..R200): an unsupported pair is a record fault; an illegal block decodes as poisoned and is counted in
PACK_ILLEGAL (R203, R215). A monitored activation operand of a promoted layer is E4M3 (R211). -/
def State.mm (s : State) (c me : Nat) (o : MmOps) (i : Inst) : State :=
  let fa := s.promotedFormat i.slice i.layer o.fa.toNat (o.monitored == 1)
  let fb := o.fb.toNat
  if ¬ pairSupported fa fb then s.kernelFault c 1
  else
    let x := s.core c
    let ra := (o.a.flatten).flatMap fun r => blkRanges r fa (o.aSide == 1) false x
    let rb := (o.b.flatten).flatMap fun r => blkRanges r fb (o.bSide == 1) (o.bPacked == 1) x
    s.withStore c i (ra ++ rb) [] fun x =>
      let va := x.operand o.a fa (o.aSide == 1) false
      let vb := x.operand o.b fb (o.bSide == 1) (o.bPacked == 1)
      let bad := illegalIn va + illegalIn vb
      if bad ≠ 0 then (s.bump .packIllegal 0 bad).kernelFault c 3
      else
        let values (l : List (List (Option (List Num)))) : List (List (List Num)) := l.map fun r => r.filterMap id
        let r := mmTile x.acc me o.bank.toNat (o.clear == 1) (values va) (values vb)
        let n := o.a.length * o.b.length
        ((s.setCore c { x with acc := r.1 }).countResults 0 r.2).evc i.slice 0x41 (c / 64) (if n = 0 then 0 else 1)

/-- MM of an ME of a core (R199). -/
def execMm (core : BitVec 9) (me : U1) (o : MmOps) (s : State) : Host.Outcome State Fault Refusal :=
  .next (s.engRun core.toNat me.toNat 1 fun i t => t.mm core.toNat me.toNat o i)

/-- An accumulator bank, row by row. -/
def Core.bank (c : Core) (me b : Nat) : List U32 :=
  (List.range 4096).map fun k => tabGetD c.acc 0 (accKey me b 0 0 + k)

/-- ACC_OUT (R227): the 64 × 64 bank written in FP32 or BF16. -/
def State.accOut (s : State) (c me bank dst : Nat) (half : Bool) (i : Inst) : State :=
  s.withStore c i [] [(dst, if half then 8192 else 16384)] fun x =>
    let w := x.bank me bank
    let b := if half then halfBytes w else wordBytes w
    let ovf := if half then (w.filter fun v => !(rd32 v).isInf && (bf16.read (bf16.write (rd32 v))).isInf).length else 0
    (s.setCore c (x.write dst b)).countResults (nansOf w) ovf

/-- ACC_OUT of an ME of a core (R227). -/
def execAccOut (core : BitVec 9) (me : U1) (bank : BitVec 2) (dst : BitVec 23) (half : U1) (s : State) :
    Host.Outcome State Fault Refusal :=
  .next (s.engRun core.toNat me.toNat 2 fun i t =>
    t.accOut core.toNat me.toNat bank.toNat dst.toNat (half == 1) i)

/-- A tensor entry of a model program (R206). -/
structure Tensor where
  layer : Nat
  role : Nat
  wformat : Nat
  aformat : Nat
  flags : Nat
  rows : Nat
  cols : Nat
  va : Nat
  deriving DecidableEq, Repr

/-- The tensor entry at an offset. -/
def tensorOf (b : Bytes) (o : Nat) : Tensor :=
  { layer := le b o 2, role := byteAt b (o + 2), wformat := byteAt b (o + 3), aformat := byteAt b (o + 4)
    flags := byteAt b (o + 5), rows := le b (o + 8) 4, cols := le b (o + 0xC) 4, va := le b (o + 0x10) 8 }

/-- The tensor entries of a model program section. -/
def tensorsOf (b : Bytes) : List Tensor :=
  let p := progOf b
  (List.range p.tensors).map fun j => tensorOf b (p.tensorOff + 32 * j)

/-! ## Vector engine (R201, R223) -/

/-- The conversion of a vector of blocks (R193, R203): elements, scales, sidecar words, saturations. -/
def quantise (fmt : Nat) (side : Bool) (xs : List Num) : List Nat × List Nat × List Nat × Nat :=
  let bs := (pieces 32 (xs.length / 32) xs).map fun v =>
    let out := if side then outliers v else []
    let b := quantBlock fmt out.contains (fun _ => rne) v
    let ws := out.map fun o => (o, sideValue ((v.getD o .zero).shift (127 - (b.scale : Int))))
    (b, blockSideWord (ws.map fun w => (w.1, w.2.1)), b.sat + (ws.filter (·.2.2)).length)
  (bs.flatMap (·.1.codes), bs.map (·.1.scale), bs.map (·.2.1), bs.foldl (fun n b => n + b.2.2) 0)

/-- The index of the largest value (ties: lower index). -/
def argmax (l : List U32) : Nat :=
  (l.zipIdx.foldl (fun (b : U32 × Nat) p => if (rd32 b.1).lt (rd32 p.1) then p else b) (l.headD 0, 0)).2

/-- An elementary function of the vector engine: its value, with subnormals and NaN as every engine writes them (R191, R192,
R201). -/
def elementary (k : Nat) (l : List U32) : U32 := wr32 (rd32 (Config.vector k (l.map fun x => wr32 (rd32 x))))

/-- 1/2 and the number of elements in FP32. -/
def half32 : U32 := 0x3F000000
def natTo32 (n : Nat) : U32 := wr32 (.fin n 0)

/-- The sum of a vector (R201): in element order within each group of 64, the groups in ascending order. -/
def sum64 (l : List U32) : U32 :=
  ((pieces 64 (divUp l.length 64) l).map fun g => g.foldl add32 0).foldl add32 0

/-- The mean of a vector. -/
def mean64 (l : List U32) : U32 := div32 (sum64 l) (natTo32 l.length)

/-- SiLU: x × sigmoid(x). -/
def silu (x : U32) : U32 := mul32 x (elementary 0x104 [x])

/-- GELU in its erf form, x/2 × (1 + erf(x ÷ √2)), and in its tanh form, x/2 × (1 + tanh(√(2/π) × (x + 0.044715 x³))). -/
def geluErf (x : U32) : U32 := mul32 (mul32 half32 x) (add32 one32 (elementary 0x106 [mul32 x 0x3F3504F3]))
def geluTanh (x : U32) : U32 :=
  let u := mul32 0x3F4C422A (add32 x (mul32 0x3D372713 (mul32 x (mul32 x x))))
  mul32 (mul32 half32 x) (add32 one32 (elementary 0x105 [u]))

/-- An elementwise or vector function (table *VE functions*) of FP32 inputs: `a` and a second input, repeated to the
count; `k` chooses among add, subtract, multiply or among sum, maximum, argmax. Codes 0x0C to 0x0E are apart. Each operation is
rounded to FP32; the order of the operations is the model's choice (log entry 91). -/
def vectorResult (code k : Nat) (const : U32) (a b : List U32) : List U32 :=
  let b' (i : Nat) : U32 := if b.isEmpty then 0 else b.getD (i % b.length) 0
  let h := b.length / 2
  match code with
  | 0x01 => a.zipIdx.map fun p =>
      if k = 0 then add32 p.1 (b' p.2) else if k = 1 then sub32 p.1 (b' p.2) else mul32 p.1 (b' p.2)
  | 0x02 => a.zipIdx.map fun p =>
      add32 (mul32 p.1 (b.getD (p.2 % max 1 h) 0)) (b.getD (h + p.2 % max 1 h) 0)
  | 0x03 => a.map fun x => if (rd32 x).isNeg then 0 else wr32 (rd32 x)
  | 0x04 => a.map fun x => if (rd32 x).isNeg then 0 else mul32 x x
  | 0x05 => a.map geluErf
  | 0x06 => a.map geluTanh
  | 0x07 => a.map silu
  | 0x08 => a.zipIdx.map fun p => mul32 p.1 (silu (b' p.2))
  | 0x09 =>
      let r := elementary 0x103 [add32 (mean64 (a.map fun x => mul32 x x)) const]
      a.zipIdx.map fun p => mul32 (mul32 p.1 (b' p.2)) r
  | 0x0A =>
      let m := mean64 a
      let y := a.map fun x => sub32 x m
      let r := elementary 0x103 [add32 (mean64 (y.map fun x => mul32 x x)) const]
      y.zipIdx.map fun p => add32 (mul32 (mul32 p.1 (b.getD p.2 0)) r) (b.getD (h + p.2) 0)
  | 0x0B =>
      let m := wr32 (a.foldl (fun m x => m.max (rd32 x)) (rd32 (a.headD 0)))
      let e := a.map fun x => elementary 0x101 [sub32 x m]
      let r := elementary 0x102 [sum64 e]
      e.map fun x => mul32 x r
  | 0x0F =>
      if k = 0 then [sum64 a]
      else if k = 1 then [wr32 (a.foldl (fun m x => m.max (rd32 x)) (rd32 (a.headD 0)))]
      else [BitVec.ofNat 32 (argmax a)]
  | _ => a

/-- The rotary frequencies of a model program section (R205). -/
def freqsOf (b : Bytes) : List U32 :=
  let p := progOf b
  (List.range (p.rotDim / 2)).map fun j => BitVec.ofNat 32 (le b (p.freqOff + 4 * j) 4)

/-- Sine and cosine of p × f (R163): of angle 0 exactly 0 and 1, else the engine's values. -/
def sinCos (f : U32) (pos : Nat) : U32 × U32 :=
  if pos = 0 ∨ (rd32 f).isZero then (0, one32)
  else (elementary 0x107 [f, natTo32 pos], elementary 0x108 [f, natTo32 pos])

/-- The rotary embedding of a head vector at a position (R163): each pair (x, y) at 2j, 2j + 1 below d_rot turned by p × f_j,
to (x cos − y sin, x sin + y cos). -/
def rotate (freqs : List U32) (pos : Nat) (v : List U32) : List U32 :=
  let t := freqs.map fun f => sinCos f pos
  v.zipIdx.map fun x =>
    let j := x.2 / 2
    match t[j]? with
    | none => wr32 (rd32 x.1)
    | some (sn, cs) =>
      let a := v.getD (2 * j) 0
      let b := v.getD (2 * j + 1) 0
      if x.2 % 2 = 0 then sub32 (mul32 a cs) (mul32 b sn) else add32 (mul32 a sn) (mul32 b cs)

/-- The FP32 inputs that result `k` of a function rests on: one of each operand, a pair, or the whole vector. -/
def resultInputs (code k : Nat) (a b : List U32) : List U32 :=
  if code ≤ 0x08 then
    a.getD k 0 :: (if b.isEmpty then [] else if code = 0x02 then
      [b.getD (k % max 1 (b.length / 2)) 0, b.getD (b.length / 2 + k % max 1 (b.length / 2)) 0] else [b.getD (k % b.length) 0])
  else if code = 0x0C then [a.getD (k / 2 * 2) 0, a.getD (k / 2 * 2 + 1) 0]
  else a ++ b

/-- FUNC on FP32 vectors (codes other than quantise and dequantise). -/
def State.funcPlain (s : State) (c : Nat) (o : FuncOps) (i : Inst) : State :=
  let n := o.count.toNat
  let nb := o.blen.toNat
  let code := o.code.toNat
  let second := code == 0x01 || code == 0x02 || code == 0x08 || code == 0x09 || code == 0x0A
  let outN := if code = 0x0F then 1 else n
  s.withStore c i ([(o.a.toNat, 4 * n)] ++ if second then [(o.b.toNat, 4 * nb)] else []) [(o.out.toNat, 4 * outN)]
    fun x =>
      let a := x.words o.a.toNat n
      let b := if second then x.words o.b.toNat nb else []
      let sect := (s.curSect i.slice).getD []
      let d := (progOf sect).headDim
      let r := if code = 0x0C then
          (pieces d (n / max 1 d) a).zipIdx.flatMap fun v =>
            rotate (freqsOf sect) (o.pos.toNat + v.2 * d / max 1 nb) v.1
        else vectorResult code o.kind.toNat o.const a b
      let floats := if code = 0x0F ∧ 2 ≤ o.kind.toNat then [] else r
      let ovf := (floats.zipIdx.map fun p => newInfs (resultInputs code p.2 a b) [p.1]).foldl (· + ·) 0
      (s.setCore c (x.write o.out.toNat (wordBytes r))).countResults (nansOf floats) ovf

/-- NaNs that a conversion writes (R195, R200): NaN elements in E4M3 and E5M2, else the scales of blocks that hold one. -/
def quantNans (fmt : Nat) (codes scales : List Nat) : Nat :=
  if fmt = 3 ∨ fmt = 4 then (codes.filter fun k => (elemValue fmt k).isNan).length else (scales.filter (· == 255)).length

/-- FUNC 0x0D (R193..R196, R203, R211): FP32 values become elements, then scales, then sidecar words; a monitored layer
counts, and while it is promoted MXFP4 becomes E4M3 and the shadow count is taken. A format code above 5 and a count that is
no multiple of 32, for which the spec states nothing, are taken for record faults (log entry 92). -/
def State.funcQuantise (s : State) (c : Nat) (o : FuncOps) (i : Inst) : State :=
  let n := o.count.toNat
  let layer := o.layer.toNat
  let fmt := s.promotedFormat i.slice layer o.fmt.toNat (o.monitored == 1)
  let side := o.side == 1
  if 6 ≤ o.fmt.toNat ∨ n % 32 ≠ 0 then s.kernelFault c 1
  else
    let len := n * elemBits fmt / 8 + n / 32 + (if side then n / 8 else 0)
    s.withStore c i [(o.a.toNat, 4 * n)] [(o.out.toNat, len)] fun x =>
      let v := (x.words o.a.toNat n).map rd32
      let q := quantise fmt side v
      let shadow := if fmt ≠ o.fmt.toNat then (quantise 0 side v).2.2.2 else q.2.2.2
      let b := packCodes (elemBits fmt) q.1 ++ packCodes 8 q.2.1 ++ (if side then packCodes 32 q.2.2.1 else [])
      let s1 := (s.setCore c (x.write o.out.toNat b)).countResults (quantNans fmt q.1 q.2.1) 0
      if o.monitored = 1 then s1.saturated i.slice layer shadow else s1

/-- FUNC 0x0E (R187..R189, R202): blocks become FP32 (kind 0) or BF16 values. Elements lie at the first input, scales,
QW2 offsets and sidecar words in that order at the second. A format code above 7, for which the spec states nothing, is taken
for a record fault (log entry 92). -/
def State.funcDequantise (s : State) (c : Nat) (o : FuncOps) (i : Inst) : State :=
  let fmt := o.fmt.toNat
  let nb := o.count.toNat / 32
  let side := o.side == 1
  if 8 ≤ fmt then s.kernelFault c 1
  else
    let len2 := nb + (if fmt = 6 then nb else 0) + (if side then 4 * nb else 0)
    let wide := if o.kind = 0 then 4 else 2
    s.withStore c i [(o.a.toNat, nb * blockBytes fmt), (o.b.toNat, len2)] [(o.out.toNat, 32 * nb * wide)] fun x =>
      let ref (k : Nat) : BlkRef :=
        let so := o.b.toNat + nb * (if fmt = 6 then 2 else 1) + 4 * k
        { elem := BitVec.ofNat 23 (o.a.toNat + k * blockBytes fmt), scale := BitVec.ofNat 23 (o.b.toNat + k)
          offset := BitVec.ofNat 23 (o.b.toNat + nb + k), side := BitVec.ofNat 23 so }
      let vs := (List.range nb).map fun k => x.blockOf (ref k) fmt side false
      let bad := illegalIn [vs]
      if bad ≠ 0 then (s.bump .packIllegal 0 bad).kernelFault c 3
      else
        let ns := vs.flatMap fun v => v.getD []
        let w := ns.map wr32
        let ovf := (ns.filter fun x => if wide = 4 then overflows x else !x.isInf && (bf16.read (bf16.write x)).isInf).length
        (s.setCore c (x.write o.out.toNat (if wide = 4 then wordBytes w else halfBytes w))).countResults (nansOf w) ovf

/-- FUNC (R223): a reserved function code is a record fault. -/
def State.func (s : State) (c : Nat) (o : FuncOps) (i : Inst) : State :=
  let code := o.code.toNat
  if code = 0 ∨ 0x10 ≤ code then s.kernelFault c 1
  else if code = 0x0D then s.funcQuantise c o i
  else if code = 0x0E then s.funcDequantise c o i
  else s.funcPlain c o i

/-- FUNC of the vector engine of a core (R223). -/
def execFunc (core : BitVec 9) (o : FuncOps) (s : State) : Host.Outcome State Fault Refusal :=
  .next (s.engRun core.toNat 3 1 fun i t => t.func core.toNat o i)

/-! ## Ends of monitoring windows (R210..R212) -/

/-- The demote threshold (R211). -/
def State.demoteAt (s : State) (sl : Nat) : Nat := min (s.reg .satDemote sl 0) (s.reg .satPromote sl 0)

/-- The judgement of one layer at a window's end: its count, its clean windows, and a change for the next step start. -/
def judgeLayer (enable : Bool) (promote demote clean : Nat) (x : Sat) (l : Nat) : Sat :=
  let n := tabGetD x.cur 0 l
  if x.promoted.contains l then
    let k := if n ≤ demote then tabGetD x.clean 0 l + 1 else 0
    if clean ≤ k then { x with clean := tabPut x.clean l 0, change := x.change ++ [(l, 2)] }
    else { x with clean := tabPut x.clean l k }
  else if enable && decide (promote < n) then { x with change := x.change ++ [(l, 1)] }
  else x

/-- A window's end at the end of step `step` (R210, R211): the counts become the window's counts. -/
def State.satWindowEnd (s : State) (sl layers : Nat) : State :=
  let x := s.sat sl
  let ctrl := s.reg .satCtrl sl 0
  let y := (List.range layers).foldl
    (judgeLayer (bitAt ctrl 0) (s.reg .satPromote sl 0) (s.demoteAt sl) (bitsOf ctrl 8 8)) x
  s.setSat sl { y with last := x.cur, cur := [] }

/-- The changes that take effect at the start of step `step` (R211), each with its event (R212). -/
def State.satApply (s : State) (sl step : Nat) : State :=
  let x := s.sat sl
  -- clearing ENABLE stops a promotion that has not taken effect
  let on := bitAt (s.reg .satCtrl sl 0) 0
  (x.change.filter fun c => on || c.2 != 1).foldl (fun t c =>
    let y := t.sat sl
    let t1 := t.setSat sl { y with
      promoted := if c.2 = 1 then setInsert y.promoted c.1 else y.promoted.filter (· != c.1)
      clean := tabPut y.clean c.1 0 }
    t1.post sl 0x02 sl 0 (bytesOf 1 c.1 ++ bytesOf 1 c.2 ++ zeros 6 ++ bytesOf 8 step)) (s.setSat sl { x with change := [] })

end Sys2Proof.Machine
end

