-- ==== Sys2Proof/Machine/Attention.lean ====
section
/-! DEFINITION. The attention engine (R162, R164..R167): partials over key blocks and their merge; the query and result
messages of rings (R170..R172). -/

namespace Sys2Proof.Machine

/-! ## FP32 helpers of the attention datapath (R166) -/

/-- −∞ in FP32. -/
def negInf : U32 := 0xFF800000

/-- exp in FP32: exp(−∞) = 0, exp(0) = 1, else the engine's value (R166, R252). -/
def exp32 (x : U32) : U32 := if x = negInf then 0 else if (rd32 x).isZero then one32 else Config.exp32 x

/-- The larger of two FP32 values. -/
def max32 (a b : U32) : U32 := wr32 ((rd32 a).max (rd32 b))

/-- A running state or partial (R166): maximum, sum of exponentials, weighted value sum. -/
structure Partial where
  m : U32 := negInf
  l : U32 := 0
  o : List U32 := []
  deriving DecidableEq, Repr

/-- The bytes of a partial (R171): m, l, o. -/
def Partial.bytes (p : Partial) : Bytes := wordBytes (p.m :: p.l :: p.o)

/-- A partial read from its bytes. -/
def partialOf (d : Nat) (b : Bytes) : Partial :=
  let w := (pieces 4 (d + 2) b).map fun x => BitVec.ofNat 32 (leNat x 4)
  { m := w.getD 0 negInf, l := w.getD 1 0, o := w.drop 2 }

/-- One key block added to a running state (R166): scores with their value vectors; masked keys are absent. A row whose
keys are all masked keeps its state. -/
def blockStep (p : Partial) (d : Nat) (keys : List (U32 × List U32)) : Partial :=
  if keys.isEmpty then p
  else
    let o := if p.o.isEmpty then List.replicate d 0 else p.o
    let m2 := keys.foldl (fun m k => max32 m k.1) p.m
    if m2 = negInf then p
    else
      let a := exp32 (sub32 p.m m2)
      let e := keys.map fun k => exp32 (sub32 k.1 m2)
      { m := m2
        l := add32 (mul32 p.l a) (Config.sum32 e)
        o := o.zipIdx.map fun x =>
          add32 (mul32 x.1 a) (Config.dot32 ((e.zip keys).map fun q => (q.1, q.2.2.getD x.2 0))) }

/-- Partials merged in the order given (R167). -/
def mergePartials (d : Nat) (ps : List Partial) : Partial :=
  let m := ps.foldl (fun x p => max32 x p.m) negInf
  if m = negInf then { o := List.replicate d 0 }
  else
    let f := ps.map fun p => exp32 (sub32 p.m m)
    { m := m
      l := Config.sum32 ((ps.zip f).map fun x => mul32 x.1.l x.2)
      o := (List.range d).map fun k => Config.sum32 ((ps.zip f).map fun x => mul32 (x.1.o.getD k 0) x.2) }

/-! ## Keys and values of a layer (R162, R164) -/

/-- P: the token length of a session's palette entry (R162). -/
def State.palTokens (s : State) (d : Desc) : Nat := ((tabGet s.srv.pals d.palette).map (·.tokens)).getD 0

/-- SM_SCALE of a model program (R205): 0 selects 1/√d. -/
def Prog.scale (p : Prog) : U32 :=
  if p.smScale ≠ 0 then BitVec.ofNat 32 p.smScale
  else if p.headDim = 64 then 0x3E000000
  else if p.headDim = 256 then 0x3D800000
  else 0x3DB504F3

/-- The physical ranges of a row of a page. -/
def pageRowRanges (g : Geom) (pg : KvPage) (t : Nat) : List (Nat × Nat) :=
  [(pg.elem + t * g.e, g.e), (pg.scale + t * g.s, g.s)] ++ (if g.c = 0 then [] else [(pg.side + t * g.c, g.c)])

/-- A row of KV from its three physical addresses. -/
def State.rowAt (s : State) (g : Geom) (elem scale side : Nat) : KvRow :=
  { elem := s.pread elem g.e, scale := s.pread scale g.s, side := s.pread side g.c }

/-- What the AE meets at a key slot: nothing, a row with the state die it lies on, a page not present, or no valid leaf. -/
inductive SlotRow where
  | empty | row (r : KvRow) (bad : Bool) (die : Nat) | absent | fault
  deriving DecidableEq, Repr

/-- The die that a key is read from. -/
def SlotRow.die : SlotRow → Option Nat
  | .row _ _ d => some d
  | _ => none

/-- The row at slot `slot` of a layer of a session (R141, R164). -/
def State.slotRow (s : State) (i : Nat) (g : Geom) (layer slot : Nat) : SlotRow :=
  let d := s.d i
  if slot < 16 ∨ d.tentativeLen - d.stretchOffset ≤ slot - 16 then .empty
  else match (s.kvOf i).pages.find? fun p =>
      p.layer == layer && p.first ≤ slot - 16 && slot - 16 < p.first + 16 * 2 ^ p.log2 with
    | none => .fault
    | some p =>
      if p.np then .absent
      else
        let t := slot - 16 - p.first
        .row (s.rowAt g (p.elem + t * g.e) (p.scale + t * g.s) (p.side + t * g.c))
          (s.prangesBad d.prot (pageRowRanges g p t)) (p.elem / 2 ^ 37 + 8)

/-- The row of token `t` of a palette entry's layer (R180): element, scale and sidecar parts follow one another, each
part rounded up to 4 KiB. -/
def State.palRow (s : State) (e : Pal) (g : Geom) (layer t : Nat) : SlotRow :=
  let size (u : Nat) : Nat := divUp (u * e.tokens) 4096 * 4096
  let pa (off : Nat) : Option Nat :=
    (e.parts.find? fun p => p.1 ≤ off && off < p.1 + p.2.2).map fun p => p.2.1 + (off - p.1)
  let eo := layer * size g.e + t * g.e
  let so := g.layers * size g.e + layer * size g.s + t * g.s
  let co := g.layers * (size g.e + size g.s) + layer * size g.c + t * g.c
  match pa eo, pa so with
  | some a, some b =>
    let c := if g.c = 0 then 0 else (pa co).getD 0
    .row (s.rowAt g a b c) (s.prangesBad e.prot ([(a, g.e), (b, g.s)] ++ if g.c = 0 then [] else [(c, g.c)])) (a / 2 ^ 37 + 8)
  | _, _ => .fault

/-- A key slot as ATTN reads it: of the session's stretch, or of its palette entry, which RING_POS 0 alone reads (R168). -/
def State.attnRow (s : State) (o : AttnOps) (g : Geom) (slot : Nat) : SlotRow :=
  if o.pal = 1 then
    if (s.d o.index.toNat).ringPos ≠ 0 then .empty
    else match tabGet s.srv.pals (s.d o.index.toNat).palette with
    | some e => if slot < e.tokens then s.palRow e g o.layer.toNat slot else .empty
    | none => .fault
  else s.slotRow o.index.toNat g o.layer.toNat slot

/-- The position of the key in a slot (R162). -/
def State.keyPos (s : State) (o : AttnOps) (slot : Nat) : Nat :=
  let d := s.d o.index.toNat
  if o.pal = 1 then slot else s.palTokens d + d.stretchOffset + (slot - 16)

/-- The query blocks of ATTN: at most 128 consecutive rows each, the first row and the number (R165). -/
def queryBlocks (rows : Nat) : List (Nat × Nat) :=
  (List.range (divUp rows 128)).map fun k => (128 * k, min 128 (rows - 128 * k))

/-- The key blocks that are not skipped for a query block (R165): by block, the slots that hold a key. -/
def State.attnBlocks (s : State) (o : AttnOps) (g : Geom) (qb : Nat × Nat) : List (List (Nat × SlotRow)) :=
  let lo := o.lo.toNat
  let hi := o.hi.toNat
  let last := o.pos0.toNat + qb.1 + qb.2 - 1
  ((List.range (divUp hi 256 - lo / 256)).map fun k =>
    ((List.range 256).map fun j => (lo / 256 + k) * 256 + j).filterMap fun slot =>
      if slot < lo ∨ hi ≤ slot then none
      else match s.attnRow o g slot with
        | .empty => none
        | r => some (slot, r)).filter fun b =>
    o.pal == 1 || b.any fun x => s.keyPos o x.1 ≤ last

/-- One query row and head over the blocks: the query as FP32 values of its BF16 elements. A palette key is visible at every
position (R164). -/
def State.attnRowHead (s : State) (o : AttnOps) (p : Prog) (blocks : List (List (Nat × SlotRow))) (q : List U32)
    (pos head : Nat) : Partial :=
  let kvh := head * p.kvHeads / max 1 p.qHeads
  blocks.foldl (fun st b =>
    blockStep st p.headDim (b.filterMap fun x =>
      if o.pal = 0 ∧ pos < s.keyPos o x.1 then none
      else match x.2 with
        | .row r _ _ =>
          let k := (decHead p r 0 kvh).map wr32
          some (mul32 (Config.dot32 (q.zip k)) p.scale, (decHead p r 1 kvh).map wr32)
        | _ => none)) { o := List.replicate p.headDim 0 }

/-! ## Query circulation (R170..R172) -/

/-- The 64-byte header of a PARTIAL message (R171). -/
def partialHead (kind layer epoch sid step tailDev srcDev rows heads pos0 mapEpoch part : Nat) : Bytes :=
  bytesOf 1 kind ++ zeros 1 ++ bytesOf 2 layer ++ bytesOf 4 epoch ++ bytesOf 8 sid ++ bytesOf 8 step ++
  bytesOf 2 tailDev ++ bytesOf 2 srcDev ++ bytesOf 2 rows ++ bytesOf 2 heads ++ bytesOf 4 pos0 ++ bytesOf 4 mapEpoch ++
  bytesOf 2 part ++ zeros 22

/-- The step number of a slice's job: the next step, or the one that runs. -/
def State.stepNo (s : State) (sl : Nat) : Nat := ((tabGet s.srv.jobs sl).map (·.next)).getD 0

/-- One message of a layer's query rows sent to RING_PREV (R171), and the wait for a RESULT of every member. -/
def State.sendPart (s : State) (o : AttnOps) (qb : Nat × Nat) (body : Bytes) : State :=
  let i := o.index.toNat
  let d := s.d i
  let step := s.stepNo d.slice
  let part := (s.srv.waits.filter fun w => w.index == i && w.layer == o.layer.toNat && w.step == step).length
  let dev := s.devNo.getD 0xFFFF
  let b := partialHead 1 o.layer.toNat d.ownerEpoch d.sessionId.toNat step dev dev qb.2 o.heads.toNat
    (o.pos0.toNat + qb.1) s.comp.epoch part ++ body
  let w : RingWait := { index := i, layer := o.layer.toNat, part := part, step := step, sent := s.pkg.pkc, query := b
                        head0 := o.head0.toNat }
  { s.sendOne d.slice d.ringPrev 4 1 0 [0, d.ownerEpoch] b with srv := { s.srv with waits := s.srv.waits ++ [w] } }

/-- The tail of a ring sends the query rows of a layer to RING_PREV (R170 step 2) when the command that covers its own
stretch from slot 0 runs: at most 128 rows a message (R171). `row` is the bytes of a query row. -/
def State.sendQuery (s : State) (o : AttnOps) (row : Nat) (body : Bytes) : State :=
  let d := s.d o.index.toNat
  if ¬ d.tail ∨ d.ringSize ≤ 1 ∨ o.pal = 1 ∨ o.lo ≠ 0 then s
  else (queryBlocks o.rows.toNat).foldl (fun t qb => t.sendPart o qb (sub body (qb.1 * row) (qb.2 * row))) s

/-- Fields of a PARTIAL message's header (R171). -/
structure PartialHdr where
  kind : Nat
  layer : Nat
  epoch : Nat
  sid : Nat
  step : Nat
  tailDev : Nat
  srcDev : Nat
  rows : Nat
  heads : Nat
  pos0 : Nat
  part : Nat
  deriving DecidableEq, Repr

/-- The header of a PARTIAL message read (R171). -/
def partialHdrOf (b : Bytes) : PartialHdr :=
  { kind := byteAt b 0, layer := le b 2 2, epoch := le b 4 4, sid := le b 8 8, step := le b 0x10 8, tailDev := le b 0x18 2
    srcDev := le b 0x1A 2, rows := le b 0x1C 2, heads := le b 0x1E 2, pos0 := le b 0x20 4, part := le b 0x28 2 }

/-- A RESULT arrives at the tail (R172): kept with its message, or, as a duplicate or one nothing waits for, discarded and
counted in RING_STALE; under an older owner epoch discarded and counted in both counters (R91, R183). -/
def State.resultIn (s : State) (b : Bytes) : State :=
  let h := partialHdrOf b
  match s.desc.find? fun d => d.2.sessionId.toNat == h.sid && d.2.tail && d.2.season != .empty with
  | none => s
  | some (i, d) =>
    if h.epoch < d.ownerEpoch then (s.bump .staleOwnerCnt d.slice 1).bump .ringStale d.slice 1
    else
      let hit (w : RingWait) : Bool :=
        w.index == i && w.layer == h.layer && w.part == h.part && w.step == h.step && !w.got.contains h.srcDev
      if s.srv.waits.any hit then
        { s with
          srv := { s.srv with waits := s.srv.waits.map fun (w : RingWait) =>
            (if hit w then { w with got := w.got ++ [h.srcDev], bodies := w.bodies ++ [b.drop 64] } else w) }
          aux := tabPut s.aux i { tabGetD s.aux {} i with ringDevs := setInsert (tabGetD s.aux {} i).ringDevs h.srcDev } }
      else s.bump .ringStale d.slice 1

/-- The partial of one query row and head in a RESULT body (R171): none where the message does not cover them. -/
def RingWait.partials (w : RingWait) (d pos head : Nat) : List Partial :=
  let h := partialHdrOf w.query
  if pos < h.pos0 ∨ h.pos0 + h.rows ≤ pos ∨ head < w.head0 ∨ w.head0 + h.heads ≤ head then []
  else w.bodies.map fun b =>
    partialOf d (sub b (((pos - h.pos0) * h.heads + (head - w.head0)) * (8 + 4 * d)) (8 + 4 * d))

/-- The ring members' partials of the query row and head whose own partial an instance has written at an address of its core
store, in the order in which they arrived (R167). -/
def State.ringPartials (s : State) (i : Inst) (d addr : Nat) : List Partial :=
  match i.outs.find? fun o => o.at_ ≤ addr && addr < o.at_ + o.bytes with
  | none => []
  | some o =>
    let k := (addr - o.at_) / (8 + 4 * d)
    (s.srv.waits.filter fun w => w.index == o.index && w.layer == i.layer).flatMap fun w =>
      w.partials d (o.pos0 + k / max 1 o.heads) (o.head0 + k % max 1 o.heads)

/-- ATTN (R164..R166): it waits for a page that is not present (R139); poisoned data is a kernel fault; a slot with no
valid leaf is a translation fault; keys without a path read as poisoned data (R17). The partials are written by row, then head. -/
def State.attn (s : State) (c : Nat) (o : AttnOps) (i : Inst) : State :=
  match s.curProg i.slice with
  | none => s.kernelFault c 1
  | some p =>
    let g := p.geom
    let d := p.headDim
    let rows := o.rows.toNat
    let heads := o.heads.toNat
    let qbs := (queryBlocks rows).map fun qb => (qb, s.attnBlocks o g qb)
    let all := qbs.flatMap fun x => x.2.flatten.map (·.2)
    s.withStore c i [(o.query.toNat, rows * heads * d * 2)] [(o.out.toNat, rows * heads * (8 + 4 * d))] fun x =>
      if all.any fun r => r == .fault then
        (s.engineFault i.slice (s.d o.index.toNat).windowBase eXlate).setCore c
          (x.write o.out.toNat (zeros (rows * heads * (8 + 4 * d))) true)
      else if (all.filterMap SlotRow.die).eraseDups.any fun d => !s.pathOk (c / 64) d then
        (s.pathLost c i).setCore c (x.write o.out.toNat (zeros (rows * heads * (8 + 4 * d))) true)
      else if all.any fun r => match r with
          | .row _ bad _ => bad
          | _ => false then (s.bump .memPoisonReads i.slice 1).kernelFault c 3
      else
        let ps := qbs.flatMap fun qb => (List.range qb.1.2).flatMap fun k => (List.range heads).map fun h =>
          let r := qb.1.1 + k
          s.attnRowHead o p qb.2 (x.halves (o.query.toNat + (r * heads + h) * d * 2) d) (o.pos0.toNat + r)
            (o.head0.toNat + h)
        let done := (qbs.map (·.2.length)).foldl (· + ·) 0
        let skipped := qbs.length * (divUp o.hi.toNat 256 - o.lo.toNat / 256) - done
        let b := ps.flatMap Partial.bytes
        let w : AttnOut := { at_ := o.out.toNat, bytes := b.length, index := o.index.toNat, pos0 := o.pos0.toNat, rows := rows
                             head0 := o.head0.toNat, heads := heads }
        let x' := { x.write o.out.toNat b with inst := x.inst.map fun k => { k with outs := k.outs ++ [w] } }
        let s0 := if i.cls = .partial_ then s
          else s.sendQuery o (heads * d * 2) (x.read o.query.toNat (rows * heads * d * 2))
        let ws := ps.flatMap fun q => q.m :: q.l :: q.o
        let ovf := (ps.zipIdx.map fun q => newInfs (x.halves (o.query.toNat + q.2 * d * 2) d)
          ((if q.1.m = negInf then [] else [q.1.m]) ++ q.1.l :: q.1.o)).foldl (· + ·) 0
        ((((s0.setCore c x').countResults (nansOf ws) ovf).bump .attSkipped i.slice
          skipped).evc i.slice 0x42 (c / 64) done).evc i.slice 0x43 (c / 64) skipped

/-- A page that ATTN reads is not present: the engine waits (R139). -/
def State.attnWaits (s : State) (o : AttnOps) (g : Geom) : Bool :=
  (queryBlocks o.rows.toNat).any fun qb => (s.attnBlocks o g qb).flatten.any fun x => x.2 == .absent

/-- ATTN of the attention engine of a core (R166). -/
def execAttn (core : BitVec 9) (o : AttnOps) (s : State) : Host.Outcome State Fault Refusal :=
  let waits := match s.engHead core.toNat 2 1 with
    | none => true
    | some (i, _) => match s.geom i.slice with
      | some g => s.attnWaits o g
      | none => false
  if waits then .next s else .next (s.engRun core.toNat 2 1 fun i t => t.attn core.toNat o i)

/-- The attention output projection of a layer, if the model program has one. -/
def State.outTensor (s : State) (sl layer : Nat) : Option Tensor :=
  (s.curSect sl).bind fun b => (tensorsOf b).find? fun t => t.role == 4 && t.layer == layer

/-- The format of the attention output of a layer, and whether with a sidecar (R167, R203): AFORMAT and A_SIDECAR of its
attention output projection, E4M3 for a monitored MXFP4 one while the layer is promoted (R211); BF16 without one. -/
def State.attnFormat (s : State) (sl layer : Nat) : Nat × Bool :=
  match s.outTensor sl layer with
  | none => (8, false)
  | some t => (s.promotedFormat sl layer t.aformat (bitAt t.flags 3 && !bitAt t.flags 0), bitAt t.flags 2)

/-- An attention output written in a format (R167): BF16, or elements, scales and sidecar words of an MX format, or FP32. -/
def outputBytes (fmt : Nat × Bool) (v : List U32) : Bytes :=
  if fmt.1 = 8 then halfBytes v
  else if fmt.1 ≤ 5 then
    let q := quantise fmt.1 fmt.2 (v.map rd32)
    packCodes (elemBits fmt.1) q.1 ++ packCodes 8 q.2.1 ++ if fmt.2 then packCodes 32 q.2.2.1 else []
  else wordBytes v

/-- The saturations and NaNs of an attention output as it is written (R194, R200): of a monitored layer as MXFP4 would have
them while it is promoted (R211). -/
def outputSat (fmt : Nat × Bool) (shadow : Bool) (v : List U32) : Nat × Nat :=
  if fmt.1 ≤ 5 then
    let q := quantise fmt.1 fmt.2 (v.map rd32)
    ((if shadow then (quantise 0 fmt.2 (v.map rd32)).2.2.2 else q.2.2.2), quantNans fmt.1 q.1 q.2.1)
  else (0, nansOf v)

/-- Overflows to infinity as an attention output is written: in FP32, or in its conversion to BF16 (R197, R200). -/
def outputOvf (fmt : Nat) (ps : List Partial) (v : List U32) : Nat :=
  let ins := ps.flatMap fun p => p.l :: p.o
  newInfs ins v + if fmt = 8 then (v.filter fun w => !(rd32 w).isInf && (bf16.read (bf16.write (rd32 w))).isInf).length else 0

/-- MERGE (R167, R170 step 6): `count` lists of partials, one after another, each of rows × heads, and the RESULTs of the
ring that have arrived; the output o ÷ l by row and head. -/
def State.merge (s : State) (c list count rows heads out : Nat) (i : Inst) : State :=
  match s.curProg i.slice with
  | none => s.kernelFault c 1
  | some p =>
    let d := p.headDim
    let sz := 8 + 4 * d
    let n := rows * heads
    let fmt := s.attnFormat i.slice i.layer
    let outLen := n * (outputBytes fmt (List.replicate d 0)).length
    let tensor := s.outTensor i.slice i.layer
    let shadow := tensor.any fun t => t.aformat != fmt.1
    s.withStore c i [(list, count * n * sz)] [(out, outLen)] fun x =>
      let vs := (List.range n).map fun k =>
        let ps := (List.range count).map fun j => partialOf d (x.read (list + (j * n + k) * sz) sz)
        let all := ps ++ s.ringPartials i d (list + k * sz)
        let r := mergePartials d all
        (all, r.o.map fun v => div32 v r.l)
      let q := vs.map fun v => outputSat fmt shadow v.2
      let nans := (q.map (·.2)).foldl (· + ·) 0
      let ovf := (vs.map fun v => outputOvf fmt.1 v.1 v.2).foldl (· + ·) 0
      let s1 := (s.setCore c (x.write out (vs.flatMap fun v => outputBytes fmt v.2))).countResults nans ovf
      if tensor.any fun t => bitAt t.flags 3 then s1.saturated i.slice i.layer ((q.map (·.1)).foldl (· + ·) 0) else s1

/-- The instance's layer still lacks a RESULT from a member of its sessions' rings (R172): the tail merges only when it
holds them all. -/
def State.ringMissing (s : State) (i : Inst) : Bool :=
  i.sessions.any fun n => s.srv.waits.any fun w =>
    w.index == n && w.layer == i.layer && w.got.length + 1 < (s.d n).ringSize

/-- MERGE of the attention engine of a core (R167). -/
def execMerge (core : BitVec 9) (list : BitVec 23) (count rows heads : U16) (out : BitVec 23) (s : State) :
    Host.Outcome State Fault Refusal :=
  let waits := match s.engHead core.toNat 2 2 with
    | none => true
    | some (i, _) => s.ringMissing i && !i.faulted
  if waits then .next s
  else .next (s.engRun core.toNat 2 2 fun i t =>
    t.merge core.toNat list.toNat count.toNat rows.toNat heads.toNat out.toNat i)

end Sys2Proof.Machine
end

