-- ==== Sys2Proof/Machine/Sampler.lean ====
section
/-! DEFINITION. The sampler engine (R252..R256): draws, sampling one position, log-probabilities, verification of
drafts. -/

namespace Sys2Proof.Machine

/-- draw(SEED, n) as the 24-bit integer u × 2^24 (R253). -/
def draw24 (seed n : Nat) : Nat :=
  let x0 : U64 := BitVec.ofNat 64 n + BitVec.ofNat 64 seed * 0x9E3779B97F4A7C15
  let x1 := (x0 ^^^ (x0 >>> 30)) * 0xBF58476D1CE4E5B9
  let x2 := (x1 ^^^ (x1 >>> 27)) * 0x94D049BB133111EB
  let x3 := x2 ^^^ (x2 >>> 31)
  (x3 >>> 40).toNat

/-- u as FP32. -/
def drawU (seed n : Nat) : U32 := wr32 (.fin (draw24 seed n) (-24))

/-- Logits that end the request (R252): NaN or +∞ anywhere, or −∞ everywhere. -/
def badLogits (z : List U32) : Bool :=
  (z.any fun w => (rd32 w).isNan || w == 0x7F800000) || z.all fun w => w == negInf

/-- The `k` largest candidates (ties: lower index), ascending by index. -/
def largest (k : Nat) (c : List (U32 × Nat)) : List (U32 × Nat) :=
  ((c.mergeSort fun a b => (rd32 b.1).lt (rd32 a.1) || (!(rd32 a.1).lt (rd32 b.1) && a.2 ≤ b.2)).take k).mergeSort
    fun a b => a.2 ≤ b.2

/-- An FP32 sum in the order of a list (R252). -/
def sumSeq (l : List U32) : U32 := l.foldl add32 0

/-- The shortest prefix of a list of probabilities whose sum reaches `top`. -/
def nucleus (top : U32) : U32 → List (U32 × Nat) → List (U32 × Nat)
  | _, [] => []
  | acc, p :: ps =>
    let a := add32 acc p.1
    if (rd32 a).lt (rd32 top) then p :: nucleus top a ps else [p]

/-- The first candidate whose running sum exceeds `u`; the last if none does. -/
def pick (u : U32) : U32 → List (U32 × Nat) → Option Nat
  | _, [] => none
  | _, [p] => some p.2
  | acc, p :: ps =>
    let a := add32 acc p.1
    if (rd32 u).lt (rd32 a) then some p.2 else pick u a ps

/-- What the sampler takes of a request. -/
structure SampleParam where
  temp : U32
  topP : U32
  topK : Nat
  seed : Nat
  logprob : Bool
  deriving DecidableEq, Repr

/-- The sampler's values of a request entry. -/
def Request.sampleParam (r : Request) : SampleParam :=
  { temp := wr32 (rd16 r.temp.toNat), topP := wr32 (rd16 r.topP.toNat), topK := r.topK, seed := r.seed.toNat
    logprob := bitAt r.rflags 2 }

/-- The candidates with their probabilities, in descending order (R252). -/
def candidatesOf (q : SampleParam) (z : List U32) : List (U32 × Nat) :=
  let all := z.zipIdx.filter fun c => c.1 != negInf
  let less := (rd32 q.topP).lt (.fin 1 0)
  let c := if q.topK ≠ 0 then largest q.topK all else if less then largest 1024 all else all
  let m := c.foldl (fun m x => max32 m x.1) negInf
  let e := c.map fun x => (exp32 (div32 (sub32 x.1 m) q.temp), x.2)
  let t := sumSeq (e.map (·.1))
  let p := (e.map fun x => (div32 x.1 t, x.2)).mergeSort fun a b =>
    (rd32 b.1).lt (rd32 a.1) || (!(rd32 a.1).lt (rd32 b.1) && a.2 ≤ b.2)
  if less then
    let k := nucleus q.topP 0 p
    let t2 := sumSeq (k.map (·.1))
    k.map fun x => (div32 x.1 t2, x.2)
  else p

/-- One position sampled with generator counter `n` (R252); none where the logits end the request. -/
def sampleToken (q : SampleParam) (n : Nat) (z : List U32) : Option Nat :=
  if badLogits z then none
  else if (rd32 q.temp).isZero then some (argmax z)
  else pick (drawU q.seed n) 0 (candidatesOf q z)

/-- ln as the sampler engine computes it (R254): ln 1 is 0 and ln 0 is −∞, which the field clamps; other values are free. -/
def ln32 (x : U32) : U32 := if x = one32 then 0 else if (rd32 x).isZero then negInf else Config.ln32 x

/-- The LOGPROB field of a token (R254). -/
def logprobOf (q : SampleParam) (z : List U32) (tok : Nat) : Nat :=
  if ¬ q.logprob then 0x7E00
  else
    let t := if (rd32 q.temp).isZero then one32 else q.temp
    let m := z.foldl max32 negInf
    let e := z.map fun x => exp32 (div32 (sub32 x m) t)
    wrLogprob (rd32 (ln32 (div32 (e.getD tok 0) (sumSeq e))))

/-- Verification (R256): positions in turn until a mismatch or after the last draft: the tokens sampled with their
LOGPROB fields, the accepted drafts and then the bonus token; none where some logits end the request. -/
def verifyTokens (q : SampleParam) (n : Nat) : List (List U32) → List Nat → Option (List (Nat × Nat))
  | [], _ => some []
  | z :: zs, ds =>
    match sampleToken q n z with
    | none => none
    | some t =>
      let e := (t, logprobOf q z t)
      match ds with
      | [] => some [e]
      | d :: ds' => if t = d then (verifyTokens q (n + 1) zs ds').map fun l => e :: l else some [e]

end Sys2Proof.Machine
end

