-- ==== Sys2Proof/Machine/Jobs.lean ====
section
/-! DEFINITION. Jobs, stage dispatch and placement: JOB_START (R239), JOB_END (R240), the prefill share (R248), stage
expansion (R233, R235), INSTANCE_PLACE (R236, R237), INSTANCE_END (R226, R235). -/

namespace Sys2Proof.Machine

/-! ## Weights mapped (R207, R217, R239) -/

/-- The slice addresses from `va` on are covered by objects of the slice; `k` bounds how many. -/
def State.covered (s : State) (sl : Nat) : Nat → Nat → Nat → Bool
  | 0, _, n => n == 0
  | k + 1, va, n =>
    if n = 0 then true
    else match s.objAt sl va with
      | none => false
      | some o =>
        let left := o.va + o.units * 4096 - va
        if n ≤ left then true else s.covered sl k (va + left) (n - left)

/-- The range is wholly mapped. -/
def State.mapped (s : State) (sl va n : Nat) : Bool := s.covered sl (s.mem.objects.length + 1) va n

/-- A length rounded up to 4 KiB. -/
def up4k (n : Nat) : Nat := divUp n 4096 * 4096

/-- The arrays of a tensor that is not PACKED (R207): offset and bytes. -/
def Tensor.arrays (t : Tensor) : List (Nat × Nat) :=
  let n := t.rows * t.cols
  let blocks := n / 32
  if t.wformat = 8 ∨ t.wformat = 9 then [(0, n * elemBits t.wformat / 8)]
  else
    let e := if t.wformat = 7 then blocks * 7 else n * elemBits t.wformat / 8
    let o1 := up4k e
    let o2 := o1 + up4k blocks
    let o3 := o2 + if t.wformat = 6 then up4k blocks else 0
    [(0, e), (o1, blocks)] ++ (if t.wformat = 6 then [(o2, blocks)] else []) ++
    (if bitAt t.flags 1 then [(o3, 4 * blocks)] else [])

/-- Lengths of `k` packed blocks from a slice address on, by their headers (R217). -/
def State.packedSpan (s : State) (sl : Nat) : Nat → Nat → Nat
  | 0, _ => 0
  | k + 1, va =>
    let n := packedLen (le (s.vread sl va 2) 0 2)
    n + s.packedSpan sl k (va + n)

/-- The arrays of a PACKED tensor (R207, R217, R218): the elements up to the stream's end and the whole index; none
where the index is not mapped or the stream passes its space; PLAIN data in a protected region. -/
def State.packedArrays (s : State) (sl : Nat) (t : Tensor) : Option (List (Nat × Nat)) :=
  let blocks := t.rows * t.cols / 64
  match s.objAt sl t.va with
  | none => none
  | some o =>
    if o.prot then some [(0, blocks * 128)]
    else
      let groups := divUp blocks 32
      let idx := up4k (blocks * 130)
      if ¬ s.mapped sl (t.va + idx) (8 * groups) then none
      else
        let last := le (s.vread sl (t.va + idx + 8 * (groups - 1)) 8) 0 6
        let fin := last + s.packedSpan sl (blocks - 32 * (groups - 1)) (t.va + last)
        if blocks * 130 < fin then none else some [(0, fin), (idx, 8 * groups)]

/-- A tensor's weight data is wholly mapped (R239 check 5). -/
def State.tensorMapped (s : State) (sl : Nat) (t : Tensor) : Bool :=
  match if bitAt t.flags 4 then s.packedArrays sl t else some t.arrays with
  | none => false
  | some l => l.all fun a => s.mapped sl (t.va + a.1) a.2

/-! ## Prefill share (R248) -/

/-- C: clusters of a slice. -/
def State.clusters (s : State) (sl : Nat) : Nat := ((s.sliceEnt sl).map fun e => countBits e.clusters 64).getD 0

/-- P_min and P_max. -/
def State.shareMin (s : State) (sl : Nat) : Nat := s.clusters sl * s.fld .psBounds sl 0 0 8 / 100
def State.shareMax (s : State) (sl : Nat) : Nat :=
  min (s.clusters sl) (divUp (s.clusters sl * s.fld .psBounds sl 0 8 8) 100)

/-- The clusters of the prefill set: the P of highest cluster rank, as ranks. -/
def State.prefillRanks (s : State) (sl p : Nat) : List Nat :=
  match s.sliceEnt sl with
  | none => []
  | some e => ((List.range 64).filter fun r => bitAt e.clusters (8 * (r % 8) + r / 8)).reverse.take p

/-- The judgement of a window (R248): the new P. -/
def judgeShare (p pmin pmax qp0 qp1 wp wd e : Nat) : Nat :=
  if 0 < qp1 ∧ qp0 ≤ qp1 ∧ wd < wp then (if p < pmax then p + 1 else p)
  else if qp1 = 0 ∧ 128 ≤ e then (if pmin < p then p - 1 else p)
  else if 2 * wp < wd ∧ qp1 < qp0 then (if pmin < p then p - 1 else p)
  else p

/-! ## JOB_START -/

/-- The checks of JOB_START (R239). -/
def State.jobChecks (s : State) (sl prog : Nat) : List (Bool × Nat) :=
  let sect := (s.sect 0x0007 sl prog).getD []
  let resident := s.desc.any fun x => x.2.slice == sl && (x.2.season == .autumn || x.2.season == .spring)
  [(!s.defined sl, eNoImage), (s.loading sl, eImgSliceBusy), ((tabGet s.srv.jobs sl).isSome, eJobActive),
   ((s.sect 0x0007 sl prog).isNone, eJobProgram), (!(tensorsOf sect).all (s.tensorMapped sl), eJobWeights),
   (resident && s.modelHash sl != some (Config.sha3 sect), eJobProgram)]

/-- A job begun (R239): written bits and promotion state cleared, P at P_min. -/
def State.jobStarted (s : State) (sl prog first : Nat) : State :=
  let s1 := (s.clearWritten sl).setSat sl {}
  let s2 := { s1 with
    mem := { s1.mem with curProg := tabPut s1.mem.curProg sl prog }
    ck := { s1.ck with lastPkc := tabPut s1.ck.lastPkc sl s.pkg.pkc, lastStep := tabPut s1.ck.lastStep sl first } }
  s2.setJob sl { program := prog, next := first, share := s.shareMin sl, nextShare := s.shareMin sl }

/-- JOB_START (R239): it waits while gesso of a slice reset is pending (R318) and while a drain that a reset interrupted is in
flight (R404). -/
def execJobStart (h : Hdr) (slice : BitVec 6) (program : BitVec 4) (firstStep : U64) (s : State) :
    Host.Outcome State Fault Refusal :=
  let at_ := cmdSlice h.fn.toNat slice.toNat
  if s.gessoWaits at_ ∨ (s.ck.flight.any fun c => c.slice == at_ && c.resumed) then .next s
  else hostCmd { widths := [6, 4, 64], entry := s.computeNodes at_ } h (fun s _ =>
    let sl := cmdSlice h.fn.toNat slice.toNat
    checked (s.jobChecks sl program.toNat) (.done (s.jobStarted sl program.toNat firstStep.toNat))) s

/-- Cores of a slice that run an instance. -/
def State.busyCores (s : State) (sl : Nat) : List Nat :=
  (s.srv.cores.filter fun c => match c.2.inst with
    | some i => i.slice == sl
    | none => false).map (·.1)

/-- A Summer session goes to Autumn (R72, R74). -/
def State.toAutumn (s : State) (i : Nat) : State :=
  let d := s.d i
  if d.season = .summer then s.setD i { d with season := .autumn } else s

/-- Every Summer session of a slice goes to Autumn (R74). -/
def State.allToAutumn (s : State) (sl : Nat) : State :=
  ((s.desc.filter fun x => x.2.slice == sl && x.2.season == .summer).map (·.1)).foldl State.toAutumn s

/-- A job that is ending ends when no step runs and every instance has ended (R240). -/
def State.jobCheckEnd (s : State) (sl : Nat) : State :=
  match tabGet s.srv.jobs sl with
  | none => s
  | some j =>
    if j.state = .ending ∧ ¬ j.inStep ∧ (s.busyCores sl).isEmpty ∧ j.partialWait.isEmpty then
      let s1 := { s with srv := { s.srv with jobs := tabDel s.srv.jobs sl } }
      s1.completeOpt j.endTag eOk []
    else s

/-! ## Stage expansion (R233, R235) -/

/-- The stages of a scope in plan order, with their index. -/
def stagesOf (plan : List Stage) (scope phase : Nat) : List Nat :=
  (plan.zipIdx.filter fun x => x.1.scope == scope && (x.1.phase == 0 || x.1.phase == phase + 1)).map (·.2)

/-- The order of a phase's stages in a step (R235): before the layers, each layer's, after the layers. -/
def phaseTodo (plan : List Stage) (layers phase : Nat) : List (Nat × Nat) :=
  (stagesOf plan 0 phase).map (fun k => (k, 0)) ++
  ((List.range layers).flatMap fun l => (stagesOf plan 1 phase).map fun k => (k, l)) ++
  (stagesOf plan 2 phase).map fun k => (k, 0)

/-- `n` items shared out to `k` parts as evenly as can be, the first parts taking one more: first and number. -/
def partRange (n k i : Nat) : Nat × Nat :=
  (i * (n / k) + min i (n % k), n / k + boolBit (decide (i < n % k)))

/-- The instances of a stage for one phase (R233, R235). -/
def State.expand (s : State) (sl : Nat) (j : Job) (st : Stage) (index layer phase : Nat) : List Inst :=
  let sect := (s.curSect sl).getD []
  let p := progOf sect
  let sess := j.phaseSessions phase
  let cls := if (kernelOf (s.klib sl) st.kernel).be then InstClass.be else .lc
  let base : Inst := { slice := sl, kernel := st.kernel, cls := cls, phase := phase, layer := layer, stage := index }
  let limit (n : Nat) : Nat := if st.maxParts = 0 then n else min n st.maxParts
  if sess.isEmpty then []
  else match st.split with
    | 0 => [{ base with sessions := sess }]
    | 1 =>
      let rows := ((tensorsOf sect).find? fun t => t.role == st.role && (st.scope != 1 || t.layer == layer)).map (·.rows)
      let groups := divUp (rows.getD 0) 64
      let k := limit groups
      (List.range k).map fun i =>
        let r := partRange groups k i
        { base with part := i, parts := k, rows := (64 * r.1, 64 * r.2), sessions := sess }
    | 2 =>
      let k := limit sess.length
      (List.range k).map fun i =>
        let r := partRange sess.length k i
        { base with part := i, parts := k, sessions := (sess.drop r.1).take r.2 }
    | _ =>
      let all := sess.flatMap fun n => (List.range p.kvHeads).map fun h => (n, h)
      let k := limit all.length
      (List.range k).map fun i =>
        let r := partRange all.length k i
        { base with
          part := i, parts := k, head := ((all.drop r.1).head?.map (·.2)).getD 0
          sessions := (((all.drop r.1).take r.2).map (·.1)).eraseDups }

/-- The step plan of a slice's job. -/
def State.plan (s : State) (sl : Nat) (j : Job) : List Stage := planOf (s.klib sl) j.program

/-- Free cores of a slice on which a kernel may run (R236). -/
def State.freeCores (s : State) (sl kernel : Nat) : List Nat :=
  match s.sliceEnt sl with
  | none => []
  | some e =>
    let need := (kernelOf (s.klib sl) kernel).engines
    e.cores.filter fun c => (s.core c).inst.isNone && flagsSet (s.engines sl c) need

/-- A phase of a job. -/
def Job.phase (j : Job) (k : Nat) : Phase := if k = 0 then j.decode else j.prefill

/-- A phase of a job written. -/
def Job.setPhase (j : Job) (k : Nat) (p : Phase) : Job := if k = 0 then { j with decode := p } else { j with prefill := p }

/-- The lead of a slice (R235): the lowest compute die that holds one of its clusters. -/
def State.leadDie (s : State) (sl : Nat) : Nat :=
  (((s.sliceEnt sl).getD {}).cores.head?.map (· / 64)).getD 0

/-- How many of some new instances of one kernel wait for a core (R242, R243, R248): those for which no core is free beside the
ones that instances placed before them take. -/
def State.waitsFor (s : State) (sl : Nat) (j : Job) (is : List Inst) : Nat :=
  match is with
  | [] => 0
  | i :: _ =>
    let ahead := match i.cls with
      | .partial_ => j.partialWait.length
      | .lc => j.partialWait.length + j.lcWait.length
      | .be => j.partialWait.length + j.lcWait.length + j.beWait.length
    is.length - ((s.freeCores sl i.kernel).length - ahead)

/-- Instances that wait for a core counted, at the lead's die (R242, R243). -/
def State.countWaits (s : State) (sl n : Nat) : State := (s.bump .placeWaits sl n).evc sl 0x4B (s.leadDie sl) n

/-- The next stage of a phase that gives instances is dispatched (R235), once every instance of the previous stage has
ended; instances beyond the free cores wait and are counted (R242, R243, R248). `n` bounds the stages tried. -/
def State.dispatch (s : State) (sl phase : Nat) : Nat → State
  | 0 => s
  | n + 1 =>
    match tabGet s.srv.jobs sl with
    | none => s
    | some j =>
      let ph := j.phase phase
      match ph.todo with
      | [] => s
      | (k, l) :: rest =>
        if ph.live ≠ 0 then s
        else match (s.plan sl j)[k]? with
          | none => (s.setJob sl (j.setPhase phase { ph with todo := rest })).dispatch sl phase n
          | some st =>
            let is := s.expand sl j st k l phase
            if is.isEmpty then (s.setJob sl (j.setPhase phase { ph with todo := rest })).dispatch sl phase n
            else
              let waits := s.waitsFor sl j is
              let j1 := j.setPhase phase { todo := rest, live := is.length }
              let lc := is.filter fun i => i.cls != .be
              let j2 := { j1 with
                lcWait := j1.lcWait ++ lc, beWait := j1.beWait ++ is.filter fun i => i.cls == .be
                wp := if phase = 1 then j1.wp + waits else j1.wp
                wd := if phase = 0 then j1.wd + waits else j1.wd }
              (s.setJob sl j2).countWaits sl waits

/-- How many stages a phase can still have. -/
def Job.fuel (j : Job) (phase : Nat) : Nat := (j.phase phase).todo.length + 1

/-! ## JOB_END (R240) -/

/-- BE instances that have yielded are not resumed: they have ended (R240). -/
def State.dropYielded (s : State) (sl : Nat) (j : Job) : State :=
  let gone := j.beWait.filter fun i => !i.loops.isEmpty
  let less (ph : Phase) (k : Nat) : Phase := { ph with live := ph.live - (gone.filter (·.phase == k)).length }
  let j1 := { j with beWait := j.beWait.filter (·.loops.isEmpty), decode := less j.decode 0, prefill := less j.prefill 1 }
  ((s.setJob sl j1).dispatch sl 0 (j1.fuel 0)).dispatch sl 1 (j1.fuel 1)

/-- The instance begins the work of a QUERY, rather than going on with it (R168). -/
def State.firstPartial (s : State) (sl : Nat) (j : Job) (i : Inst) : Bool :=
  ((s.plan sl j).zipIdx.find? fun x => x.1.scope == 3).any fun x => x.2 == i.stage

/-- JOB_END accepted (R240): no new step starts; of the ring partials only those already placed run on, stage by stage; BE
instances are not resumed. -/
def State.jobEnding (s : State) (sl : Nat) (j : Job) (t : Tag) : State :=
  let j1 := { j with
    state := .ending, endTag := some t, partialWait := j.partialWait.filter fun i => !s.firstPartial sl j i }
  let s1 := if j.inStep then s.dropYielded sl j1 else (s.setJob sl { j1 with beWait := [] }).allToAutumn sl
  s1.jobCheckEnd sl

/-- JOB_END (R240). -/
def execJobEnd (h : Hdr) (slice : BitVec 6) (s : State) : Host.Outcome State Fault Refusal :=
  hostCmd { widths := [6], entry := s.computeNodes (cmdSlice h.fn.toNat slice.toNat) } h (fun s t =>
    let sl := cmdSlice h.fn.toNat slice.toNat
    if ¬ s.defined sl then .reject eNoImage
    else match tabGet s.srv.jobs sl with
      | none => .reject eNoJob
      | some j => if j.state = .ending then .reject eJobActive else .later (s.jobEnding sl j t)) s

/-! ## Placement (R236, R237) -/

/-- The free core of lowest dispatch rank for an instance: of its phase's cluster set, else of the other (R236). -/
def State.coreFor (s : State) (j : Job) (i : Inst) : Option Nat :=
  let free := (s.freeCores i.slice i.kernel).mergeSort fun a b => dispatchRank a ≤ dispatchRank b
  let pre := s.prefillRanks i.slice j.share
  let own := free.filter fun c => pre.contains (clusterRank c) == (i.phase == 1)
  match own.head? with
  | some c => some c
  | none => free.head?

/-- The first instance of a list that some core can run, with the core and the rest of the list. -/
def State.firstPlace (s : State) (j : Job) : List Inst → Option (Inst × Nat × List Inst)
  | [] => none
  | i :: l =>
    match s.coreFor j i with
    | some c => some (i, c, l)
    | none => (s.firstPlace j l).map fun x => (x.1, x.2.1, i :: x.2.2)

/-- The instance that is placed next, by the order of R237; none while the compute dies have no clocks (R497), and no BE
instance while power capping withholds them (R515). -/
def State.nextPlace (s : State) (j : Job) : Option (Inst × Nat × Job) :=
  if s.clocksOff then none
  else match s.firstPlace j j.partialWait with
  | some x => some (x.1, x.2.1, { j with partialWait := x.2.2 })
  | none => match s.firstPlace j j.lcWait with
    | some x => some (x.1, x.2.1, { j with lcWait := x.2.2 })
    | none =>
      if j.lcWaits || s.pkg.beWithheld then none
      else (s.firstPlace j j.beWait).map fun x => (x.1, x.2.1, { j with beWait := x.2.2 })

/-- Rows and columns of the tensor of an instance's stage (R233). -/
def State.stageTensor (s : State) (i : Inst) : Option Tensor :=
  match tabGet s.srv.jobs i.slice with
  | none => none
  | some j => ((s.plan i.slice j)[i.stage]?).bind fun st =>
      (tensorsOf ((s.curSect i.slice).getD [])).find? fun t => t.role == st.role && (st.scope != 1 || t.layer == i.layer)

/-- The loop registers at an instance's start (R227): part number, part count, row range, column range, session list
address, three kernel constants. How a range and the list's address lie in 32 bits the spec does not state: free values of the
range and of the list. -/
def State.loopsOf (s : State) (i : Inst) : List Nat :=
  let t := s.stageTensor i
  let rows := if i.rows.2 = 0 then (0, (t.map (·.rows)).getD 0) else i.rows
  [i.part, i.parts, (Config.rangeWord rows.1 rows.2).toNat, (Config.rangeWord 0 ((t.map (·.cols)).getD 0)).toNat,
   (Config.listWord i.slice i.sessions).toNat] ++ (kernelOf (s.klib i.slice) i.kernel).consts

/-- An instance placed on a core: a resumed one keeps its context (R237). -/
def State.placed (s : State) (sl : Nat) (i : Inst) (c : Nat) (j : Job) : State :=
  let s1 := s.setJob sl j
  let x := match i.query with
    | some q => (s1.core c).write 0 q.body
    | none => s1.core c
  s1.setCore c { x with inst := some (if i.loops.isEmpty then { i with loops := s.loopsOf i } else i), queues := [] }

/-- INSTANCE_PLACE (R236, R237): the next waiting instance of a slice on the lowest-ranked free core that can run it. -/
def execInstancePlace (slice : BitVec 6) (s : State) : Host.Outcome State Fault Refusal :=
  let sl := slice.toNat
  match tabGet s.srv.jobs sl with
  | none => .next s
  | some j => match s.nextPlace j with
    | none => .next s
    | some (i, c, j') => .next (s.placed sl i c j')

/-! ## Ends of instances (R226, R235, R170) -/

/-- A member's partial is ready: RESULT goes to the tail directly (R170 step 5, R171). -/
def State.sendResult (s : State) (q : MemberQuery) (body : Bytes) : State :=
  let d := s.d q.index
  let dev := s.devNo.getD 0xFFFF
  let b := partialHead 2 q.layer q.epoch d.sessionId.toNat q.step q.tailDev dev q.rows q.heads q.pos0 s.comp.epoch q.part ++
    body
  if q.tailDev = dev then s.resultIn b else s.sendOne d.slice q.tailDev 4 2 0 [0, q.epoch] b

/-- The stage of scope 3 after one in the plan, if there is one. -/
def nextPartial (plan : List Stage) (k : Nat) : Option Nat :=
  (plan.zipIdx.find? fun x => x.1.scope == 3 && k < x.2).map (·.2)

/-- A ring partial instance put among those that wait for a core (R237). -/
def State.queuePartial (s : State) (i : Inst) : State :=
  match tabGet s.srv.jobs i.slice with
  | none => s
  | some j =>
    (s.setJob i.slice { j with partialWait := j.partialWait ++ [i] }).countWaits i.slice (s.waitsFor i.slice j [i])

/-- The partials of one query row and head that a ring partial's stages have computed (R168: over the stretch and, at RING_POS 0,
the palette entry). -/
def partialsAt (d : Nat) (l : List (AttnOut × Bytes)) (pos head : Nat) : List Partial :=
  (l.filter fun x => x.1.pos0 ≤ pos && pos < x.1.pos0 + x.1.rows && x.1.head0 ≤ head && head < x.1.head0 + x.1.heads).map
    fun x => partialOf d (sub x.2 (((pos - x.1.pos0) * x.1.heads + (head - x.1.head0)) * (8 + 4 * d)) (8 + 4 * d))

/-- The body of a RESULT (R171): by row and head, one partial; several are merged as R167 merges them. -/
def resultBody (d : Nat) (q : MemberQuery) (l : List (AttnOut × Bytes)) : Bytes :=
  let head0 := (l.map (·.1.head0)).foldl min ((l.map (·.1.head0)).headD 0)
  (List.range q.rows).flatMap fun r => (List.range q.heads).flatMap fun h =>
    match partialsAt d l (q.pos0 + r) (head0 + h) with
    | [] => ({ o := List.replicate d 0 } : Partial).bytes
    | [p] => p.bytes
    | ps => (mergePartials d ps).bytes

/-- A ring partial instance has ended: the next SCOPE 3 stage, or the RESULT. -/
def State.partialGone (s : State) (i : Inst) (x : Core) : State :=
  match i.query, tabGet s.srv.jobs i.slice with
  | some q, some j =>
    let plan := s.plan i.slice j
    let l := i.gathered ++ i.outs.map fun o => (o, x.read o.at_ o.bytes)
    match nextPartial plan i.stage with
    | some k =>
      let st := plan.getD k (stageOf [] 0)
      s.queuePartial { i with kernel := st.kernel, stage := k, pos := 0, flags := 0, loops := [], ending := false
                              outs := [], gathered := l }
    | none =>
      if i.faulted then s else s.sendResult q (resultBody (((s.curProg i.slice).map (·.headDim)).getD 0) q l)
  | _, _ => s

/-- The end of the instance on a core (R226): the core is free; the next stage of its phase follows when it was the
last (R235). -/
def State.instGone (s : State) (c : Nat) : State :=
  let x := s.core c
  match x.inst with
  | none => s
  | some i =>
    let s1 := s.setCore c { x with inst := none, queues := [] }
    let s2 :=
      if i.cls = .partial_ then s1.partialGone i x
      else match tabGet s1.srv.jobs i.slice with
        | none => s1
        | some j =>
          let ph := j.phase i.phase
          (s1.setJob i.slice (j.setPhase i.phase { ph with live := ph.live - 1 })).dispatch i.slice i.phase
            (j.fuel i.phase)
    s2.jobCheckEnd i.slice

/-- INSTANCE_END (R226): the END record has issued, or the kernel has faulted, and every queued command has
completed. -/
def execInstanceEnd (core : BitVec 9) (s : State) : Host.Outcome State Fault Refusal :=
  let x := s.core core.toNat
  match x.inst with
  | none => .next s
  | some i => if (i.ending ∨ i.faulted) ∧ x.drained then .next (s.instGone core.toNat) else .next s

end Sys2Proof.Machine
end

