-- ==== Sys2Proof/Machine/Keys.lean ====
section
/-! DEFINITION. The key hierarchy (R413, R414): what is derived from the fuses. -/

namespace Sys2Proof.Machine

/-- The bytes of an ASCII string. -/
def ascii (s : String) : Bytes := s.toList.map fun c => BitVec.ofNat 8 c.toNat

/-- DIE_SEED of a die (R414); RT is die index 19. -/
def dieSeed (d : Nat) : Bytes := Config.fuse d 0 32

/-- A key derived from a seed with the customisation string "QW5200 key" (R413). -/
def deriveKey (seed : Bytes) (label : Bytes) (bits : Nat) : Bytes := Config.kmac seed label bits (ascii "QW5200 key")

/-- The die identity key's seed and public key. -/
def dieIdSeed (d : Nat) : Bytes := deriveKey (dieSeed d) (ascii "ID") 256
def dieIdPublic (d : Nat) : Bytes := Config.mldsaPublic (dieIdSeed d)

/-- The link KEM key's seed of a link die. -/
def linkKemSeed (d : Nat) : Bytes := deriveKey (dieSeed d) (ascii "LKEM") 512

/-- The device attestation key's seed and public key (R413). -/
def attestSeed : Bytes := deriveKey (dieSeed 19) (ascii "ATTEST") 256
def attestPublic : Bytes := Config.mldsaPublic attestSeed

/-- DEVICE_ID: SHA3-256 of the device attestation public key (R413). -/
def deviceId : U256 := Config.sha3 attestPublic

/-- The device KEM key's seed and public key. -/
def deviceKemSeed : Bytes := deriveKey (dieSeed 19) (ascii "DKEM") 512
def deviceKemPublic : Bytes := Config.kemPublic deviceKemSeed

/-- ZCOUNT as its two fuse bytes: one bit blown per ZEROIZE, from bit 0 up (R414). -/
def State.zcountBytes (s : State) : Bytes := bytesOf 2 (2 ^ s.sec.zcount - 1)

/-- The device sealing key (R413). -/
def State.dsk (s : State) : Bytes := deriveKey (dieSeed 19) (ascii "DSEAL" ++ s.zcountBytes) 256

/-- The key of a sealed canvas (R424): seal mode 1 under the DSK, 2 under the CSK; none where it is not held. -/
def State.canvasKey (s : State) (mode : Nat) (nonce : Bytes) (sid compId : U64) : Option Bytes :=
  let k := if mode = 1 then some s.dsk else if mode = 2 then s.sec.csk.map hashBytes else none
  k.map fun k => Config.kmac k (nonce ++ bytesOf 8 sid.toNat ++ bytesOf 8 compId.toNat) 256 (ascii "QW5200 canvas")

end Sys2Proof.Machine
end

