-- ==== Sys2Proof/Machine/Qos.lean ====
section
/-! DEFINITION. Regulators, overrides of the service tables, and ingress meters (R274..R288). -/

namespace Sys2Proof.Machine

/-! ## Token buckets (R275, R282) -/

/-- A bucket's content now: it gains `rate` milli-bytes per count, up to `cap`. -/
def Bucket.fill (b : Bucket) (rate cap pkc : Nat) : Bucket :=
  ⟨min (cap : Int) (b.level + (rate * (pkc - b.at_.toNat) : Nat)), BitVec.ofNat 64 pkc⟩

/-- A full bucket. -/
def fullBucket (cap pkc : Nat) : Bucket := ⟨cap, BitVec.ofNat 64 pkc⟩

/-! ## Regulators (R274..R277) -/

/-- Key of a regulator of a slice: 0..7 HBM n, 8 LINK, 9 CANVAS. -/
def regulKey (sl r : Nat) : Nat := 16 * sl + r

/-- Committed RATE, and CFG as its register word. -/
def State.regulCfg (s : State) (sl r : Nat) : Nat × Nat := tabGetD s.net.regCfg (0, 0) (regulKey sl r)

/-- Bucket size of a CFG word in milli-bytes. -/
def burstCap (cfg : Nat) : Nat := 1024000 * bitsOf cfg 16 16

/-- A regulator's bucket now; a bucket never used is full. -/
def State.regulBucket (s : State) (sl r : Nat) : Bucket :=
  let c := s.regulCfg sl r
  match tabGet s.net.buckets (regulKey sl r) with
  | some b => b.fill c.1 (burstCap c.2) s.pkc
  | none => fullBucket (burstCap c.2) s.pkc

/-- A bucket admits a transfer of `n` bytes (R275): it holds them, or it is full and the transfer exceeds its size. -/
def Bucket.admits (b : Bucket) (cap n : Nat) : Bool :=
  decide (((1000 * n : Nat) : Int) ≤ b.level) || (decide (cap < 1000 * n) && decide (b.level = (cap : Int)))

/-- An LC transfer waits at a regulator, or no more. -/
def State.lcWaiting (s : State) (k : Nat) (on : Bool) : State :=
  { s with net := { s.net with
    lcWaits := if on then setInsert s.net.lcWaits k else s.net.lcWaits.filter (· != k) } }

/-- A regulator's answer to one transfer (R275): whether it goes on by its tokens, which are then taken; an LC one that does
not waits ahead of every BE one. -/
def State.regAdmit (s : State) (sl r n : Nat) (lc : Bool) : Bool × State :=
  let k := regulKey sl r
  let c := s.regulCfg sl r
  if ¬ bitAt c.2 0 then (true, s)
  else
    let b := s.regulBucket sl r
    if b.admits (burstCap c.2) n ∧ (lc ∨ ¬ s.net.lcWaits.contains k) then
      let s1 := { s with net := { s.net with
        buckets := tabPut s.net.buckets k { b with level := b.level - ((1000 * n : Nat) : Int) } } }
      (true, if lc then s1.lcWaiting k false else s1)
    else (false, if lc then s.lcWaiting k true else s)

/-- A BE transfer may borrow at a regulator (R276). -/
def State.borrows (s : State) (sl r : Nat) : Bool :=
  let c := (s.regulCfg sl r).2
  bitAt c 0 && bitAt c 1

/-- The decision on one transfer (R275, R276): admitted with its tokens taken, borrowed, or it waits. -/
def State.admitted (s : State) (sl r n : Nat) (lc idle : Bool) : State :=
  let x := s.regAdmit sl r n lc
  if !x.1 && !lc && idle && s.borrows sl r then x.2.bump .regBorrows sl 1 else x.2

/-- REGULATOR_ADMIT (R275, R276). -/
def execRegulatorAdmit (slice : BitVec 6) (reg : BitVec 4) (bytes : U32) (lc idle : U1) (s : State) :
    Host.Outcome State Fault Refusal :=
  if 10 ≤ reg.toNat ∨ ¬ s.defined slice.toNat then .next s
  else .next (s.admitted slice.toNat reg.toNat bytes.toNat (lc == 1) (idle == 1))

/-- RATE and CFG of a regulator take effect (R277): enabling fills the bucket, a change keeps its content up to the new
size. -/
def State.commitRegul (s : State) (sl r rate cfg : Nat) : State :=
  let k := regulKey sl r
  let was := bitAt (s.regulCfg sl r).2 0
  let b := s.regulBucket sl r
  let cap := burstCap cfg
  let b' := if was then { b with level := min b.level (cap : Int) } else fullBucket cap s.pkc
  { s with net := { s.net with
    regCfg := tabPut s.net.regCfg k (rate, cfg)
    buckets := if bitAt cfg 0 then tabPut s.net.buckets k b' else tabDel s.net.buckets k } }

/-! ## The service tables (R285, R286) -/

/-- A slice's Service tables section. -/
def State.svcTables (s : State) (sl : Nat) : Bytes := (s.sect 0x0005 sl 0).getD []

/-- RATE, RATE_MAX, BURST, BURST_MAX, RFLAGS of the image's entry of a regulator. -/
def State.regulImage (s : State) (sl r : Nat) : Nat × Nat × Nat × Nat × Nat :=
  let b := s.svcTables sl
  let o := 16 * r
  (le b o 4, le b (o + 4) 4, le b (o + 8) 2, le b (o + 10) 2, le b (o + 12) 2)

/-- The registers of a regulator: RATE and CFG, each with its number in its row. -/
def regulRegs (r : Nat) : (Reg × Nat) × (Reg × Nat) :=
  if r < 8 then ((.regHbmRate, r), (.regHbmCfg, r))
  else if r = 8 then ((.regLinkRate, 0), (.regLinkCfg, 0)) else ((.regCeRate, 0), (.regCeCfg, 0))

/-- The offset of a meter's entry of the image, when the image has one. -/
def State.meterImage (s : State) (sl i : Nat) : Option Nat :=
  if i < le (s.svcTables sl) 0xC0 2 then some (0xD0 + 32 * i) else none

/-- CIR_MAX and PIR_MAX of a meter; 0: no limit. -/
def State.meterMax (s : State) (sl i : Nat) : Nat × Nat :=
  match s.meterImage sl i with
  | some o => (le (s.svcTables sl) (o + 0x10) 4, le (s.svcTables sl) (o + 0x14) 4)
  | none => (0, 0)

/-- Committed SEL, CIR, PIR, BURST of a meter entry; not enabled where none. -/
def State.meterCfg (s : State) (sl i : Nat) : Nat × Nat × Nat × Nat :=
  tabGetD s.net.meterCfg (0xFFFF, 0, 0, 0) (64 * sl + i)

/-- A value lies above an image limit. -/
def aboveMax (v mx : Nat) : Bool := mx != 0 && decide (mx < v)

/-- The first failing check of R286 for a RATE write, a CFG write of a regulator, an EGR_WEIGHT or EGR_QMAP write. -/
def State.regulCheck (s : State) (sl r rate cfg : Nat) : Option Nat :=
  let im := s.regulImage sl r
  let on := bitAt cfg 0
  let was := bitAt (s.reg (regulRegs r).2.1 sl (regulRegs r).2.2) 0
  firstFail
    [(on && (rate == 0 || bitsOf cfg 16 16 == 0), eQosParam),
     (aboveMax rate im.2.1 || aboveMax (bitsOf cfg 16 16) im.2.2.2.1, eImgPolicy),
     (was && !on && im.2.1 != 0, eImgPolicy)]

/-- Overrides of weights and queue map are refused (EFLAGS). -/
def State.weightLock (s : State) (sl : Nat) : Bool := bitAt (byteAt (s.svcTables sl) 0xB0) 0

/-- Another enabled entry of the slice has the same SRC_DEV and MCLASS. -/
def State.meterTwin (s : State) (sl i sel : Nat) : Bool :=
  (List.range 64).any fun j => j != i &&
    let c := (s.meterCfg sl j).1
    bitAt c 24 && bitsOf c 0 17 == bitsOf sel 0 17

/-- The first failing check of R286 for the commit of meter entry `i`. -/
def State.meterCheck (s : State) (sl i sel : Nat) : Option Nat :=
  let cir := s.reg .mtrCir sl i
  let pir := s.reg .mtrPir sl i
  let b := s.reg .mtrBurst sl i
  let on := bitAt sel 24
  let mx := s.meterMax sl i
  firstFail
    [(on && (cir == 0 || decide (pir < cir) || bitsOf b 0 16 == 0 || bitsOf b 16 16 == 0 || s.meterTwin sl i sel),
       eQosParam),
     (aboveMax cir mx.1 || aboveMax pir mx.2, eImgPolicy),
     (s.fld .mtrSel sl i 24 1 == 1 && !on && mx.1 != 0, eImgPolicy)]

/-- A rejected override: its code is kept (R286). -/
def State.qosReject (s : State) (sl code : Nat) : State := s.setReg .qosErr sl 0 code

/-- A meter entry takes effect on every port of the slice, its buckets full (R288). -/
def State.commitMeter (s : State) (sl i sel cir pir burst : Nat) : State :=
  let mask := ((s.sliceEnt sl).map (·.ports)).getD 0
  { s with net := { s.net with
    meterCfg := tabPut s.net.meterCfg (64 * sl + i) (sel, cir, pir, burst)
    ports := s.net.ports.map fun (p : Nat × Port) =>
      if bitAt mask p.1 then (p.1, { p.2 with meters := tabDel p.2.meters i }) else p } }

/-- The regulator whose RATE or CFG register a register is. -/
def regulOf (r : Reg) (i : Nat) : Option Nat :=
  match r with
  | .regHbmRate | .regHbmCfg => some i
  | .regLinkRate | .regLinkCfg => some 8
  | .regCeRate | .regCeCfg => some 9
  | _ => none

/-- A write of RATE of a regulator: only its limit can fail it before the commit. -/
def State.rateWrite (s : State) (r : Reg) (sl i k v : Nat) : State :=
  if aboveMax v (s.regulImage sl k).2.1 then s.qosReject sl eImgPolicy else s.setReg r sl i v

/-- A write of CFG of a regulator commits its RATE and CFG (R277, R286). -/
def State.cfgWrite (s : State) (sl k v : Nat) : State :=
  let g := regulRegs k
  let rate := s.reg g.1.1 sl g.1.2
  match s.regulCheck sl k rate v with
  | some c => s.qosReject sl c
  | none => (s.setReg g.2.1 sl g.2.2 v).commitRegul sl k rate v

/-- A write of MTR_SELi commits the entry (R286, R288). -/
def State.selWrite (s : State) (sl i v : Nat) : State :=
  match s.meterCheck sl i v with
  | some c => s.qosReject sl c
  | none => (s.setReg .mtrSel sl i v).commitMeter sl i v (s.reg .mtrCir sl i) (s.reg .mtrPir sl i) (s.reg .mtrBurst sl i)

/-- A write of a register of RT.QOS, its reserved bits already cleared (R286, R288); none for a register that has no
rule of its own. -/
def State.qosWrite (s : State) (r : Reg) (sl i v : Nat) : Option State :=
  match r with
  | .regHbmRate | .regLinkRate | .regCeRate => (regulOf r i).map fun k => s.rateWrite r sl i k v
  | .regHbmCfg | .regLinkCfg | .regCeCfg => (regulOf r i).map fun k => s.cfgWrite sl k v
  | .mtrSel => some (s.selWrite sl i v)
  | .mtrCir => some (if aboveMax v (s.meterMax sl i).1 then s.qosReject sl eImgPolicy else s.setReg r sl i v)
  | .mtrPir => some (if aboveMax v (s.meterMax sl i).2 then s.qosReject sl eImgPolicy else s.setReg r sl i v)
  | .egrWeight0 | .egrWeight1 => some (
      if (List.range 4).any fun j => bitsOf v (8 * j) 8 == 0 then s.qosReject sl eQosParam
      else if s.weightLock sl then s.qosReject sl eImgPolicy else s.setReg r sl i v)
  | .egrQmap => some (if s.weightLock sl then s.qosReject sl eImgPolicy else s.setReg r sl i v)
  | .qosHoldoff => some (if v = 0 then s else s.setReg r sl i v)
  | _ => none

/-- RT.QOS of a slice as the running image gives it, or the defaults (R55, R287): registers, committed values, full
buckets. -/
def State.qosImage (s : State) (sl : Nat) : State :=
  let b := s.svcTables sl
  let has := !b.isEmpty
  let s1 := (List.range 10).foldl (fun (t : State) r =>
    let im := t.regulImage sl r
    let g := regulRegs r
    let cfg := if has then 65536 * im.2.2.1 + im.2.2.2.2 % 4 else 0
    let rate := if has then im.1 % 2 ^ 24 else 0
    let u := (t.setReg g.1.1 sl g.1.2 rate).setReg g.2.1 sl g.2.2 cfg
    { u with net := { u.net with
      regCfg := tabPut u.net.regCfg (regulKey sl r) (rate, cfg)
      buckets := tabDel u.net.buckets (regulKey sl r) } }) s
  let s2 := (List.range 64).foldl (fun (t : State) i =>
    match t.meterImage sl i with
    | some o =>
      let sel := le b o 2 + 65536 * (byteAt b (o + 2) % 2) + 2 ^ 24 * (byteAt b (o + 3) % 4)
      let bur := le b (o + 12) 2 + 65536 * le b (o + 14) 2
      ((((t.setReg .mtrSel sl i sel).setReg .mtrCir sl i (le b (o + 4) 4)).setReg .mtrPir sl i (le b (o + 8) 4)).setReg
        .mtrBurst sl i bur).commitMeter sl i sel (le b (o + 4) 4) (le b (o + 8) 4) bur
    | none => ((((t.setReg .mtrSel sl i 0xFFFF).setReg .mtrCir sl i 0).setReg .mtrPir sl i 0).setReg
        .mtrBurst sl i 0).commitMeter sl i 0xFFFF 0 0 0) s1
  let qmap := if has then (List.range 6).foldl (fun n k => n + byteAt b (0xA0 + k) % 8 * 2 ^ (3 * k)) 0 else 0x2C688
  ((s2.setReg .egrQmap sl 0 qmap).setReg .egrWeight0 sl 0 (if has then le b 0xA8 4 else 0x01010101)).setReg .egrWeight1 sl 0
    (if has then le b 0xAC 4 else 0x01010101)

/-! ## Ingress meters (R281..R283) -/

/-- The entry that meters a request of a source and class (0 LC, 1 BE): its own, else the one for any source. -/
def State.meterFor (s : State) (sl src cls : Nat) : Option Nat :=
  let hit (d : Nat) : Option Nat := (List.range 64).find? fun i =>
    let c := (s.meterCfg sl i).1
    bitAt c 24 && bitsOf c 0 16 == d && bitsOf c 16 1 == cls
  match hit src with
  | some i => some i
  | none => hit 0xFFFF

/-- The colour a meter gives a transaction of `n` bytes, with its buckets after it (R282): 0 green, 1 yellow, 2 red. -/
def colourOf (aware : Bool) (colour n : Nat) (tc tp : Bucket) : Nat × Bucket × Bucket :=
  let m : Int := ((1000 * n : Nat) : Int)
  if (aware ∧ colour = 2) ∨ tp.level < m then (2, tc, tp)
  else if (aware ∧ colour = 1) ∨ tc.level < m then (1, tc, { tp with level := tp.level - m })
  else (0, { tc with level := tc.level - m }, { tp with level := tp.level - m })

/-- What the meters of a port make of a request of `flits` flits on a lane: the state, its colour, and whether it goes on
(R281..R283). -/
def State.metered (s : State) (p vl src flits : Nat) (lc : Bool) (colour : Nat) : State × Nat × Bool :=
  match s.portSlice p with
  | none => (s, colour, true)
  | some sl => match s.meterFor sl src (if lc then 0 else 1) with
    | none => (s, colour, true)
    | some i =>
      let c := s.meterCfg sl i
      let cbs := 256000 * bitsOf c.2.2.2 0 16
      let pbs := 256000 * bitsOf c.2.2.2 16 16
      let x := s.port p
      let b := tabGetD x.meters (fullBucket cbs s.pkc, fullBucket pbs s.pkc) i
      let r := colourOf (bitAt c.1 25) colour (flits * 256) (b.1.fill c.2.1 cbs s.pkc) (b.2.fill c.2.2.1 pbs s.pkc)
      let s1 := s.setPort p { x with meters := tabPut x.meters i (r.2.1, r.2.2) }
      if r.1 = 0 then (s1, 0, true)
      else if r.1 = 1 then
        if lc ∨ 4 * tabGetD x.ingress 0 vl ≤ 3 * laneBuffer vl then (s1, 1, true)
        else (s1.bump .mtrYellowDrop sl 1, 1, false)
      else if lc then (s1.bump .mtrRedLc sl 1, 2, true) else (s1.bump .mtrRedDrop sl 1, 2, false)

end Sys2Proof.Machine
end

