-- ==== Sys2Proof/Machine/Canvas.lean ====
section
/-! DEFINITION. Canvas format 1 (R99..R106, R424) as bytes and as contents; where canvases lie (R296, R297, R382); the
cut of a park, its work items and its end (R97, R107..R111, R118); the checks of a thaw and its rebuilding
(R112..R117). -/

namespace Sys2Proof.Machine

/-! ## Lengths -/

/-- 4 KiB units of a byte count. -/
def units4k (n : Nat) : Nat := divUp n 4096

/-- Units of a canvas whose page records have the given lengths (R99): header, DESCRIPTOR, SAMPLER, PALETTE_REF where
there is one, PAGE_MAP, KV, SCRATCH, CURSORS, trailer. -/
def canvasUnits (records : List Nat) (pal : Bool) (scratch cursors : Nat) : Nat :=
  1 + 1 + 1 + boolBit pal + units4k (64 * records.length) + units4k (records.foldl (· + ·) 0) +
  units4k scratch + units4k (64 * cursors) + 1

/-- Committed tokens a page of a session holds. -/
def tokensIn (d : Desc) (first log2 : Nat) : Nat := min (16 * 2 ^ log2) (d.committedLen - d.stretchOffset - first)

/-- The pages of a session in canvas order: by layer, then by first token (R102). -/
def SessKv.ordered (k : SessKv) (layers : Nat) : List KvPage :=
  (List.range layers).flatMap fun l => (k.pages.filter (·.layer == l)).mergeSort fun a b => a.first ≤ b.first

/-- The raw length of a session's canvas in 4 KiB units (R107), known before the first byte is written. -/
def State.rawUnits (s : State) (i : Nat) (deep : Bool) : Nat :=
  let d := s.d i
  match s.curProg d.slice with
  | none => 0
  | some p =>
    canvasUnits (((s.kvOf i).ordered p.layers).map fun g => recordLen p deep (tokensIn d g.first g.log2))
      (d.palette < 4096) d.scratchLen d.cursors

/-! ## Bytes (R99..R105, R424) -/

/-- The 64 bytes of a cursor slot of a canvas (R342): as the window holds it. -/
def Cursor.record (c : Cursor) : Bytes := padTo 64 c.bytes

/-- A sampler record read (R102, R267). -/
def samplerOf (b : Bytes) : Sampler :=
  { counter := le b 0 8, emitted := le b 8 4, counterP := le b 0x10 8, emittedP := le b 0x18 4
    carry := le b 0x20 4, inputDone := le b 0x24 4, cancel := bitAt (byteAt b 0x29) 0
    heldDue := bitAt (byteAt b 0x29) 1
    drafts := (List.range (min 8 (byteAt b 0x28))).map fun j => le b (0x30 + 4 * j) 4 }

/-- Bytes 0x00..0x1F of a page map record (R103) of a page whose record lies at `off` in the KV section. -/
def CanvasPage.head (p : CanvasPage) (off : Nat) : Bytes :=
  bytesOf 2 p.layer ++ bytesOf 1 p.log2 ++ bytesOf 1 (boolBit p.compressed + 2 * boolBit p.shared) ++ bytesOf 4 p.first ++
  bytesOf 4 p.tokens ++ bytesOf 4 p.data.length ++ bytesOf 8 off ++ zeros 8

/-- Offsets of records that follow one another. -/
def offsetsFrom (o : Nat) : List CanvasPage → List (CanvasPage × Nat)
  | [] => []
  | p :: ps => (p, o) :: offsetsFrom (o + p.data.length) ps

/-- Each page record as it is stored, sealed under `key` where one is given (R424), with its tag. -/
def Canvas.records (c : Canvas) (key : Option Bytes) : List (Bytes × Bytes) :=
  (offsetsFrom 0 c.pages).zipIdx.map fun x => match key with
    | none => (x.1.1.data, zeros 16)
    | some k => Config.gcmSeal k (bytesOf 2 5 ++ bytesOf 4 x.2 ++ zeros 6) (x.1.1.head x.1.2) x.1.1.data

/-- The page map (R103): PAGE_HASH is over the stored bytes. -/
def Canvas.pageMap (c : Canvas) (key : Option Bytes) : Bytes :=
  ((offsetsFrom 0 c.pages).zip (c.records key)).flatMap fun x => x.1.1.head x.1.2 ++ hashBytes (Config.sha3 x.2.1)

/-- Sections before they are laid out: TYPE, COUNT, bytes; those of KV are stored already. -/
def Canvas.rawSections (c : Canvas) (key : Option Bytes) : List (Nat × Nat × Bytes) :=
  let d := { c.desc with
    season := .autumn, windowBase := 0, ptRoot := 0, reservePage := 0, canvasAddr := 0, canvasLen := 0
    canvasTier := 0, op := .none, heldSteps := 0, heldReason := .none }
  [(1, 1, d.bytes), (2, 1, c.sampler.bytes),
   (3, 1, match c.palette with
     | some x => hashBytes x.1 ++ bytesOf 4 x.2 ++ zeros 28
     | none => []),
   (4, c.pages.length, c.pageMap key),
   (5, c.pages.length, (c.records key).flatMap (·.1)),
   (6, 1, c.scratch), (7, c.cursors.length, c.cursors.flatMap Cursor.record)]
  |>.filter fun x => !x.2.2.isEmpty || x.1 ≤ 2 || x.1 = 4

/-- Bytes 0x00..0x1F of a directory entry (R101). -/
def dirHead (type count offset length raw : Nat) (sealed_ comp : Bool) : Bytes :=
  bytesOf 2 type ++ bytesOf 2 (boolBit comp + 2 * boolBit sealed_) ++ bytesOf 4 count ++ bytesOf 8 offset ++
  bytesOf 8 length ++ bytesOf 8 raw

/-- Sections sealed where `key` is given and laid out from byte `o` on: directory bytes and padded section bytes. The TAG of
KV is that of its last record (R424), its RAW_LENGTH the bytes of its records before compression (R101). -/
def Canvas.layOut (c : Canvas) (key : Option Bytes) : Nat → List (Nat × Nat × Bytes) → Bytes × Bytes
  | _, [] => ([], [])
  | o, (type, count, b) :: rest =>
    let raw := if type = 5 ∧ c.compressed then c.kvRaw else b.length
    let head := dirHead type count o b.length raw key.isSome (type = 5 && c.compressed)
    let x : Bytes × Bytes :=
      if type = 5 then (b, ((c.records key).getLastD ([], zeros 16)).2)
      else match key with
      | none => (b, zeros 16)
      | some k => Config.gcmSeal k (bytesOf 2 type ++ zeros 10) head b
    let padded := padTo (units4k x.1.length * 4096) x.1
    let r := c.layOut key (o + padded.length) rest
    (head ++ hashBytes (Config.sha3 x.1) ++ padTo 16 x.2 ++ r.1, padded ++ r.2)

/-- The whole canvas in canvas format 1, sealed under `key` where one is given. -/
def Canvas.bytes (c : Canvas) (key : Option Bytes) : Bytes :=
  let secs := c.rawSections key
  let body := c.layOut key 4096 secs
  let head := bytesOf 4 0x53564E43 ++ bytesOf 2 1 ++
    bytesOf 2 (boolBit c.prot + 2 * boolBit c.deep + 4 * boolBit c.compressed + 8 * c.sealMode) ++
    bytesOf 8 c.sessionId.toNat ++ bytesOf 4 c.ownerEpoch ++ bytesOf 4 c.mapEpoch ++ bytesOf 4 c.len ++
    bytesOf 2 secs.length ++ bytesOf 1 c.kvFormat ++ bytesOf 1 c.layers ++ bytesOf 4 c.stretchOffset ++
    bytesOf 4 c.committedLen ++ bytesOf 4 c.pages.length ++ zeros 4 ++ bytesOf 8 c.compositionId.toNat ++
    bytesOf 2 c.sourceDev ++ zeros 6 ++ padTo 16 c.sealNonce ++ hashBytes c.modelHash ++
    bytesOf 8 c.parkPkc.toNat ++ zeros 136
  let block := padTo 4096 (head ++ padTo 1280 body.1)
  let tag := match key with
    | some k => (Config.gcmSeal k (bytesOf 2 0xFFFF ++ zeros 10) block []).2
    | none => zeros 16
  let trailer := bytesOf 4 0x4C525443 ++ bytesOf 2 1 ++ zeros 2 ++ bytesOf 4 c.len ++ zeros 4 ++
    hashBytes (Config.sha3 block) ++ padTo 16 tag
  block ++ body.2 ++ padTo 4096 trailer

/-- A canvas read from bytes of `len` units: none where its last unit holds no complete trailer (R105). Sealed sections
are opened with the key the device holds. Each hash and the reserved fields are judged apart (R112); a page whose stored bytes
do not match is marked `bad`. -/
def State.canvasOf (s : State) (len : Nat) (b : Bytes) : Option Canvas :=
  let tr := b.drop ((len - 1) * 4096)
  if len < 2 ∨ le tr 0 4 ≠ 0x4C525443 ∨ le tr 4 2 ≠ 1 ∨ le tr 8 4 ≠ len ∨ le b 0 4 ≠ 0x53564E43 ∨ le b 4 2 ≠ 1
  then none
  else
    let hf := le b 6 2
    let mode := bitsOf hf 3 2
    let sid := BitVec.ofNat 64 (le b 8 8)
    let comp := BitVec.ofNat 64 (le b 0x30 8)
    let nonce := sub b 0x40 16
    let key := s.canvasKey mode nonce sid comp
    let block := b.take 4096
    let tagOk : Bool := match key with
      | none => mode == 0
      | some k => (Config.gcmOpen k (bytesOf 2 0xFFFF ++ zeros 10) block [] (sub tr 0x30 16)).isSome
    let n := le b 0x1C 2
    let dirs := (List.range n).map fun j => sub b (0x100 + 80 * j) 80
    let stored (t : Nat) : Option (Bytes × Bytes) :=
      (dirs.find? fun e => le e 0 2 == t).map fun e => (e, sub b (le e 8 8) (le e 0x10 8))
    let opened (t : Nat) : Bytes :=
      match stored t with
      | none => []
      | some x => match key with
        | none => x.2
        | some k => (Config.gcmOpen k (bytesOf 2 t ++ zeros 10) (x.1.take 32) x.2 (sub x.1 0x40 16)).getD []
    let hashed (t : Nat) : Bool := match stored t with
      | none => true
      | some x => Config.sha3 x.2 == hashAt x.1 0x20
    let pm := opened 4
    let kv := match stored 5 with
      | some x => x.2
      | none => []
    let np := le b 0x28 4
    let used (e : Bytes) : Bool := e.any (· != 0)
    let dirZero := (List.range 16).all fun j =>
      let e := sub b (0x100 + 80 * j) 80
      if j < n then le e 2 2 / 4 == 0 else !used e
    let pages := (List.range np).map fun j =>
      let r := sub pm (64 * j) 64
      let data := sub kv (le r 0x10 8) (le r 0xC 4)
      let plain := match key with
        | none => data
        | some k => (Config.gcmOpen k (bytesOf 2 5 ++ bytesOf 4 j ++ zeros 6) (r.take 32) data []).getD data
      ({ layer := le r 0 2, log2 := byteAt r 2, first := le r 4 4, tokens := le r 8 4
         compressed := bitAt (byteAt r 3) 0, shared := bitAt (byteAt r 3) 1, data := plain
         bad := !(Config.sha3 data == hashAt r 0x20) } : CanvasPage)
    let cu := opened 7
    some {
      prot := bitAt hf 0, deep := bitAt hf 1, compressed := bitAt hf 2, sealMode := mode, sessionId := sid
      ownerEpoch := le b 0x10 4, mapEpoch := le b 0x14 4, len := le b 0x18 4, kvFormat := byteAt b 0x1E
      layers := byteAt b 0x1F, stretchOffset := le b 0x20 4, committedLen := le b 0x24 4, compositionId := comp
      sourceDev := le b 0x38 2, sealNonce := nonce, modelHash := hashAt b 0x50
      parkPkc := BitVec.ofNat 64 (le b 0x70 8), desc := descOfBytes (opened 1), sampler := samplerOf (opened 2)
      palette := (stored 3).map fun _ => (hashAt (opened 3) 0, le (opened 3) 0x20 4)
      pages := pages, scratch := opened 6
      cursors := (pieces 64 (cu.length / 64) cu).map fun x => ⟨true, byteAt x 0, x⟩
      complete := true
      hashOk := Config.sha3 block == hashAt tr 0x10
      mapOk := hashed 1 && hashed 4
      smallOk := hashed 2 && hashed 3 && hashed 6 && hashed 7
      kvOk := hashed 5
      reservedOk := zeroAt b 0x2C 4 && zeroAt b 0x3A 6 && zeroAt b 0x78 136 && zeroAt b 0x600 2560 && zeroAt tr 6 2 &&
        zeroAt tr 0xC 4 && zeroAt tr 0x40 4032 && bitsOf hf 5 11 == 0 && dirZero
      mapZero := pm.length == 64 * np && (List.range np).all fun j =>
        byteAt pm (64 * j + 3) / 4 == 0 && zeroAt pm (64 * j + 0x18) 8
      kvRaw := match stored 5 with
        | some x => le x.1 0x18 8
        | none => 0
      sealer :=
        let own := if mode = 2 then (s.sec.csk.getD 0).toNat else s.sec.zcount
        if tagOk then own else own + 1 }

/-! ## Where canvases lie -/

/-- Units of 4 KiB of a slice's Winter area (R295, R296). -/
def State.winterUnits (s : State) (sl : Nat) : Nat := le (s.tierMap sl) 4 4 * 512

/-- The Winter target of own parks and of PARK with TIER 0 (R295): 1 T1, 2 T2; T1 without a tier map. -/
def State.winterTier (s : State) (sl : Nat) : Nat := if byteAt (s.tierMap sl) 1 = 2 then 2 else 1

/-- The first address of the local Winter area (R291): CANVAS_ADDR of a T1 canvas is its address there. -/
def winterBase : Nat := 0x3_0000_0000_0000

/-- Freed Winter extents wait for gesso under this address: beyond every physical address, by slice and unit. -/
def winterPa (sl addr : Nat) : Nat := 2 ^ 60 + 2 ^ 50 * sl + addr

/-- Extents in use of a slice's Winter area: address and bytes (R107 check 3). -/
def State.winterTaken (s : State) (sl : Nat) : List (Nat × Nat) :=
  ((s.cnv.stored.filter fun c => c.tier == 1 && c.slice == sl).map fun c => (c.addr.toNat, c.canvas.len * 4096)) ++
  ((s.cnv.ops.filter fun o => o.kind != 2 && o.tier == 1 && (s.d o.index).slice == sl).map fun o =>
    (o.addr.toNat, o.canvas.len * 4096)) ++
  ((s.mem.gesso.filter fun g => winterPa sl 0 ≤ g.pa && g.pa < winterPa (sl + 1) 0).map fun g =>
    (g.pa - winterPa sl 0, g.size))

/-- The lowest free extent of the Winter area for `n` units (log entry 8). -/
def State.winterFit (s : State) (sl n : Nat) : Option Nat :=
  let t := s.winterTaken sl
  let ok := (candidates winterBase 4096 t).filter fun a =>
    a + n * 4096 ≤ winterBase + s.winterUnits sl * 4096 && t.all fun x => a + n * 4096 ≤ x.1 || x.1 + x.2 ≤ a
  ok.foldl (fun m a => match m with
    | none => some a
    | some b => some (min a b)) none

/-- Reachable pool members of a slice that may hold a canvas of a session, those with the most free pool space first,
then the lower device number (R302, R381): a protected one only on QW5200 members. Free space is what the map offers
less what this device has taken there. -/
def State.canvasMembers (s : State) (sl : Nat) (prot : Bool) (need : Nat) : List Nat :=
  let used (dev : Nat) : Nat := s.cnv.stored.foldl (fun n c =>
    n + ((c.members.filter (·.1 == dev)).length * divUp (c.canvas.len * 4096) 65536)) 0
  let l := s.comp.members.filter fun m =>
    m.2.state == 1 && m.2.pool != 0 && s.reachable sl m.1 && (!prot || m.2.kind == 1) &&
    need + used m.1 ≤ m.2.pool && s.devNo != some m.1
  (l.mergeSort fun a b => (b.2.pool - used b.1) ≤ (a.2.pool - used a.1)).map (·.1)

/-- Pool members a class of canvas needs (R84, R107): 1 for D0, 10 for D1 and D2. -/
def membersNeeded (dclass : Nat) : Nat := if dclass = 0 then 1 else 10

/-- 64 KiB units each member allocates (R381, R382): the record, and its fragments or the whole canvas. -/
def unitsPerMember (dclass len : Nat) : Nat :=
  if dclass = 0 then 1 + divUp (len * 4096) 65536 else 1 + divUp (len * 4096) 524288

/-- The stored canvas a descriptor names, for T1 and T2: in T2 by the locator of any of its members (R382). -/
def State.storedAt (s : State) (d : Desc) : Option Stored :=
  s.cnv.stored.find? fun c =>
    c.tier == d.canvasTier &&
    if c.tier = 1 then c.slice == d.slice && c.addr == d.canvasAddr
    else c.members.any fun m => 2 ^ 48 * m.1 + m.2 == d.canvasAddr.toNat

/-- The canvas of a Winter descriptor; none where nothing complete lies there. T3 canvases are read from host memory, and
a T2 canvas that another device wrote from the pool (log entry 22). -/
def State.canvasFor (s : State) (d : Desc) : Option Canvas :=
  if d.canvasTier = 3 then
    (s.hostRead d.canvasAddr.toNat (d.canvasLen * 4096)).bind (s.canvasOf d.canvasLen)
  else match s.storedAt d with
    | some c =>
      -- R422: what was written under a retired generation reads as poisoned data.
      if c.tier = 1 ∧ c.canvas.prot ∧ (bitAt s.sec.retired c.keygen ∨ s.sec.keysErased) then
        some { c.canvas with hashOk := false, mapOk := false, smallOk := false, pages := c.canvas.pages.map fun (p : CanvasPage) => { p with bad := true } }
      else some c.canvas
    | none => if d.canvasTier = 2 then s.canvasOf d.canvasLen (Config.remoteCanvas d.canvasAddr.toNat) else none

/-- A coded canvas that has lost more than two members, or a D0 canvas that has lost its member (R383). -/
def State.canvasLost (s : State) (d : Desc) : Bool :=
  d.canvasTier == 2 &&
  match s.storedAt d with
  | none => false
  | some c =>
    let live := (c.members.filter fun m => (s.member m.1).isSome).length
    if c.members.length ≤ 1 then live == 0 else live < 8

/-- A stored canvas freed: T1 waits for gesso (R113); T2 by POOL_FREE to each member (R379). -/
def State.freeCanvas (s : State) (d : Desc) : State :=
  match s.storedAt d with
  | none =>
    if d.canvasTier = 2 then s.send (d.canvasAddr.toNat / 2 ^ 48) 7 0x21 0xFF [d.canvasAddr.toNat % 2 ^ 48] [] .none else s
  | some c =>
    let s1 := { s with cnv := { s.cnv with stored := s.cnv.stored.filter fun x => x != c } }
    if c.tier = 1 then
      { s1 with mem := { s1.mem with
        gesso := s1.mem.gesso ++ [{ pa := winterPa c.slice c.addr.toNat, size := c.canvas.len * 4096, slice := c.slice }] } }
    else c.members.foldl (fun t m => t.send m.1 7 0x21 0xFF [m.2] [] .none) s1

/-! ## Operations, work items and the engines that take them (R97, R98, R128) -/

/-- The operation is the stream of a thaw that has reached its Thaw end (R114). A session may have one beside a park or a
migration that waits for its end. -/
def CanvasOp.isStream (o : CanvasOp) : Bool := o.kind == 2 && o.streaming

/-- The operation under way on a session, a stream apart. -/
def State.opOf (s : State) (i : Nat) : Option CanvasOp := s.cnv.ops.find? fun o => o.index == i && !o.isStream

/-- The streaming thaw of a session. -/
def State.streamOf (s : State) (i : Nat) : Option CanvasOp := s.cnv.ops.find? fun o => o.index == i && o.isStream

/-- An operation written back. -/
def State.setOp (s : State) (o : CanvasOp) : State :=
  { s with cnv := { s.cnv with ops := s.cnv.ops.map fun x => if x.index = o.index ∧ x.kind = o.kind then o else x } }

/-- The stream of a session removed. -/
def State.delStream (s : State) (i : Nat) : State :=
  { s with cnv := { s.cnv with ops := s.cnv.ops.filter fun o => !(o.index == i && o.isStream) } }

/-- The state die whose canvas engines take item `n` of an operation: 0 all but the KV section, n the page n − 1 (R97). -/
def State.itemDie (s : State) (o : CanvasOp) (n : Nat) : Nat :=
  if n = 0 then homeDie o.index
  else s.layerDie (s.d o.index).slice ((o.canvas.pages[n - 1]?).map (·.layer) |>.getD 0)

/-- Items an operation still has, in the order in which they are queued: of a canvas that is written item 0 comes last, of one
that is read first. Those of a stream past its Thaw end arrive by themselves (R114). -/
def CanvasOp.items (o : CanvasOp) : List Nat :=
  let small := if o.small then [0] else []
  if o.waiting || o.streaming then []
  else if o.kind == 1 || o.kind == 3 then o.todo.map (· + 1) ++ small else small ++ o.todo.map (· + 1)

/-- A state die's engines can run: the die is released (R97). -/
def State.dieUp (s : State) (n : Nat) : Bool := (s.die (8 + n)).released

/-- Descriptors of a home die that are locked in its cache (R61): Summer, Spring, or OP not NONE. -/
def State.locked (s : State) (die : Nat) : Nat :=
  (s.desc.filter fun x => homeDie x.1 == die &&
    (x.2.season == .summer || x.2.season == .spring || x.2.op != .none)).length

/-- Units of 4 KiB of a canvas beside its KV section (R99). -/
def Canvas.sideUnits (c : Canvas) : Nat :=
  canvasUnits [] c.palette.isSome (max c.scratch.length c.desc.scratchLen) (max c.cursors.length c.desc.cursors) +
    units4k (64 * c.pages.length)

/-- Canvas bytes of an item before compression: what the regulator charges (R274). -/
def State.itemBytes (s : State) (o : CanvasOp) (n : Nat) : Nat :=
  if n = 0 then 4096 * o.canvas.sideUnits
  else match s.curProg (s.d o.index).slice, o.canvas.pages[n - 1]? with
    | some p, some q => recordLen p o.canvas.deep q.tokens
    | _, _ => 0

/-- An engine runs the item. -/
def State.ceHolds (s : State) (o : CanvasOp) (n : Nat) : Bool :=
  s.cnv.engines.any fun x => x.2.1 == o.index && x.2.2.1 == o.kind && x.2.2.2.1 == n

/-- The item is a priority copy: a writer waits for its page (R118). -/
def State.urgent (s : State) (o : CanvasOp) (n : Nat) : Bool :=
  (o.kind == 1 || o.kind == 3) && n != 0 &&
  (((s.kvOf o.index).ordered (((s.curProg (s.d o.index).slice).map (·.layers)).getD 0))[n - 1]?).any
    fun g => s.cnv.prio.contains g.elem

/-- The items that wait for a die's engines in the order in which they are taken (R98): priority copies, LC, BE. A thaw does
not start while its home die's cache has no lock left (R61). -/
def State.ceQueue (s : State) (die : Nat) : List (CanvasOp × Nat) :=
  let all := s.cnv.ops.flatMap fun o =>
    if o.kind == 2 && 65536 < s.locked (homeDie o.index) then []
    else (o.items.filter fun n => s.itemDie o n == die && !s.ceHolds o n).map fun n => (o, n)
  let first (x : CanvasOp × Nat) : Bool := s.urgent x.1 x.2
  all.filter first ++ (all.filter fun x => !first x && x.1.lc) ++ all.filter fun x => !first x && !x.1.lc

/-- An LC item waits for the engines of a die (R98). -/
def State.lcWaits (s : State) (die : Nat) : Bool := (s.ceQueue die).any fun x => x.1.lc || s.urgent x.1 x.2

/-- An engine of a die is free. -/
def State.ceFree (s : State) (die : Nat) : Bool :=
  (List.range 8).any fun e => (tabGet s.cnv.engines (8 * die + e)).isNone

/-- Engine `k` begins an item. -/
def State.ceBegin (s : State) (k : Nat) (x : CanvasOp × Nat) : State :=
  { s with cnv := { s.cnv with
    engines := tabPut s.cnv.engines k (x.1.index, x.1.kind, x.2, x.1.lc || s.urgent x.1 x.2) } }

/-- Engine `k` begins the first item that the CANVAS regulator of its slice admits (R98, R274, R275). -/
def State.ceOffer (s : State) (k : Nat) : List (CanvasOp × Nat) → Bool × State
  | [] => (false, s)
  | x :: l =>
    let a := s.regAdmit (s.d x.1.index).slice 9 (s.itemBytes x.1 x.2) (x.1.lc || s.urgent x.1 x.2)
    if a.1 then (true, a.2.ceBegin k x) else a.2.ceOffer k l

/-- A free engine takes an item; where none is admitted, a BE item that may borrow (R276). -/
def State.ceTake (s : State) (k : Nat) : State :=
  if (tabGet s.cnv.engines k).isSome || !s.dieUp (k / 8) then s
  else
    let q := s.ceQueue (k / 8)
    let a := s.ceOffer k q
    if a.1 then a.2
    else match q.find? fun x => !x.1.lc && !s.urgent x.1 x.2 && s.borrows (s.d x.1.index).slice 9 with
      | some x => (a.2.bump .regBorrows (s.d x.1.index).slice 1).ceBegin k x
      | none => a.2

/-- The engines whose item has ended are free, and every free engine takes its next item, lowest first (R97, R98; which
engine takes which item is the model's choice, log entry 85). -/
def State.ceFill (s : State) : State :=
  let on := s.cnv.engines.filter fun x => s.cnv.ops.any fun o =>
    o.index == x.2.1 && o.kind == x.2.2.1 && o.items.contains x.2.2.2.1
  let s1 := { s with cnv := { s.cnv with engines := on } }
  if s.cnv.ops.isEmpty then s1 else (List.range 64).foldl State.ceTake s1

/-- An operation begun: its items are queued. -/
def State.addOp (s : State) (o : CanvasOp) : State :=
  { s with cnv := { s.cnv with ops := s.cnv.ops ++ [o] } }.ceFill

/-- The operation of a session removed, but not its stream. -/
def State.delOp (s : State) (i : Nat) : State :=
  { s with cnv := { s.cnv with ops := s.cnv.ops.filter fun o => o.index != i || o.isStream } }.ceFill

/-! ## Parks (R97, R107..R111, R118) -/

/-- Every page of a session guarded or not (R118). -/
def State.guardAll (s : State) (i : Nat) (g : Bool) : State :=
  let k := s.kvOf i
  if k.pages.isEmpty then s
  else (s.setKv i { k with pages := k.pages.map fun p => { p with guard := g } }).invalidate (s.d i).slice

/-- The scratch objects of a session. -/
def State.scratchOf (s : State) (i : Nat) : Bytes :=
  let k := s.kvOf i
  if k.scratchPa = 0 then [] else s.pread k.scratchPa (s.d i).scratchLen

/-- The cursor slots a session holds (R102, R341): the first CURSORS slots of 64 bytes of its cursor area. -/
def State.cursorsOf (s : State) (i : Nat) : List Cursor :=
  let k := s.kvOf i
  if k.cursorPa = 0 then []
  else
    let b := s.pread k.cursorPa 4096
    ((pieces 64 64 b).take (s.d i).cursors).map fun x => ⟨true, byteAt x 0, x⟩

/-- The canvas of a session at its cut (R107 step 2), its pages still to copy. -/
def State.cut (s : State) (i : Nat) (deep comp : Bool) (sealMode : Nat) : Canvas :=
  let d := s.d i
  let p := (s.curProg d.slice).getD (progOf [])
  let pal := match tabGet s.srv.pals d.palette with
    | some e => some (e.content, e.tokens)
    | none => none
  { prot := d.prot, deep := deep, compressed := comp && !d.prot, sealMode := sealMode, sessionId := d.sessionId
    ownerEpoch := d.ownerEpoch, mapEpoch := s.comp.epoch, len := s.rawUnits i deep
    kvFormat := if deep then 2 else p.kvFormat, layers := p.layers, stretchOffset := d.stretchOffset
    committedLen := d.committedLen, compositionId := if s.devNo.isSome then s.comp.id else 0
    sourceDev := s.devNo.getD 0xFFFF
    sealNonce := if sealMode = 0 then [] else Config.drbg s.free 16
    modelHash := (s.modelHash d.slice).getD 0, parkPkc := s.pkg.pkc, desc := { d with deep := deep }
    sampler := (s.kvOf i).sampler, palette := pal
    kvRaw := (((s.kvOf i).ordered p.layers).map fun g => recordLen p deep (tokensIn d g.first g.log2)).foldl (· + ·) 0
    pages := ((s.kvOf i).ordered p.layers).map fun g =>
      { layer := g.layer, log2 := g.log2, first := g.first + d.stretchOffset
        tokens := tokensIn d g.first g.log2, compressed := false, shared := g.rcp != 0, data := [] }
    sealer := if sealMode = 2 then (s.sec.csk.getD 0).toNat else s.sec.zcount }

/-- The seal of a canvas written to a tier (R106). -/
def State.sealFor (s : State) (prot : Bool) (tier : Nat) : Nat :=
  if !prot || tier = 1 then 0
  else if tier = 2 && s.sec.csk.isSome && s.devNo.isSome then 2 else 1

/-- A park begun: OP set, the canvas allocated at its target, every page guarded, work items queued (R107 steps 1, 2).
While a streaming thaw runs the cut waits for its end (R114). -/
def State.startPark (s : State) (i : Nat) (op : SessOp) (tier : Nat) (addr : U64) (members : List Nat)
    (deep comp lc : Bool) : State :=
  let d := s.d i
  let sm := s.sealFor d.prot tier
  let c := s.cut i deep comp sm
  let s1 := if sm = 0 then s else s.drew
  let waiting := d.stream
  let o : CanvasOp :=
    { index := i, kind := 1, lc := lc, canvas := c, tier := tier, addr := addr, todo := List.range c.pages.length
      small := true, waiting := waiting, members := members.map fun m => (m, none) }
  let s3 := s1.setD i { d with op := op }
  let s4 := (if waiting then s3 else s3.guardAll i true).addOp o
  members.foldl (fun t m => t.send m 7 0x20 0xFF [unitsPerMember d.dclass c.len] [] (.canvasAlloc i)) s4

/-- A park or migration of a session abandoned: nothing is left of its partial canvas, which is gesso-filled (R71). -/
def State.abandonPark (s : State) (i : Nat) : State :=
  match s.opOf i with
  | none => s
  | some o =>
    let sl := (s.d i).slice
    let s1 := (s.delOp i).guardAll i false
    let s2 := s1.setD i { s1.d i with op := .none }
    if o.tier = 1 ∧ o.kind = 1 then
      { s2 with mem := { s2.mem with
        gesso := s2.mem.gesso ++ [{ pa := winterPa sl o.addr.toNat, size := o.canvas.len * 4096, slice := sl }] } }
    else o.members.foldl (fun t m => match m.2 with
      | some b => t.send m.1 7 0x21 0xFF [b] [] .none
      | none => t) s2

/-- The bytes copied of page number `n` of a park (R104). -/
def State.copyPage (s : State) (o : CanvasOp) (n : Nat) : Option Bytes :=
  let d := s.d o.index
  (s.curProg d.slice).bind fun p =>
    (((s.kvOf o.index).ordered p.layers)[n]?).map fun g =>
      recordOf p o.canvas.deep (s.pageRows p.geom g (tokensIn d g.first g.log2))

/-- A canvas engine of a park or a migration reads poisoned data for an item (R313): 0 the small sections, n + 1 page n. -/
def State.itemBad (s : State) (o : CanvasOp) (n : Nat) : Bool :=
  let d := s.d o.index
  let k := s.kvOf o.index
  let l := if n = 0 then [(k.scratchPa, if k.scratchPa = 0 then 0 else d.scratchLen), (k.cursorPa, if k.cursorPa = 0 then 0 else 64 * d.cursors)]
    else match (s.curProg d.slice).bind fun p => (k.ordered p.layers)[n - 1]?.map fun g => (p.geom, g) with
      | some x =>
        let t := tokensIn d x.2.first x.2.log2
        [(x.2.elem, t * x.1.e), (x.2.scale, t * x.1.s), (x.2.side, t * x.1.c)]
      | none => []
  (o.kind == 1 || o.kind == 3) && s.prangesBad d.prot (l.filter (·.2 != 0))

/-- The canvas engines have copied page `n`: its record stored, its guard cleared (R107 step 3, R118). -/
def State.pageCopied (s : State) (o : CanvasOp) (n : Nat) : State :=
  match s.copyPage o n with
  | none => s
  | some raw =>
    let x := if o.canvas.compressed then compress raw else (raw, false)
    let pages := o.canvas.pages.zipIdx.map fun q =>
      if q.2 = n then { q.1 with data := x.1, compressed := x.2 } else q.1
    let o' := { o with canvas := { o.canvas with pages := pages }, todo := o.todo.filter (· != n) }
    let s1 := s.setOp o'
    let k := s1.kvOf o.index
    let q := o.canvas.pages.getD n { layer := 0, log2 := 0, first := 0, tokens := 0, compressed := false, shared := false, data := [] }
    let off := (s.d o.index).stretchOffset
    (s1.setKv o.index { k with pages := k.pages.map fun p =>
      if p.layer = q.layer ∧ p.first + off = q.first then { p with guard := false } else p }).invalidate (s.d o.index).slice

/-- The home engines have written the small sections (R107 step 4). -/
def State.smallDone (s : State) (o : CanvasOp) : State :=
  s.setOp { o with small := false, canvas := { o.canvas with
    scratch := s.scratchOf o.index, cursors := s.cursorsOf o.index, sampler := (s.kvOf o.index).sampler } }

/-- The length of a canvas with its records as stored. -/
def Canvas.units (c : Canvas) : Nat :=
  canvasUnits (c.pages.map (·.data.length)) c.palette.isSome c.scratch.length c.cursors.length

/-! ## Thaws (R112..R117) -/

/-- The page records follow the growth rule of R142 under a page maximum. -/
def Canvas.grown (c : Canvas) (m : Nat) : Bool :=
  let n := c.committedLen - c.stretchOffset
  let k := pagesFor n m
  c.pages.length == c.layers * k &&
  (((List.range c.layers).flatMap fun l => (List.range k).map fun j => (l, j)).zip c.pages).all fun x =>
    x.2.layer == x.1.1 && x.2.log2 == pageLog2 x.1.2 m && x.2.first == pageFirst x.1.2 m + c.stretchOffset &&
    x.2.tokens == min (16 * 2 ^ x.2.log2) (n - pageFirst x.1.2 m)

/-- The page maximum a canvas's descriptor stands for: the program's where it never allocated (R143). -/
def Canvas.pageMax (c : Canvas) (p : Prog) : Nat := if c.desc.pageMaxLog2 = 15 then p.pageMax else c.desc.pageMaxLog2

/-- Checks 4 to 6 of R112 on a canvas for a slice, as R121 makes them too. -/
def State.canvasCheck (s : State) (sl : Nat) (sid : U64) (c : Canvas) : List (Bool × Nat) :=
  let p := (s.curProg sl).getD (progOf [])
  [(c.sessionId != sid || !c.reservedOk, eCanvasFormat),
   (!c.mapOk, eCanvasHash),
   (!c.mapZero || !c.grown (if (s.curProg sl).isSome then c.pageMax p else c.desc.pageMaxLog2), eCanvasFormat),
   ((s.curProg sl).isNone || s.modelHash sl != some c.modelHash || c.kvFormat != (if c.deep then 2 else p.kvFormat),
     eCanvasModel),
   (match c.palette with
     | some x => (s.palFind sl x.1 x.2).isNone
     | none => false, eNoPalette)]

/-- The device holds the key that SEAL names and the header tag verifies (R112 check 2). -/
def State.sealOk (s : State) (c : Canvas) : Bool :=
  if c.sealMode = 0 then true
  else if c.sealMode = 1 then c.sealer == s.sec.zcount
  else c.sealMode == 2 && s.sec.csk.isSome && s.devNo.isSome && c.compositionId == s.comp.id &&
    s.sec.csk.any fun k => k.toNat == c.sealer

/-- Pages the slice can give a thaw: all pages of every layer taken, or none (R112 check 8). -/
def State.thawPages (s : State) (i : Nat) (c : Canvas) : Option (State × SessKv) :=
  let d := s.d i
  (s.curProg d.slice).bind fun p =>
    let m := c.pageMax p
    s.takePages d.slice p.geom d.prot m (pagesFor (c.committedLen - c.stretchOffset) m) 0 { sampler := c.sampler }

/-- A thaw's pages, window and tables taken (R131, R134, R112 check 8), every page not present until it is rebuilt. -/
def State.thawRoom (s : State) (i : Nat) (c : Canvas) : Option State :=
  (s.thawPages i c).bind fun x =>
    let s1 := x.1.setKv i { x.2 with pages := x.2.pages.map fun p => { p with np := true } }
    let s2 := s1.takeWindow i
    (s2.setD i { s2.d i with pagesHeld := x.2.pages.length }).remap (s.d i).slice

/-- The checks of R112 from 1 on, in order, for a Winter session; the canvas, or the first code. A slice that has no current
model program refuses the THAW before them (R133; the order is the model's choice, log entry 83). -/
def State.thawChecks (s : State) (i : Nat) : Except Nat Canvas :=
  let d := s.d i
  if (s.curProg d.slice).isNone then .error eJobProgram
  else if s.canvasLost d then .error eCanvasLost
  else match s.canvasFor d with
  | none => .error eCanvasFormat
  | some c =>
    match firstFail ([(!c.complete || c.len != d.canvasLen, eCanvasFormat), (!s.sealOk c, eCanvasSeal),
        (!c.hashOk, eCanvasHash)] ++ s.canvasCheck d.slice d.sessionId c ++
        [((s.freeWindow d.slice).isNone, eNoWindow),
         ((s.thawRoom i c).isNone || (d.pageBudget != 0 && d.pageBudget < c.pages.length), eThawNoRoom)]) with
    | some e => .error e
    | none => .ok c

/-- The pages of a canvas with the last of each layer first: a streaming thaw needs those for its Thaw end (R114). -/
def Canvas.lastsFirst (c : Canvas) : List Nat :=
  let last (n : Nat) : Bool := match c.pages[n]? with
    | some q => c.pages.all fun r => r.layer != q.layer || r.first ≤ q.first
    | none => false
  (List.range c.pages.length).filter last ++ (List.range c.pages.length).filter fun n => !last n

/-- A thaw begun on a canvas that has passed its checks: Spring, window and pages taken, every page not present until
it is rebuilt (R112..R114, R116). -/
def State.startThaw (s : State) (i : Nat) (c : Canvas) (stream runahead : Bool) : State :=
  match s.thawRoom i c with
  | none => s
  | some t =>
    let d := t.d i
    let s3 := t.setD i { d with season := .spring, op := .thaw, stream := stream, runahead := runahead }
    s3.addOp
      { index := i, kind := 2, lc := !runahead, canvas := c, tier := d.canvasTier, addr := d.canvasAddr
        todo := if stream then c.lastsFirst else List.range c.pages.length, small := true }

/-- A thaw abandoned: its pages gesso-filled, the canvas untouched, Winter again (R71, R113, R116). -/
def State.abandonThaw (s : State) (i : Nat) : State :=
  let s1 := (s.freeSession i).delOp i
  let d := s1.d i
  (s1.setD i { d with
    season := .winter, op := .none, stream := false, runahead := false, windowBase := 0, ptRoot := 0, scratchAddr := 0
    pagesHeld := 0, reservePage := 0 }).unmapped d.slice

/-- Page number `n` of a thaw rebuilt and mapped (R113, R114, R117). -/
def State.rebuildPage (s : State) (o : CanvasOp) (n : Nat) : State :=
  let d := s.d o.index
  match s.curProg d.slice, o.canvas.pages[n]? with
  | some p, some q =>
    let raw := if q.compressed then Machine.expand q.data (recordLen p o.canvas.deep q.tokens) else q.data
    let k := s.kvOf o.index
    match k.pages.find? fun g => g.layer == q.layer && g.first + o.canvas.stretchOffset == q.first with
    | none => s
    | some g =>
      let s1 := s.writeRows p.geom g (rowsOf p o.canvas.deep q.tokens raw)
      ((s1.setKv o.index { k with pages := k.pages.map fun x => if x == g then { x with np := false } else x }).invalidate
        d.slice).setOp { o with todo := o.todo.filter (· != n) }
  | _, _ => s

/-- The last page of each layer has been rebuilt (R114). -/
def CanvasOp.lastsDone (o : CanvasOp) : Bool :=
  o.todo.all fun n => match o.canvas.pages[n]? with
    | none => true
    | some q => o.canvas.pages.any fun r => r.layer == q.layer && q.first < r.first

/-- Bytes a canvas engine moved for a slice, counted at the die that holds the layer or at the home die (R128), and in
4 KiB units by the slice's event counters (R511). -/
def State.ceBytes (s : State) (sl die n : Nat) : State :=
  (s.evc sl 0x30 0xFF (divUp n 4096)).setReg64 .ceBytesLo .ceBytesHi die ((s.reg64 .ceBytesLo .ceBytesHi die + n) % 2 ^ 64)

/-- The session has a scratch area of 1 MiB and a cursor area of 4 KiB (R132), taken when they are first needed; none
where no page can be had. -/
def State.sideAreas (s : State) (i : Nat) : Option State :=
  let d := s.d i
  let n := s.layerDie d.slice 0
  let a : Option State :=
    if (s.kvOf i).scratchPa ≠ 0 then some s
    else (s.alloc d.slice n (2 ^ 20) (2 ^ 20) d.prot).map fun x => x.1.setKv i { x.1.kvOf i with scratchPa := x.2 }
  a.bind fun s =>
    if (s.kvOf i).cursorPa ≠ 0 then some s
    else (s.alloc d.slice n 4096 4096 d.prot).map fun x => x.1.setKv i { x.1.kvOf i with cursorPa := x.2 }

/-- Scratch objects and cursor slots written into a session's areas (R87, R113). Where its areas cannot be had the session is
without them (DESIGN CHOICE, log entry 84). -/
def State.fillSide (s : State) (i : Nat) (scratch : Bytes) (cursors : Bytes) : State :=
  if scratch.isEmpty && cursors.isEmpty then s
  else match (s.sideAreas i).bind fun t => t.remap (s.d i).slice with
    | none => s
    | some t => (t.pwrite (t.kvOf i).scratchPa scratch).pwrite (t.kvOf i).cursorPa cursors

end Sys2Proof.Machine
end

