-- ==== Sys2Proof/Machine/Ecc.lean ====
section
/-! DEFINITION. The sector code RS(136,128) and the decoding of a sector read (R310..R312). -/

namespace Sys2Proof.Machine

/-! ## GF(2^8) with x^8 + x^4 + x^3 + x^2 + 1 -/

/-- Multiplication by x. -/
def gfX (a : Nat) : Nat := if 128 ≤ a then (2 * a) % 256 ^^^ 0x1D else 2 * a

/-- Multiplication, over the low `n` bits of the second factor. -/
def gfMulN : Nat → Nat → Nat → Nat
  | 0, _, _ => 0
  | n + 1, a, b => (if b % 2 = 1 then a else 0) ^^^ gfMulN n (gfX a) (b / 2)

/-- Multiplication in GF(2^8). -/
def gfMul (a b : Nat) : Nat := gfMulN 8 a b

/-- Powers. -/
def gfPow (a : Nat) : Nat → Nat
  | 0 => 1
  | n + 1 => gfMul a (gfPow a n)

/-- The inverse of a non-zero element: a^254. -/
def gfInv (a : Nat) : Nat :=
  let a2 := gfMul a a
  let a4 := gfMul a2 a2
  let a8 := gfMul a4 a4
  let a16 := gfMul a8 a8
  let a32 := gfMul a16 a16
  let a64 := gfMul a32 a32
  let a128 := gfMul a64 a64
  gfMul a128 (gfMul a64 (gfMul a32 (gfMul a16 (gfMul a8 (gfMul a4 a2)))))

/-- α^n. -/
def gfAlpha (n : Nat) : Nat := gfPow 2 (n % 255)

/-! ## Syndromes and decoding (R310) -/

/-- An error pattern: pairs of a byte number 0..135 of the codeword and the value added to it. Byte i is the coefficient
of x^(135 − i). -/
abbrev Errors := List (Nat × Nat)

/-- Syndrome j of an error pattern: its value at α^j. -/
def syndrome (e : Errors) (j : Nat) : Nat := e.foldl (fun t x => t ^^^ gfMul x.2 (gfAlpha (j * (135 - x.1)))) 0

/-- The eight syndromes. -/
def syndromes (e : Errors) : List Nat := (List.range 8).map (syndrome e)

/-- The poison marker (R311): added to the 8 check bytes, bytes 128..135. -/
def poisonMarker : Errors :=
  [(128, 0x50), (129, 0x4F), (130, 0x49), (131, 0x53), (132, 0x4F), (133, 0x4E), (134, 0x21), (135, 0x21)]

/-- The rows of a linear system reduced below and above a pivot row. -/
def reduceRows (p : List Nat) (col : Nat) (rows : List (List Nat)) : List (List Nat) :=
  rows.map fun r =>
    let f := r.getD col 0
    if f = 0 then r else (r.zip p).map fun x => x.1 ^^^ gfMul f x.2

/-- Gauss–Jordan over GF(2^8): `done` holds the rows whose pivots are found. None for a singular system. -/
def gaussFrom : Nat → Nat → List (List Nat) → List (List Nat) → Option (List (List Nat))
  | 0, _, done, _ => some done
  | n + 1, col, done, rows =>
    match rows.find? fun r => r.getD col 0 != 0 with
    | none => none
    | some r =>
      let inv := gfInv (r.getD col 0)
      let p := r.map (gfMul inv)
      gaussFrom n (col + 1) (reduceRows p col done ++ [p]) (reduceRows p col (rows.erase r))

/-- Solution of a v × v system given with its right-hand sides. -/
def gaussSolve (v : Nat) (rows : List (List Nat)) : Option (List Nat) :=
  (gaussFrom v 0 [] rows).map fun l => l.map fun r => r.getD v 0

/-- The error pattern of weight exactly `v` with the given syndromes (Peterson's method): locator coefficients, their
roots among the 136 positions, magnitudes. -/
def decodeWeight (s : List Nat) (v : Nat) : Option Errors :=
  let at_ (k : Nat) : Nat := s.getD k 0
  let sys := (List.range v).map fun i => (List.range v).map (fun j => at_ (i + j)) ++ [at_ (i + v)]
  (gaussSolve v sys).bind fun c =>
    -- x^v + c_(v-1) x^(v-1) + ... + c_0 has the locators as roots
    let root (x : Nat) : Bool :=
      ((c.zipIdx.foldl (fun t p => t ^^^ gfMul p.1 (gfPow x p.2)) 0) ^^^ gfPow x v) == 0
    let pos := (List.range 136).filter fun i => root (gfAlpha (135 - i))
    if pos.length ≠ v then none
    else
      let mags := gaussSolve v ((List.range v).map fun j => pos.map (fun i => gfAlpha (j * (135 - i))) ++ [at_ j])
      mags.bind fun m =>
        let e := pos.zip m
        if syndromes e == s && m.all (· != 0) then some e else none

/-- An error of at most `t` bytes with the given syndromes, the fewest bytes first. -/
def decodeUpTo (s : List Nat) (t : Nat) : Option Errors := (List.range t).findSome? fun k => decodeWeight s (k + 1)

/-- The outcome of a sector read (table *Sector decode*). -/
inductive SectorOutcome where
  | clean | poisoned | corrected (e : Errors) | uncorrectable
  deriving DecidableEq, Repr

/-- The first row that applies, for the errors of a stored codeword; `poison` says that it carries the marker. -/
def sectorDecode (errs : Errors) (poison : Bool) (t : Nat) : SectorOutcome :=
  let s := syndromes (errs ++ if poison then poisonMarker else [])
  if s.all (· == 0) then .clean
  else if s == syndromes poisonMarker then .poisoned
  else match decodeUpTo s (min t 4) with
    | some e => .corrected e
    | none => .uncorrectable

/-- Data bytes of a sector changed by an error pattern. -/
def State.upset (s : State) (pa : Nat) (e : Errors) : State :=
  (e.filter (·.1 < 128)).foldl (fun t x =>
    let a := pa + x.1
    { t with mem := { t.mem with
      data := memPut t.mem.data a (t.pget a ^^^ BitVec.ofNat 8 x.2), gessoed := cutGesso t.mem.gessoed a 1 } }) s

/-- The register of a stack's counter on a state die (R321): stack 2n or 2n + 1 by the channel. -/
def stackReg (r0 r1 : Reg) (stack : Nat) : Reg := if stack = 0 then r0 else r1

/-- The stack (0 or 1) of a state die that holds a physical address, by its n-local channel (R294): 32 channels each.
The set is that of the slice which holds the PCG. -/
def State.stackOf (s : State) (pa : Nat) : Nat :=
  let n := pa / 2 ^ 37
  let o := pa % 2 ^ 37
  let g := o / pcgGeneral
  let set := (s.slices.filterMap s.sliceEnt).find? fun e => bitAt (bitsOf e.pcgs (8 * n) 8) g
  let k := match set with
    | some e => e.pcgsOn n
    | none => (1, g)
  let u := (o - pcgGeneral * k.2) / 512
  (8 * k.2 + u % (8 * max 1 k.1)) / 32

/-- A sector read with errors on its way (R311, R312): counts, correction and write-back, the marker, and the log. -/
def State.sectorRead (s : State) (pa : Nat) (errs : Errors) : State :=
  let a := pa / 128 * 128
  let n := pa / 2 ^ 37
  let st := s.stackOf pa
  let poison := s.mem.poison.contains a
  match sectorDecode errs poison (s.fld .mcEccCtrl n 0 0 3) with
  | .clean => s.upset a errs
  | .poisoned => (s.upset a errs).bump (stackReg .mcPoison0 .mcPoison1 st) n 1
  | .corrected e =>
    ((s.upset a (errs ++ e)).bump (stackReg .mcCe0 .mcCe1 st) n 1).logErr 0x0001 (8 + n) 0xFF 0 st (some a)
  | .uncorrectable =>
    let s1 := (s.upset a errs).bump (stackReg .mcUe0 .mcUe1 st) n 1
    let s2 := { s1 with mem := { s1.mem with poison := setInsert s1.mem.poison a } }
    let s3 := (s2.setReg .mcLastUeLo n 0 (a % 2 ^ 32)).setReg .mcLastUeHi n 0 (2 ^ 31 + a / 2 ^ 32 % 256)
    s3.logErr 0x0002 (8 + n) 0xFF 0 st (some a)

end Sys2Proof.Machine
end

