-- ==== Sys2Proof/Machine/Coding.lean ====
section
/-! DEFINITION. Coded Winter canvases (R381, R382): stripes, the RS(10,8) code, canvas records, and what each pool member
is sent. -/

namespace Sys2Proof.Machine

/-- Bytes of a fragment. -/
def fragBytes : Nat := 65536

/-- Parity positions 8 and 9 at one byte offset of eight data fragments (R381): the codeword vanishes at α^0 and α^1. -/
def parityOf (d : List Nat) : Nat × Nat :=
  let s0 := d.foldl (· ^^^ ·) 0
  let s1 := d.zipIdx.foldl (fun t x => t ^^^ gfMul x.1 (gfAlpha (9 - x.2))) 0
  let p8 := gfMul (s0 ^^^ s1) (gfInv (gfAlpha 1 ^^^ 1))
  (p8, s0 ^^^ p8)

/-- The ten positions of a stripe: eight data fragments of `n` bytes and two of parity. -/
def stripeOf (n : Nat) (b : Bytes) : List Bytes :=
  let data := pieces n 8 (padTo (8 * n) b)
  let par := (List.range n).map fun k => parityOf (data.map fun f => byteAt f k)
  data ++ [par.map fun x => BitVec.ofNat 8 x.1, par.map fun x => BitVec.ofNat 8 x.2]

/-- What member `m` of ten holds of a canvas: position i of stripe k lies on member (i + k) mod 10 (R381). -/
def fragmentsOf (m : Nat) (b : Bytes) : Bytes :=
  let n := divUp b.length (8 * fragBytes)
  (pieces (8 * fragBytes) n (padTo (8 * fragBytes * n) b)).zipIdx.flatMap fun x =>
    (stripeOf fragBytes x.1).getD ((m + 10 - x.2 % 10) % 10) []

/-- The canvas record of member `m` (R382). -/
def canvasRecord (c : Canvas) (ms : List (Nat × Nat)) (rgen m : Nat) : Bytes :=
  let n := c.len * 4096
  let b := bytesOf 4 0x44435250 ++ bytesOf 2 ms.length ++ bytesOf 2 m ++
    bytesOf 4 (if ms.length = 1 then divUp n fragBytes else divUp n (8 * fragBytes)) ++ bytesOf 4 c.len ++
    bytesOf 8 c.sessionId.toNat ++ bytesOf 8 c.compositionId.toNat ++ bytesOf 4 rgen ++ zeros 28 ++
    padTo 160 (ms.flatMap fun x => bytesOf 2 x.1 ++ zeros 6 ++ bytesOf 8 x.2)
  b ++ hashBytes (Config.sha3 b)

/-- Bytes written to a pool address of a member: CANVAS DATA to a QW5200, WRITE to an appliance (R365). -/
def State.poolPut (s : State) (dev addr : Nat) (b : Bytes) (epoch sid : Nat) (p : Purpose) : State :=
  let app := (s.member dev).any fun m => m.kind == 2
  (pieces 16384 (divUp b.length 16384) b).zipIdx.foldl (fun t x =>
    if app then t.send dev 2 0 0xFF [addr + 16384 * x.2, 0] x.1 p
    else t.send dev 5 1 0xFF [addr + 16384 * x.2, epoch, sid] x.1 p) s

/-- A canvas sent to its members: each fragment whole before the record names it (R383). -/
def State.sendMembers (s : State) (c : Canvas) (ms : List (Nat × Nat)) (rgen : Nat) (b : Bytes) (p : Purpose) : State :=
  let s1 := ms.zipIdx.foldl (fun (t : State) x =>
    t.poolPut x.1.1 (x.1.2 + fragBytes) (if ms.length = 1 then b else fragmentsOf x.2 b) c.ownerEpoch c.sessionId.toNat p) s
  ms.zipIdx.foldl (fun (t : State) x =>
    t.poolPut x.1.1 x.1.2 (padTo fragBytes (canvasRecord c ms rgen x.2)) c.ownerEpoch c.sessionId.toNat p) s1

/-- Canvas bytes of a session's operation have no response yet. -/
def State.canvasOut (s : State) (i : Nat) : Bool :=
  s.comp.outst.any fun t => t.purpose == .canvasData i

end Sys2Proof.Machine
end

