-- ==== Sys2Proof/Machine/Session.lean ====
section
/-! DEFINITION. Session commands: REQUEST, CANCEL (R69, R264..R266), OPEN (R76..R78), CLOSE (R71, R72), FORK (R86,
R87), SET_SESSION (R79), SESSION_QUERY (R62), token rings (R257, R260), and the device's checks of deadlines (R265) and
of the end of a CLOSE (R72). -/

namespace Sys2Proof.Machine

/-- A command whose first check may give an index or a code. -/
def withIndex (r : Except Nat Nat) (k : Nat → Reply) : Reply :=
  match r with
  | .error c => .reject c
  | .ok i => k i

/-! ## Abandoned operations (R71) -/

/-- A park of the session is abandoned and its PARK, if one waits, ends with a status. -/
def State.stopPark (s : State) (i status : Nat) : State :=
  let a := s.ax i
  ((s.abandonPark i).setAx i { a with parkTag := none, parkCause := 0 }).completeOpt a.parkTag status []

/-- A thaw of the session is abandoned and every THAW that waits ends with a status; a run-ahead thaw posts its event
(R71, R75, R116). -/
def State.stopThaw (s : State) (i status : Nat) : State :=
  let a := s.ax i
  let ahead := (s.d i).runahead
  let s1 := (s.abandonThaw i).setAx i { a with thawTags := [] }
  let s2 := if ahead then s1.sessEvent i .spring .winter 5 else s1
  a.thawTags.foldl (fun t g => t.complete g status 0 []) s2

/-- A streaming thaw of a session that has reached its Thaw end is given up (R71). -/
def State.stopStream (s : State) (i : Nat) : State := s.delStream i

/-! ## REQUEST (R69, R261, R266) -/

/-- Sampler values that R266 refuses: TEMP negative, NaN or infinite; TOP_P not in (0, 1]; TOP_K above 1,024. -/
def samplerBad (temp topP : U16) (topK : Nat) : Bool :=
  let t := rd16 temp.toNat
  let p := rd16 topP.toNat
  t.isNan || t.isInf || t.isNeg || p.isNan || p.isNeg || p.isZero || (Num.fin 1 0).lt p || decide (1024 < topK)

/-- KIND, INPUT_LEN and MAX_NEW disagree with the table *Request kinds*, or INPUT_ADDR is not aligned (R69 check 5). -/
def kindBad (r : ReqOps) : Bool :=
  let i := r.inputLen.toNat
  let m := r.maxNew.toNat
  !((r.kind == 0 && 1 ≤ i && 1 ≤ m) || (r.kind == 1 && 1 ≤ i && m == 0) || (r.kind == 2 && i == 0 && 1 ≤ m)) ||
  (i != 0 && r.inputAddr.toNat % 4 != 0)

/-- Another session's live request names the ring (R261), one that a handover has given away among them (R175). -/
def State.ringOfOther (s : State) (sl i ring : Nat) : Bool :=
  (s.desc.any fun x => x.2.slice == sl && x.1 != i && x.2.naming ring != 0) ||
  s.srv.handed.any fun h => h.slice == sl && h.ring == ring && h.via.isNone && h.sid != (s.d i).sessionId

/-- The request entry a REQUEST makes. -/
def reqEntry (r : ReqOps) (t : Tag) : Request :=
  { opcode := 0x10, kind := r.kind.toNat, rflags := r.rflags.toNat, reqSeq := r.reqSeq, handle := r.handle
    requestId := r.requestId, inputAddr := r.inputAddr, inputLen := r.inputLen.toNat, maxNew := r.maxNew.toNat
    deadline := r.deadline, tokenRing := r.tokenRing.toNat, temp := r.temp, topP := r.topP, topK := r.topK.toNat
    seed := r.seed, tag := some t }

/-- The request stored: in ACTIVE when it holds no live request, else in PENDING; a resident session's generator
counter for it starts at 0 (R69, R102); it keeps its place in the order of acceptance (R245). -/
def State.storeReq (s0 : State) (i : Nat) (q : Request) : State :=
  let n := s0.srv.acceptCtr + 1
  let s : State := { s0 with srv := { s0.srv with acceptCtr := n } }
  let r := { q with order := n }
  let d := s.d i
  let k := s.kvOf i
  let res := d.windowBase != 0
  if d.active.live then
    let s1 := s.setD i { d with pending := r }
    if res then s1.setKv i { k with sampler := { k.sampler with counterP := 0, emittedP := 0 } } else s1
  else
    let s1 := s.setD i { d with active := r }
    if res then s1.setKv i { k with sampler := { k.sampler with
      counter := 0, emitted := 0, inputDone := 0, cancel := false, heldDue := false, drafts := k.sampler.drafts } }
      else s1

/-- REQUEST (R69, R71). -/
def execRequest (h : Hdr) (r : ReqOps) (s : State) : Host.Outcome State Fault Refusal :=
  hostCmd { entry := handleNode r.handle } h (fun s t =>
    withIndex (s.tailHandle h.fn.toNat r.handle) fun i =>
      let d := s.d i
      let same (q : Request) : Bool := q.requestId == r.requestId && q != {}
      if s.closing i then .reject eSessionClosing
      else if same d.active || (d.pending.live && same d.pending) then .done s eDupRequest
      else
        let ring := r.tokenRing.toNat
        let credit := ((s.tring d.slice ring).map TRing.credit).getD 0
        let shares := d.active.names ring
        checked
          [(d.active.live && d.pending.live, eReqFull),
           (r.rflags.toNat / 8 != 0, eReservedSet),
           (kindBad r, eSessionParam),
           ((s.tring d.slice ring).isNone, eBadTring),
           (s.ringOfOther d.slice i ring || (shares && credit < 2), eTringBusy),
           (samplerBad r.temp r.topP r.topK.toNat, eSamplerParam),
           (r.deadline != 0 && r.deadline.toNat ≤ s.pkc, eDeadlinePast)]
          (let s1 := s.storeReq i (reqEntry r t)
           .later (if d.season == .autumn && d.op == .parkOwn then s1.stopPark i eOk else s1))) s

/-! ## CANCEL (R264) -/

/-- A request of a session that is not Summer has ended: a PENDING one becomes active at once (log entry 18). -/
def State.afterEnd (s : State) (i : Nat) : State :=
  if (s.d i).season == .summer then s else s.promote i

/-- CANCEL (R264). -/
def execCancel (h : Hdr) (handle requestId : U64) (s : State) : Host.Outcome State Fault Refusal :=
  hostCmd { widths := [64, 64], entry := handleNode handle } h (fun s t =>
    withIndex (s.tailHandle h.fn.toNat handle) fun i =>
      let d := s.d i
      if (s.ax i).closeAtEnd then .reject eSessionClosing
      else if d.pending.live && d.pending.requestId == requestId then
        .done (s.endPending i eCancelled (fLast + fCancelled))
      else if d.active.requestId ≠ requestId ∨ d.active == {} then .reject eNoRequest
      else if ¬ d.active.live then .done s eAlreadyDone
      else if d.season ≠ .summer then
        .done ((s.endActive i eCancelled (fLast + fCancelled) true).afterEnd i)
      else
        let k := s.kvOf i
        let s1 := s.setKv i { k with sampler := { k.sampler with cancel := true } }
        .later { s1 with srv := { s1.srv with cancels := s1.srv.cancels ++ [(i, t)] } }) s

/-- The check every 2^20 counts (R265): requests of sessions that are not Summer whose deadline has passed end with
E_DEADLINE, LAST and LATE. -/
def execDeadlineCheck (s : State) : Host.Outcome State Fault Refusal :=
  if ¬ s.pkg.latePeriod < s.period then .next s
  else .next ((s.desc.map (·.1)).foldl (fun t i =>
    let d := t.d i
    if d.season == .summer then t
    else
      let t1 := if d.pending.live && t.late d.pending then t.endPending i eDeadline (fLast + fLate) else t
      if d.active.live && t1.late d.active then (t1.endActive i eDeadline (fLast + fLate) true).afterEnd i else t1)
    { s with pkg := { s.pkg with latePeriod := s.period } })

/-! ## OPEN (R76..R78) -/

/-- A FLAGS operand with bits other than PINNED, PROTECTED, DCLASS, DEEP_OK and PAGE_MAX_LOG2 set. -/
def flagsReserved (f : Nat) : Bool := f &&& 0x0FD0 != 0

/-- A SESSION_ID held by a non-Empty descriptor of this device (R77 check 4). -/
def State.sidUsed (s : State) (sid : U64) : Bool := s.desc.any fun x => x.2.used && x.2.sessionId == sid

/-- The checks of R77 from 2 on. -/
def State.openChecks (s : State) (sl : Nat) (o : OpenOps) : List (Bool × Nat) :=
  let f := o.flags.toNat
  let pm := f / 4096
  let dc := bitsOf f 2 2
  let adopt := o.mode == 1
  let cap := ((s.curProg sl).map (·.pageMax)).getD 15
  [(flagsReserved f, eReservedSet),
   (dc == 3 || (11 ≤ pm && pm ≤ 14), eSessionParam),
   ((pm != 15 && cap < pm) || (adopt && (o.canvasTier == 0 || 3 < o.canvasTier.toNat)), eSessionParam),
   (!adopt && (s.curProg sl).isNone, eJobProgram),
   (s.sidUsed o.sessionId, eDupSessionId),
   (!adopt && o.palette != 0xFFFF && !s.palOk sl o.palette.toNat, eNoPalette),
   (dc == 1 && !s.reachable sl o.mirrorDev.toNat, eNoMirror),
   (s.emptyIndex.isNone, eTableFull),
   (!adopt && (s.freeWindow sl).isNone, eNoWindow)]

/-- The descriptor OPEN writes at index `i` (R76, R78). -/
def State.openDesc (s : State) (sl i : Nat) (o : OpenOps) : Desc :=
  let f := o.flags.toNat
  let base : Desc :=
    { season := if o.mode = 1 then .winter else .autumn, ownerState := .owned, gen := (s.d i).gen, slice := sl
      pageMaxLog2 := f / 4096, tail := true, deepOk := bitAt f 5, dclass := bitsOf f 2 2
      prot := s.confidential sl || bitAt f 1, pinned := bitAt f 0, sessionId := o.sessionId, ringSize := 1
      pageBudget := o.pageBudget.toNat, lastSummerPkc := s.pkg.pkc
      mirrorDev := if bitsOf f 2 2 = 1 then o.mirrorDev.toNat else 0xFFFF }
  if o.mode = 1 then
    { base with canvasAddr := o.canvasAddr, canvasLen := o.canvasLen.toNat, canvasTier := o.canvasTier.toNat }
  else { base with palette := o.palette.toNat, mapEpoch := s.comp.epoch }

/-- The session opened at index `i`. -/
def State.opened (s : State) (sl i : Nat) (o : OpenOps) : State :=
  let s1 := (s.setD i (s.openDesc sl i o)).descWritten i
  if o.mode = 1 then s1
  else
    let s2 := (s1.takeWindow i).setKv i {}
    if o.palette = 0xFFFF then s2 else s2.palRef o.palette.toNat true

/-- The home die of the descriptor OPEN takes (R22, R59). -/
def State.openNode (s : State) : List Nat := (s.emptyIndex.map fun i => [8 + i % 64 / 8]).getD []

/-- OPEN (R76, R77). -/
def execOpen (h : Hdr) (o : OpenOps) (s : State) : Host.Outcome State Fault Refusal :=
  if s.gessoWaits (cmdSlice h.fn.toNat o.slice.toNat) then .next s
  else hostCmd { widths := [6, 1, 64, 16, 16, 32, 16, 64, 32, 8], entry := s.openNode } h (fun s _ =>
    let sl := cmdSlice h.fn.toNat o.slice.toNat
    checked ([(!s.defined sl, eNoImage), (s.loading sl, eImgSliceBusy)] ++ s.openChecks sl o)
      (match s.emptyIndex with
       | none => .reject eTableFull
       | some i =>
         let s1 := s.opened sl i o
         .done s1 eOk [(64, (handleOf i (s1.d i)).toNat)])) s

/-! ## CLOSE (R71, R72) -/

/-- One descriptor goes to Closing: a stream is given up, its live requests end with E_SESSION_CLOSED, teardown is queued
(R71). -/
def State.closeOne (s : State) (i : Nat) (t : Option Tag) : State :=
  let s1 := (s.stopStream i).endPending i eSessionClosed fLast
  let s2 := s1.endActive i eSessionClosed fLast true
  let s3 := s2.setD i { s2.d i with season := .closing, op := .close, stream := false }
  s3.setAx i { s3.ax i with closeTag := t, closeAtEnd := false }

/-- RING_CMD operands as they are sent (log entry 27): kind, ring position, ring size, next, previous and mirror device,
DCLASS, PROTECTED, PAGE_MAX_LOG2, target device and slice, tier, flags, PAGE_BUDGET, then a FORK's ids; the model hash and palette content as
payload. -/
def ringArgs (o : RingOps) : List Nat :=
  [0, o.epoch.toNat, o.sid.toNat, o.kind.toNat, o.pos.toNat, o.size.toNat, o.next.toNat, o.prev.toNat, o.mirror.toNat,
   o.dclass.toNat, o.prot.toNat, o.pageMaxLog2.toNat, o.targetDev.toNat, o.targetSlice.toNat, o.tier.toNat, o.flags.toNat,
   o.budget.toNat] ++
  o.ids.map (·.toNat)

/-- A RING_CMD sent to a device (R360). -/
def State.ringSend (s : State) (dev : Nat) (o : RingOps) (p : Purpose) : State :=
  s.send dev 7 0x10 0xFF (ringArgs o)
    (hashBytes o.modelHash ++ match o.palette with
      | some x => hashBytes x.1 ++ bytesOf 4 x.2.toNat
      | none => []) p

/-- A ring command about a session. -/
def ringOps (kind sid epoch : Nat) : RingOps :=
  { kind := BitVec.ofNat 4 kind, sid := BitVec.ofNat 64 sid, epoch := BitVec.ofNat 32 epoch }

/-- Every descriptor of a session on this device goes to Closing, and the CLOSE is carried to the devices next to it in the
ring, but for the one it came from (R67). -/
def State.closeRing (s : State) (sid : U64) (except from_ : Nat) : State :=
  let own := s.devNo.getD 0xFFFF
  let mine := s.desc.filter fun x => x.2.sessionId == sid && x.2.used && x.2.season != .closing && x.1 != except
  let all := s.desc.filter fun x => x.2.sessionId == sid && x.2.used && (x.2.season != .closing || x.1 == except)
  let devs := (all.flatMap fun x => [x.2.ringPrev, x.2.ringNext]).eraseDups.filter fun d =>
    d != 0xFFFF && d != own && d != from_
  let epoch := all.foldl (fun n x => max n x.2.ownerEpoch) 0
  let s1 := mine.foldl (fun (t : State) x => t.closeOne x.1 none) s
  devs.foldl (fun (t : State) d => t.ringSend d (ringOps 2 sid.toNat epoch) .none) s1

/-- The session goes to Closing, on every member of its ring (R67, R71). -/
def State.toClosing (s : State) (i : Nat) (t : Option Tag) : State :=
  let d := s.d i
  if d.ringPrev = 0xFFFF ∧ d.ringNext = 0xFFFF then s.closeOne i t
  else (s.closeOne i t).closeRing d.sessionId i 0xFFFF

/-- CLOSE by season and operation (table *Season transitions*). -/
def State.closeBody (s : State) (i : Nat) (t : Tag) : Reply :=
  let d := s.d i
  if s.closing i then .reject eSessionClosing
  else match d.season, d.op with
  | .autumn, .none => .later (s.toClosing i t)
  | .autumn, .parkHost => .later ((s.stopPark i eSessionClosed).toClosing i t)
  | .autumn, .parkOwn => .later ((s.stopPark i eOk).toClosing i t)
  | .summer, _ =>
    let s1 := s.setAx i { s.ax i with closeAtEnd := true, closeTag := some t }
    .later { s1 with srv := { s1.srv with causes := tabPut s1.srv.causes i eSessionClosed } }
  | .spring, .thaw => .later ((s.stopThaw i eSessionClosed).toClosing i t)
  | .winter, .none => .later (s.toClosing i t)
  | _, _ => .reject eSessionBusy

/-- The session a CLOSE names (R71): one whose descriptor is poisoned can be closed all the same (R313). -/
def State.closeHandle (s : State) (fn : Nat) (h : U64) : Except Nat Nat :=
  match s.tailHandle fn h with
  | .error c => if c = eMemPoison then .ok (bitsOf h.toNat 0 24) else .error c
  | .ok i => .ok i

/-- CLOSE (R71). -/
def execClose (h : Hdr) (handle : U64) (s : State) : Host.Outcome State Fault Refusal :=
  hostCmd { widths := [64], entry := handleNode handle } h (fun s t =>
    withIndex (s.closeHandle h.fn.toNat handle) fun i => s.closeBody i t) s

/-- What a session holds is left where it lies, since its descriptor cannot be read: its window is not used again, its pages not
freed, before the next slice reset (R313). -/
def State.leaveSession (s : State) (i : Nat) : State :=
  let d := s.d i
  let w := match windowOf d.windowBase with
    | some w => if d.windowBase = 0 then [] else [d.slice * 2 ^ 14 + w]
    | none => []
  { s with mem := { s.mem with kv := tabDel s.mem.kv i, winGesso := s.mem.winGesso ++ w } }

/-- Teardown of a Closing session (R72 Close end): pages and its own canvas gesso-filled, GEN advances, the palette
reference is released, CLOSE completes. One whose descriptor is poisoned leaves its window, pages and canvas (R313). -/
def State.closeEnd (s : State) (i : Nat) : State :=
  let d := s.d i
  let t := (s.ax i).closeTag
  let s1 := if s.descBad i then s.leaveSession i else s.freeSession i
  let s2 := if (d.canvasTier = 1 ∨ d.canvasTier = 2) ∧ ¬ s.descBad i then s1.freeCanvas d else s1
  ((s2.toEmpty i).unmapped d.slice).completeOpt t eOk []

/-- CLOSE_END (R72): of a session that is Closing. -/
def execCloseEnd (index : BitVec 24) (s : State) : Host.Outcome State Fault Refusal :=
  if (s.d index.toNat).season = .closing then .next (s.closeEnd index.toNat) else .next s

/-! ## FORK (R86, R87, R146) -/

/-- The COUNT child SESSION_IDs of the input buffer. -/
def State.forkIds (s : State) (addr n : Nat) : Option (List U64) :=
  (s.hostRead addr (8 * n)).map fun b => (List.range n).map fun j => BitVec.ofNat 64 (le b (8 * j) 8)

/-- A list with no repeats. -/
def noDup : List U64 → Bool
  | [] => true
  | x :: xs => !xs.contains x && noDup xs

/-- What descriptor `c` is before a FORK takes it (R86): never used, or its SLICE and place in the order of R65. -/
def State.beforeFork (s : State) (c : Nat) : Option (Nat × Nat) :=
  (tabGet s.desc c).map fun d => (d.slice, (s.ax c).emptyAt)

/-- The descriptor of a child of session `i` at index `c` (R87). MAP_EPOCH is the current map epoch (DESIGN CHOICE, log entry
81). -/
def State.childDesc (s : State) (i c : Nat) (sid : U64) : Desc :=
  let p := s.d i
  { season := .autumn, ownerState := .owned, gen := (s.d c).gen, slice := p.slice, ringPos := p.ringPos
    pageMaxLog2 := p.pageMaxLog2, tail := p.tail, deepOk := p.deepOk, dclass := p.dclass
    prot := s.confidential p.slice || p.prot, sessionId := sid, mapEpoch := s.comp.epoch, palette := p.palette
    ringSize := p.ringSize, pageBudget := p.pageBudget, stretchOffset := p.stretchOffset
    committedLen := p.committedLen, tentativeLen := p.committedLen, pagesHeld := p.pagesHeld
    lastSummerPkc := s.pkg.pkc, parent := handleOf i p, ringNext := if p.tail then 0xFFFF else p.ringNext, ringPrev := p.ringPrev
    mirrorDev := p.mirrorDev, scratchLen := p.scratchLen, cursors := p.cursors }

/-- One child of session `i` made (R87): its own window and page tables, the parent's pages, scratch objects and cursors; the
child's sampler record takes the parent's carry token and drafts. -/
def State.forkChild (s : State) (i : Nat) (sid : U64) : Option (State × Nat) :=
  match s.emptyIndex with
  | none => none
  | some c =>
    let p := s.d i
    let k := s.kvOf i
    if (s.freeWindow p.slice).isNone then none
    else
      let s1 := (((s.setD c (s.childDesc i c sid)).descWritten c).setAx c { before := some (s.beforeFork c) }).takeWindow c
      let s2 := s1.setKv c { pages := k.pages, granules := k.granules, sampler :=
        { carry := k.sampler.carry, drafts := k.sampler.drafts } }
      let s3 := s2.fillSide c (s.scratchOf i) ((s.cursorsOf i).flatMap Cursor.record)
      let s4 := if p.palette < 4096 then s3.palRef p.palette true else s3
      (s4.remap p.slice).map fun t => (t, c)

/-- Children made for a list of ids; all or nothing (R86). -/
def State.forkAll (s : State) (i : Nat) : List U64 → List Nat → Option (State × List Nat)
  | [], acc => some (s, acc)
  | sid :: rest, acc => (s.forkChild i sid).bind fun x => x.1.forkAll i rest (acc ++ [x.2])

/-- FORK of session `i` into children with the given ids: every page and granule gains a reference for each child
(R87, R146), then the children are made. Answers the code of the first check that fails: a current model program (R133), then
those of R86 from 3 on; `again` says that this device has forked another position of the same ring already. -/
def State.forkNow (s : State) (i : Nat) (ids : List U64) (again : Bool := false) : Except Nat (State × List Nat) :=
  let p := s.d i
  let n := ids.length
  let k := s.kvOf i
  if (s.curProg p.slice).isNone then .error eJobProgram
  else if (!again && ids.any s.sidUsed) || !noDup ids then .error eDupSessionId
  else if 65535 < p.children + n then .error eForkLimit
  else match (s.sharePages n k.pages []).bind fun a => (a.1.shareGranules n k.granules []).map fun b => (a, b) with
  | none => .error eForkLimit
  | some (a, b) =>
    let s1 := b.1.setKv i { k with pages := a.2, granules := b.2 }
    if s.emptyIndex.isNone then .error eTableFull
    else match s1.forkAll i ids [] with
    | none => .error (if (s.desc.filter fun x => x.2.used).length + n ≤ s.tableSize then eNoWindow else eTableFull)
    | some r => .ok (r.1.setD i { r.1.d i with children := p.children + n }, r.2)

/-- The children of a FORK stay: it has completed. -/
def State.forkKept (s : State) (ids : List U64) : State :=
  ((s.desc.filter fun x => x.2.used && ids.contains x.2.sessionId).map (·.1)).foldl (fun t c =>
    t.setAx c { t.ax c with before := none }) s

/-- The output buffer of a FORK: the children's handles. -/
def State.forkOut (s : State) (ids : List U64) (addr : Nat) (cs : List Nat) : State :=
  (s.forkKept ids).hostWrite addr (cs.flatMap fun c => bytesOf 8 (handleOf c (s.d c)).toNat)

/-- The descriptors of a session on this device from one on towards position 0, and the next device down the ring, if there
is one (R89, R170); `n` bounds them. -/
def State.ringChain (s : State) : Nat → Nat → List Nat × Option Nat
  | 0, i => ([i], none)
  | n + 1, i =>
    let d := s.d i
    if d.ringPos = 0 ∨ d.ringPrev = 0xFFFF then ([i], none)
    else if s.devNo = some d.ringPrev then
      match s.desc.find? fun x => x.2.used && x.2.sessionId == d.sessionId && x.2.ringPos + 1 == d.ringPos with
      | some x =>
        let r := s.ringChain n x.1
        (i :: r.1, r.2)
      | none => ([i], none)
    else ([i], some d.ringPrev)

/-- A command of the tail carried to the other members (R67): to its positions on this device, then to the next device down
the ring. -/
def State.carry (s : State) (i : Nat) (o : RingOps) (f : State → Nat → State) : State :=
  let chain := s.ringChain 64 i
  let s1 := (chain.1.drop 1).foldl f s
  match chain.2 with
  | none => s1
  | some dev => s1.ringSend dev o .none

/-- Positions of a ring on this device forked in turn (R89); the first has been checked against ids in use. -/
def State.forkEach (s : State) (ids : List U64) : List Nat → Bool → Except Nat State
  | [], _ => .ok s
  | i :: is, again =>
    match s.forkNow i ids again with
    | .error c => .error c
    | .ok r => r.1.forkEach ids is true

/-- Count records of a later state that a state did not have. -/
def State.newRecords (s t : State) : List Nat :=
  (t.mem.counts.map (·.1)).filter fun k => (tabGet s.mem.counts k).isNone

/-- Count records made for a FORK that failed, and that count nothing shared any more, are freed (R86): the pages and granules
that name them are as before. -/
def State.dropRecords (s : State) (fresh : List Nat) : State :=
  let gone := fresh.filter fun k => tabGetD s.mem.counts 1 k ≤ 1
  let page (p : KvPage) : KvPage := if p.rcp ≠ 0 ∧ gone.contains (countKey p.elem p.rcp) then { p with rcp := 0 } else p
  let gran (g : Granule) : Granule := if g.rcp ≠ 0 ∧ gone.contains (countKey g.pa g.rcp) then { g with rcp := 0 } else g
  { s with mem := { s.mem with
    counts := gone.foldl tabDel s.mem.counts
    kv := s.mem.kv.map fun x => (x.1, { x.2 with pages := x.2.pages.map page, granules := x.2.granules.map gran }) } }

/-- A child of a FORK that failed returned to Empty with no trace (R86): GEN does not advance, SLICE and its place in the order
of R65 are those it had; page, palette and CHILDREN counts are lowered again. -/
def State.unforkOne (s : State) (c : Nat) : State :=
  let d := s.d c
  let was := (s.ax c).before
  let s1 := s.freeSession c
  let s2 := if d.palette < 4096 then s1.palRef d.palette false else s1
  let pi := bitsOf d.parent.toNat 0 24
  let s3 := s2.setD pi { s2.d pi with children := (s2.d pi).children - 1 }
  let s4 : State := match was with
    | some (some x) => (s3.setD c { gen := d.gen, slice := x.1 }).setAx c { emptyAt := x.2 }
    | _ => { s3 with desc := tabDel s3.desc c, aux := tabDel s3.aux c }
  s4.unmapped d.slice

/-- The children of a FORK that another member could not make leave no trace (R86, R89). -/
def State.unfork (s : State) (ids : List U64) (fresh : List Nat) : State :=
  (((s.desc.filter fun x => x.2.used && ids.contains x.2.sessionId && (s.ax x.1).before.isSome).map (·.1)).foldl
    State.unforkOne s).dropRecords fresh

/-- A FORK carried to the other members; it completes with their answer. `was` is the state before the FORK. -/
def State.forkRing (s was : State) (i : Nat) (ids : List U64) (children : List Nat) (out : Nat) (t : Tag) : State :=
  let d := s.d i
  let chain := s.ringChain 64 i
  match s.forkEach ids (chain.1.drop 1) true with
  | .error c => was.complete t c 0 []
  | .ok s1 => match chain.2 with
    | none => (s1.forkOut ids out children).complete t eOk 0 []
    | some dev =>
      let s2 := s1.setD i { s1.d i with op := .fork }
      let fresh := was.newRecords s1
      let f : ForkPend := { index := i, ids := ids, children := children, outAddr := out, tag := t, fresh := fresh }
      let r : Relay := { kind := 1, index := i, ids := ids }
      let s3 := { s2 with
        srv := { s2.srv with forkPends := s2.srv.forkPends ++ [f] }
        comp := { s2.comp with relays := s2.comp.relays ++ [r] } }
      s3.ringSend dev { ringOps 1 d.sessionId.toNat d.ownerEpoch with ids := ids } (.ring 1 i)

/-- FORK from its third check on (R86), of a session that no step runs. The tail of a ring carries it to the other members
(R89). -/
def State.forkCore (s : State) (i count idsAddr outAddr : Nat) (t : Tag) : Reply :=
  match s.forkIds idsAddr count with
  | none => .reject eHostRead
  | some ids =>
    match s.forkNow i ids with
    | .error c => .reject c
    | .ok r =>
      if ¬ s.hostOk outAddr (8 * count) then .reject eHostWrite
      else if (s.d i).ringSize > 1 then .later (r.1.forkRing s i ids r.2 outAddr t)
      else .done (r.1.forkOut ids outAddr r.2)

/-- FORK's checks 1 and 2 (R86), then the FORK, or its taking at the step end for a Summer session (R71). -/
def State.forkBody (s : State) (i : Nat) (count idsAddr outAddr : Nat) (t : Tag) : Reply :=
  let d := s.d i
  if count < 1 ∨ 64 < count then .reject eSessionParam
  else if s.closing i then .reject eSessionClosing
  else match d.season, d.op with
  | .summer, _ =>
    .later { s with srv := { s.srv with forks := s.srv.forks ++ [(i, [count, idsAddr, outAddr], t)] } }
  | .autumn, .none => s.forkCore i count idsAddr outAddr t
  | .winter, _ => .reject eSeason
  | _, _ => .reject eSessionBusy

/-- FORK (R86). -/
def execFork (h : Hdr) (handle : U64) (count : U32) (idsAddr outAddr : U64) (s : State) :
    Host.Outcome State Fault Refusal :=
  hostCmd { widths := [64, 32, 64, 64], entry := handleNode handle } h (fun s t =>
    withIndex (s.tailHandle h.fn.toNat handle) fun i =>
      s.forkBody i count.toNat idsAddr.toNat outAddr.toNat t) s

/-! ## SET_SESSION and SESSION_QUERY (R62, R79) -/

/-- What SET_SESSION changes in a descriptor (R79); DCLASS and MIRROR_DEV only in Autumn with no operation. -/
def State.setPolicy (s : State) (i flags budget dclass mirror : Nat) : State :=
  let d := s.d i
  let e := { d with pinned := bitAt flags 0, deepOk := bitAt flags 5, pageBudget := budget }
  s.setD i (if d.season = .autumn ∧ d.op = .none then { e with dclass := dclass, mirrorDev := mirror } else e)

/-- SET_SESSION at a ring member other than the tail (R67): its own stretch, whose mirror is its RING_NEXT (R84). -/
def State.memberSet (s : State) (o : RingOps) (i : Nat) : State :=
  let d := s.d i
  if d.season = .closing then s
  else s.setPolicy i o.flags.toNat o.budget.toNat o.dclass.toNat (if o.dclass.toNat = 1 then d.ringNext else 0xFFFF)

/-- SET_SESSION (R79): PINNED, DEEP_OK and PAGE_BUDGET in any season but Empty and Closing; DCLASS and MIRROR_DEV only in
Autumn with no operation. Its operands give every value; one that differs from the session's is a change (log entry
19). -/
def execSetSession (h : Hdr) (o : SetOps) (s : State) : Host.Outcome State Fault Refusal :=
  hostCmd { widths := [64, 16, 32, 16], entry := handleNode o.handle } h (fun s _ =>
    withIndex (s.handle h.fn.toNat o.handle) fun i =>
      let d := s.d i
      let f := o.flags.toNat
      let dc := bitsOf f 2 2
      let pm := f / 4096
      let mir := if dc = 1 then o.mirrorDev.toNat else 0xFFFF
      let moves := dc != d.dclass || mir != d.mirrorDev
      checked
        [(!d.used || d.season == .closing, eSeason),
         (!d.tail, eNotTail),
         ((s.ax i).closeAtEnd, eSessionClosing),
         (moves && !(d.season == .autumn && d.op == .none), eSeason),
         (flagsReserved f, eReservedSet),
         (dc == 3 || (11 ≤ pm && pm ≤ 14), eSessionParam),
         (moves && dc == 1 && !s.reachable d.slice mir, eNoMirror)]
        (.done ((s.setPolicy i f o.pageBudget.toNat dc mir).carry i
          { ringOps 9 d.sessionId.toNat d.ownerEpoch with
            flags := o.flags, budget := o.pageBudget, dclass := BitVec.ofNat 2 dc }
          fun t k => t.setPolicy k f o.pageBudget.toNat dc (if dc = 1 then (t.d k).ringNext else 0xFFFF)))) s

/-- The copy SESSION_QUERY returns (R62): TENTATIVE_LEN shows tentative tokens only before the commit point. -/
def State.queryCopy (s : State) (i : Nat) : Desc :=
  let d := s.d i
  let open_ := match tabGet s.srv.jobs d.slice with
    | some j => j.inStep && j.batch.any fun r => r.index == i && !r.committed
    | none => false
  if open_ then d else { d with tentativeLen := d.committedLen }

/-- SESSION_QUERY (R62): any ring member's descriptor (R67). -/
def execSessionQuery (h : Hdr) (handle outAddr : U64) (s : State) : Host.Outcome State Fault Refusal :=
  hostCmd { widths := [64, 64], entry := handleNode handle } h (fun s _ =>
    withIndex (s.handle h.fn.toNat handle) fun i =>
      if ¬ (s.d i).used then .reject eStaleHandle
      else if s.hostOk outAddr.toNat 256 then .done (s.hostWrite outAddr.toNat (s.queryCopy i).bytes)
      else .reject eHostWrite) s

/-! ## Token rings (R257, R260) -/

/-- TRING_CREATE (R257). -/
def execTringCreate (h : Hdr) (slice : BitVec 6) (ring : U16) (log2 : BitVec 5) (base tailAddr : U64)
    (vector : BitVec 11) (ien : U1) (s : State) : Host.Outcome State Fault Refusal :=
  hostCmd { widths := [6, 16, 5, 64, 64, 11, 1] } h (fun s _ =>
    let fn := h.fn.toNat
    let sl := cmdSlice fn slice.toNat
    let n := 2 ^ log2.toNat
    checked
      [(!s.defined sl, eNoImage),
       (!(ring.toNat < 16384 && 6 ≤ log2.toNat && log2.toNat ≤ 16 && base.toNat % max 4096 (16 * n) == 0 &&
          tailAddr.toNat % 8 == 0 && vector.toNat < msixSize fn), eTringParam),
       ((s.tring sl ring.toNat).isSome, eTringExists),
       (decide (65536 ≤ s.srv.rings.length), eTringLimit)]
      (.done (s.setRing (ringKey sl ring.toNat) ⟨fn, log2.toNat, base, tailAddr, vector.toNat, ien == 1, 0, 0, false⟩))) s

/-- TRING_DESTROY (R257): by the ring's own function only, while no live request names it. -/
def execTringDestroy (h : Hdr) (slice : BitVec 6) (ring : U16) (s : State) : Host.Outcome State Fault Refusal :=
  hostCmd { widths := [6, 16] } h (fun s _ =>
    let fn := h.fn.toNat
    let sl := cmdSlice fn slice.toNat
    let owned := match s.tring sl ring.toNat with
      | some t => t.fn == fn
      | none => false
    checked [(!s.defined sl, eNoImage), (!owned, eBadTring), (s.ringReserve sl ring.toNat != 0, eTringBusy)]
      (.done { s with srv := { s.srv with rings := tabDel s.srv.rings (ringKey sl ring.toNat) } })) s

/-- The credit doorbell (R260, R465): C between the last accepted C and P, both modulo 2^32, else ignored and counted
in TRING_BAD_CREDIT; a ring that is not the function's counts as an ignored doorbell. -/
def execTringCreditDoorbell (fn slice : BitVec 6) (ring : BitVec 14) (value : U32) (s : State) :
    Host.Outcome State Fault Refusal :=
  match s.tring slice.toNat ring.toNat with
  | none => .next (s.bump .dbIgnored fn.toNat 1)
  | some t =>
    if t.fn ≠ fn.toNat then .next (s.bump .dbIgnored fn.toNat 1)
    else if (2 ^ 32 + t.p - t.c) % 2 ^ 32 < (2 ^ 32 + value.toNat - t.c) % 2 ^ 32 then
      .next (s.bump .tringBadCredit 0 1)
    else .next ((s.setRing (ringKey slice.toNat ring.toNat) { t with c := value.toNat }).passCredit slice.toNat ring.toNat)

end Sys2Proof.Machine
end

