-- ==== Sys2Proof/Machine/Seasons.lean ====
section
/-! DEFINITION. Parks, thaws and the device's own parking: PARK (R107), THAW (R112), canvas work items (R97, R98), the
ends of parks and thaws (R107, R113), streaming thaws (R114, R115), run-ahead thaws (R116), priority copies (R118), own
parks (R80..R83). -/

namespace Sys2Proof.Machine

/-! ## PARK (R107) -/

/-- The checks of R107 from 1 on for a park of session `i` to a tier (0 already resolved); the members of a T2 park and
the address of a T1 or T3 one. -/
def State.parkTarget (s : State) (i tier : Nat) (deep : Bool) (hostAddr : U64) :
    Except Nat (U64 × List Nat) :=
  let d := s.d i
  let n := s.rawUnits i deep
  if s.module = 2 ∧ s.sealFor d.prot tier ≠ 0 then .error eCryptoError
  else if tier = 3 then .ok (hostAddr, [])
  else if tier = 1 then
    match s.winterFit d.slice n with
    | some a => .ok (BitVec.ofNat 64 a, [])
    | none => .error eNoWinterRoom
  else
    let ms := s.canvasMembers d.slice d.prot (unitsPerMember d.dclass n)
    if ms.length < membersNeeded d.dclass then .error eCanvasTarget
    else .ok (0, ms.take (membersNeeded d.dclass))

/-- The season column PARK of *Season transitions*: the code that refuses it, if any. -/
def State.parkSeason (s : State) (i : Nat) : Option Nat :=
  let d := s.d i
  if s.closing i then some eSessionClosing
  else match d.season, d.op with
  | .autumn, .none => if d.liveReq then some eReqActive else none
  | .summer, _ => some eSeason
  | .winter, _ => some eSeason
  | _, _ => some eSessionBusy

/-- PARK carried to another member's stretch (R67): it parks as the tail does, its T3 canvas at its own slice's Winter target,
because one host buffer holds one canvas; where it cannot, it stays as it is (DESIGN CHOICE, log entry 86). -/
def State.memberPark (s : State) (i tier : Nat) (deep comp : Bool) : State :=
  let tr := if tier = 3 then s.winterTier (s.d i).slice else tier
  if (s.parkSeason i).isSome then s
  else match s.parkTarget i tr deep 0 with
    | .error _ => s
    | .ok x => s.startPark i .parkHost tr x.1 x.2 deep comp true

/-- PARK (R107). -/
def execPark (h : Hdr) (handle : U64) (tier : BitVec 2) (deep compress : U1) (hostAddr : U64) (hostLen : U32)
    (s : State) : Host.Outcome State Fault Refusal :=
  hostCmd { widths := [64, 2, 1, 1, 64, 32], entry := handleNode handle } h (fun s t =>
    withIndex (s.tailHandle h.fn.toNat handle) fun i =>
      match s.parkSeason i with
      | some c => .reject c
      | none =>
        let d := s.d i
        let tr := if tier = 0 then s.winterTier d.slice else tier.toNat
        let n := s.rawUnits i (deep == 1)
        if tr = 3 ∧ hostAddr.toNat % 4096 ≠ 0 then .reject eSessionParam
        else if tr = 3 ∧ hostLen.toNat < n then .reject eCanvasLen 0 [(32, n)]
        else match s.parkTarget i tr (deep == 1) hostAddr with
        | .error c => .reject c
        | .ok x =>
          let s1 := s.startPark i .parkHost tr x.1 x.2 (deep == 1) (compress == 1) true
          let s2 := s1.setAx i { s1.ax i with parkTag := some t }
          .later (s2.carry i { ringOps 7 d.sessionId.toNat d.ownerEpoch with
              tier := BitVec.ofNat 2 tr, flags := BitVec.ofNat 16 (deep.toNat + 2 * compress.toNat) }
            fun u k => u.memberPark k tr (deep == 1) (compress == 1))) s

/-! ## THAW (R112) -/

/-- THAW of a Winter session: the checks, then Spring. -/
def State.thawWinter (s : State) (i : Nat) (stream : Bool) (t : Tag) : Reply :=
  match s.thawChecks i with
  | .error c => .reject c
  | .ok c =>
    let s1 := s.startThaw i c stream false
    .later (s1.setAx i { s1.ax i with thawTags := [t] })

/-- THAW carried to another member's stretch (R67): a stretch in Winter is thawed, a park of it cancelled. -/
def State.memberThaw (s : State) (i : Nat) (stream lc : Bool) : State :=
  let d := s.d i
  match d.season, d.op with
  | .winter, .none =>
    match s.thawChecks i with
    | .ok c => s.startThaw i c (stream && lc) (!lc)
    | .error _ => s
  | .autumn, .parkHost => s.stopPark i eParkCancelled
  | .autumn, .parkOwn => s.stopPark i eOk
  | .spring, .thaw =>
    match s.opOf i with
    | some o => if lc then s.setOp { o with lc := true } else s
    | none => s
  | _, _ => s

/-- A THAW of the tail's stretch carried to the other members (R67). -/
def State.carryThaw (s : State) (i : Nat) (stream lc : Bool) : State :=
  let d := s.d i
  s.carry i { ringOps 8 d.sessionId.toNat d.ownerEpoch with
      flags := BitVec.ofNat 16 (boolBit stream + 2 * boolBit lc) }
    fun u k => u.memberThaw k stream lc

/-- The state a reply carries, changed by `f`; a rejected command changes nothing (R4). -/
def Reply.andThen (r : Reply) (f : State → State) : Reply := match r with
  | .done s c d => .done (f s) c d
  | .later s => .later (f s)
  | r => r

/-- The season column THAW of *Season transitions*. -/
def State.thawBody (s : State) (i : Nat) (stream : Bool) (t : Tag) : Reply :=
  let d := s.d i
  if s.closing i then .reject eSessionClosing
  else match d.season, d.op with
  | .autumn, .parkHost => .done (s.stopPark i eParkCancelled)
  | .autumn, .parkOwn => .done (s.stopPark i eOk)
  | .autumn, .none => .reject eSeason
  | .summer, _ => .reject eSeason
  | .spring, .thaw =>
    if d.runahead then
      let s1 := s.setAx i { s.ax i with thawTags := (s.ax i).thawTags ++ [t] }
      .later (match s1.opOf i with
        | some o => s1.setOp { o with lc := true }
        | none => s1)
    else .reject eSessionBusy
  | .winter, .none => s.thawWinter i stream t
  | _, _ => .reject eSessionBusy

/-- THAW (R112). -/
def execThaw (h : Hdr) (handle : U64) (stream : U1) (s : State) : Host.Outcome State Fault Refusal :=
  hostCmd { widths := [64, 1], entry := handleNode handle } h (fun s t =>
    withIndex (s.tailHandle h.fn.toNat handle) fun i =>
      if s.loading (s.d i).slice then .reject eImgSliceBusy
      else (s.thawBody i (stream == 1) t).andThen fun u => u.carryThaw i (stream == 1) true) s

/-! ## Work items (R97, R98) -/

/-- A canvas cannot be read whole: the thaw is abandoned (R113); in a migration the receiver then refuses (R121). -/
def State.readStops (s : State) (o : CanvasOp) (code : Nat) : State :=
  if o.kind = 4 then s.setOp { o with todo := [], small := false, status := code } else s.stopThaw o.index code

/-- A hash of a canvas that is read fails at an engine of a die (R113). -/
def State.itemFails (s : State) (o : CanvasOp) (die : Nat) : State := (s.bump .ceHashFail die 1).readStops o eCanvasHash

/-- A page of a canvas as its second fetch finds it (R115): rebuilt from other fragments where the canvas is coded, else read
from the canvas once more. -/
def State.refetched (s : State) (i n : Nat) (q : CanvasPage) : CanvasPage :=
  let d := s.d i
  let coded := (s.storedAt d).any fun c => 1 < c.members.length
  if coded then match Config.rebuiltPage d.canvasAddr.toNat n with
    | some b => { q with data := b, bad := false }
    | none => q
  else ((s.canvasFor d).bind fun c => c.pages[n]?).getD q

/-- What a page of a streaming thaw that fails its hash meets (R115): fetched once more, it fails for good only when that
fails too. -/
def State.retryPage (s : State) (o : CanvasOp) (n : Nat) (q : CanvasPage) (lost : State → State) : State :=
  let die := s.itemDie o (n + 1)
  let q2 := s.refetched o.index n q
  let s1 := (s.bump .ceHashFail die 1).ceBytes (s.d o.index).slice die q2.data.length
  if q2.bad then lost (s1.bump .ceHashFail die 1)
  else
    let o2 := { o with canvas := { o.canvas with
      pages := o.canvas.pages.zipIdx.map fun x => if x.2 = n then q2 else x.1 }, retried := o.retried ++ [n] }
    (s1.setOp o2).rebuildPage o2 n

/-- A page of a thaw before its Thaw end: verified, then rebuilt (R113). -/
def State.thawItem (s : State) (o : CanvasOp) (n : Nat) : State :=
  match o.canvas.pages[n]? with
  | none => s
  | some q =>
    let die := s.itemDie o (n + 1)
    let s1 := s.ceBytes (s.d o.index).slice die q.data.length
    if ¬ q.bad then s1.rebuildPage o n
    else if o.kind == 2 && (s.d o.index).stream then s1.retryPage o n q fun t => t.stopThaw o.index eCanvasHash
    else s1.itemFails o die

/-- The small sections of a canvas that is read: each must match its directory hash, and so must the KV section where every
page is rebuilt before Thaw end (R113, R114). -/
def State.thawSmall (s : State) (o : CanvasOp) : State :=
  let stream := o.kind == 2 && (s.d o.index).stream
  if o.canvas.smallOk && (stream || o.canvas.kvOk) then s.setOp { o with small := false }
  else s.itemFails o (homeDie o.index)

/-- The stored bytes of page `n` of a canvas that is written. -/
def State.storedLen (s : State) (o : CanvasOp) (n : Nat) : Nat :=
  ((s.opOf o.index).bind fun x => x.canvas.pages[n]?.map (·.data.length)).getD 0

/-- One item done by an engine of its die (R97), the bytes it moved counted as they are stored (R128). -/
def State.doItem (s : State) (o : CanvasOp) (n : Nat) : State :=
  let d := s.d o.index
  if n = 0 then
    let s1 := s.ceBytes d.slice (homeDie o.index) (4096 * o.canvas.sideUnits)
    if o.kind = 1 ∨ o.kind = 3 then s1.smallDone o else s1.thawSmall o
  else if o.kind = 1 ∨ o.kind = 3 then
    let s1 := s.pageCopied o (n - 1)
    s1.ceBytes d.slice (s.itemDie o n) (s1.storedLen o (n - 1))
  else s.thawItem o (n - 1)

/-! ## Park end (R107 steps 5, 6) -/

/-- Every pool member of a T2 canvas has answered its POOL_ALLOC. -/
def CanvasOp.placed (o : CanvasOp) : Bool := o.tier != 2 || o.members.all fun m => m.2.isSome

/-- The session's resident memory is released and it is Winter on its canvas (R107 step 6). -/
def State.toWinter (s : State) (i : Nat) (deep : Bool) (addr : U64) (len tier : Nat) : State :=
  let s1 := s.freeSession i
  let d := s1.d i
  (s1.setD i { d with
    season := .winter, op := .none, deep := deep, stream := false, runahead := false, windowBase := 0, ptRoot := 0
    scratchAddr := 0, pagesHeld := 0, reservePage := 0, tentativeLen := d.committedLen
    canvasAddr := addr, canvasLen := len, canvasTier := tier }).unmapped d.slice

/-- The trailer is written and the session becomes Winter: the park completes, or the own park posts its event. -/
def State.finishPark (s : State) (o : CanvasOp) : State :=
  let i := o.index
  let d := s.d i
  let len := o.canvas.units
  let c := { o.canvas with len := len, complete := true, desc := { o.canvas.desc with canvasLen := 0 } }
  let key := s.canvasKey c.sealMode c.sealNonce c.sessionId c.compositionId
  let ms := o.members.map fun m => (m.1, m.2.getD 0)
  let addr : U64 := if o.tier = 2 then
      (match ms with
       | m :: _ => BitVec.ofNat 64 (2 ^ 48 * m.1 + m.2)
       | [] => 0)
    else o.addr
  let a := s.ax i
  if o.tier = 3 ∧ ¬ s.hostOk o.addr.toNat (len * 4096) then s.stopPark i eHostWrite
  else
    let s1 := if o.tier = 3 then s.hostWrite o.addr.toNat (c.bytes (if c.sealMode = 0 then none else key))
      else { s with cnv := { s.cnv with stored := s.cnv.stored ++ [
        { tier := o.tier, slice := d.slice, addr := addr, canvas := c, members := ms, keygen := s.sec.current }] } }
    let s2 := ((s1.delOp i).toWinter i c.deep addr len o.tier).bump .ceParks (homeDie i) 1
    let s3 := s2.setAx i { s2.ax i with parkTag := none, parkCause := 0 }
    if a.parkCause = 0 then s3.completeOpt a.parkTag eOk [(packBytes [(32, len)])].flatten
    else (s3.bump .ownParks d.slice 1).sessEvent i .autumn .winter a.parkCause

/-- The bytes of a T2 canvas sent to its members (R107 step 5, R381, R382). -/
def State.sendPark (s : State) (o : CanvasOp) : State :=
  let c := { o.canvas with len := o.canvas.units, complete := true, desc := { o.canvas.desc with canvasLen := 0 } }
  let key := s.canvasKey c.sealMode c.sealNonce c.sessionId c.compositionId
  (s.setOp { o with sent := true }).sendMembers c (o.members.map fun m => (m.1, m.2.getD 0)) 0
    (c.bytes (if c.sealMode = 0 then none else key)) (.canvasData o.index)

/-! ## Thaw end and streams (R113..R117) -/

/-- The descriptor rebuilt at Thaw end (R113): lengths, owner epoch and page maximum come from the canvas's DESCRIPTOR
section, the policy fields stay the descriptor's (log entry 20). -/
def State.thawedDesc (s : State) (i : Nat) (c : Canvas) : Desc :=
  let d := s.d i
  let p := (s.curProg d.slice).getD (progOf [])
  let x := c.desc
  let pal := if d.palette < 4096 then d.palette
    else match c.palette with
      | some q => (s.palFind d.slice q.1 q.2).getD 0xFFFF
      | none => 0xFFFF
  { d with
    season := .autumn, op := .none, runahead := false, deep := false
    pageMaxLog2 := if c.pages.isEmpty then x.pageMaxLog2 else c.pageMax p
    ownerEpoch := x.ownerEpoch, palette := pal, stretchOffset := c.stretchOffset, committedLen := c.committedLen
    tentativeLen := c.committedLen, pagesHeld := c.pages.length, lastSummerPkc := s.pkg.pkc
    heldReason := .none, heldSteps := 0, scratchLen := c.scratch.length, cursors := c.cursors.length }

/-- The sampler record restored; a request that was stored since the cut begins with its counters at 0. -/
def State.thawedSampler (s : State) (i : Nat) (c : Canvas) : Sampler :=
  if (s.d i).active.live then
    { c.sampler with counter := 0, emitted := 0, counterP := 0, emittedP := 0, inputDone := 0, cancel := false
                     heldDue := false }
  else c.sampler

/-- The canvas of a session freed at the end of its thaw (T1, T2), and the descriptor names none (R113, R114). -/
def State.streamEnd (s : State) (i : Nat) : State :=
  let d := s.d i
  let s1 := if d.canvasTier = 3 then s else s.freeCanvas d
  let s2 := s1.setD i { s1.d i with stream := false, canvasAddr := 0, canvasLen := 0, canvasTier := 0 }
  -- a PARK or MIGRATE that waited makes its cut now
  let ops := s2.cnv.ops.filter fun o => !(o.index == i && o.kind == 2)
  let s3 := { s2 with cnv := { s2.cnv with ops := ops } }
  match s3.opOf i with
  | some o =>
    if o.waiting then
      let c := s3.cut i o.canvas.deep o.canvas.compressed o.canvas.sealMode
      ((s3.setOp { o with waiting := false, canvas := c, todo := List.range c.pages.length }).guardAll i true).ceFill
    else s3
  | none => s3

/-- Thaw end (R72, R113, R114). -/
def State.finishThaw (s : State) (o : CanvasOp) : State :=
  let i := o.index
  let d := s.d i
  let a := s.ax i
  let dn := s.thawedDesc i o.canvas
  let s1 := s.setD i dn
  let s2 := s1.setKv i { s1.kvOf i with sampler := s.thawedSampler i o.canvas }
  let s3 := s2.fillSide i o.canvas.scratch (o.canvas.cursors.flatMap Cursor.record)
  let s4 := if d.palette < 4096 ∨ dn.palette ≥ 4096 then s3 else s3.palRef dn.palette true
  let s5 := s4.setAx i { s4.ax i with thawTags := [] }
  let s6 := if o.todo.isEmpty then s5.streamEnd i else s5.setOp { o with streaming := true }
  let s7 := s6.bump .ceThaws (homeDie i) 1
  let s8 := if d.runahead then s7.sessEvent i .spring .autumn 4 else s7
  a.thawTags.foldl (fun t g => t.complete g eOk 0 []) s8

/-- RUNAHEAD_THAW_START (R72, R116): a Winter session with a live request whose canvas passes the checks, while a canvas engine
of its home die is free for BE work; posts RUNAHEAD_START. -/
def execRunaheadThawStart (index : BitVec 24) (s : State) : Host.Outcome State Fault Refusal :=
  let i := index.toNat
  let d := s.d i
  if d.season = .winter ∧ d.op = .none ∧ d.active.live ∧ ¬ s.loading d.slice ∧ s.dieUp (homeDie i) ∧
      s.locked (homeDie i) < 65536 ∧ s.ceFree (homeDie i) ∧ ¬ s.lcWaits (homeDie i) then
    match s.thawChecks i with
    | .ok c => .next (((s.startThaw i c false true).carryThaw i false false).sessEvent i .winter .spring 3)
    | .error _ => .next s
  else .next s

/-- The page still to stream that holds the row at an offset of a session's window (R114). -/
def streamPageAt (g : Geom) (d : Desc) (o : CanvasOp) (off : Nat) : Option Nat :=
  let n := 16384 + g.cap
  let a := if off < g.layers * g.e * n then 0 else if off < g.layers * (g.e + g.s) * n then 1 else 2
  let u := g.unit a
  if u = 0 then none
  else
    let l := (off - g.areaAt a 0) / (u * n)
    let slot := (off - g.areaAt a 0) % (u * n) / u
    o.todo.find? fun k => match o.canvas.pages[k]? with
      | some q => q.layer == l && q.first - d.stretchOffset + 16 ≤ slot &&
          slot < q.first - d.stretchOffset + 16 + 16 * 2 ^ q.log2
      | none => false

/-- STREAM_FAULT (R114): a walker's fault on a page that is not present moves it to the head of the stream. -/
def execStreamFault (slice : BitVec 6) (va : BitVec 52) (s : State) : Host.Outcome State Fault Refusal :=
  match windowOf va.toNat with
  | none => .next s
  | some w => match s.windowOwner slice.toNat w, s.geom slice.toNat with
    | some (i, d), some g => match s.streamOf i with
      | none => .next s
      | some o => match streamPageAt g d o (va.toNat - windowBase w) with
        | none => .next s
        | some k => .next { s with cnv := { s.cnv with ops := s.cnv.ops.map fun x =>
            if x == o then { x with todo := k :: x.todo.filter (· != k) } else x } }
    | _, _ => .next s

/-! ## Own parks (R80..R83) -/

/-- Bytes of one layer's page of a class (R140, R142). -/
def pageSize (g : Geom) (log2 : Nat) : Nat := 16 * 2 ^ log2 * (g.e + g.s + g.c)

/-- KV bytes of a session on this device (R80). -/
def State.kvBytes (s : State) (i : Nat) : Nat :=
  match s.geom (s.d i).slice with
  | none => 0
  | some g => (s.kvOf i).pages.foldl (fun n p => n + pageSize g p.log2) 0

/-- A of R80: counts since the last Summer step. -/
def State.idleFor (s : State) (i : Nat) : Nat := s.pkc - (s.d i).lastSummerPkc.toNat

/-- The victim score S of R80. -/
def State.score (s : State) (i : Nat) : Nat := s.idleFor i / 2 ^ 20 * (1 + s.kvBytes i / 2 ^ 30)

/-- The bytes that a park of a session would free: those of its pages that no other session shares (R82, R88). -/
def State.freesBytes (s : State) (i : Nat) : Nat :=
  match s.geom (s.d i).slice with
  | none => 0
  | some g => ((s.kvOf i).pages.filter fun p => s.count p.elem p.rcp ≤ 1).foldl (fun n p => n + pageSize g p.log2) 0

/-- A session that own parking may choose (R80). A member's stretch that is not the tail is not (DESIGN CHOICE, log entry 82). -/
def State.eligible (s : State) (i : Nat) : Bool :=
  let d := s.d i
  d.season == .autumn && d.op == .none && !d.pinned && !d.liveReq && d.ownerState == .owned && !d.stream && d.tail

/-- Eligible sessions that meet a condition, in descending score, then ascending index (R80). -/
def State.victims (s : State) (p : Nat → Bool) : List Nat :=
  ((s.desc.map (·.1)).filter fun i => s.eligible i && p i).mergeSort fun a b =>
    s.score b < s.score a || (s.score a == s.score b && a ≤ b)

/-- An own park begun (R83): target by the tier map, D1 and D2 to T2; Deep Winter by DEEP_OK and SESS_POLICY.DEEP_OWN;
no room leaves the session in Autumn and counts in OWN_PARK_FAIL. A crypto module that cannot seal is no lack of room. -/
def State.ownPark (s : State) (cause i : Nat) (lc : Bool) : State :=
  let d := s.d i
  let tier := if d.dclass ≠ 0 then 2 else s.winterTier d.slice
  let deep := d.deepOk && s.fld .sessPolicy d.slice 0 0 1 == 1
  match s.parkTarget i tier deep 0 with
  | .error c => if c = eCryptoError then s else s.bump .ownParkFail d.slice 1
  | .ok x =>
    let s1 := s.startPark i .parkOwn tier x.1 x.2 deep false lc
    s1.setAx i { s1.ax i with parkCause := cause }

/-- IDLE_PARK_CHECK (R81): once every 2^26 counts a state die parks its home sessions that have waited past the slice's idle
limit. -/
def execIdleParkCheck (die : BitVec 3) (s : State) : Host.Outcome State Fault Refusal :=
  let k := s.pkc / 2 ^ 26
  let due (i : Nat) : Bool :=
    let lim := s.reg64 .sessIdleLimitLo .sessIdleLimitHi (s.d i).slice
    homeDie i == die.toNat && lim != 0 && decide (lim < s.idleFor i)
  if s.dieUp die.toNat && decide (tabGetD s.cnv.idleChecked 0 die.toNat < k) then
    let t := { s with cnv := { s.cnv with idleChecked := tabPut s.cnv.idleChecked die.toNat k } }
    .next ((t.victims due).foldl (fun u i => u.ownPark 1 i false) t)
  else .next s

/-- Pressure parks of a slice in flight (R82). -/
def State.pressureParks (s : State) (sl : Nat) : Nat :=
  (s.desc.filter fun x => x.2.slice == sl && x.2.op == .parkOwn && (s.ax x.1).parkCause == 2).length

/-- Pressure parking (R82): victims of the slice in descending score, at most 8 in flight, until the pages they will
free cover the outstanding allocations of the slice, `need` bytes. -/
def State.pressurePark (s : State) (sl need : Nat) : State :=
  let go := (s.victims fun i => (s.d i).slice == sl).foldl (fun (acc : State × Nat) i =>
    if acc.2 ≥ need ∨ 8 ≤ acc.1.pressureParks sl then acc
    else
      let t := acc.1.ownPark 2 i true
      if (t.d i).op == .parkOwn then (t, acc.2 + s.freesBytes i) else (t, acc.2))
    (s, (s.desc.filter fun x => x.2.slice == sl && x.2.op == .parkOwn && (s.ax x.1).parkCause == 2).foldl
      (fun n x => n + s.freesBytes x.1) 0)
  go.1

end Sys2Proof.Machine
end

