-- ==== Sys2Proof/Machine/StepStart.lean ====
section
/-! DEFINITION. The start of a step (R245..R249): the batch, holds, drafts, pages, limits, the prefill budget, and the
start of a tail handover (R174). -/

namespace Sys2Proof.Machine

/-! ## Holds (R155, R262, R265) -/

/-- HELD_REASON and HELD_STEPS of a session that is held: consecutive held steps of one reason; a step that succeeds clears
them at its end (R155, R262). The first entry after a hold carries HELD. -/
def State.markHeld (s : State) (r : BatchRow) : State :=
  let d := s.d r.index
  let k := s.kvOf r.index
  if r.held == .none then s
  else
    let n := if d.heldReason = r.held then min 0xFFFF (d.heldSteps + 1) else 1
    let s1 := (s.setD r.index { d with heldReason := r.held, heldSteps := n }).setKv r.index
      { k with sampler := { k.sampler with heldDue := true } }
    if r.held = .noPage then s1.bump .kvNopageHolds d.slice 1
    else if r.held = .ringFull then s1.bump .ringFullHolds d.slice 1 else s1

/-! ## Canvas streams and the start of a tail handover (R174) -/

/-- Bytes sent to a device as CANVAS DATA transactions of at most 16,384 bytes at their canvas offsets (R111, R359). -/
def State.sendCanvas (s : State) (dev sl : Nat) (b : Bytes) (args : List Nat) (p : Purpose) : State :=
  (pieces 16384 (divUp b.length 16384) b).zipIdx.foldl (fun t x => t.send dev 5 1 sl ((16384 * x.2) :: args) x.1 p) s

/-- The tail canvas (R174 step 2): no KV, OWNER_EPOCH n + 1, its requests, sampler record, scratch and cursors. -/
def State.tailCanvas (s : State) (i epoch : Nat) : Canvas :=
  let d := s.d i
  let c := s.cut i false false (s.sealFor d.prot 2)
  { c with ownerEpoch := epoch, pages := [], desc := { d with ownerEpoch := epoch }
           scratch := s.scratchOf i, cursors := s.cursorsOf i
           len := canvasUnits [] c.palette.isSome (s.scratchOf i).length (s.cursorsOf i).length, complete := true }

/-- Steps 1 and 2 of *Tail handover*: the session is held OWNER, which the first entry after it shows (R262). -/
def State.startHandover (s : State) (r : BatchRow) : State :=
  let i := r.index
  let s0 := s.markHeld { r with held := .owner }
  let d := s0.d i
  let n := d.ownerEpoch + 1
  let sl := if (s0.ax i).nextSlice < 64 then (s0.ax i).nextSlice else d.slice
  let c := s0.tailCanvas i n
  let key := s0.canvasKey c.sealMode c.sealNonce c.sessionId c.compositionId
  let ho : Handoff := { index := i, giver := true, peer := d.ringNext, peerSlice := sl, epoch := n, step := 2
                        tail := true, since := s.pkg.pkc, sid := d.sessionId, slice := d.slice, own := handleOf i d }
  let s1 := s0.setD i { d with ownerState := .handing, season := .autumn }
  let s2 := { s1 with handoffs := s1.handoffs ++ [ho] }
  (if c.sealMode = 0 then s2 else s2.drew).sendCanvas d.ringNext sl
    (c.bytes (if c.sealMode = 0 then none else key)) [n, d.sessionId.toNat] (.handoff i)

/-! ## The batch (R245) -/

/-- r of a session's ring, and whether its credit lets a step begin (R245, R262). -/
def State.creditOk (s : State) (i : Nat) : Bool :=
  let d := s.d i
  let r := s.reqReserve i d.active
  let credit := ((s.reqRing i d.active).map TRing.credit).getD 0
  if d.active.kind = 1 then r ≤ credit else r + 1 ≤ credit

/-- An Autumn session that may join (R72, R245). -/
def State.joinable (s : State) (sl i : Nat) : Bool :=
  let d := s.d i
  d.slice == sl && d.season == .autumn && d.op == .none && d.ownerState == .owned && d.active.live && d.tail &&
  !s.closing i && s.creditOk i && !s.late d.active

/-- Sessions that meet a condition, in the order in which their requests were accepted (R245). -/
def State.byAcceptance (s : State) (p : Nat → Bool) : List Nat :=
  ((s.desc.map (·.1)).filter p).mergeSort fun a b =>
    let x := (s.d a).active.order
    let y := (s.d b).active.order
    x < y || (x == y && a ≤ b)

/-- Those of some sessions that their home dies' caches have a lock for (R61), in order. -/
def State.lockable (s : State) (l : List Nat) : List Nat :=
  l.foldl (fun acc i =>
    let h := homeDie i
    if s.locked h + (acc.filter fun k => homeDie k == h).length < 65536 then acc ++ [i] else acc) []

/-- The batch of a step (R245). -/
def State.batchOf (s : State) (sl : Nat) : List Nat :=
  let summer := (s.desc.filter fun x => x.2.slice == sl && x.2.season == .summer).map (·.1)
  let lc := s.byAcceptance fun i => s.joinable sl i && bitAt (s.d i).active.rflags 0
  let be := s.byAcceptance fun i => s.joinable sl i && !bitAt (s.d i).active.rflags 0
  let room := s.fld .serveBatch sl 0 0 13 - summer.length
  summer ++ (s.lockable (lc ++ be)).take room

/-! ## Rows (R246, R247, R255) -/

/-- The plan has a draft head stage (R255). -/
def planDrafts (plan : List Stage) : Bool := plan.any fun s => s.role == 0x0A

/-- D before pages are considered (R255). -/
def State.draftCount (s : State) (i : Nat) (plan : List Stage) : Nat :=
  let d := s.d i
  let m := (s.kvOf i).sampler
  let r := d.active
  if r.kind = 1 ∨ ¬ bitAt r.rflags 1 ∨ ¬ planDrafts plan ∨ m.inputDone < r.inputLen then 0
  else
    let credit := ((s.reqRing i r).map TRing.credit).getD 0
    min (min (s.fld .serveSpec d.slice 0 0 4) m.drafts.length)
      (min (r.maxNew - m.emitted - 1) (credit - s.reqReserve i r - 1))

/-- The cause that a chunk's input gives (R266): it cannot be read, or a token is not below VOCAB; 0 for none. -/
def State.inputCause (s : State) (i chunk vocab : Nat) : Nat :=
  let d := s.d i
  if chunk = 0 then 0
  else match s.hostRead (d.active.inputAddr.toNat + 4 * (s.kvOf i).sampler.inputDone) (4 * chunk) with
    | none => eInputFault
    | some b => if (List.range chunk).any fun k => vocab ≤ le b (4 * k) 4 then eBadToken else 0

/-- The rows a session would bring with `budget` input tokens left, before pages (R246, R247, R255, R262). -/
def State.rowFor (s : State) (i budget : Nat) (plan : List Stage) (p : Prog) : BatchRow :=
  let d := s.d i
  let m := (s.kvOf i).sampler
  let r := d.active
  let hold : HeldReason :=
    if d.ownerState != .owned then .owner else if r.live && !s.creditOk i then .ringFull else .none
  let left := r.inputLen - m.inputDone
  let chunk := if hold = .none ∧ r.live then min left (min (s.fld .serveChunk d.slice 0 0 16) budget) else 0
  let drafts := if hold = .none ∧ r.live then m.drafts.take (s.draftCount i plan) else []
  let cause :=
    if (s.ax i).ringLost then eRingLost
    else if d.dclass = 1 ∧ (s.member d.mirrorDev).isNone then eNoMirror
    else s.inputCause i chunk p.vocab
  let carry := hold == .none && m.carry != 0xFFFFFFFF && r.live
  { index := i, carry := carry, chunk := chunk, last := decide (chunk = left), drafts := drafts, held := hold
    cause := cause, base := d.committedLen, rows := boolBit carry + chunk + drafts.length }

/-- The batch's rows in batch order, the prefill budget spent as they come (R247). -/
def State.rowsFor (s : State) (plan : List Stage) (p : Prog) : Nat → List Nat → List BatchRow
  | _, [] => []
  | budget, i :: is =>
    let r := s.rowFor i budget plan p
    r :: s.rowsFor plan p (budget - r.chunk) is

/-! ## Limits and pages (R154..R157) -/

/-- Tokens a session may still append on this device: the stretch cap and the session limit (R157). -/
def State.roomFor (s : State) (i : Nat) (g : Geom) : Nat :=
  let d := s.d i
  min (g.cap - (d.committedLen - d.stretchOffset)) (4194304 - d.committedLen)

/-- The page maximum a session allocates under (R143). -/
def State.pageMaxOf (s : State) (i : Nat) (p : Prog) : Nat :=
  let m := (s.d i).pageMaxLog2
  if m = 15 then p.pageMax else m

/-- New pages per layer that `n` more tokens need. -/
def State.pagesNeeded (s : State) (i n : Nat) (p : Prog) : Nat :=
  let d := s.d i
  pagesFor (d.committedLen - d.stretchOffset + n) (s.pageMaxOf i p) - (s.kvOf i).perLayer

/-- `n` new pages per layer taken for a session and mapped: its reserved pages first, then the free pool; all or nothing
(R138, R154). -/
def State.takeFor (s : State) (i n : Nat) (p : Prog) : Option State :=
  let d := s.d i
  let g := p.geom
  let m := s.pageMaxOf i p
  if n = 0 then some s
  else
    let k := s.kvOf i
    let use := !k.reserve.isEmpty
    let k1 := if use then k.useReserve g m else k
    (s.takePages d.slice g d.prot m (if use then n - 1 else n) k1.perLayer k1).bind fun x =>
      let s1 := x.1.setKv i x.2
      let s2 := if use then (s1.freeAt d.reservePage).bump .kvReserveHit d.slice 1 else s1
      (s2.setD i { s2.d i with
        pagesHeld := x.2.pages.length, pageMaxLog2 := m, reservePage := if use then 0 else d.reservePage }).remap d.slice

/-- Bytes of the pages that `n` more tokens need. -/
def State.bytesNeeded (s : State) (i n : Nat) (p : Prog) : Nat :=
  let m := s.pageMaxOf i p
  ((List.range (s.pagesNeeded i n p)).map fun j =>
    p.geom.layers * pageSize p.geom (pageLog2 ((s.kvOf i).perLayer + j) m)).foldl (· + ·) 0

/-- The pages that `n` more tokens need lie within PAGE_BUDGET; a session that needs none is never over it (R79, R156). -/
def State.inBudget (s : State) (i n : Nat) (p : Prog) : Bool :=
  let d := s.d i
  let need := s.pagesNeeded i n p
  d.pageBudget == 0 || need == 0 || decide (d.pagesHeld + p.geom.layers * need ≤ d.pageBudget)

/-- The reserved pages of a slice's Autumn sessions released to the free pool (R154 step 3): they hold nothing that was
written, so they need no gesso. -/
def State.releaseAutumn (s : State) (sl : Nat) (g : Geom) : State :=
  let r := ((s.desc.filter fun x => x.2.slice == sl && x.2.season == .autumn).map (·.1)).foldl
    (fun t i => t.releaseReserve g i) s
  { r with mem := { r.mem with gesso := s.mem.gesso } }

/-- Pages for a row with the most drafts, at most `n`, for which they can be had within PAGE_BUDGET (R255): the state and the
drafts kept; none where there are not even pages without drafts. -/
def State.obtain (s : State) (i fixed : Nat) (p : Prog) : Nat → Option (State × Nat)
  | 0 => (s.takeFor i (s.pagesNeeded i fixed p) p).map fun t => (t, 0)
  | n + 1 =>
    match (if s.inBudget i (fixed + n + 1) p then s.takeFor i (s.pagesNeeded i (fixed + n + 1) p) p else none) with
    | some t => some (t, n + 1)
    | none => s.obtain i fixed p n

/-- The most drafts, at most `n`, that PAGE_BUDGET allows. -/
def State.budgetDrafts (s : State) (i fixed : Nat) (p : Prog) : Nat → Nat
  | 0 => 0
  | n + 1 => if s.inBudget i (fixed + n + 1) p then n + 1 else s.budgetDrafts i fixed p n

/-- A row limited to the tokens that fit (R157): it samples no token. -/
def BatchRow.limit (r : BatchRow) (room : Nat) : BatchRow :=
  let c := boolBit r.carry
  { r with limited := true, drafts := [], carry := r.carry && 0 < room, chunk := min r.chunk (room - c), last := false
           rows := min (c + r.chunk) room }

/-- A row that does no work in the step. -/
def BatchRow.idle (r : BatchRow) (h : HeldReason) : BatchRow :=
  { r with held := h, carry := false, chunk := 0, drafts := [], rows := 0 }

/-- The pages of a row obtained in the order of R154: the reserved pages and the free pool, then the reserved pages of the
slice's Autumn sessions, in each with all drafts first; D is reduced only when neither gives them (R255). A row that cannot have
them is held (R155) and says what it wants. -/
def State.settlePages (s : State) (r : BatchRow) (p : Prog) : State × BatchRow :=
  let i := r.index
  let fixed := r.rows - r.drafts.length
  let most := s.budgetDrafts i fixed p r.drafts.length
  let keep (n : Nat) : BatchRow := { r with drafts := r.drafts.take n, rows := fixed + n }
  match s.takeFor i (s.pagesNeeded i (fixed + most) p) p with
  | some t => (t, keep most)
  | none =>
    let s1 := s.releaseAutumn (s.d i).slice p.geom
    match s1.obtain i fixed p most with
    | some x => (x.1, keep x.2)
    | none => (s1, { r.idle .noPage with wants := s1.bytesNeeded i fixed p })

/-- One row given its pages, limited, handed over or held (R154..R157, R174). The limits are tested before PAGE_BUDGET (DESIGN
CHOICE, log entry 87). A session whose request has a cause to end brings no rows. -/
def State.settleRow (s : State) (r : BatchRow) (p : Prog) : State × BatchRow :=
  let i := r.index
  let d := s.d i
  let room := s.roomFor i p.geom
  let standby := d.ringNext != 0xFFFF && d.ownerEpoch < 0xFFFFFFFF
  let pastCap := decide (p.geom.cap < d.committedLen - d.stretchOffset + r.rows)
  if r.held != .none || !d.active.live then (s, r)
  else if tabGetD s.srv.causes 0 i != 0 then (s, r.idle .none)
  else if standby && pastCap then (s.startHandover r, r.idle .owner)
  else
    let q := if room < r.rows then r.limit room else r
    if s.inBudget i (q.rows - q.drafts.length) p then s.settlePages q p
    else if standby then (s.startHandover r, r.idle .owner)
    else (s, q.idle .noPage)

/-- Rows settled in the order of R154: larger HELD_STEPS first, then ascending index; then pressure parking for what all of them
still want (R82). -/
def State.settleAll (s : State) (sl : Nat) (rows : List BatchRow) (p : Prog) : State × List BatchRow :=
  let order := rows.mergeSort fun a b =>
    (s.d b.index).heldSteps < (s.d a.index).heldSteps ||
    ((s.d a.index).heldSteps == (s.d b.index).heldSteps && a.index ≤ b.index)
  let x := order.foldl (fun (acc : State × List BatchRow) r =>
    let y := acc.1.settleRow r p
    (y.1, acc.2.map fun q => if q.index = r.index then y.2 else q)) (s, rows)
  let wants := x.2.foldl (fun n r => n + r.wants) 0
  (if wants = 0 then x.1 else x.1.pressurePark sl wants, x.2)

/-! ## Joining and deadlines (R72, R245, R265) -/

/-- A session that takes part is Summer from here on. -/
def State.joinRow (s : State) (sl : Nat) (r : BatchRow) : State :=
  let d := s.d r.index
  if d.ownerState = .handing then s
  else
    let s1 := s.setD r.index { d with season := .summer }
    if d.season = .summer then s1 else s1.evc sl 0x02 0xFF 1

/-- Requests of a slice that have not joined or are held and whose deadline has passed end (R265), PENDING ones among them. -/
def State.lateAtStart (s : State) (sl : Nat) (rows : List BatchRow) : State :=
  ((s.desc.filter fun x => x.2.slice == sl).map (·.1)).foldl (fun t i =>
    let d := t.d i
    let joined := (rows.find? (·.index == i)).any fun r => r.held == .none
    let t1 := if t.late d.pending then t.endPending i eDeadline (fLast + fLate) else t
    if d.active.live ∧ t1.late d.active ∧ ¬ joined then (t1.endActive i eDeadline (fLast + fLate) true).afterEnd i else t1) s

/-! ## STEP_START -/

/-- The walkers load the leaves of the last page of every layer of the slice's Summer sessions (R137). -/
def State.loadLast (s : State) (sl : Nat) : State :=
  match s.geom sl with
  | none => s
  | some g => (s.desc.filter fun x => x.2.slice == sl && x.2.season == .summer).foldl (fun (t : State) x =>
      let k := t.kvOf x.1
      let last := k.pages.foldl (fun n p => max n p.first) 0
      (k.pages.filter fun p => p.first == last).foldl (fun (u : State) p =>
        (List.range 3).foldl (fun (v : State) a =>
          if g.unit a = 0 then v
          else v.walk (v.layerDie sl p.layer) sl (x.2.windowBase + g.areaAt a p.layer + (p.first + 16) * g.unit a)) u) t) s

/-- P at a step start (R248): a change of bounds moves it to the nearer bound. -/
def State.shareNow (s : State) (sl p : Nat) : Nat := max (s.shareMin sl) (min (s.shareMax sl) p)

/-- Unconsumed input of live active requests of Summer and Autumn sessions (R248 Qp). -/
def State.pendingPrompt (s : State) (sl : Nat) : Nat :=
  (s.desc.filter fun x => x.2.slice == sl && (x.2.season == .summer || x.2.season == .autumn) && x.2.active.live).foldl
    (fun n x => n + (x.2.active.inputLen - (s.kvOf x.1).sampler.inputDone)) 0

/-- The step begun with its batch (R249 step 1) and its first stages dispatched. -/
def State.stepBegin (s : State) (sl : Nat) (j : Job) (p : Prog) : State :=
  let s0 := s.satApply sl j.next
  let share := s0.shareNow sl j.nextShare
  let plan := s0.plan sl j
  let budget := share * s0.fld .serveChunk sl 0 16 16
  let rows0 := s0.rowsFor plan p budget (s0.batchOf sl)
  let x := s0.settleAll sl rows0 p
  let rows := x.2.filter fun r => (x.1.d r.index).ownerState != .handing
  let s1 := (rows.foldl (fun t r => t.joinRow sl r) x.1).loadLast sl
  let s2 := rows.foldl State.markHeld s1
  let s3 := s2.lateAtStart sl rows
  let pre := rows.foldl (fun n r => n + r.chunk) 0
  let dec := rows.foldl (fun n r => n + boolBit r.carry + r.drafts.length) 0
  let j1 : Job := { j with
    inStep := true, batch := rows, share := share, nextShare := share
    decode := { todo := phaseTodo plan p.layers 0 }, prefill := { todo := phaseTodo plan p.layers 1 }
    qp0 := if j.winOpen then j.qp0 else s3.pendingPrompt sl, winOpen := true
    noPrefill := if pre = 0 then j.noPrefill + 1 else j.noPrefill }
  let s4 := ((s3.setJob sl j1).evc sl 0x03 0xFF pre).evc sl 0x04 0xFF dec
  (s4.dispatch sl 0 (j1.fuel 0)).dispatch sl 1 (j1.fuel 1)

/-- STEP_START (R245): the previous step has ended, the job runs and is not suspended, and some session is Summer or can
join. -/
def execStepStart (slice : BitVec 6) (s : State) : Host.Outcome State Fault Refusal :=
  let sl := slice.toNat
  match tabGet s.srv.jobs sl, s.curProg sl with
  | some j, some p =>
    if j.state = .running ∧ ¬ j.inStep ∧ ¬ s.loading sl ∧ s.pkg.hib = .awake ∧ ¬ s.clocksOff ∧ ¬ (s.batchOf sl).isEmpty then
      .next (s.stepBegin sl j p)
    else .next s
  | _, _ => .next s

end Sys2Proof.Machine
end

