-- ==== Sys2Proof/Machine/Commit.lean ====
section
/-! DEFINITION. The commit point (R250, R251, R259), and the sampler's commands SAMPLE and VERIFY (R252, R256). -/

namespace Sys2Proof.Machine

/-! ## What a commit decides (R251) -/

/-- The outcome of a commit point: rows accepted, tokens delivered with LOGPROB and draft flag, whether the request ends
and with which status, the flags of its final entry, whether the final entry is a no-token one, and the carry token. -/
structure Verdict where
  rows : Nat := 0
  tokens : List (Nat × Nat × Bool) := []
  ends : Option Nat := none
  flags : Nat := 0
  noToken : Bool := false
  carry : Nat := 0xFFFFFFFF
  deriving DecidableEq, Repr

/-- A token ends a request as a stop token (R251). -/
def State.isStop (s : State) (sl t : Nat) : Bool :=
  (List.range 4).any fun k =>
    let v := s.reg .stopToken sl k
    bitAt v 31 && bitsOf v 0 24 == t

/-- How many of the sampled tokens are delivered, and whether the last of them ends the request (R251 order 6). -/
def State.cutTokens (s : State) (sl left : Nat) : List (Nat × Nat) → Nat × Bool
  | [] => (0, false)
  | t :: ts =>
    if left ≤ 1 ∨ s.isStop sl t.1 then (1, true)
    else
      let r := s.cutTokens sl (left - 1) ts
      (r.1 + 1, r.2)

/-- Sampled tokens as delivered: all but the last of what was sampled are accepted drafts. -/
def delivered (toks : List (Nat × Nat)) (n : Nat) : List (Nat × Nat × Bool) :=
  (toks.zipIdx.map fun x => (x.1.1, x.1.2, decide (x.2 + 1 < toks.length))).take n

/-- The first cause of *Request ends* that applies decides (R251). -/
def State.verdict (s : State) (r : BatchRow) (toks : Option (List (Nat × Nat))) : Verdict :=
  let i := r.index
  let d := s.d i
  let m := (s.kvOf i).sampler
  let q := d.active
  let fixed := boolBit r.carry + r.chunk
  let cause :=
    if s.srv.dropped.contains i then eAborted
    else if tabGetD s.srv.causes 0 i ≠ 0 then tabGetD s.srv.causes 0 i
    else if r.cause ≠ 0 then r.cause
    else if toks.isNone then eBadLogits else 0
  let ts := toks.getD []
  let late := s.late q
  let acc := ts.length - 1
  if cause ≠ 0 then { ends := some cause, flags := fLast, noToken := true }
  else if r.held = .noPage ∧ s.fld .heldLimit d.slice 0 0 16 ≤ d.heldSteps then
    { ends := some eKvFull, flags := fLast + fHeld, noToken := true }
  else if m.cancel then { rows := fixed, ends := some eCancelled, flags := fLast + fCancelled, noToken := true }
  else if late then
    { rows := fixed + acc, tokens := delivered ts ts.length, ends := some eDeadline, flags := fLast + fLate
      noToken := ts.isEmpty }
  else if r.limited then { rows := r.rows, ends := some eSeqLimit, flags := fLast, noToken := true }
  else
    let c := s.cutTokens d.slice (q.maxNew - m.emitted) ts
    if c.2 then
      { rows := fixed + (c.1 - 1), tokens := delivered ts c.1, ends := some eOk, flags := fLast
        carry := ((ts[c.1 - 1]?).map (·.1)).getD 0xFFFFFFFF }
    else if q.kind = 1 ∧ r.held = .none ∧ q.inputLen ≤ m.inputDone + r.chunk then
      { rows := fixed, ends := some eOk, flags := fLast, noToken := true }
    else
      { rows := fixed + acc, tokens := delivered ts ts.length
        carry := if r.held ≠ .none then m.carry else ((ts.getLast?).map (·.1)).getD 0xFFFFFFFF }

/-- The entries a verdict writes, in POSITION order (R258, R259, R262): tokens follow the committed rows. -/
def entriesOf (v : Verdict) (r : BatchRow) (q : Request) (due : Bool) : List RingEntry :=
  let n := v.tokens.length
  let first := r.base + boolBit r.carry + r.chunk
  let es := v.tokens.zipIdx.map fun x =>
    let last := decide (x.2 + 1 = n) && !v.noToken
    (⟨x.1.1, first + x.2, whenB x.1.2.2 fDraftOk ||| (if last then v.flags else 0) |||
      whenB (due && x.2 == 0) fHeld, x.1.2.1, q.reqSeq⟩ : RingEntry)
  if v.noToken then
    es ++ [⟨0xFFFFFFFF, r.base + v.rows, v.flags ||| whenB (due && n == 0) fHeld, 0x7E00, q.reqSeq⟩]
  else es

/-- The batch row of a session marked as committed, and the record put into the commit log. -/
def State.logCommit (s : State) (sl : Nat) (r : BatchRow) (c : CommitRec) : State :=
  match tabGet s.srv.jobs sl with
  | none => s
  | some j => s.setJob sl { j with
      batch := j.batch.map fun x => if x.index = r.index then { x with committed := true } else x
      log := c :: j.log }

/-- The commit point of a row's request (R250, R251, R259): lengths, carry, counters, entries, then the completion. `die` is the compute
die of the sampler engine, 0xFF where the lead commits. -/
def State.commitActive (s : State) (sl : Nat) (r : BatchRow) (toks : Option (List (Nat × Nat))) (die : Nat) : State :=
  let i := r.index
  let d := s.d i
  if ¬ d.active.live then s.logCommit sl r { handle := handleOf i d }
  else
    let v := s.verdict r toks
    let k := s.kvOf i
    let m := k.sampler
    let es := entriesOf v r d.active m.heldDue
    let m' : Sampler := { m with
      carry := v.carry, counter := m.counter + (toks.getD []).length, emitted := m.emitted + v.tokens.length
      inputDone := if v.rows = 0 then m.inputDone else m.inputDone + r.chunk
      heldDue := m.heldDue && es.isEmpty
      drafts := if r.held = .none then [] else m.drafts }
    let s1 := s.setKv i { k with sampler := m' }
    let s2 := s1.setD i { d with committedLen := r.base + v.rows }
    let acc := (v.tokens.filter (·.2.2)).length
    let s3 := s2.logCommit sl r { handle := handleOf i d, rows := v.rows, tokens := v.tokens.map (·.1)
                                  logprobs := v.tokens.map (·.2.1), accepted := acc, outcome := v.ends.getD 0xFFFF }
    let s4 := s3.reqWrite i d.active es
    let s5 := if acc = 0 then s4 else (s4.bump .draftsAccepted sl acc).evc sl 0x47 die acc
    match v.ends with
    | none => s5
    | some st =>
      let s5 := if st = eRingLost then s5.setAx i { s5.ax i with leaves := true } else s5
      let s6 := s5.endActive i st v.flags false
      { s6 with srv := { s6.srv with causes := tabDel s6.srv.causes i, dropped := s6.srv.dropped.filter (· != i) } }

/-- A pending request whose function has been reset ends at the session's commit point (R93). -/
def State.dropPending (s : State) (i : Nat) : State :=
  if ¬ s.srv.dropped.contains (2 ^ 24 + i) then s
  else
    let s1 := s.endPending i eAborted fLast
    { s1 with srv := { s1.srv with dropped := s1.srv.dropped.filter (· != 2 ^ 24 + i) } }

/-- A session's commit point (R251), of both its requests. -/
def State.commit (s : State) (sl : Nat) (r : BatchRow) (toks : Option (List (Nat × Nat))) (die : Nat := 0xFF) : State :=
  (s.commitActive sl r toks die).dropPending r.index

/-! ## SAMPLE and VERIFY -/

/-- FP32 logits at an address: core store, or the slice's memory; none where they are poisoned. -/
def State.logits (s : State) (c sl : Nat) (a : MvAddr) (off n : Nat) : Option (List U32) :=
  match a with
  | .core x =>
    let st := s.core c
    if st.bad (x.toNat + off) (4 * n) then none else some (st.words (x.toNat + off) n)
  | .slice va =>
    if s.vbad sl (va.toNat + off) (4 * n) then none
    else some ((pieces 4 n (s.vread sl (va.toNat + off) (4 * n))).map fun b => BitVec.ofNat 32 (leNat b 4))
  | .remote _ _ => none

/-- The row of a session in the running step that has not been committed. -/
def State.openRow (s : State) (sl i : Nat) : Option BatchRow :=
  match tabGet s.srv.jobs sl with
  | none => none
  | some j => if j.inStep then j.batch.find? fun r => r.index == i && !r.committed else none

/-- The stage of an instance is a draft head stage (R255). -/
def State.draftStage (s : State) (i : Inst) : Bool :=
  match tabGet s.srv.jobs i.slice with
  | none => false
  | some j => ((s.plan i.slice j)[i.stage]?).any fun st => st.role == 0x0A

/-- A draft proposed by a draft head stage (R255): the spec does not state how the stage chooses it: a free value below
VOCAB. -/
def State.propose (s : State) (sl i vocab : Nat) : State :=
  match tabGet s.srv.jobs sl with
  | none => s
  | some j =>
    (s.setJob sl { j with batch := j.batch.map fun r =>
      if r.index = i ∧ r.proposed.length < 8 then
        { r with proposed := r.proposed ++ [(Config.freeValue s.free).toNat % max 1 vocab] } else r }).drew

/-- The instance's rows of a session are the ones whose logits decide (R247): the prefill rows when the session brings a
chunk, else the decode rows. -/
def BatchRow.decides (r : BatchRow) (phase : Nat) : Bool := (phase == 1) == (r.chunk != 0)

/-- The row samples a position (R247, R251, R157): its request generates and its input is consumed with this step. -/
def State.samples (s : State) (r : BatchRow) : Bool := (s.d r.index).active.kind != 1 && r.last && !r.limited

/-- An operand that addresses core store lies within STORE_NEED (R226). -/
def State.addrInStore (s : State) (i : Inst) (a : MvAddr) (n : Nat) : Bool :=
  match a with
  | .core x => s.inStore i x.toNat n
  | _ => true

/-- SAMPLE (R252): one token for a request whose input ends in this step; the write to the commit log is the commit
point (R224, R250). -/
def State.sample (s : State) (c : Nat) (a : MvAddr) (i vocab : Nat) (inst : Inst) : State :=
  let sl := inst.slice
  match s.openRow sl i with
  | none => s
  | some r =>
    if ¬ inst.sessions.contains i then s.kernelFault c 1
    else if s.draftStage inst then
      if r.held = .none ∧ r.last then s.propose sl i vocab else s
    else if ¬ r.decides inst.phase then s
    else if ¬ s.samples r then s.commit sl r (some [])
    else if ¬ s.addrInStore inst a (4 * vocab) then (s.kernelFault c 1).commit sl { r with cause := eKernelFault } none
    else match s.logits c sl a 0 vocab with
      | none => (s.kernelFault c 3).commit sl { r with cause := eKernelFault } none
      | some z =>
        let q := (s.d i).active.sampleParam
        match sampleToken q (s.kvOf i).sampler.counter z with
        | none => s.commit sl r none
        | some t => (s.commit sl r (some [(t, logprobOf q z t)])).evc sl 0x46 (c / 64) 1

/-- VERIFY (R256): the carry row and the drafts' rows as positions in turn. -/
def State.verify (s : State) (c : Nat) (a : MvAddr) (i drafts : Nat) (inst : Inst) : State :=
  let sl := inst.slice
  match s.openRow sl i with
  | none => s
  | some r =>
    if ¬ inst.sessions.contains i then s.kernelFault c 1
    else if ¬ r.decides inst.phase then s
    else if ¬ s.samples r then s.commit sl r (some [])
    else
      let v := ((s.curProg sl).map (·.vocab)).getD 0
      let ds := r.drafts.take drafts
      if ¬ s.addrInStore inst a (4 * v * (ds.length + 1)) then
        (s.kernelFault c 1).commit sl { r with cause := eKernelFault } none
      else match (List.range (ds.length + 1)).mapM fun k => s.logits c sl a (4 * v * k) v with
      | none => (s.kernelFault c 3).commit sl { r with cause := eKernelFault } none
      | some zs =>
        let q := (s.d i).active.sampleParam
        let toks := verifyTokens q (s.kvOf i).sampler.counter zs ds
        (s.commit sl r toks (c / 64)).evc sl 0x46 (c / 64) ((toks.getD []).length)

/-- The commit waits for the mirror's acknowledgement of the step's rows (R85). -/
def State.mirrorWaits (s : State) (i : Nat) : Bool :=
  s.comp.outst.any fun t => match t.purpose with
    | .mirror n _ => n == i
    | _ => false

/-- SAMPLE of the sampler engine of a core (R252). -/
def execSample (core : BitVec 9) (logits : MvAddr) (index : BitVec 24) (vocab : U32) (s : State) :
    Host.Outcome State Fault Refusal :=
  if s.mirrorWaits index.toNat then .next s
  else .next (s.engRun core.toNat 5 1 fun i t => t.sample core.toNat logits index.toNat vocab.toNat i)

/-- VERIFY of the sampler engine of a core (R256). -/
def execVerify (core : BitVec 9) (logits : MvAddr) (index : BitVec 24) (drafts : BitVec 4) (s : State) :
    Host.Outcome State Fault Refusal :=
  if s.mirrorWaits index.toNat then .next s
  else .next (s.engRun core.toNat 5 2 fun i t => t.verify core.toNat logits index.toNat drafts.toNat i)

end Sys2Proof.Machine
end

