-- ==== Sys2Proof/Machine/Fetch.lean ====
section
/-! DEFINITION. T2 objects at home in the pool (R301..R305): the fetch area, fetches, evictions, write-through; regions
moved to another physical address (R138, R419); and an engine's write to its slice's memory. -/

namespace Sys2Proof.Machine

/-! ## The tops of a die's general memory (R296) -/

/-- Place of a die in a list of dies. -/
def placeIn (l : List Nat) (n : Nat) : Nat := (l.findIdx? (· == n)).getD 0

/-- On state die `n`, above the slice's general memory: the shares of the Winter area, the fetch area and the pool
contribution, in that order: start and bytes of share `k` (R296; the order is the model's choice). -/
def State.topShare (s : State) (sl n k : Nat) : Nat × Nat :=
  let tm := s.tierMap sl
  let dies := s.dieList sl
  let i := placeIn dies n
  let sh (o : Nat) : Nat := 2 ^ 21 * shareOf (le tm o 4) dies.length i
  let (base, size) := s.general sl n
  let b := base + size
  match k with
  | 0 => (b, sh 4)
  | 1 => (b + sh 4, sh 8)
  | _ => (b + sh 4 + sh 8, sh 0xC)

/-! ## Granules (R301, R302) -/

/-- Bytes of an object. -/
def Obj.bytes (o : Obj) : Nat := o.units * 4096

/-- The fetch granule that holds an address of a T2 object: start and length. -/
def Obj.granule (o : Obj) (va : Nat) : Nat × Nat :=
  let g := 2 ^ (12 + o.fetchLog2)
  let a := o.va + (va - o.va) / g * g
  (a, min g (o.va + o.bytes - a))

/-- The home of the byte at offset `off` of a T2 object: member and pool address (R302). -/
def Obj.homeOf (o : Obj) (off : Nat) : Nat × Nat :=
  let n := max 1 o.members.length
  let m := o.members.getD (off / 65536 % n) (0, 0)
  (m.1, m.2 + 65536 * (off / 65536 / n) + off % 65536)

/-- The pieces of a range of a T2 object by stripe unit, each at most 16,384 bytes: offset and length. -/
def stripePieces (off : Nat) : Nat → Nat → List (Nat × Nat)
  | 0, _ => []
  | k + 1, n =>
    if n = 0 then []
    else
      let l := min n (16384 - off % 16384)
      (off, l) :: stripePieces (off + l) k (n - l)

/-- A granule needs a stripe unit of a member that is lost (R305). -/
def Obj.lost (o : Obj) (va : Nat) : Bool :=
  let g := o.granule va
  (stripePieces (g.1 - o.va) (g.2 / 16384 + 2) g.2).any fun p => o.failed.contains (o.homeOf p.1).1

/-- The entry of the fetch area for a granule. -/
def State.granAt (s : State) (sl va : Nat) : Option FetchGran :=
  s.mem.fetched.find? fun f => f.slice == sl && f.va ≤ va && va < f.va + f.size

/-- A free place of the fetch area for `size` bytes. -/
def State.fetchPlace (s : State) (sl size : Nat) : Option Nat :=
  (s.dieList sl).findSome? fun n =>
    let (b, len) := s.topShare sl n 1
    let t := (s.mem.fetched.map (fun f => (f.pa, f.size)) ++ s.mem.gesso.map fun g => (g.pa, g.size)).filter fun f =>
      b ≤ f.1 && f.1 < b + len
    ((candidates b 4096 t).filter fun a =>
      a + size ≤ b + len && t.all fun x => a + size ≤ x.1 || x.1 + x.2 ≤ a).head?

/-- The granule of a slice that is evicted next (R304): the earliest fetched that has no fetch in flight and no
unacknowledged WRITE. -/
def State.evictable (s : State) (sl : Nat) : Option FetchGran :=
  (s.mem.fetched.filter fun f => f.slice == sl && !f.inflight && f.writes == 0).foldl (fun b f => match b with
    | none => some f
    | some x => if f.order < x.order then some f else some x) none

/-- A granule evicted (R304): its leaf is not present again, its frame stays in the fetch area. -/
def State.evict (s : State) (f : FetchGran) : State :=
  ({ s with mem := { s.mem with fetched := s.mem.fetched.filter (· != f) } }.invalidate f.slice).bump .memEvicts f.slice 1

/-- A place made in the fetch area, evicting at most `n` granules; none while every granule is busy. -/
def State.makePlace (s : State) (sl size : Nat) : Nat → Option (State × Nat)
  | 0 => (s.fetchPlace sl size).map fun a => (s, a)
  | n + 1 => match s.fetchPlace sl size with
    | some a => some (s, a)
    | none => (s.evictable sl).bind fun f => (s.evict f).makePlace sl size n

/-- A fetch of the granule at an address begun (R301); a granule already in flight or resident is left, and a fetch that
finds every granule busy waits (R304). -/
def State.fetchStart (s : State) (o : Obj) (va : Nat) : State :=
  if (s.granAt o.slice va).isSome ∨ o.lost va ∨ ¬ (o.va ≤ va ∧ va < o.va + o.bytes) then s
  else
    let g := o.granule va
    match s.makePlace o.slice g.2 (s.mem.fetched.length + 1) with
    | none => s
    | some (t, pa) =>
      let f : FetchGran := { slice := o.slice, va := g.1, size := g.2, pa := pa, inflight := true
                             order := t.mem.fetchOrder, writes := 0, prot := o.prot, keygen := t.sec.current }
      let t1 := { t with mem := { t.mem with fetched := t.mem.fetched ++ [f], fetchOrder := t.mem.fetchOrder + 1 } }
      (stripePieces (g.1 - o.va) (g.2 / 16384 + 2) g.2).foldl (fun u p =>
        let h := o.homeOf p.1
        u.send h.1 1 0 o.slice [h.2, p.2] [] (.fetch o.slice g.1 (p.1 - (g.1 - o.va)))) t1

/-- A fault on a granule (R301): its fetch, and the next two granules when the fault follows one on the preceding
granule of the object. -/
def State.fetchFault (s : State) (o : Obj) (va : Nat) : State :=
  let g := o.granule va
  let key := 2 ^ 52 * o.slice + g.1
  let size := 2 ^ (12 + o.fetchLog2)
  let ahead := s.mem.lastMiss == some (key - size)
  let s1 := { s.fetchStart o va with mem := { (s.fetchStart o va).mem with lastMiss := some key } }
  if ahead then (s1.fetchStart o (g.1 + size)).fetchStart o (g.1 + 2 * size) else s1

/-- Engine writes to a T2 object go to its home (R303): one WRITE for each piece, counted at the resident granule. -/
def State.homeWrite (s : State) (o : Obj) (va : Nat) (b : Bytes) (bad : Bool) : State :=
  (stripePieces (va - o.va) (b.length / 16384 + 2) b.length).foldl (fun t p =>
    let h := o.homeOf p.1
    let a := o.va + p.1
    let t1 := t.send h.1 2 0 o.slice [h.2, boolBit bad] (sub b (a - va) p.2) (.homeWrite o.slice a)
    { t1 with mem := { t1.mem with fetched := t1.mem.fetched.map fun (f : FetchGran) =>
        if f.slice = o.slice ∧ f.va ≤ a ∧ a < f.va + f.size then { f with writes := f.writes + 1 } else f } }) s

/-! ## Regions moved (R138, R419, R420) -/

/-- An address inside the region [old, old + n) moved to `new`. -/
def movedPa (old n new a : Nat) : Nat := if a ≠ 0 ∧ old ≤ a ∧ a < old + n then new + (a - old) else a

/-- Every leaf that names a region switched to its copy (R138). -/
def State.switchLeaves (s : State) (old n new : Nat) : State :=
  let m := movedPa old n new
  let page (p : KvPage) : KvPage := { p with elem := m p.elem, scale := m p.scale, side := m p.side }
  let gran (g : Granule) : Granule := { g with pa := m g.pa }
  let kv (x : Nat × SessKv) : Nat × SessKv := (x.1, { x.2 with
    pages := x.2.pages.map page, granules := x.2.granules.map gran
    reserve := x.2.reserve.map fun (r : ResEnt) =>
      { r with elem := m r.elem, scale := m r.scale, side := m r.side, granules := r.granules.map gran }
    scratchPa := m x.2.scratchPa, cursorPa := m x.2.cursorPa })
  let obj (o : Obj) : Obj := { o with pieces := o.pieces.map fun p => (p.1, m p.2.1, p.2.2) }
  let pal (x : Nat × Pal) : Nat × Pal := (x.1, { x.2 with parts := x.2.parts.map fun p => (p.1, m p.2.1, p.2.2) })
  let desc (x : Nat × Desc) : Nat × Desc := (x.1, { x.2 with reservePage := m x.2.reservePage, ptRoot := m x.2.ptRoot })
  { s with
    desc := s.desc.map desc
    mem := { s.mem with
      kv := s.mem.kv.map kv, objects := s.mem.objects.map obj
      tables := s.mem.tables.map fun t => { t with pa := m t.pa } }
    srv := { s.srv with pals := s.srv.pals.map pal } }

/-- A protected region re-keyed (R158, R419): copied under the current generation into a new region of its die, leaves
switched, the old region freed; in place where the die has no room (the model's choice). -/
def State.rekeyRegion (s : State) (r : Region) : State :=
  let put (t : State) : State :=
    { t with mem := { t.mem with regions := t.mem.regions.map fun (x : Region) =>
        if x.pa = r.pa then { x with keygen := t.sec.current } else x } }
  match s.alloc r.slice (r.pa / 2 ^ 37) r.size (min r.size (2 ^ 30)) r.prot with
  | none => (put s).invalidate r.slice
  | some (t, pa) =>
    let t1 := t.pwrite pa (t.pread r.pa r.size)
    let bad := (t1.mem.poison.filter fun p => r.pa ≤ p && p < r.pa + r.size).map fun p => p - r.pa + pa
    let t2 := { t1 with mem := { t1.mem with poison := bad.foldl setInsert t1.mem.poison } }
    ((t2.switchLeaves r.pa r.size pa).invalidate r.slice).freeAt r.pa

/-- Before a write to physical addresses: each protected region among them that is under an older generation is re-keyed
(R419). The addresses must be translated again afterwards. -/
def State.rekeyAt (s : State) (pas : List Nat) : State :=
  pas.foldl (fun t pa => match t.regionAt pa with
    | some r => if r.prot ∧ r.keygen ≠ t.sec.current then t.rekeyRegion r else t
    | none => t) s

/-! ## Engine accesses to slice memory (R139, R301..R305) -/

/-- What an engine meets on a range of its slice's memory. -/
inductive Access where
  /-- Every byte has a leaf that serves the access. -/
  | ok
  /-- Some leaf is not present: the engine waits; the T2 address that faulted, if it is one. -/
  | wait (va : Option Nat)
  /-- No valid leaf, or a write to a read-only one. -/
  | fault (va code : Nat)
  /-- A granule whose home is lost (R305). -/
  | lost (va : Nat)
  deriving DecidableEq, Repr

/-- The first address of every 4 KiB unit a range touches. -/
def unitsOf (va n : Nat) : List Nat :=
  if n = 0 then []
  else (List.range ((va + n - 1) / 4096 + 1 - va / 4096)).map fun k => max va ((va / 4096 + k) * 4096)

/-- What one address gives. -/
def State.accessAt (s : State) (sl : Nat) (write : Bool) (va : Nat) : Access :=
  match s.xlate sl va with
  | none => .fault va eXlate
  | some x =>
    if write ∧ x.ro then .fault va eWriteProt
    else if x.np then
      match s.objAt sl va with
      | some o =>
        if o.lost va then .lost va
        else if write then (if (s.granAt sl va).isSome then .wait (some va) else .ok)
        else .wait (some va)
      | none => .wait none
    else .ok

/-- The pages of a session whose regions a range of its slice meets, and that share something with another session. -/
def SessKv.sharedIn (k : SessKv) (g : Geom) (base va n : Nat) : List KvPage :=
  k.pages.filter fun p => (p.rcp != 0 || (k.granulesOf g p).any (·.rcp != 0)) && (List.range 3).any fun a =>
    let from_ := base + g.areaAt a p.layer + (p.first + 16) * g.unit a
    decide (va < from_ + 16 * 2 ^ p.log2 * g.unit a ∧ from_ < va + n)

/-- Before an engine writes a range: the shared pages of sessions that it meets are made private (R88); none where a page cannot
be had. -/
def State.unshare (s : State) (sl va n : Nat) : Option State :=
  ((unitsOf va n).filterMap windowOf).eraseDups.foldl (fun (acc : Option State) w => acc.bind fun t =>
    match t.windowOwner sl w, t.geom sl with
    | some (i, d), some g =>
      let l := (t.kvOf i).sharedIn g d.windowBase va n
      if l.isEmpty then some t else t.privateAll sl g d i l
    | _, _ => some t) (some s)

/-- The first address of a range that does not serve the access; a write to a shared page waits while no private copy can be
had (R88). -/
def State.access (s : State) (sl : Nat) (write : Bool) (va n : Nat) : Access :=
  let a := ((unitsOf va n).map (s.accessAt sl write)).foldl (fun a b => if a = .ok then b else a) .ok
  if a = .ok ∧ write ∧ (s.unshare sl va n).isNone then .wait none else a

/-- Some byte of a range lies on a state die to which no path leads from a die (R17). -/
def State.cutFrom (s : State) (d sl va n : Nat) : Bool :=
  (unitsOf va n).any fun a => match (s.xlate sl a).bind (·.pa) with
    | some pa => s.cutAt d pa
    | none => false

/-- A write from a die to a range has no path: to a state die, or to the ports where T2 data goes to its home (R17, R303). -/
def State.cutTo (s : State) (d sl va n : Nat) : Bool :=
  s.cutFrom d sl va n || ((s.objAt sl va).any (·.tier == 2) && s.netCut d sl)

/-- A page of the range that some copy set has not copied (R118): the physical address of its elements. -/
def State.guarded (s : State) (sl va n : Nat) : Option Nat :=
  (unitsOf va n).findSome? fun a => match windowOf a with
    | none => none
    | some w => (s.windowOwner sl w).bind fun o => (s.xlate sl a).bind fun x =>
        if x.guard then x.pa.bind fun pa => ((s.kvOf o.1).pages.find? fun p =>
          p.guard && [(p.elem, 0), (p.scale, 1), (p.side, 2)].any fun r =>
            match s.geom sl with
            | some g => r.1 ≤ pa && pa < r.1 + 16 * 2 ^ p.log2 * g.unit r.2
            | none => false).map (·.elem)
        else none

/-- A page put on the list of pages a writer waits for (R118). -/
def State.wantCopy (s : State) (pa : Nat) : State := { s with cnv := { s.cnv with prio := setInsert s.cnv.prio pa } }

/-- Sectors of a range of slice memory marked as poisoned (R313). -/
def State.poisonRange (s : State) (sl va n : Nat) : State :=
  let pas := (List.range ((va + n + 127) / 128 - va / 128)).filterMap fun k =>
    (s.xlate sl (max va ((va / 128 + k) * 128))).bind fun x => x.pa.map fun pa => pa / 128 * 128
  { s with mem := { s.mem with poison := pas.foldl setInsert s.mem.poison } }

/-- Bytes written by an engine to its slice's memory: shared pages are made private (R88) and protected regions re-keyed first
(R419), T2 data goes to its home too (R303), poisoned data marks its sectors (R313). -/
def State.engineWrite (s0 : State) (sl va : Nat) (b : Bytes) (bad : Bool) : State :=
  let s := (s0.unshare sl va b.length).getD s0
  let pas := (unitsOf va b.length).filterMap fun a => (s.xlate sl a).bind (·.pa)
  let s1 := (s.rekeyAt pas).vwrite sl va b
  let s2 := if bad then s1.poisonRange sl va b.length else s1
  match s.objAt sl va with
  | some o => if o.tier = 2 then s2.homeWrite o va b bad else s2
  | none => s2

/-- A range of a slice's memory back to gesso (R309): it reads as zero, or in a protected region as what zero ciphertext gives. -/
def State.gessoRange (s : State) (sl va n : Nat) : State :=
  (unitsOf va n).foldl (fun t a => match t.xlate sl a with
    | none => t
    | some x => match x.pa with
      | none => t
      | some pa =>
        let len := min (4096 - a % 4096) (va + n - a)
        let u := t.gessoFill pa len
        if x.prot then { u with mem := { u.mem with gessoed := u.mem.gessoed ++ [(pa, len, x.keygen)] } } else u) s

/-- A write from a die (R17): discarded where no path leads to its destination. -/
def State.writeFrom (s : State) (d sl va : Nat) (b : Bytes) (bad : Bool) : State :=
  if s.cutTo d sl va b.length then s else s.engineWrite sl va b bad

/-- A read from a die: its bytes, and whether they are poisoned, as they are where no path leads to them (R17). -/
def State.readFrom (s : State) (d sl va n : Nat) : Bytes × Bool :=
  if s.cutFrom d sl va n then (zeros n, true) else (s.vread sl va n, s.vbad sl va n)

end Sys2Proof.Machine
end

