-- ==== Sys2Proof/Machine/Movers.lean ====
section
/-! DEFINITION. The engine commands that write slice memory: APPEND (R147..R152), MV COPY and GATHER (R225), the end of
a priority copy (R118), and a tail's wait for its ring (R172). -/

namespace Sys2Proof.Machine

/-! ## APPEND -/

/-- The 16-bit fraction of a stochastic rounding (R148): layer, value or key, KV head, element, position. -/
def kvFraction (seed layer v head elem pos : Nat) : Nat :=
  draw24 seed (2 ^ 63 + 2 ^ 55 * (layer % 256) + 2 ^ 54 * v + 2 ^ 48 * (head % 64) + 2 ^ 40 * (elem % 256) + pos) / 256

/-- The rounding of the elements of an appended row (R148). -/
def appendRnd (p : Prog) (seed layer pos v head elem m : Nat) (e : Int) : Nat :=
  if p.sround then stochastic (kvFraction seed layer v head elem pos) m e else rne m e

/-- A row as APPEND reads it from core store: the BF16 keys of every KV head, then the values. -/
def Core.kvSource (x : Core) (p : Prog) (a : Nat) : List (List Num) × List (List Num) :=
  let d := p.headDim
  let heads (o : Nat) : List (List Num) :=
    (List.range p.kvHeads).map fun h => (x.halves (a + o + h * d * 2) d).map rd32
  (heads 0, heads (p.kvHeads * d * 2))

/-- The page of a layer that holds a stretch-local token. -/
def SessKv.pageOf (k : SessKv) (layer t : Nat) : Option KvPage :=
  k.pages.find? fun q => q.layer == layer && q.first ≤ t && t < q.first + 16 * 2 ^ q.log2

/-- What an append of one token meets at its page: it goes ahead, stalls for a guard or a page not present, or has no
leaf (R118, R139). -/
def State.appendAt (s : State) (i layer t : Nat) : Access :=
  match (s.kvOf i).pageOf layer t with
  | none => .fault (s.d i).windowBase eXlate
  | some q => if q.np then .wait none else if q.guard then .wait (some q.elem) else .ok

/-- The page of a token made private (R88) and current (R419); none where a copy cannot be had. -/
def State.appendPage (s : State) (sl i layer t : Nat) (g : Geom) : Option (State × KvPage) :=
  match (s.kvOf i).pageOf layer t with
  | none => none
  | some q => (s.privateAll sl g (s.d i) i [q]).bind fun s1 => ((s1.kvOf i).pageOf layer t).bind fun q1 =>
      let s2 := s1.rekeyAt ([q1.elem, q1.scale, q1.side].filter (· != 0))
      ((s2.kvOf i).pageOf layer t).map fun q2 => (s2, q2)

/-- One token's row written as tentative (R150) by a core of a die, and sent to the mirror of a D1 session (R152). -/
def State.appendOne (s : State) (die : Nat) (x : Core) (i layer src t : Nat) (p : Prog) : Option State :=
  let d := s.d i
  let g := p.geom
  (s.appendPage d.slice i layer t g).map fun r =>
    let kv := x.kvSource p src
    let pos := s.palTokens d + d.stretchOffset + t
    let row := encRow p (appendRnd p d.active.seed.toNat layer pos) kv.1 kv.2
    let s1 := r.1.writeRow g r.2 (t - r.2.first) row
    let s2 := s1.setD i { s1.d i with tentativeLen := max (s1.d i).tentativeLen (d.stretchOffset + t + 1) }
    let s3 := s2.evc d.slice 0x45 die (2 * p.kvHeads)
    if d.dclass = 1 then
      s3.send d.mirrorDev 5 3 0xFF [t + 16, d.ownerEpoch, d.sessionId.toNat, layer, d.stretchOffset + t]
        (padTo g.e row.elem ++ padTo g.s row.scale ++ padTo g.c row.side) (.mirror i (s.stepNo d.slice))
    else s3

/-- The rows of an APPEND in turn; none where a page cannot be had. -/
def State.appendAll (s : State) (die : Nat) (x : Core) (i layer src t : Nat) (p : Prog) : Nat → Option State
  | 0 => some s
  | n + 1 => (s.appendOne die x i layer src t p).bind fun s1 =>
      s1.appendAll die x i layer (src + 4 * p.kvHeads * p.headDim) (t + 1) p n

/-- First local index that an APPEND of a session's rows writes (R150). -/
def State.appendFrom (s : State) (i first : Nat) : Nat := (s.d i).committedLen - (s.d i).stretchOffset + first

/-- What the rows of an APPEND meet: the first that does not go ahead. -/
def State.appendMeets (s : State) (i layer t n : Nat) : Access :=
  ((List.range n).map fun k => s.appendAt i layer (t + k)).foldl (fun a b => if a = .ok then b else a) .ok

/-- APPEND done: a row without a page is a translation fault that discards the write (R139). -/
def State.append (s : State) (c i layer src first n : Nat) (inst : Inst) : State :=
  match s.curProg inst.slice with
  | none => s.kernelFault c 1
  | some p =>
    s.withStore c inst [(src, n * 4 * p.kvHeads * p.headDim)] [] fun x =>
      match s.appendMeets i layer (s.appendFrom i first) n with
      | .fault va code => s.engineFault inst.slice va code
      | _ =>
        let cut := (List.range n).any fun k => match (s.kvOf i).pageOf layer (s.appendFrom i first + k) with
          | some q => s.cutAt (c / 64) q.elem
          | none => false
        if cut then s.pathLost c inst else (s.appendAll (c / 64) x i layer src (s.appendFrom i first) p n).getD s

/-- APPEND waits: for a page not present, for a guard, or for a private copy that cannot be had. -/
def State.appendStall (s : State) (c i layer src first n : Nat) (inst : Inst) : Option State :=
  match s.appendMeets i layer (s.appendFrom i first) n with
  | .wait (some pa) => some (s.wantCopy pa)
  | .wait none => some s
  | .ok => match s.curProg inst.slice with
    | none => none
    | some p => if (s.appendAll (c / 64) (s.core c) i layer src (s.appendFrom i first) p n).isNone then some s else none
  | _ => none

/-- APPEND of the quantise-append engine of a core (R147). -/
def execAppend (core : BitVec 9) (index : BitVec 24) (layer : U8) (src : BitVec 23) (first rows : U16) (s : State) :
    Host.Outcome State Fault Refusal :=
  let c := core.toNat
  match s.engHead c 4 1 with
  | none => .next s
  | some (i, _) =>
    match s.appendStall c index.toNat layer.toNat src.toNat first.toNat rows.toNat i with
    | some t => .next t
    | none => .next (s.engRun c 4 1 fun i t =>
        t.append c index.toNat layer.toNat src.toNat first.toNat rows.toNat i)

/-! ## MV COPY and GATHER (R225) -/

/-- An address of a mover as it is reached: an address inside an aperture is one on its member (R380). -/
def State.mvReach (s : State) (sl : Nat) (a : MvAddr) : MvAddr :=
  match a with
  | .slice va => match s.apertureAt sl va.toNat with
    | some x => .remote (BitVec.ofNat 16 x.member) (BitVec.ofNat 52 (x.base.getD 0 + (va.toNat - x.va)))
    | none => a
  | _ => a

/-- The code of a mover's destination in an outstanding request: a core-store offset, 2^40 above it for a broadcast, or 2^60 + a
slice address. -/
def mvDst (a : MvAddr) (off : Nat) (bc : Bool) : Nat :=
  match a with
  | .core x => x.toNat + off + whenB bc (2 ^ 40)
  | .slice va => 2 ^ 60 + va.toNat + off
  | .remote _ _ => 2 ^ 61

/-- Requests of a core's mover are outstanding. -/
def State.moving (s : State) (c : Nat) : Bool :=
  s.comp.outst.any fun t => match t.purpose with
    | .mover k _ _ => k == c
    | _ => false

/-- What a mover meets at a slice range; an address of core store or of another device goes ahead. -/
def State.mvAccess (s : State) (sl : Nat) (a : MvAddr) (write : Bool) (n : Nat) : Access :=
  match a with
  | .slice va => s.access sl write va.toNat n
  | _ => .ok

/-- The state while a mover waits: a T2 granule is fetched (R301), a guarded page copied first (R118). -/
def State.mvWait (s : State) (sl : Nat) (va : Option Nat) : State :=
  match va.bind (s.objAt sl) with
  | some o => s.fetchFault o (va.getD 0)
  | none => s

/-- The requests that an access to a lost granule ends (R305). -/
def State.poolLost (s : State) (i : Inst) : State :=
  (i.sessions.foldl (fun t n => t.rowCause i.slice n ePoolLost) s).bump .memPoolLost i.slice 1

/-- A mover's range lies on a state die without a path from the core's die, or is reached through ports that have none (R17). -/
def State.mvCut (s : State) (c sl : Nat) (a : MvAddr) (write : Bool) (n : Nat) : Bool :=
  match a with
  | .slice va => if write then s.cutTo (c / 64) sl va.toNat n else s.cutFrom (c / 64) sl va.toNat n
  | .remote _ _ => s.netCut (c / 64) sl
  | .core _ => false

/-- Bytes read by a mover, and whether they are poisoned. -/
def State.mvRead (s : State) (c sl : Nat) (a : MvAddr) (n : Nat) : Bytes × Bool :=
  match a with
  | .core x => ((s.core c).read x.toNat n, (s.core c).bad x.toNat n)
  | .slice va => (s.vread sl va.toNat n, s.vbad sl va.toNat n)
  | .remote _ _ => (zeros n, false)

/-- Bytes written by a mover to core store, slice memory or another device; poison goes with them (R313). -/
def State.mvWrite (s : State) (c sl : Nat) (a : MvAddr) (b : Bytes) (bad : Bool) : State :=
  match a with
  | .core x => s.setCore c ((s.core c).write x.toNat b bad)
  | .slice va => s.engineWrite sl va.toNat b bad
  | .remote dev addr => (pieces 16384 (divUp b.length 16384) b).zipIdx.foldl (fun t x =>
      t.send dev.toNat 2 0 sl [addr.toNat + 16384 * x.2, boolBit bad] x.1 (.mover c (2 ^ 61) x.1.length)) s

/-- The cores a broadcast read also fills (R225): those of the cluster that run an instance of the same stage and whose next mover
command names the range, which is to say has the same operands as the one that runs on core `c`. -/
def State.broadcast (s : State) (c : Nat) : List Nat :=
  match s.engHead c 6 1 with
  | none => []
  | some (i, q) => (List.range 8).map (fun k => c / 8 * 8 + k) |>.filter fun k => k != c && match s.engHead k 6 1 with
    | some (j, r) => j.slice == i.slice && j.kernel == i.kernel && j.stage == i.stage && j.layer == i.layer &&
        j.phase == i.phase && r.operands == q.operands
    | none => false

/-- Core-store ranges of a mover's operand. -/
def mvStore (a : MvAddr) (n : Nat) : List (Nat × Nat) :=
  match a with
  | .core x => [(x.toNat, n)]
  | _ => []

/-- A range moved: a read from another device is sent and completes with its responses; a fault, or a range without a path
(R17), reads poisoned data or discards the write (R139); a lost granule ends its requests (R305). -/
def State.move (s : State) (c : Nat) (src dst : MvAddr) (n : Nat) (bc : Bool) (i : Inst) : State :=
  let sl := i.slice
  match src with
  | .remote dev addr =>
    if s.mvCut c sl src false n then (s.pathLost c i).mvWrite c sl dst (zeros n) true
    else (List.range (divUp n 16384)).foldl (fun t k =>
      let l := min 16384 (n - 16384 * k)
      t.send dev.toNat 1 0 sl [addr.toNat + 16384 * k, l] [] (.mover c (mvDst dst (16384 * k) bc) l)) s
  | _ =>
    let r := s.mvRead c sl src n
    let ra := s.mvAccess sl src false n
    let wa := s.mvAccess sl dst true n
    let s1 := match ra with
      | .fault va code => s.engineFault sl va code
      | .lost _ => s.poolLost i
      | _ => if r.2 ∧ mvStore src n = [] then s.bump .memPoisonReads sl 1 else s.storeRead c (mvStore src n)
    let cutR := ra = .ok ∧ s.mvCut c sl src false n
    let cutW := wa = .ok ∧ s.mvCut c sl dst true n
    let bad := r.2 || (ra != .ok) || decide cutR
    let b := if ra = .ok ∧ ¬ cutR then r.1 else zeros n
    let s1 := if cutR ∨ cutW then s1.pathLost c i else s1
    let s2 := match wa with
      | .fault va code => s1.engineFault sl va code
      | .lost _ => s1.poolLost i
      | _ => if cutW then s1 else s1.mvWrite c sl dst b bad
    match dst with
    | .core x => if bc then (s2.broadcast c).foldl (fun t k => t.setCore k ((t.core k).write x.toNat b bad)) s2 else s2
    | _ => s2

/-- The commands that a mover's read of a range has served end: its own, and with a broadcast those of the cores it fills. -/
def State.mvEnds (s : State) (c : Nat) (bc : Bool) : State :=
  (c :: if bc then s.broadcast c else []).foldl (fun t k => t.engDone k 6) s

/-- A mover's command ends at once, or with the responses it has sent requests for. -/
def State.mvFinish (s : State) (c sl n : Nat) (bc : Bool) : State :=
  let s1 := s.evc sl 0x48 (c / 64) (divUp n 64)
  if s1.moving c then s1 else s1.mvEnds c bc

/-- A command that faults is drained (R238). -/
def State.mvFault (s : State) (c cause : Nat) : State := (s.kernelFault c cause).engDone c 6

/-- A guarded page that a write to slice memory must wait for. -/
def State.mvGuard (s : State) (sl : Nat) (a : MvAddr) (n : Nat) : Option Nat :=
  match a with
  | .slice va => s.guarded sl va.toNat n
  | _ => none

/-- MV_COPY of the mover of a core. -/
def State.mvCopy (s : State) (c : Nat) (src0 dst0 : MvAddr) (n : Nat) (bc : Bool) (i : Inst) : State :=
  let sl := i.slice
  let src := s.mvReach sl src0
  let dst := s.mvReach sl dst0
  if s.moving c ∨ (bc ∧ (s.broadcast c).any s.moving) then s
  else if ¬ (mvStore src n ++ mvStore dst n).all fun r => s.inStore i r.1 r.2 then s.mvFault c 1
  else match s.mvGuard sl dst n, s.mvAccess sl src false n, s.mvAccess sl dst true n with
    | some pa, _, _ => s.wantCopy pa
    | none, .wait va, _ => s.mvWait sl va
    | none, _, .wait va => s.mvWait sl va
    | none, _, _ => (s.move c src dst n bc i).mvFinish c sl n bc

/-- MV COPY (R225). -/
def execMvCopy (core : BitVec 9) (src dst : MvAddr) (len : U32) (broadcast : U1) (s : State) :
    Host.Outcome State Fault Refusal :=
  match s.engHead core.toNat 6 1 with
  | none => .next s
  | some (i, _) => .next (s.mvCopy core.toNat src dst len.toNat (broadcast == 1) i)

/-- An address `n` bytes further. -/
def MvPlus (a : MvAddr) (n : Nat) : MvAddr :=
  match a with
  | .core x => .core (x + BitVec.ofNat 23 n)
  | .slice va => .slice (va + BitVec.ofNat 52 n)
  | .remote d x => .remote d (x + BitVec.ofNat 52 n)

/-- MV_GATHER (R225): rows at the slice addresses of an index list of 8-byte entries, written one after another. -/
def State.mvGather (s : State) (c list size count : Nat) (dst0 : MvAddr) (i : Inst) : State :=
  let sl := i.slice
  if s.moving c then s
  else if ¬ ((list, 8 * count) :: mvStore dst0 (size * count)).all fun r => s.inStore i r.1 r.2 then s.mvFault c 1
  else
    let x := s.core c
    if x.bad list (8 * count) then (s.storeRead c [(list, 8 * count)]).mvFault c 3
    else
      let rows := (List.range count).map fun k =>
        (s.mvReach sl (.slice (BitVec.ofNat 52 (le (x.read (list + 8 * k) 8) 0 8))), s.mvReach sl (MvPlus dst0 (size * k)))
      let stop := rows.findSome? fun r => match s.mvGuard sl r.2 size, s.mvAccess sl r.1 false size,
          s.mvAccess sl r.2 true size with
        | some pa, _, _ => some (s.wantCopy pa)
        | none, .wait va, _ => some (s.mvWait sl va)
        | none, _, .wait va => some (s.mvWait sl va)
        | none, _, _ => none
      match stop with
      | some t => t
      | none => (rows.foldl (fun t r => t.move c r.1 r.2 size false i) s).mvFinish c sl (size * count) false

/-- MV GATHER (R225). -/
def execMvGather (core : BitVec 9) (list : BitVec 23) (rowSize count : U32) (dst : MvAddr) (s : State) :
    Host.Outcome State Fault Refusal :=
  match s.engHead core.toNat 6 2 with
  | none => .next s
  | some (i, _) => .next (s.mvGather core.toNat list.toNat rowSize.toNat count.toNat dst i)

/-! ## Priority copies (R118) -/

/-- The copy sets that hold a page and have not copied it: operation and page number. -/
def State.copySets (s : State) (pa : Nat) : List (CanvasOp × Nat) :=
  (s.cnv.ops.filter fun o => (o.kind == 1 || o.kind == 3) && !o.waiting).flatMap fun o =>
    let l := (s.kvOf o.index).ordered (((s.curProg (s.d o.index).slice).map (·.layers)).getD 0)
    (l.zipIdx.filter fun x => x.1.elem == pa && o.todo.contains x.2).map fun x => (o, x.2)

/-- A page's guard cleared in every session that maps it. -/
def State.clearGuard (s : State) (pa : Nat) : State :=
  let s1 := { s with
    mem := { s.mem with kv := s.mem.kv.map fun (x : Nat × SessKv) => (x.1, { x.2 with
      pages := x.2.pages.map fun (p : KvPage) => if p.elem = pa then { p with guard := false } else p }) }
    cnv := { s.cnv with prio := s.cnv.prio.filter (· != pa) } }
  match s.regionAt pa with
  | some r => s1.invalidate r.slice
  | none => s1


/-! ## A tail's wait for its ring (R172) -/

/-- The oldest wait of a message of a layer whose results have not all arrived. -/
def State.ringWait (s : State) (i layer part : Nat) : Option RingWait :=
  s.srv.waits.find? fun w => w.index == i && w.layer == layer && w.part == part && w.got.length + 1 < (s.d i).ringSize

/-- RING_WAIT_LIMIT_EXPIRY (R172): the request ends at the step's commit point with E_RING_LOST, and the layer waits no
more. -/
def execRingWaitLimitExpiry (index : BitVec 24) (layer : U8) (part : U16) (s : State) :
    Host.Outcome State Fault Refusal :=
  let i := index.toNat
  match s.ringWait i layer.toNat part.toNat with
  | none => .next s
  | some w =>
    let sl := (s.d i).slice
    if s.pkc - w.sent.toNat ≤ s.reg64 .ringWaitLimitLo .ringWaitLimitHi 0 then .next s
    else
      let s1 := s.rowCause sl i eRingLost
      .next { s1 with srv := { s1.srv with waits := s1.srv.waits.filter fun x => !(x.index == i) } }

end Sys2Proof.Machine
end

