-- ==== Sys2Proof/Machine/Links.lean ====
section
/-! DEFINITION. Ports: flits, acknowledgement, replay and credits (R355..R358), lane loss (R354), bring-up (R366), rekeys
(R368), disabling (R369), and the link-state record a port's change sends (R378). -/

namespace Sys2Proof.Machine

/-! ## Link state (R378) -/

/-- A port is up for this device's link-state record. -/
def Port.up (x : Port) : Bool := x.state == 3 || x.state == 4

/-- This device's own record: its up ports with their peers, and the appliances among these. Before it has a map its
LIMITED ports count too, since no port of it can be up (R366, R373). -/
def State.ownRecord (s : State) : LinkRec :=
  let up := s.net.ports.filter fun p => p.2.up || (s.comp.epoch == 0 && p.2.state == 5)
  { seen := s.pkg.pkc
    ports := (up.filter fun p => p.2.peerKind != 2).map fun p => (p.1, p.2.peerDev, p.2.peerPort)
    appliances := ((up.filter fun p => p.2.peerKind == 2).map fun p => p.2.peerDev).eraseDups }

/-- The operands of a LINK_STATE message. -/
def LinkRec.args (r : LinkRec) : List Nat :=
  r.ports.length :: r.ports.flatMap (fun p => [p.1, p.2.1, p.2.2]) ++ r.appliances

/-- Since when this device has found each member unreachable (R378). -/
def State.noteCuts (s : State) : State :=
  { s with comp := { s.comp with
    cutSince := (s.comp.members.filter fun m => m.2.state == 1 && s.unreachable m.1).map fun m =>
      (m.1, tabGetD s.comp.cutSince s.pkg.pkc m.1) } }

/-- This device's record kept, and sent to every QW5200 member: before the first map, to the quorum (R373). -/
def State.sendLinks (s : State) : State :=
  match s.ownNo with
  | none => s
  | some n =>
    let r := s.ownRecord
    let s1 := ({ s with comp := { s.comp with links := tabPut s.comp.links n r } }).noteCuts
    let to_ := if s.comp.epoch = 0 then s.comp.quorum
      else (s1.comp.members.filter fun m => m.2.state == 1 && m.2.kind == 1).map (·.1)
    (to_.filter (· != n)).foldl (fun (t : State) d => t.send d 7 0x30 0xFF r.args [] .none) s1

/-! ## A port's failure (R357, R362, R367) -/

/-- A request sent once more with its tag (R362). -/
def State.again (s : State) (t : Txn) : State :=
  let out := s.comp.outst.map fun (x : Txn) => if x.dev = t.dev ∧ x.tag = t.tag then { x with last := s.pkg.pkc } else x
  ({ s with comp := { s.comp with outst := out } }.bump .reissues 0 1).transmit t

/-- Requests that left on a port and were not acknowledged at the link. -/
def State.unackedOn (s : State) (x : Port) : List Txn :=
  let who := (x.unacked.filterMap (·.2.2) ++ x.egress.filterMap (·.who)).eraseDups
  s.comp.outst.filter fun t => who.contains (t.dev, t.tag)

/-- The link state of a port cleared: nothing waits, nothing is unacknowledged, no credit is held. -/
def Port.cleared (x : Port) : Port :=
  { x with
    width := 0, half := 0, keyPhase := false, rxPhase := false, txFrames := 0, rxFrames := 0, rekeying := false, keys := 0
    txSeq := 0, unacked := [], rxSeq := 0, sinceAck := 0, nakSent := false, credits := [], ingress := [], egress := []
    deficit := [], cipher := false }

/-- A port enters FAILED (R357, R367): it is logged, brought up again from step 1, and the requests that left on it
unacknowledged are sent again at once. -/
def State.portFail (s : State) (p : Nat) : State :=
  let x := s.port p
  let l := s.unackedOn x
  let s1 := s.setPort p { x.cleared with state := 6, step := 1, failedAt := s.pkg.pkc }
  let s2 := (s1.logErr 0x000A (16 + p / 16) ((s.portSlice p).getD 0xFF) 0 p none).sendLinks
  l.foldl State.again s2

/-- A step of the bring-up fails (R366): step 1 again after 2^20 counts. -/
def State.bringupFail (s : State) (p : Nat) : State :=
  s.setPort p { (s.port p).cleared with state := 6, step := 0, failedAt := s.pkg.pkc }

/-- Bring-up begun (R366): not while DISABLE is set, no slice holds the port, or the device belongs to no composition
(R370). -/
def State.bringup (s : State) (p : Nat) : State :=
  if s.fld .portCtrl p 0 0 1 = 1 ∨ (s.portSlice p).isNone ∨ s.compSect.isNone then s
  else s.setPort p { (s.port p).cleared with state := 1, step := 1, peerDev := 0xFFFF, peerPort := 0, peerKind := 0 }

/-! ## Flits (R355..R358) -/

/-- A number lies at most `n` places before another, modulo 4,096. -/
def seqWithin (a b n : Nat) : Bool := decide ((4096 + b - a % 4096) % 4096 < n)

/-- Acknowledgement of flits up to `k` (R357). -/
def Port.acked (x : Port) (k : Nat) : Port :=
  { x with unacked := x.unacked.filter fun u => !seqWithin u.1 k 512 }

/-- A NAK (R357): every unacknowledged flit is replayed in order; none once the first has failed 16 replays. -/
def Port.replay (x : Port) : Option Port :=
  match x.unacked with
  | [] => some x
  | u :: l => if 16 ≤ u.2.1 then none else some { x with unacked := (u.1, u.2.1 + 1, u.2.2) :: l }

/-- The acknowledgement, NAK and credit fields of a good flit. -/
def State.flitFields (s : State) (p : Nat) (f : Flit) : State :=
  let x0 := s.port p
  let x1 := if f.ackV = 1 ∨ f.nak = 1 then x0.acked f.ackSeq.toNat else x0
  let x2 := if f.ccount = 0 then x1
    else { x1 with credits := tabPut x1.credits f.cvl.toNat (tabGetD x1.credits 0 f.cvl.toNat + f.ccount.toNat) }
  if f.nak = 1 then
    match x2.replay with
    | none => (s.setPort p x2).portFail p
    | some y =>
      let s1 := (s.setPort p y).bump .replays p y.unacked.length
      let s2 := (match s.portSlice p with
        | some sl => s1.evc sl 0x22 p y.unacked.length
        | none => s1)
      (y.unacked.foldl (fun (t : State) u => t.emit (.flit p 1 [16, u.1])) s2).pump p 512
  else (s.setPort p x2).pump p 512

/-- An acknowledgement sent: the last good in-order flit. -/
def State.sendAck (s : State) (p : Nat) (nak : Bool) : State :=
  let x := s.port p
  (s.setPort p { x with sinceAck := 0, lastAck := s.pkg.pkc, nakSent := nak || x.nakSent }).emit
    (.flit p 0 [1, boolBit nak, (x.rxSeq + 4095) % 4096])

/-- The expected DATA flit arrives (R357, R358, R367, R368): numbered, put into its lane's buffer, its START counted as a
frame, which a changed KEY_PHASE starts anew. -/
def Port.takeFlit (x : Port) (f : Flit) : Port :=
  let newKey := f.start == 1 && (f.keyPhase == 1) != x.rxPhase
  { x with
    rxSeq := (x.rxSeq + 1) % 4096, sinceAck := x.sinceAck + 1, nakSent := false
    ingress := tabPut x.ingress f.vl.toNat (tabGetD x.ingress 0 f.vl.toNat + 1)
    rxPhase := if newKey then !x.rxPhase else x.rxPhase
    rxFrames := if newKey then 1 else x.rxFrames + f.start.toNat }

/-- A DATA flit that holds its CRC. -/
def State.dataFlit (s : State) (p : Nat) (f : Flit) : State :=
  let x := s.port p
  if f.seq.toNat ≠ x.rxSeq then (if x.nakSent then s else s.sendAck p true)
  else
    let y := x.takeFlit f
    let s1 := s.setPort p y
    if 16 ≤ y.sinceAck then s1.sendAck p false else s1

/-- FLIT_RECEIVE (R355..R358): a codeword that cannot be corrected fails the CRC of its flits; IDLE and CONTROL flits that
fail are dropped; a DATA flit that fails is answered with NAK. -/
def State.flitReceive (s : State) (p : Nat) (f : Flit) : State :=
  let s1 := (if f.corrected = 0 then s else s.bump .fecCorr p f.corrected.toNat)
  let s2 := if f.uncorrectable = 1 then s1.bump .fecUncorr p 1 else s1
  if f.crcOk = 0 ∨ f.uncorrectable = 1 then
    let s3 := s2.bump .crcFail p 1
    if f.ftype = 1 ∧ 3 ≤ (s.port p).state then s3.sendAck p true else s3
  else if 3 ≤ f.ftype.toNat then s2
  else
    let s3 := s2.flitFields p f
    if f.ftype = 1 ∧ 3 ≤ (s3.port p).state ∧ (s3.port p).state ≤ 5 then s3.dataFlit p f else s3

/-- FLIT_RECEIVE (R357) on a port that is not DISABLED. -/
def execFlitReceive (port : BitVec 6) (f : Flit) (s : State) : Host.Outcome State Fault Refusal :=
  if (s.port port.toNat).state = 0 then .next s else .next (s.flitReceive port.toNat f)

/-- ACK_INTERVAL_EXPIRY (R357): 256 LCLK cycles (2 GHz, R27) are 128 counts. -/
def execAckIntervalExpiry (port : BitVec 6) (s : State) : Host.Outcome State Fault Refusal :=
  let x := s.port port.toNat
  if x.state < 3 ∨ 5 < x.state ∨ s.pkc - x.lastAck.toNat < 128 then .next s
  else .next (s.sendAck port.toNat false)

/-! ## Lanes and bring-up (R354, R366) -/

/-- Lanes that a mask of good lanes gives a port: 8, 4 by either half, or none. -/
def lanesOf (good : Nat) : Nat :=
  if good % 256 = 0xFF then 8 else if good % 16 = 0xF ∨ good / 16 % 16 = 0xF then 4 else 0

/-- The group of lanes that a mask of good lanes leaves a port at ×4 (R354): lanes 0..3 when they train completely. -/
def laneHalf (good : Nat) : Nat := if good % 16 = 0xF then 0 else 1

/-- LANE_FAILURE (R354): a port that carries traffic retrains at ×4 and runs DEGRADED; it stays down when neither half
trains. With every lane good no lane was lost. -/
def execLaneFailure (port : BitVec 6) (good : U8) (s : State) : Host.Outcome State Fault Refusal :=
  let p := port.toNat
  let x := s.port p
  if x.state < 3 ∨ 5 < x.state ∨ good = 0xFF then .next s
  else if lanesOf good.toNat = 0 then
    let s1 := s.portFail p
    .next (s1.bringupFail p)
  else .next (s.setPort p { x with width := 4, half := laneHalf good.toNat, state := if x.state = 5 then 5 else 4 }).sendLinks

/-- What HELLO tells (R366 step 2): kind, COMPOSITION_ID, device, port, cipher capability, buffer sizes. -/
def State.helloArgs (s : State) (p : Nat) : List Nat :=
  [1, s.comp.id.toNat, ((s.compSect.map fun b => le b 8 2).getD 0xFFFF), p, 1] ++ (List.range 16).map laneBuffer

/-- PORT_TRAINING_DONE (R366 step 1): the lanes have trained; HELLO is sent. -/
def execPortTrainingDone (port : BitVec 6) (good : U8) (s : State) : Host.Outcome State Fault Refusal :=
  let p := port.toNat
  let x := s.port p
  if ¬ (x.step = 1 ∧ (x.state = 1 ∨ x.state = 6)) then .next s
  else if lanesOf good.toNat = 0 then .next (s.bringupFail p)
  else .next ((s.setPort p { x with state := 1, step := 2, width := lanesOf good.toNat, half := if good = 0xFF then 0 else laneHalf good.toNat }).emit
    (.control p 1 (s.helloArgs p)))

/-- HELLO (R366 step 2): a different composition ends the bring-up (E_NOT_MEMBER); an appliance without cipher goes on
without keys when its map IDENTITY is zero, and fails step 3 otherwise (E_LINK_AUTH). -/
def execHello (port : BitVec 6) (o : HelloOps) (s : State) : Host.Outcome State Fault Refusal :=
  let p := port.toNat
  let x := s.port p
  if ¬ (x.step = 2 ∧ x.state = 1) then .next s
  else if o.compId ≠ s.comp.id then .next (s.bringupFail p)
  else
    let cr := (List.range 16).map fun v => (v, ((o.buffers[v]?).map BitVec.toNat).getD (laneBuffer v))
    let y := { x with peerDev := o.device.toNat, peerPort := o.peerPort.toNat, peerKind := o.kind.toNat
                      cipher := o.cipher == 1, credits := cr }
    if o.cipher = 1 ∧ s.module = 2 then .next (s.bringupFail p)
    else if o.cipher = 1 then .next ((s.setPort p { y with state := 2, step := 3 }).emit (.control p 2 []))
    else if o.kind = 2 ∧ (s.member o.device.toNat).any fun m => m.identity == 0 then
      .next ((s.setPort p { y with state := 2, step := 4 }).emit (.control p 3 []))
    else .next ((s.bump .authFail p 1).bringupFail p)

/-- KEY_CONFIRM (R366 steps 3 to 5): the signature must verify and the peer's identity be that of its number in the map;
the port is then UP, DEGRADED at ×4, or LIMITED while the map has no entry for the peer. -/
def execKeyConfirm (port : BitVec 6) (identity : U256) (sigOk : U1) (s : State) : Host.Outcome State Fault Refusal :=
  let p := port.toNat
  let x := s.port p
  if ¬ (x.state = 2 ∧ (x.step = 3 ∨ x.step = 4)) then .next s
  else
    let m := s.member x.peerDev
    if x.step = 3 ∧ (sigOk = 0 ∨ m.any fun y => y.identity != identity) then .next ((s.bump .authFail p 1).bringupFail p)
    else
      let st := if m.isNone then 5 else if x.width = 8 then 3 else 4
      .next ((s.setPort p { x with state := st, step := 0, keys := x.keys + boolBit x.cipher, lastAck := s.pkg.pkc }).emit
        (.control p 3 [])).sendLinks

/-- BRINGUP_RETRY (R366): 2^20 counts after a failed step. -/
def execBringupRetry (port : BitVec 6) (s : State) : Host.Outcome State Fault Refusal :=
  let x := s.port port.toNat
  if x.state ≠ 6 ∨ x.step ≠ 0 ∨ s.pkc - x.failedAt.toNat < 2 ^ 20 then .next s
  else .next (s.bringup port.toNat)

/-! ## Rekeys (R368) -/

/-- A rekey of the transmit direction begun: a new key exchange in CONTROL flits. -/
def State.startRekey (s : State) (p : Nat) : State :=
  let x := s.port p
  if x.state < 3 ∨ 5 < x.state ∨ ¬ x.cipher ∨ x.rekeying then s
  else (s.setPort p { x with rekeying := true }).emit (.control p 2 [])

/-- FRAME_COUNT_REKEY (R368). -/
def execFrameCountRekey (port : BitVec 6) (s : State) : Host.Outcome State Fault Refusal :=
  if (s.port port.toNat).txFrames < 2 ^ 32 - 2 ^ 24 then .next s else .next (s.startRekey port.toNat)

/-- REKEY_DONE (R368): the new key takes effect with a changed KEY_PHASE, and the frame count starts at 0; a direction
that had stopped at 2^32 frames goes on. -/
def execRekeyDone (port : BitVec 6) (s : State) : Host.Outcome State Fault Refusal :=
  let p := port.toNat
  let x := s.port p
  if ¬ x.rekeying then .next s
  else .next (((s.setPort p { x with rekeying := false, keyPhase := !x.keyPhase, txFrames := 0, keys := x.keys + 1 }).bump
    .rekeys p 1).pump p 512)

/-! ## Port commands (R369) -/

/-- A port disabled (R369): it stops driving its lanes, and its keys are erased. -/
def State.portOff (s : State) (p : Nat) : State :=
  let was := (s.port p).state
  let s1 := (s.setFld .portCtrl p 0 0 1 1).setPort p
    { (s.port p).cleared with state := 0, step := 0, peerDev := 0xFFFF, peerPort := 0, peerKind := 0 }
  if 3 ≤ was ∧ was ≤ 5 then s1.sendLinks else s1

/-- A port number outside BX0..BX47 (R23). -/
def badPort (port : BitVec 6) : Bool := 48 ≤ port.toNat

/-- PORT_ENABLE (R369): DISABLE cleared, bring-up begun when the port is down. -/
def execPortEnable (h : Hdr) (port : BitVec 6) (s : State) : Host.Outcome State Fault Refusal :=
  hostCmd { fns := .pf0, priv := eCompPriv, widths := [6], noImage := true, entry := portNode port } h (fun s _ =>
    checked [(badPort port, eBadUnit)]
      (let s1 := s.setFld .portCtrl port.toNat 0 0 1 0
       let st := (s1.port port.toNat).state
       .done (if st = 0 ∨ st = 6 then s1.bringup port.toNat else s1))) s

/-- PORT_DISABLE (R369): wedge-proof. -/
def execPortDisable (h : Hdr) (port : BitVec 6) (s : State) : Host.Outcome State Fault Refusal :=
  hostCmd { fns := .pf0, priv := eCompPriv, widths := [6], wedge := true, noImage := true } h (fun s _ =>
    checked [(badPort port, eBadUnit)] (.done (s.portOff port.toNat))) s

/-- PORT_REKEY (R368). -/
def execPortRekey (h : Hdr) (port : BitVec 6) (s : State) : Host.Outcome State Fault Refusal :=
  hostCmd { fns := .pf0, priv := eCompPriv, widths := [6], noImage := true, entry := portNode port } h (fun s _ =>
    checked [(badPort port, eBadUnit)] (.done (s.startRekey port.toNat))) s

end Sys2Proof.Machine
end

