-- ==== Sys2Proof/Machine/Ingress.lean ====
section
/-! DEFINITION. A transaction's arrival: the port's checks (R366, R367), credits (R358), metering (R281..R284), the tag
window (R361), map epochs (R377), execution and response; transit (R364), DROP (R284), and the timers of requests
(R362). -/

namespace Sys2Proof.Machine

/-! ## Responses (R359..R361) -/

/-- What the execution of a request answers: a status, an 8-byte result, data, whether the data is poisoned, and whether a
RESP is sent (else another message replies, or none). -/
structure Ans where
  status : Nat := 0
  result : Nat := 0
  data : Bytes := []
  poison : Bool := false
  reply : Bool := true
  deriving DecidableEq, Repr

/-- Egress queue of a request by its header (R360). -/
def queueOf (t : TxHdr) (type : Nat) : Nat :=
  if type = 6 ∨ type = 7 then 0 else if type = 4 then 1
  else if type = 5 ∧ t.lc = 1 then 2 else if type = 1 ∧ t.lc = 1 then 3 else 4 + t.queue.toNat

/-- A response, TYPE 8 RESP or 9 DROP, in the queue of its request, on that queue's response lane; lost where no route
exists. -/
def State.answer (s : State) (t : TxHdr) (type rtype status result : Nat) (data : Bytes) (poison : Bool) : State :=
  match s.route t.slice.toNat t.src.toNat 8 0 with
  | none => s
  | some p =>
    let q := queueOf t type
    let hdr := [t.lc.toNat, t.queue.toNat, 8, 0, s.ownNo.getD 0xFFFF, s.comp.epoch, t.slice.toNat]
    (({ s with net := { s.net with next := s.net.next + 1 } }).emit
      (.link p t.src.toNat rtype 0 t.tag.toNat hdr [t.addr.toNat, status, result, boolBit poison] data)).enqueue p
      (laneOf q true) q data.length

/-- A RESP with a code. -/
def State.respCode (s : State) (t : TxHdr) (type code : Nat) : State := s.answer t type 8 code 0 [] false

/-! ## Arrival at a port (R281..R284, R358, R366, R367) -/

/-- The flits of a transaction leave their lane's buffer: their credits return (R358). -/
def State.leaveBuffer (s : State) (p vl n : Nat) : State :=
  let x := s.port p
  let k := min n (tabGetD x.ingress 0 vl)
  if k = 0 then s
  else (s.setPort p { x with ingress := tabPut x.ingress vl (tabGetD x.ingress 0 vl - k) }).emit (.flit p 0 [0, 0, 0, vl, k])

/-- The port's part of an arrival; the flag says that the transaction goes on. A tag that fails to verify discards it and
fails the port (R367). -/
def State.arrive (s : State) (t : TxHdr) (type op n vl : Nat) (request : Bool) : State × Bool :=
  let p := t.port.toNat
  let x := s.port p
  if x.state < 3 ∨ 5 < x.state then (s, false)
  else if t.tagOk = 0 ∧ x.cipher then ((s.bump .authFail p 1).portFail p, false)
  else
    let s0 := match s.portSlice p with
      | some sl => s.evc sl 0x21 p (flitsOf n)
      | none => s
    if ¬ x.carries type op then (s0.leaveBuffer p vl (flitsOf n), false)
    else if request ∧ 4 ≤ queueOf t type then
      let m := s0.metered p vl t.src.toNat (flitsOf n) (t.lc == 1) t.colour.toNat
      let s1 := m.1.leaveBuffer p vl (flitsOf n)
      if m.2.2 then (s1, true) else (s1.answer t type 9 eMeterDrop 0 [] false, false)
    else (s0.leaveBuffer p vl (flitsOf n), true)

/-! ## The tag window (R361) -/

/-- Where a tag lies against the window of its source. -/
inductive TagAt where
  | fresh | duplicate (status result : Nat) | below | running
  deriving DecidableEq, Repr

/-- Distance of a tag below the highest received, modulo 2^32; 0 when it is not below. -/
def tagBelow (highest tag : Nat) : Nat :=
  let d := (2 ^ 32 + highest - tag % 2 ^ 32) % 2 ^ 32
  if d < 2 ^ 31 then d else 0

/-- The lookup of a tag. -/
def State.tagAt (s : State) (src tag : Nat) : TagAt :=
  match tabGet s.comp.windows src with
  | none => .fresh
  | some w => match tabGet w.done tag with
    | some r => .duplicate r.1 r.2
    | none => if w.running.contains tag then .running else if 4096 < tagBelow w.highest tag then .below else .fresh

/-- A tag received: the highest rises, and what lies below the window is dropped. -/
def State.tagSeen (s : State) (src tag : Nat) : State :=
  let w := tabGetD s.comp.windows { highest := tag } src
  let hi := if tagBelow w.highest tag = 0 then tag else w.highest
  let w' : TagWindow := { w with highest := hi, done := w.done.filter fun d => tagBelow hi d.1 ≤ 4096 }
  { s with comp := { s.comp with windows := tabPut s.comp.windows src w' } }

/-- The status and result of an executed tag kept. -/
def State.tagDone (s : State) (src tag status result : Nat) : State :=
  let w := tabGetD s.comp.windows { highest := tag } src
  { s with comp := { s.comp with
    windows := tabPut s.comp.windows src { w with
      done := tabPut w.done tag (status, result), running := w.running.filter (· != tag) } } }

/-- A tag whose request is answered later. -/
def State.tagRuns (s : State) (src tag : Nat) : State :=
  let w := tabGetD s.comp.windows { highest := tag } src
  { s with comp := { s.comp with windows := tabPut s.comp.windows src { w with running := w.running ++ [tag] } } }

/-- The answer to a request that was answered later. -/
def State.lateAnswer (s : State) (t : TxHdr) (type status result : Nat) : State :=
  (s.tagDone t.src.toNat t.tag.toNat status result).answer t type 8 status result [] false

/-! ## Requests (R372, R377) -/

/-- A request as the target meets it: its header, TYPE, OP and payload length, the command it came as, whether map epochs
do not apply to it, the object it names for a forwarding record, whether the device holds that object, and its effect. -/
structure Rule where
  t : TxHdr
  type : Nat
  op : Nat
  len : Nat
  data : Bytes := []
  cmd : Instr
  exempt : Bool := false
  target : Option (Nat × Nat) := none
  holds : Bool := true
  eff : State → State × Ans

/-- A request executed: its tag recorded, its response sent. -/
def State.execute (s : State) (r : Rule) : State :=
  let e := r.eff s
  if e.2.reply then
    (e.1.tagDone r.t.src.toNat r.t.tag.toNat e.2.status e.2.result).answer r.t r.type 8 e.2.status e.2.result e.2.data
      e.2.poison
  else e.1.tagRuns r.t.src.toNat r.t.tag.toNat

/-- The forwarding record of a request's object (R377). -/
def State.forwardOf (s : State) (r : Rule) : Option Nat :=
  r.target.bind fun k => (s.comp.forward.find? fun f => f.1 == k.1 && f.2.1 == k.2).map (·.2.2.1)

/-- A request forwarded with FWD set, its SRC_DEV and TAG unchanged (R377 order 4). -/
def State.forward (s : State) (r : Rule) (dev : Nat) : State :=
  match s.route 0xFF dev r.type r.op with
  | none => s
  | some p =>
    let q := queueOf r.t r.type
    let hdr := [r.t.lc.toNat, r.t.queue.toNat, r.t.hops.toNat, 1, r.t.src.toNat, s.comp.epoch, r.t.slice.toNat]
    ((({ s with net := { s.net with next := s.net.next + 1 } }).bump .forwarded 0 1).emit
      (.link p dev r.type r.op r.t.tag.toNat hdr [r.t.addr.toNat, r.t.aux.toNat] r.data)).enqueue p (laneOf q false) q r.len

/-- The table *Epoch handling* (R377); `last` says that the request has been held already. -/
def State.judge (s : State) (r : Rule) (last : Bool) : State :=
  let src := r.t.src.toNat
  let m := r.t.epoch.toNat
  if r.exempt then s.execute r
  else if (s.member src).isNone ∨ (r.t.slice.toNat < 64 ∧ ¬ s.joined r.t.slice.toNat) then s.respCode r.t r.type eNotMember
  else if r.holds then s.execute r
  else if s.comp.epoch < m ∧ ¬ last then
    let h : HeldTx := { since := s.pkg.pkc, hdr := r.t, cmd := r.cmd }
    let s1 := { s with net := { s.net with held := s.net.held ++ [h] } }
    s1.send src 6 6 0xFF [] [] .map
  else match s.forwardOf r with
    | some d => if m < s.comp.epoch ∧ s.comp.epoch - m ≤ 2 then s.forward r d
      else (s.respCode r.t r.type eStaleMap).bump .staleMapSent 0 1
    | none => (s.respCode r.t r.type eStaleMap).bump .staleMapSent 0 1

/-- A request that arrives: the port, the tag window, the map epoch. A READ met again is read again, since the window
keeps no data (log entry 23). -/
def State.serve (s : State) (r : Rule) : State :=
  if s.net.redo then ({ s with net := { s.net with redo := false } }).judge r true
  else
  let a := s.arrive r.t r.type r.op r.len (laneOf (queueOf r.t r.type) false) true
  if ¬ a.2 then a.1
  else
    let src := r.t.src.toNat
    let tag := r.t.tag.toNat
    match a.1.tagAt src tag with
    | .below => a.1.bump .dedupDiscards 0 1
    | .running => a.1
    | .duplicate st res =>
      let s1 := a.1.bump .dedupHits 0 1
      if r.type = 1 then
        let e := r.eff s1
        s1.answer r.t r.type 8 e.2.status e.2.result e.2.data e.2.poison
      else s1.answer r.t r.type 8 st res [] false
    | .fresh => (a.1.tagSeen src tag).judge r false

/-! ## Transit and unknown transactions (R360, R364) -/

/-- UNSUPPORTED_TRANSACTION (R360): a reserved TYPE or OP is answered with E_TARGET_UNSUPPORTED. -/
def execUnsupportedTransaction (t : TxHdr) (type op : U8) (s : State) : Host.Outcome State Fault Refusal :=
  let a := s.arrive t type.toNat op.toNat 0 (laneOf (queueOf t type.toNat) false) true
  .next (if a.2 then a.1.respCode t type.toNat eTargetUnsupported else a.1)

/-- TRANSIT_FORWARD (R364): a transaction for another device goes on with HOPS decremented; at 0 it is discarded, and its
source gets E_HOP_LIMIT. Responses are neither metered nor answered. -/
def execTransitForward (t : TxHdr) (dst : U16) (type op : U8) (data : Bytes) (s : State) :
    Host.Outcome State Fault Refusal :=
  let ty := type.toNat
  let request := ty ≠ 8 ∧ ty ≠ 9
  let q := queueOf t ty
  let vl := laneOf q (!request)
  let p := t.port.toNat
  let x := s.port p
  if x.state < 3 ∨ 4 < x.state then .next s
  else if t.tagOk = 0 ∧ x.cipher then .next ((s.bump .authFail p 1).portFail p)
  else
    let m := if request ∧ 4 ≤ q then s.metered p vl t.src.toNat (flitsOf data.length) (t.lc == 1) t.colour.toNat
      else (s, t.colour.toNat, true)
    let s1 := m.1.leaveBuffer p vl (flitsOf data.length)
    if ¬ m.2.2 then .next (s1.answer t ty 9 eMeterDrop 0 [] false)
    else if t.hops.toNat ≤ 1 then .next (if request ∧ ty ≠ 4 then s1.respCode t ty eHopLimit else s1)
    else match s1.route 0xFF dst.toNat ty op.toNat with
      | none => .next s1
      | some o =>
        let hdr := [t.lc.toNat, t.queue.toNat, t.hops.toNat - 1, t.fwd.toNat, t.src.toNat, t.epoch.toNat, t.slice.toNat,
          m.2.1]
        .next ((({ s1 with net := { s1.net with next := s1.net.next + 1 } }).emit
          (.link o dst.toNat ty op.toNat t.tag.toNat hdr [t.addr.toNat, t.aux.toNat] data)).enqueue o vl q data.length)

/-! ## Requests that were dropped or not answered (R284, R362) -/

/-- An outstanding request of this device. -/
def State.txn (s : State) (dev tag : Nat) : Option Txn := s.comp.outst.find? fun t => t.dev == dev && t.tag == tag

/-- An outstanding request changed. -/
def State.setTxn (s : State) (t : Txn) : State :=
  { s with comp := { s.comp with
    outst := s.comp.outst.map fun (x : Txn) => (if x.dev = t.dev ∧ x.tag = t.tag then t else x) } }

/-- An outstanding request ended; a request that waited for room to its destination goes out (R361). -/
def State.endTxn (s : State) (dev tag : Nat) : State :=
  let s1 := { s with comp := { s.comp with outst := s.comp.outst.filter fun x => !(x.dev == dev && x.tag == tag) } }
  match s1.comp.outst.find? fun x => x.dev == dev && x.held with
  | none => s1
  | some t =>
    let t' := { t with held := false, first := s1.pkg.pkc, last := s1.pkg.pkc }
    (s1.setTxn t').transmit t'

/-- Lane and arrival of a response of type 8 or 9 to an outstanding request. -/
def State.arriveResp (s : State) (t : TxHdr) (rtype n : Nat) : State × Bool :=
  let q := match s.txn t.src.toNat t.tag.toNat with
    | some x => s.egressQueue x.slice x.type (s.sendClass x.purpose)
    | none => 4 + t.queue.toNat
  s.arrive t rtype 0 n (laneOf q true) false

/-- DROP (R284): the request is issued again once QOS_HOLDOFF has passed. -/
def execDrop (t : TxHdr) (s : State) : Host.Outcome State Fault Refusal :=
  let a := s.arriveResp t 9 0
  match a.2, a.1.txn t.src.toNat t.tag.toNat with
  | true, some x => .next (a.1.setTxn { x with dropped := some a.1.pkg.pkc })
  | _, _ => .next a.1

/-- QOS_HOLDOFF_EXPIRY (R284): the same request, green; counted in DROP_RETRIES. -/
def execQosHoldoffExpiry (dev : U16) (tag : U32) (s : State) : Host.Outcome State Fault Refusal :=
  match s.txn dev.toNat tag.toNat with
  | none => .next s
  | some x => match x.dropped with
    | none => .next s
    | some d =>
      if s.pkc - d.toNat < s.reg .qosHoldoff 0 0 then .next s
      else
        let x' := { x with dropped := none, last := s.pkg.pkc }
        let s1 := s.setTxn x'
        .next ((if x.slice < 64 then s1.bump .dropRetries x.slice 1 else s1).transmit x')

/-- TXN_LIMIT (R362, R388). -/
def State.txnLimit (s : State) : Nat := s.reg64 .txnLimitLo .txnLimitHi 0

/-- TXN_RESEND (R362): after TXN_LIMIT ÷ 4 without a response, at most three times. -/
def execTxnResend (dev : U16) (tag : U32) (s : State) : Host.Outcome State Fault Refusal :=
  match s.txn dev.toNat tag.toNat with
  | none => .next s
  | some x =>
    if x.held ∨ x.dropped.isSome ∨ 3 ≤ x.tries ∨ s.pkc - x.last.toNat < s.txnLimit / 4 then .next s
    else .next ((s.setTxn { x with tries := x.tries + 1 }).again { x with tries := x.tries + 1 })

end Sys2Proof.Machine
end

