-- ==== Sys2Proof/Machine/Tiers.lean ====
section
/-! DEFINITION. Memory tiers: objects and apertures (R297..R300, R380), translation misses and fetch on demand
(R137, R301), gesso (R317), patrol (R314) and core store rows (R316). -/

namespace Sys2Proof.Machine

/-! ## MEM_ALLOC (R297..R299) -/

/-- The range of an object part (R291): T1, T2. -/
def tierRange (tier : Nat) : Nat × Nat :=
  if tier = 1 then (0, 0x3_0000_0000_0000) else (0x4_0000_0000_0000, 0x7_0000_0000_0000)

/-- A range lies wholly in the part of its tier. -/
def inTier (tier va n : Nat) : Bool := (tierRange tier).1 ≤ va && va + n ≤ (tierRange tier).2

/-- Objects of a slice as (start, bytes). -/
def State.objRanges (s : State) (sl : Nat) : List (Nat × Nat) :=
  (s.mem.objects.filter (·.slice == sl)).map fun o => (o.va, o.bytes)

/-- Two ranges overlap. -/
def overlaps (a n : Nat) (r : Nat × Nat) : Bool := decide (a < r.1 + r.2) && decide (r.1 < a + n)

/-- The lowest free range of a part for `n` bytes, at a multiple of `align`. -/
def State.lowestRange (s : State) (sl tier n align : Nat) : Option Nat :=
  let l := s.objRanges sl
  ((candidates (tierRange tier).1 align l).mergeSort (fun a b => decide (a ≤ b))).find? fun a =>
    inTier tier a n && l.all fun r => !overlaps a n r

/-- The tier an allocation takes (R297): a tier operand of 0 takes the tier map's byte. -/
def State.tierFor (s : State) (sl type tier : Nat) : Nat :=
  if tier = 0 then (if byteAt (s.tierMap sl) (0x18 + type) = 2 then 2 else 1) else tier

/-- The tier map of the slice is in OBJECT mode. -/
def State.objectMode (s : State) (sl : Nat) : Bool := byteAt (s.tierMap sl) 0 == 1

/-- Protection of an allocation (R299, R307): as asked, and always in a confidential slice. -/
def State.protFor (s : State) (sl : Nat) (ask : Bool) : Bool := ask || s.confidential sl

/-- The chunks of a T1 object (R299): pieces that end at multiples of 2 MiB: offset and length. -/
def chunksOf (va off : Nat) : Nat → Nat → List (Nat × Nat)
  | 0, _ => []
  | k + 1, n =>
    if n = 0 then []
    else
      let l := min n (2 ^ 21 - (va + off) % 2 ^ 21)
      (off, l) :: chunksOf va (off + l) k (n - l)

/-- Frames taken for the chunks of a T1 object: on one die, or striped by address (R299). -/
def State.takeChunks (s : State) (sl va : Nat) (die : Option Nat) (prot : Bool) :
    List (Nat × Nat) → List (Nat × Nat × Nat) → Option (State × List (Nat × Nat × Nat))
  | [], acc => some (s, acc)
  | (off, len) :: l, acc =>
    let dies := s.dieList sl
    let n := match die with
      | some k => dies.getD k 0
      | none => dies.getD ((va + off) / 2 ^ 21 % max 1 dies.length) 0
    (s.alloc sl n len (if len = 2 ^ 21 then 2 ^ 21 else 4096) prot).bind fun x =>
      x.1.takeChunks sl va die prot l (acc ++ [(off, x.2, len)])

/-- A T1 object allocated and mapped; none where its dies lack room, or a table its leaves need. -/
def State.allocT1 (s : State) (sl type va units : Nat) (die : Option Nat) (prot : Bool) (t : Option Tag := none) :
    Option State :=
  let n := units * 4096
  (s.takeChunks sl va die prot (chunksOf va 0 (n / 2 ^ 21 + 2) n) []).bind fun x =>
    let o : Obj := { type := type, slice := sl, va := va, units := units, tier := 1, prot := prot, pieces := x.2
                     tag := t }
    { x.1 with mem := { x.1.mem with objects := x.1.mem.objects ++ [o] } }.remap sl

/-- Pool space a device has taken on a member for T2 objects and apertures, in 64 KiB units. -/
def State.poolUsed (s : State) (dev : Nat) : Nat :=
  (s.mem.objects.filter fun o => o.members.any (·.1 == dev)).foldl
    (fun n o => n + divUp (divUp o.bytes 65536) (max 1 o.members.length)) 0 +
  (s.apertures.filter (·.member == dev)).foldl (fun n (a : Aperture) => n + a.units) 0

/-- Pool members that can take `need` units, the one with most free space first, then the lower number (R302). -/
def State.stripeMembers (s : State) (sl : Nat) (prot : Bool) (need : Nat) : List Nat :=
  let l := (s.canvasMembers sl prot need).filter fun d => match s.member d with
    | some m => need + s.poolUsed d ≤ m.pool
    | none => false
  let free (d : Nat) : Nat := ((s.member d).map (·.pool)).getD 0 - s.poolUsed d
  l.mergeSort fun a b => free b < free a || (free a == free b && a ≤ b)

/-- 64 KiB units that each of `w` stripe members gives to an object of `n` bytes (R302). -/
def stripeUnits (n w : Nat) : Nat := divUp (divUp n 65536) (max 1 w)

/-- A T2 object: POOL_ALLOC sent to every stripe member; the object is mapped, with no granule resident, once all have
answered. -/
def State.allocT2 (s : State) (sl type va units fetchLog2 w : Nat) (prot : Bool) (t : Option Tag) : Option State :=
  let need := stripeUnits (units * 4096) w
  let ms := (s.stripeMembers sl prot need).take w
  if ms.length < w then none
  else
    let o : Obj := { type := type, slice := sl, va := va, units := units, tier := 2, prot := prot
                     fetchLog2 := fetchLog2, members := ms.map fun m => (m, 0), awaited := ms, tag := t }
    let s1 := { s with mem := { s.mem with objects := s.mem.objects ++ [o] } }
    some (ms.foldl (fun (t : State) m => t.send m 7 0x20 sl [need] [] (.objAlloc sl va)) s1)

/-- The stripe of a protected object can be formed from QW5200 members (R298 check 5). -/
def State.stripeFormable (s : State) (sl w : Nat) : Bool :=
  w ≤ ((s.comp.members.filter fun m => m.2.state == 1 && m.2.kind == 1 && m.2.pool != 0 &&
    s.devNo != some m.1 && s.reachable sl m.1).length)

/-- MEM_ALLOC (R298): it waits while gesso of a slice reset is pending (R318). -/
def execMemAlloc (h : Hdr) (slice : BitVec 6) (type : BitVec 3) (tier : BitVec 2) (protect : U1)
    (die fetchLog2 : BitVec 4) (stripe : BitVec 5) (size : U32) (va : U64) (s : State) :
    Host.Outcome State Fault Refusal :=
  let sl := cmdSlice h.fn.toNat slice.toNat
  if s.gessoWaits sl then .next s
  else hostCmd { widths := [6, 3, 2, 1, 4, 4, 5, 32, 64] } h (fun s t =>
    let n := size.toNat * 4096
    let ti := s.tierFor sl type.toNat tier.toNat
    let w0 := if stripe = 0 then max 1 (le (s.tierMap sl) 2 2) else stripe.toNat
    let prot := s.protFor sl (protect == 1)
    let a := if va = 0 then s.lowestRange sl ti n 4096 else some va.toNat
    let die' : Option Nat := if die = 15 then none else some die.toNat
    let rangeBad := va.toNat % 4096 != 0 || (va != 0 && !inTier ti va.toNat n) || a.isNone
    checked
      [(!s.defined sl, eNoImage),
       (2 ≤ type.toNat || tier == 3 || size == 0 || 9 < fetchLog2.toNat || 16 < stripe.toNat ||
        (die != 15 && (s.dieList sl).length ≤ die.toNat) || rangeBad, eTierParam),
       (tier != 0 && s.objectMode sl, eTierMode),
       ((s.objRanges sl).any (overlaps (a.getD 0) n), eVaBusy),
       (ti == 2 && prot && !s.stripeFormable sl w0, eTierProt)]
      (if ti = 1 then
        match s.allocT1 sl type.toNat (a.getD 0) size.toNat die' prot with
        | none => .reject eTierFull
        | some s1 => .done s1 eOk [(64, a.getD 0)]
       else match s.allocT2 sl type.toNat (a.getD 0) size.toNat fetchLog2.toNat w0 prot (some t) with
        | none => .reject eTierFull
        | some s1 => .later s1)) s

/-- The objects that one command creates: those with its tag. -/
def State.createdBy (s : State) (t : Option Tag) : List Obj :=
  if t.isNone then [] else s.mem.objects.filter (·.tag == t)

/-- The tag taken off the objects a command has created. -/
def State.created (s : State) (t : Option Tag) : State :=
  { s with mem := { s.mem with objects := s.mem.objects.map fun (x : Obj) => if x.tag = t then { x with tag := none } else x } }

/-- The running job's model program names a tensor inside the object. -/
def State.objInUse (s : State) (o : Obj) : Bool :=
  match tabGet s.srv.jobs o.slice with
  | none => false
  | some j => (tensorsOf ((s.sect 0x0007 o.slice j.program).getD [])).any fun t => o.va ≤ t.va && t.va < o.va + o.bytes

/-- An object unmapped, its T1 frames freed, its granules dropped and its stripe units given back. -/
def State.freeObj (s : State) (o : Obj) : State :=
  let res := s.mem.fetched.filter fun f => f.slice == o.slice && o.va ≤ f.va && f.va < o.va + o.bytes
  let s1 : State := { s with mem := { s.mem with
    objects := s.mem.objects.filter (· != o), fetched := s.mem.fetched.filter fun f => !res.contains f
    gesso := s.mem.gesso ++ res.map fun f => { pa := f.pa, size := f.size, slice := f.slice } } }
  let s2 := o.pieces.foldl (fun t p => t.freeAt p.2.1) s1
  (o.members.filter fun m => !o.awaited.contains m.1).foldl
    (fun (t : State) m => if (t.member m.1).isSome then t.send m.1 7 0x21 o.slice [m.2] [] .none else t) (s2.unmapped o.slice)

/-- A creation undone: its objects are freed, and the index or table they belong to is gone (R326, R343). -/
def State.uncreate (s : State) (t : Option Tag) : State :=
  let os := s.createdBy t
  let s1 := os.foldl State.freeObj s
  { s1 with ret := { s1.ret with
    indexes := s1.ret.indexes.filter fun x => !os.any fun o => o.slice == x.slice && o.va == x.va
    tables := s1.ret.tables.filter fun x => !os.any fun o => o.slice == x.slice && o.va == x.va } }

/-- Answer to a POOL_ALLOC of an object: its base; with the last answer the command that creates it completes with the
address of its first object. A refusal, or no room for a table that the object's leaves need, undoes the creation, and the
command is rejected with E_TIER_FULL. -/
def State.objAllocated (s : State) (sl va dev : Nat) (base : Option Nat) : State :=
  match s.mem.objects.find? fun o => o.slice == sl && o.va == va with
  | none => match base with
    | some b => s.send dev 7 0x21 sl [b] [] .none
    | none => s
  | some o =>
    match base with
    | some b =>
      let o' := { o with
        awaited := o.awaited.filter (· != dev)
        members := o.members.map fun (m : Nat × Nat) => if m.1 = dev then (dev, b) else m }
      let s1 := { s with mem := { s.mem with objects := s.mem.objects.map fun (x : Obj) => if x = o then o' else x } }
      match if o'.awaited.isEmpty then s1.remap sl else some s1 with
      | none => (s1.uncreate o.tag).completeOpt o.tag eTierFull []
      | some s2 =>
        let all := s2.createdBy o.tag
        if all.all (·.awaited.isEmpty) then
          (s2.created o.tag).completeOpt o.tag eOk (bytesOf 8 ((all.head?.map (·.va)).getD va))
        else s2
    | none => (s.uncreate o.tag).completeOpt o.tag eTierFull []

/-! ## MEM_FREE (R300) -/

/-- The object of a slice that starts at an address. -/
def State.objStart (s : State) (sl va : Nat) : Option Obj :=
  s.mem.objects.find? fun o => o.slice == sl && o.va == va && o.awaited.isEmpty

/-- MEM_FREE (R300); an object of an index or table is busy (R349). -/
def execMemFree (h : Hdr) (slice : BitVec 6) (va : U64) (s : State) : Host.Outcome State Fault Refusal :=
  hostCmd { widths := [6, 64] } h (fun s _ =>
    let sl := cmdSlice h.fn.toNat slice.toNat
    s.inSlice sl (match s.objStart sl va.toNat with
    | none => .reject eNoObject
    | some o => if s.objInUse o ∨ 2 ≤ o.type then .reject eObjectBusy else .done (s.freeObj o))) s

/-! ## Apertures (R380) -/

/-- A range lies in the aperture part (R291), 64 KiB aligned. -/
def apertureRange (va units : Nat) : Bool :=
  va % 65536 == 0 && 0x7_0000_0000_0000 ≤ va && va + 65536 * units ≤ 0x7_8000_0000_0000 && units != 0

/-- An aperture recorded and its POOL_ALLOC sent. -/
def State.aperturePut (s : State) (x : Aperture) : State :=
  State.send { s with apertures := s.apertures ++ [x] } x.member 7 0x20 x.slice [x.units] [] (.aperture x.slice x.va)

/-- APERTURE_MAP (R380): it completes when the member has answered the POOL_ALLOC. -/
def execApertureMap (h : Hdr) (slice : BitVec 6) (va : U64) (member : U16) (size : U32) (s : State) :
    Host.Outcome State Fault Refusal :=
  hostCmd { widths := [6, 64, 16, 32] } h (fun s t =>
    let sl := cmdSlice h.fn.toNat slice.toNat
    let a := va.toNat
    let n := size.toNat
    let m := s.member member.toNat
    checked
      [(!s.defined sl, eNoImage), (!apertureRange a n, eTierParam),
       ((s.objRanges sl).any (overlaps a (65536 * n)) ||
        s.apertures.any fun x => x.slice == sl && overlaps a (65536 * n) (x.va, 65536 * x.units), eVaBusy),
       (match m with
        | some x => x.pool == 0
        | none => true, eNotMember),
       (s.confidential sl && m.any fun x => x.kind == 2, eTierProt),
       (m.any fun x => x.pool < n, eTierFull)]
      (.later (s.aperturePut ⟨sl, a, n, member.toNat, none, some t⟩))) s

/-- Answer to the POOL_ALLOC of an aperture. -/
def State.apertureAnswer (s : State) (sl va dev : Nat) (base : Option Nat) : State :=
  match s.apertures.find? fun x => x.slice == sl && x.va == va && x.base.isNone with
  | none => match base with
    | some b => s.send dev 7 0x21 sl [b] [] .none
    | none => s
  | some x =>
    match base with
    | some b => { s with apertures := s.apertures.map fun (y : Aperture) =>
        if y = x then { y with base := some b, tag := none } else y }.completeOpt x.tag eOk []
    | none => { s with apertures := s.apertures.filter (· != x) }.completeOpt x.tag eTierFull []

/-- APERTURE_UNMAP (R380). -/
def execApertureUnmap (h : Hdr) (slice : BitVec 6) (va : U64) (s : State) : Host.Outcome State Fault Refusal :=
  hostCmd { widths := [6, 64] } h (fun s _ =>
    let sl := cmdSlice h.fn.toNat slice.toNat
    s.inSlice sl (match s.apertures.find? fun x => x.slice == sl && x.va == va.toNat && x.base.isSome with
    | none => .reject eNoObject
    | some x =>
      let s1 := { s with apertures := s.apertures.filter (· != x) }
      .done (if (s1.member x.member).isSome then s1.send x.member 7 0x21 sl [x.base.getD 0] [] .none else s1))) s

/-! ## Translation misses (R137, R301) -/

/-- TRANSLATION_MISS (R137, R139, R301): a page walk of a core's slice, whose leaf the core's cache holds from then on; no valid leaf and a write to a read-only one are
translation faults; a T2 leaf that is not present starts a fetch, or fails with E_POOL_LOST. -/
def State.miss (s : State) (c sl va : Nat) (write : Bool) : State :=
  let s1 := ((s.evc sl 0x60 0xFF 1).evc sl 0x4D (c / 64) 1).walkFor c sl va
  match s1.accessAt sl write va, s1.objAt sl va with
  | .fault a code, _ => s1.engineFault sl a code
  | .wait _, some o => (s1.evc sl 0x61 0xFF 1).fetchFault o va
  | .lost _, _ => match (s1.core c).inst with
    | some i => s1.poolLost i
    | none => s1
  | _, _ => s1

/-- TRANSLATION_MISS of a core; an aperture is not translated in the core's cache but reached by MV (R291, R380). -/
def execTranslationMiss (core : BitVec 9) (va : BitVec 52) (write : U1) (s : State) :
    Host.Outcome State Fault Refusal :=
  match s.coreSlice core.toNat with
  | none => .next s
  | some sl =>
    if (s.apertureAt sl va.toNat).isSome then .next (s.engineFault sl va.toNat eXlate)
    else .next (s.miss core.toNat sl va.toNat (write == 1))

/-- READs of a granule are outstanding. -/
def State.fetching (s : State) (sl va : Nat) : Bool :=
  s.comp.outst.any fun t => match t.purpose with
    | .fetch l a _ => l == sl && a == va
    | _ => false

/-- FETCH_DONE (R301): every stripe unit of the granule has arrived; the leaf is set present. -/
def execFetchDone (slice : BitVec 6) (va : BitVec 52) (s : State) : Host.Outcome State Fault Refusal :=
  let sl := slice.toNat
  match s.mem.fetched.find? fun f => f.slice == sl && f.va == va.toNat && f.inflight with
  | none => .next s
  | some f =>
    if s.fetching sl f.va then .next s
    else .next (({ s with mem := { s.mem with fetched := s.mem.fetched.map fun (x : FetchGran) =>
      if x = f then { x with inflight := false } else x } }.invalidate sl).bump .memFetches sl 1)

/-! ## Gesso (R317, R318) -/

/-- GESSO_FILL_DONE (R317): the region returns to its free pool; a freed window may be used again once its last region
has been filled (R131). -/
def execGessoFillDone (pa : U64) (s : State) : Host.Outcome State Fault Refusal :=
  match s.mem.gesso.find? fun g => g.pa == pa.toNat with
  | none => .next s
  | some g =>
    let s1 := s.gessoFill g.pa g.size
    let left := s1.mem.gesso.filter (· != g)
    let win := match g.window with
      | some w => if left.any fun x => x.window == some w then s1.mem.winGesso else s1.mem.winGesso.filter (· != w)
      | none => s1.mem.winGesso
    .next { s1 with mem := { s1.mem with gesso := left, winGesso := win } }

/-! ## Patrol and core store rows (R314, R316) -/

/-- PATROL_READ (R314) of a sector of a state die while patrol runs; an address above 40 bits names no memory (R292). -/
def execPatrolRead (pa : U64) (errs : List (U8 × U8)) (s : State) : Host.Outcome State Fault Refusal :=
  let n := pa.toNat / 2 ^ 37
  if 8 ≤ n then .fault (.noSuchAddress pa.toNat)
  else if s.fld .mcEccCtrl n 0 3 1 = 0 ∨ s.reg64 .mcPatrolLo .mcPatrolHi n = 0 then .next s
  else
    let s1 := { s with mem := { s.mem with patrolAt := tabPut s.mem.patrolAt n (pa.toNat / 128 * 128) } }
    .next (s1.sectorRead pa.toNat (errs.map fun e => (e.1.toNat, e.2.toNat)))

/-- A row of a core's bank replaced by a spare one, or the first bank without a spare reported (R316). -/
def State.rowReplace (s : State) (c bank key : Nat) : State :=
  let used := tabGetD s.mem.spares 0 (c * 32 + bank)
  if used < 8 then
    { s with mem := { s.mem with
        spares := tabPut s.mem.spares (c * 32 + bank) (used + 1), replaced := setInsert s.mem.replaced key
        rowErrs := tabDel s.mem.rowErrs key } }
  else if s.mem.degraded.contains c then s
  else { s with mem := { s.mem with degraded := setInsert s.mem.degraded c } }.post 64 0x04 0xFF 0 (packBytes [(16, c)])

/-- CORE_STORE_ROW_REPLACE (R315, R316): a corrected error of a row; at the threshold the row is replaced. -/
def execCoreStoreRowReplace (core : BitVec 9) (bank : BitVec 5) (row : BitVec 12) (s : State) :
    Host.Outcome State Fault Refusal :=
  let c := core.toNat
  let d := c / 64
  if 3072 ≤ row.toNat then .next s
  else
    let key := 2 ^ 17 * c + 2 ^ 12 * bank.toNat + row.toNat
    let n := tabGetD s.mem.rowErrs 0 key + 1
    let s1 := { s.bump .csCe d 1 with mem := { s.mem with rowErrs := tabPut s.mem.rowErrs key n } }
    .next (if n < s.fld .csSpare d 0 16 8 then s1 else s1.rowReplace c bank.toNat key)

end Sys2Proof.Machine
end

