-- ==== Sys2Proof/Machine/Palette.lean ====
section
/-! DEFINITION. The palette (R177..R182): loading, compilation and unloading of learned prefixes. -/

namespace Sys2Proof.Machine

/-- Bytes of the source of an entry (R178). -/
def palSource (p : Prog) (tokens : Nat) : Nat := p.layers * tokens * 4 * p.kvHeads * p.headDim

/-- Bytes of a part of an entry (R180). -/
def palPart (tokens u : Nat) : Nat := divUp (u * tokens) 4096 * 4096

/-- The parts of an entry (R180): offset in its slot, layer, bytes. -/
def palParts (g : Geom) (tokens : Nat) : List (Nat × Nat × Nat) :=
  let e := palPart tokens g.e
  let s := palPart tokens g.s
  let c := palPart tokens g.c
  (List.range g.layers).map (fun l => (l * e, l, e)) ++
  (List.range g.layers).map (fun l => (g.layers * e + l * s, l, s)) ++
  (if g.c = 0 then [] else (List.range g.layers).map fun l => (g.layers * (e + s) + l * c, l, c))

/-- Bytes of a compiled entry. -/
def palSize (g : Geom) (tokens : Nat) : Nat := (palParts g tokens).foldl (fun n x => n + x.2.2) 0

/-- Pages for the parts of an entry, each on the die of its layer (R145, R180); all or nothing. -/
def State.takeParts (s : State) (sl : Nat) (prot : Bool) :
    List (Nat × Nat × Nat) → List (Nat × Nat × Nat) → Option (State × List (Nat × Nat × Nat))
  | [], acc => some (s, acc)
  | (off, l, n) :: r, acc =>
    (s.alloc sl (s.layerDie sl l) n 4096 prot).bind fun x => x.1.takeParts sl prot r (acc ++ [(off, x.2, n)])

/-- The first palette index not taken. -/
def State.freePalIndex (s : State) : Option Nat :=
  let i := tabFresh s.srv.pals 0
  if i < 4096 then some i else none

/-- An entry of the slice with the same content and program (R178 check 3). -/
def State.palDup (s : State) (sl : Nat) (program content : U256) : Option Nat :=
  (s.srv.pals.find? fun x => x.2.slice == sl && x.2.program == program && x.2.content == content).map (·.1)

/-- PALETTE_LOAD after its first two checks: the source is read for its hash, then index and pages are taken. -/
def State.palLoad (s : State) (sl index : Nat) (sect : Bytes) (tokens : Nat) (src : U64) (t : Tag) : Reply :=
  let p := progOf sect
  match s.hostRead src.toNat (palSource p tokens) with
  | none => .reject eHostRead
  | some b =>
    let program := Config.sha3 sect
    let content := Config.sha3 b
    match s.palDup sl program content with
    | some e => .reject ePaletteDup 0 [(16, e)]
    | none =>
      let prot := s.confidential sl
      match s.freePalIndex, s.takeParts sl prot (palParts p.geom tokens) [] with
      | some e, some x =>
        let q : Pal := { slice := sl, program := program, index := index, content := content, src := src
                         tokens := tokens, prot := prot, parts := x.2, tag := some t }
        match { x.1 with srv := { x.1.srv with pals := tabPut x.1.srv.pals e q } }.remap sl with
        | some s1 => .later s1
        | none => .reject ePaletteFull
      | _, _ => .reject ePaletteFull

/-- PALETTE_LOAD (R178, R179). -/
def execPaletteLoad (h : Hdr) (slice : BitVec 6) (program : BitVec 4) (tokens : U16) (srcAddr : U64) (s : State) :
    Host.Outcome State Fault Refusal :=
  hostCmd { widths := [6, 4, 16, 64] } h (fun s t =>
    let sl := cmdSlice h.fn.toNat slice.toNat
    let sect := s.sect 0x0007 sl program.toNat
    let n := tokens.toNat
    let big := match sect with
      | some b => 2 ^ 32 < palSize (progOf b).geom n
      | none => true
    checked
      [(!s.defined sl, eNoImage),
       (n == 0 || decide (8192 < n) || sect.isNone || big || srcAddr.toNat % 4096 != 0, ePaletteParam)]
      (s.palLoad sl program.toNat (sect.getD []) n srcAddr t)) s

/-- An entry's pages freed, gesso-filled, and its index free again. -/
def State.freePal (s : State) (e : Nat) : State :=
  match tabGet s.srv.pals e with
  | none => s
  | some q =>
    let s1 := q.parts.foldl (fun t p => t.freeAt p.2.1) s
    { s1 with srv := { s1.srv with pals := tabDel s1.srv.pals e } }.unmapped q.slice

/-- The keys or values of a token of a layer in the source (R178), by head. -/
def palHeads (p : Prog) (b : Bytes) (layer tokens t v : Nat) : List (List U32) :=
  let d := p.headDim
  let row := (layer * tokens + t) * 4 * p.kvHeads * d + v * 2 * p.kvHeads * d
  (List.range p.kvHeads).map fun h => (List.range d).map fun j =>
    BitVec.ofNat 32 (65536 * le b (row + (h * d + j) * 2) 2)

/-- A token's row compiled (R179): keys rotated at its position, everything rounded to nearest even. -/
def palRowOf (sect b : Bytes) (layer tokens t : Nat) : KvRow :=
  let p := progOf sect
  let keys := (palHeads p b layer tokens t 0).map (rotate (freqsOf sect) t)
  encRow p (fun _ _ _ => rne) (keys.map (·.map rd32)) ((palHeads p b layer tokens t 1).map (·.map rd32))

/-- The bytes of the element, scale and sidecar parts of a layer. -/
def palLayer (sect b : Bytes) (layer tokens : Nat) : Bytes × Bytes × Bytes :=
  let g := (progOf sect).geom
  let rows := (List.range tokens).map (palRowOf sect b layer tokens)
  (rows.flatMap fun r => padTo g.e r.elem, rows.flatMap fun r => padTo g.s r.scale,
   if g.c = 0 then [] else rows.flatMap fun r => padTo g.c r.side)

/-- The physical address of an offset in an entry's slot. -/
def Pal.paOf (q : Pal) (off : Nat) : Option Nat := (q.parts.find? (·.1 == off)).map (·.2.1)

/-- One part of a compiled entry written. -/
def State.putPart (s : State) (q : Pal) (off : Nat) (b : Bytes) : State :=
  match q.paOf off with
  | some pa => s.pwrite pa b
  | none => s

/-- Every part of a compiled entry written (R179, R180). -/
def State.palWrite (s : State) (q : Pal) (sect b : Bytes) : State :=
  let g := (progOf sect).geom
  let e := palPart q.tokens g.e
  let sc := palPart q.tokens g.s
  let c := palPart q.tokens g.c
  (List.range g.layers).foldl (fun t l =>
    let x := palLayer sect b l q.tokens
    ((t.putPart q (l * e) x.1).putPart q (g.layers * e + l * sc) x.2.1).putPart q
      (g.layers * (e + sc) + l * c) x.2.2) s

/-- PALETTE_COMPILE_DONE (R179): the entry becomes usable and the command returns its index; a source that can no longer
be read abandons the compile. -/
def execPaletteCompileDone (index : BitVec 12) (s : State) : Host.Outcome State Fault Refusal :=
  let e := index.toNat
  match tabGet s.srv.pals e with
  | none => .next s
  | some q =>
    if q.ready then .next s
    else
      let sect := (s.sect 0x0007 q.slice q.index).getD []
      match s.hostRead q.src.toNat (palSource (progOf sect) q.tokens) with
      | none => .next ((s.freePal e).completeOpt q.tag eHostRead [])
      | some b =>
        let s1 := s.palWrite q sect b
        let s2 := { s1 with srv := { s1.srv with pals := tabPut s1.srv.pals e { q with ready := true, tag := none } } }
        .next ((s2.invalidate q.slice).completeOpt q.tag eOk (packBytes [(16, e)]))

/-- PALETTE_UNLOAD (R181). -/
def execPaletteUnload (h : Hdr) (slice : BitVec 6) (index : U16) (s : State) : Host.Outcome State Fault Refusal :=
  hostCmd { widths := [6, 16] } h (fun s _ =>
    let sl := cmdSlice h.fn.toNat slice.toNat
    s.inSlice sl (match tabGet s.srv.pals index.toNat with
    | none => .reject eNoPalette
    | some q =>
      if q.slice ≠ sl ∨ ¬ q.ready then .reject eNoPalette
      else if q.refs ≠ 0 then .reject ePaletteBusy
      else .done (s.freePal index.toNat))) s

end Sys2Proof.Machine
end

