-- ==== Sys2Proof/Machine/Index.lean ====
section
/-! DEFINITION. Vector indexes: their arrays and node records (R325..R329), the walk of a search (R331..R336), and what an
insert and a compaction write (R337, R340). -/

namespace Sys2Proof.Machine

/-! ## Layout (R325, R327) -/

/-- Rounded up to 2 MiB. -/
def up2m (n : Nat) : Nat := 2 ^ 21 * divUp n (2 ^ 21)

/-- Element bytes of a vector in a format. -/
def vecBytes (dims fmt : Nat) : Nat := if fmt = 0 then dims * 4 / 8 else if fmt = 8 then dims * 2 else dims

/-- Scale bytes of a vector in a format. -/
def vecScales (dims fmt : Nat) : Nat := if fmt = 8 then 0 else dims / 32

/-- Bytes of the six arrays of the index object, in table order (R325). -/
def Index.sizes (x : Index) : List Nat :=
  [x.capacity * vecBytes x.dims x.vformat, x.capacity * vecScales x.dims x.vformat, x.capacity * 16,
   x.capacity * x.attrBytes, x.capacity * x.degree0 * 4, x.upperCap * x.degree * 4]

/-- Offset of array `k` of the index object. -/
def Index.arrayAt (x : Index) (k : Nat) : Nat := (x.sizes.take k).foldl (fun n a => n + up2m a) 0

/-- Bytes of the index object. -/
def Index.bytes (x : Index) : Nat := x.arrayAt 6

/-- Offset of the scales of the rerank copy, and its bytes. -/
def Index.rscaleAt (x : Index) : Nat := up2m (x.capacity * vecBytes x.dims x.rformat)
def Index.rbytes (x : Index) : Nat := x.rscaleAt + up2m (x.capacity * vecScales x.dims x.rformat)

/-- Address of an id's entry in array `k`. -/
def Index.at_ (x : Index) (k each id : Nat) : Nat := x.va + x.arrayAt k + id * each

/-- Address and length of a neighbour list: level 0, or the upper record of a level. -/
def Index.listAt (x : Index) (id lv upper : Nat) : Nat × Nat :=
  if lv = 0 then (x.at_ 4 (x.degree0 * 4) id, x.degree0)
  else (x.va + x.arrayAt 5 + (upper + lv - 1) * x.degree * 4, x.degree)

/-! ## Reads of an engine -/

/-- What an engine reads of a range: its bytes, whether they are poisoned, lost or without a path, and the T2 address to fetch
first. -/
structure Part where
  bytes : Bytes := []
  bad : Bool := false
  miss : Option Nat := none
  lost : Bool := false
  cut : Bool := false
  deriving DecidableEq, Repr

/-- A range of slice memory as a search or gather engine of state die `die` reads it: poisoned where no path leads to it (R17). -/
def State.part (s : State) (die sl va n : Nat) : Part :=
  match s.access sl false va n with
  | .ok =>
    let r := s.readFrom (8 + die) sl va n
    { bytes := r.1, bad := r.2, cut := s.cutFrom (8 + die) sl va n }
  | .wait (some a) => { bytes := zeros n, miss := some a }
  | .wait none => { bytes := zeros n, miss := some va }
  | .lost _ => { bytes := zeros n, bad := true, lost := true }
  | .fault _ _ => { bytes := zeros n, bad := true }

/-- The granules that an engine needs are fetched (R301). -/
def State.fetchAll (s : State) (sl : Nat) (l : List Nat) : State :=
  l.foldl (fun t a => match t.objAt sl a with
    | some o => t.fetchStart o a
    | none => t) s

/-! ## Vectors and distances (R329) -/

/-- The values of a vector from its elements and scales, in FP32. -/
def vecValues (dims fmt : Nat) (elems scales : Bytes) : List U32 :=
  if fmt = 8 then (List.range dims).map fun j => BitVec.ofNat 32 (65536 * le elems (2 * j) 2)
  else
    let k := 32 * elemBits fmt / 8
    (List.range (dims / 32)).flatMap fun b =>
      (blockValues fmt (sub elems (b * k) k) (byteAt scales b) 0 []).map wr32

/-- A vector of unit length (R329 METRIC 2). -/
def unitVec (v : List U32) : List U32 :=
  let n := Config.vector 0x100 v
  v.map fun x => div32 x n

/-- A query or a source as the metric takes it. -/
def Index.prepare (x : Index) (v : List U32) : List U32 := if x.metric = 2 then unitVec v else v

/-- BF16 elements of host memory in FP32. -/
def bfWords (dims : Nat) (b : Bytes) : List U32 := (List.range dims).map fun j => BitVec.ofNat 32 (65536 * le b (2 * j) 2)

/-- The distance of two vectors (R329): FP32 sums in element order within each group of 32, groups in ascending
order. -/
def Index.dist (x : Index) (q v : List U32) : U32 :=
  let terms := (q.zip v).map fun p =>
    if x.metric = 0 then (let d := sub32 p.1 p.2; mul32 d d) else mul32 p.1 p.2
  let groups := (pieces 32 (divUp terms.length 32) terms).map fun g => g.foldl add32 0
  let t := groups.foldl add32 0
  if x.metric = 0 then t else wr32 (rd32 t).neg

/-- A distance and id rank before another: nearer, or equally near with the lower id. -/
def nearer (a b : U32 × Nat) : Bool := (rd32 a.1).lt (rd32 b.1) || (!(rd32 b.1).lt (rd32 a.1) && a.2 < b.2)

/-- Put into a list that is nearest first. -/
def rankIn (a : U32 × Nat) : List (U32 × Nat) → List (U32 × Nat)
  | [] => [a]
  | b :: l => if nearer a b then a :: b :: l else b :: rankIn a l

/-! ## Nodes (R327, R336) -/

/-- A node as a walk sees it. -/
structure NodeView where
  level : Nat := 0
  used : Bool := false
  visible : Bool := false
  tomb : Bool := false
  upper : Nat := 0
  bad : Bool := false
  miss : Option Nat := none
  deriving DecidableEq, Repr

/-- A node record read. -/
def State.node (s : State) (x : Index) (id : Nat) : NodeView :=
  let p := s.part x.die x.slice (x.at_ 2 16 id) 16
  let f := byteAt p.bytes 1
  { level := byteAt p.bytes 0, used := bitAt f 0, visible := bitAt f 1, tomb := bitAt f 2, upper := le p.bytes 4 4
    bad := p.bad, miss := p.miss }

/-- The stored vector of a node. -/
def State.vecOf (s : State) (x : Index) (id : Nat) : List U32 × Bool × Option Nat :=
  let a := s.part x.die x.slice (x.at_ 0 (vecBytes x.dims x.vformat) id) (vecBytes x.dims x.vformat)
  let b := s.part x.die x.slice (x.at_ 1 (vecScales x.dims x.vformat) id) (vecScales x.dims x.vformat)
  (vecValues x.dims x.vformat a.bytes b.bytes, a.bad || b.bad, a.miss.orElse fun _ => b.miss)

/-- The rerank copy of a node (R334). -/
def State.rvecOf (s : State) (x : Index) (id : Nat) : List U32 × Bool × Option Nat :=
  let eb := vecBytes x.dims x.rformat
  let sb := vecScales x.dims x.rformat
  let a := s.part x.die x.slice (x.rva + id * eb) eb
  let b := s.part x.die x.slice (x.rva + x.rscaleAt + id * sb) sb
  (vecValues x.dims x.rformat a.bytes b.bytes, a.bad || b.bad, a.miss.orElse fun _ => b.miss)

/-- The ids of a neighbour list: a slot that holds the node's own id is empty. -/
def listIds (id : Nat) (b : Bytes) (n : Nat) : List Nat := ((List.range n).map fun k => le b (4 * k) 4).filter (· != id)

/-- The neighbours of a node at a level. -/
def State.links (s : State) (x : Index) (id lv upper : Nat) : List Nat × Bool × Option Nat :=
  let l := x.listAt id lv upper
  let p := s.part x.die x.slice l.1 (4 * l.2)
  (if p.bad then [] else listIds id p.bytes l.2, p.bad, p.miss)

/-! ## Filters (R332) -/

/-- A clause of a filter holds for an attribute field. -/
def clauseHolds (c attrs : Bytes) : Bool :=
  if ¬ bitAt (byteAt c 3) 0 then true
  else
    let v := le attrs (byteAt c 0) (byteAt c 1)
    let w := le c 8 8
    match byteAt c 2 with
    | 0 => v == w | 1 => v != w | 2 => decide (v < w) | 3 => decide (v ≤ w)
    | 4 => decide (w < v) | 5 => decide (w ≤ v) | 6 => v &&& w != 0 | _ => v &&& w == w

/-- The four clauses of a filter. -/
def clausesOf (f : Bytes) : List Bytes := if f.isEmpty then [] else (List.range 4).map fun k => sub f (16 * k) 16

/-- A filter is illegal for an index (R330). -/
def filterBad (f : Bytes) (attrBytes : Nat) : Bool :=
  (clausesOf f).any fun c =>
    (bitAt (byteAt c 3) 0 && (!([1, 2, 4, 8].contains (byteAt c 1)) || decide (attrBytes < byteAt c 0 + byteAt c 1) ||
      decide (7 < byteAt c 2))) || decide (2 ≤ byteAt c 3) || !zeroAt c 4 4

/-! ## The walk (R331, R333) -/

/-- What a walk goes by: the query, the limits of C and R, the filter, and the result after which it admits. -/
structure WalkPar where
  q : List U32
  beam : Nat
  cand : Nat
  filter : Bytes := []
  after : Option (U32 × Nat) := none
  deriving DecidableEq, Repr

/-- A walk under way: C and R nearest first, reserve Z, the expanded and the seen nodes, hops and distances, poisoned
nodes, and addresses to fetch. -/
structure Walk where
  c : List (U32 × Nat) := []
  z : List (U32 × Nat) := []
  r : List (U32 × Nat) := []
  expanded : List Nat := []
  seen : List Nat := []
  hops : Nat := 0
  dists : Nat := 0
  bad : List Nat := []
  miss : List Nat := []
  deriving DecidableEq, Repr

/-- A poisoned node, or an address to fetch, noted. -/
def Walk.note (w : Walk) (id : Nat) (bad : Bool) (miss : Option Nat) : Walk :=
  { w with bad := if bad && !w.bad.contains id then id :: w.bad else w.bad
           miss := match miss with
             | some a => if w.miss.contains a then w.miss else a :: w.miss
             | none => w.miss }

/-- The attributes of a node where an enabled clause tests them (R332): whether they are poisoned, and what to fetch. -/
def State.attrsBad (s : State) (x : Index) (p : WalkPar) (id : Nat) : Bool × Option Nat :=
  if (clausesOf p.filter).all fun c => !bitAt (byteAt c 3) 0 then (false, none)
  else
    let a := s.part x.die x.slice (x.at_ 3 x.attrBytes id) x.attrBytes
    (a.bad, a.miss)

/-- A node measured: none where it is absent (not visible, poisoned in its record, vector or attributes, or not yet fetched: R336). -/
def State.measure (s : State) (x : Index) (p : WalkPar) (w : Walk) (id : Nat) : Walk × Option (NodeView × U32) :=
  let n := s.node x id
  let w1 := w.note id n.bad n.miss
  if n.bad ∨ n.miss.isSome ∨ ¬ n.visible then (w1, none)
  else
    let v := s.vecOf x id
    let at_ := s.attrsBad x p id
    let w2 := (w1.note id v.2.1 v.2.2).note id at_.1 at_.2
    if v.2.1 ∨ v.2.2.isSome ∨ at_.1 ∨ at_.2.isSome then (w2, none)
    else ({ w2 with dists := w2.dists + 1 }, some (n, x.dist p.q v.1))

/-- The node passes the filter and is no tombstone, and ranks after the last result delivered. -/
def State.eligibleNode (s : State) (x : Index) (p : WalkPar) (n : NodeView) (id : Nat) (d : U32) : Bool :=
  !n.tomb && (clausesOf p.filter).all (fun c => clauseHolds c (s.part x.die x.slice (x.at_ 3 x.attrBytes id) x.attrBytes).bytes) &&
  match p.after with
  | some a => nearer a (d, id)
  | none => true

/-- A measured node offered to C and R (R331): what C pushes out goes to Z, which holds four times BEAM. -/
def State.offer (s : State) (x : Index) (p : WalkPar) (limit : Nat) (w : Walk) (id : Nat) (n : NodeView) (d : U32) : Walk :=
  let a := (d, id)
  let inC := decide (w.c.length < limit) || match w.c.getLast? with
    | some f => (rd32 d).lt (rd32 f.1)
    | none => true
  let c1 := if inC then rankIn a w.c else w.c
  let out := c1.drop limit
  let inR := s.eligibleNode x p n id d && (decide (w.r.length < p.cand) || match w.r.getLast? with
    | some f => (rd32 d).lt (rd32 f.1)
    | none => true)
  { w with c := c1.take limit, z := if w.z.length < 4 * p.beam then w.z ++ out else w.z
           r := if inR then (rankIn a w.r).take p.cand else w.r }

/-- The neighbours of an expanded node taken in list order. -/
def State.takeLinks (s : State) (x : Index) (p : WalkPar) (limit : Nat) (w : Walk) (l : List Nat) : Walk :=
  l.foldl (fun w id =>
    if w.seen.contains id then w
    else
      let m := s.measure x p w id
      match m.2 with
      | none => m.1
      | some (n, d) => s.offer x p limit { m.1 with seen := id :: m.1.seen } id n d) w

/-- The main loop of a walk at a level, while C holds an unexpanded node and hops remain; `fuel` bounds the
expansions. -/
def State.walkLoop (s : State) (x : Index) (p : WalkPar) (limit lv : Nat) (hops : Option Nat) : Nat → Walk → Walk
  | 0, w => w
  | fuel + 1, w =>
    match w.c.find? fun a => !w.expanded.contains a.2, hops with
    | none, _ => w
    | some _, some 0 => w
    | some a, h =>
      let n := s.node x a.2
      let l := s.links x a.2 lv n.upper
      -- a poisoned list leaves its node unexpanded (R336): it is passed over and no hop is spent
      let hop := if l.2.1 then 0 else 1
      let w1 := ({ w with expanded := a.2 :: w.expanded, hops := w.hops + hop }).note a.2 l.2.1 l.2.2
      s.walkLoop x p limit lv (h.map (· - hop)) fuel (s.takeLinks x p limit w1 l.1)

/-- The walk at one level from an entry node. -/
def State.walkFrom (s : State) (x : Index) (p : WalkPar) (lv : Nat) (hops : Option Nat) (w : Walk) (ep : Nat) : Walk :=
  let m := s.measure x p w ep
  match m.2 with
  | none => m.1
  | some (n, d) =>
    s.walkLoop x p p.beam lv hops (x.capacity + 1) (s.offer x p p.beam { m.1 with seen := ep :: m.1.seen } ep n d)

/-- The greedy descent at one level: to the nearest visible neighbour while one is nearer. -/
def State.greedy (s : State) (x : Index) (p : WalkPar) (lv : Nat) : Nat → Walk → Nat × U32 → Walk × (Nat × U32)
  | 0, w, ep => (w, ep)
  | fuel + 1, w, ep =>
    let l := s.links x ep.1 lv (s.node x ep.1).upper
    let r := l.1.foldl (fun (acc : Walk × (Nat × U32)) id =>
      let m := s.measure x p acc.1 id
      match m.2 with
      | some (_, d) => (m.1, if nearer (d, id) (acc.2.2, acc.2.1) then (id, d) else acc.2)
      | none => (m.1, acc.2)) (w.note ep.1 l.2.1 l.2.2, ep)
    if (rd32 r.2.2).lt (rd32 ep.2) then s.greedy x p lv fuel r.1 r.2 else (r.1, ep)

/-- The greedy descent from the top level down to level `lo`. -/
def State.descend (s : State) (x : Index) (p : WalkPar) (lo : Nat) : Nat → Walk → Nat × U32 → Walk × (Nat × U32)
  | 0, w, ep => (w, ep)
  | k + 1, w, ep =>
    if k + 1 < lo then (w, ep)
    else
      let r := s.greedy x p (k + 1) (x.capacity + 1) w ep
      s.descend x p lo k r.1 r.2

/-- The entry point measured, and the descent to above level `lo`. -/
def State.enter (s : State) (x : Index) (p : WalkPar) (lo : Nat) : Walk × Option (Nat × U32) :=
  match x.entry with
  | none => ({}, none)
  | some e =>
    let m := s.measure x p {} e
    match m.2 with
    | none => (m.1, none)
    | some (_, d) =>
      let r := s.descend x p lo x.top m.1 (e, d)
      (r.1, some r.2)

/-- The walk of a search (R331, R333): FILL resumes it with the wider limits. Answers the walk and whether it was
resumed. -/
def State.search (s : State) (x : Index) (p : WalkPar) (k hops fillHops : Nat) (fill : Bool) : Walk × Bool :=
  match s.enter x p 1 with
  | (w, none) => (w, false)
  | (w, some ep) =>
    let w1 := s.walkFrom x p 0 (if hops = 0 then none else some hops) w ep.1
    if fill ∧ w1.r.length < k then
      let c := w1.z.foldl (fun c a => rankIn a c) w1.c
      (s.walkLoop x p (5 * p.beam) 0 (some fillHops) (x.capacity + 1) { w1 with c := c.take (5 * p.beam), z := [] }, true)
    else (w1, false)

/-- An exact search (R335): every visible, eligible id measured. -/
def State.exact (s : State) (x : Index) (p : WalkPar) : Walk :=
  (List.range x.capacity).foldl (fun w id =>
    let m := s.measure x p w id
    match m.2 with
    | some (n, d) => if n.used && s.eligibleNode x p n id d then { m.1 with r := (rankIn (d, id) m.1.r).take p.cand } else m.1
    | none => m.1) {}

/-- R measured again from the rerank copy and reordered (R334). -/
def State.rerank (s : State) (x : Index) (p : WalkPar) (w : Walk) : Walk :=
  w.r.foldl (fun (acc : Walk) a =>
    let v := s.rvecOf x a.2
    let w1 := acc.note a.2 v.2.1 v.2.2
    if v.2.1 then w1 else { w1 with r := rankIn (x.dist p.q v.1, a.2) w1.r, dists := w1.dists + 1 }) { w with r := [] }

/-! ## Inserts (R328, R337) -/

/-- Trailing zero bits of a 24-bit number; 24 for 0. -/
def zeros24 (v : Nat) : Nat := ((List.range 24).find? (bitAt v)).getD 24

/-- The level of a vector (R328). -/
def Index.levelOf (x : Index) (id : Nat) : Nat := min (x.levels - 1) (zeros24 (draw24 x.serial.toNat id) / 4)

/-- The lowest run of `n` free upper link records. -/
def Index.freeUpper (x : Index) (n : Nat) : Option Nat :=
  if n = 0 then some 0
  else ((0 :: x.uppers.map fun u => u.1 + u.2).mergeSort (fun a b => decide (a ≤ b))).find? fun a =>
    a + n ≤ x.upperCap && x.uppers.all fun u => !overlaps a n u

/-- The bytes of a neighbour list: the ids, then empty slots that hold the node's own id. -/
def listBytes (id n : Nat) (l : List Nat) : Bytes :=
  (l.take n).flatMap (bytesOf 4) ++ (List.replicate (n - l.length) id).flatMap (bytesOf 4)

/-- The bytes of a node record (R327). -/
def nodeBytes (level flags upper : Nat) : Bytes := bytesOf 1 level ++ bytesOf 1 flags ++ zeros 2 ++ bytesOf 4 upper ++ zeros 8

/-- A source converted to a format (R193): elements and scales. -/
def vecEncode (fmt : Nat) (v : List U32) : Bytes × Bytes :=
  if fmt = 8 then (halfBytes v, [])
  else
    let q := quantise fmt false (v.map rd32)
    (packCodes (elemBits fmt) q.1, packCodes 8 q.2.1)

/-- Writes an operation makes, and the addresses it must fetch first. -/
structure Plan where
  writes : List (Nat × Bytes) := []
  miss : List Nat := []
  bad : List Nat := []
  deriving DecidableEq, Repr

/-- Two plans one after the other. -/
def Plan.add (a b : Plan) : Plan := ⟨a.writes ++ b.writes, a.miss ++ b.miss, a.bad ++ b.bad⟩

/-- The list of a chosen neighbour with a new id in it (R337 step 3): ascending distance, the farthest dropped. -/
def State.relink (s : State) (x : Index) (m lv id : Nat) (v : List U32) : Plan :=
  let n := s.node x m
  let at_ := x.listAt m lv n.upper
  let l := s.links x m lv n.upper
  let mv := s.vecOf x m
  let old := l.1.map fun j => (s.vecOf x j, j)
  let miss := ([n.miss, l.2.2, mv.2.2] ++ old.map (·.1.2.2)).filterMap fun o => o
  let ranked := old.foldl (fun r o => rankIn (x.dist mv.1 o.1.1, o.2) r) [(x.dist mv.1 v, id)]
  if l.2.1 then { miss := miss, bad := [m] }
  else { writes := [(at_.1, listBytes m at_.2 (ranked.map (·.2)))], miss := miss }

/-- The lists of a new node at levels `lv` and below, each neighbour relinked (R337 steps 2, 3). -/
def State.linkLevels (s : State) (x : Index) (p : WalkPar) (id upper : Nat) (v : List U32) : Nat → Nat → Plan
  | lv, ep =>
    let w := s.walkFrom x p lv none {} ep
    let at_ := x.listAt id lv upper
    let near := (w.r.take at_.2).map (·.2)
    let here : Plan := { writes := [(at_.1, listBytes id at_.2 near)], miss := w.miss, bad := w.bad }
    let both := near.foldl (fun q m => q.add (s.relink x m lv id v)) here
    match lv with
    | 0 => both
    | k + 1 => both.add (s.linkLevels x p id upper v k ((near.head?).getD ep))

/-- An insert's writes (R337): elements, scales, rerank copy, attributes, the node record as published, and links. -/
def State.insertPlan (s : State) (x : Index) (id upper : Nat) (elems attrs : Bytes) : Plan :=
  let v := x.prepare (bfWords x.dims elems)
  let e := vecEncode x.vformat v
  let r := vecEncode x.rformat v
  let lv := x.levelOf id
  let sb := vecScales x.dims x.rformat
  let data := [(x.at_ 0 e.1.length id, e.1), (x.at_ 1 e.2.length id, e.2), (x.at_ 3 x.attrBytes id, attrs.take x.attrBytes),
    (x.at_ 2 16 id, nodeBytes lv 3 upper)] ++
    (if x.rformat = 0xFF then [] else [(x.rva + id * r.1.length, r.1), (x.rva + x.rscaleAt + id * sb, r.2)])
  let empty := (List.range (lv + 1)).map fun l =>
    let a := x.listAt id l upper
    (a.1, listBytes id a.2 [])
  let stored := vecValues x.dims x.vformat e.1 e.2
  let p : WalkPar := { q := stored, beam := x.beam, cand := x.beam }
  match s.enter x p (min lv x.top + 1) with
  | (w, none) => { writes := data ++ empty, miss := w.miss, bad := w.bad }
  | (w, some ep) =>
    Plan.add { writes := data ++ empty, miss := w.miss, bad := w.bad }
      (s.linkLevels x p id upper stored (min lv x.top) ep.1)

/-! ## Compaction (R340) -/

/-- The tombstoned ids of an index, and what must be fetched to know them. -/
def State.tombs (s : State) (x : Index) : List Nat × List Nat :=
  (List.range x.capacity).foldl (fun acc id =>
    let n := s.node x id
    ((if n.used && n.tomb then acc.1 ++ [id] else acc.1), acc.2 ++ n.miss.toList)) ([], [])

/-- A list rewritten without tombstoned nodes; freed slots take the nearest neighbours of the removed nodes that are
none themselves and not in the list yet. -/
def State.compactList (s : State) (x : Index) (tombs : List Nat) (id lv : Nat) : Plan :=
  let n := s.node x id
  let at_ := x.listAt id lv n.upper
  let l := s.links x id lv n.upper
  let gone := l.1.filter tombs.contains
  if gone.isEmpty then { miss := l.2.2.toList }
  else
    let kept := l.1.filter fun j => !tombs.contains j
    let from_ := gone.map fun g => s.links x g lv (s.node x g).upper
    let cands := ((from_.flatMap (·.1)).filter fun j => !tombs.contains j && !kept.contains j && j != id &&
      (s.node x j).visible).eraseDups
    let v := s.vecOf x id
    let rank (js : List Nat) : List (U32 × Nat) :=
      js.foldl (fun r j => rankIn (x.dist v.1 (s.vecOf x j).1, j) r) []
    let fill := ((rank cands).take gone.length).map (·.2)
    let miss := l.2.2.toList ++ from_.flatMap (·.2.2.toList) ++ v.2.2.toList ++
      (kept ++ cands).flatMap fun j => (s.vecOf x j).2.2.toList
    { writes := [(at_.1, listBytes id at_.2 ((rank (kept ++ fill)).map (·.2)))], miss := miss }

/-- Every list of every used node rewritten (R340 step 1). -/
def State.compactPlan (s : State) (x : Index) (tombs : List Nat) : Plan :=
  (List.range x.capacity).foldl (fun p id =>
    let n := s.node x id
    if n.used && !n.tomb then
      (List.range (n.level + 1)).foldl (fun q lv => q.add (s.compactList x tombs id lv)) p
    else p) {}

/-- The highest-level visible node without a tombstone, the lowest id on ties (R340 step 2). -/
def State.newEntry (s : State) (x : Index) : Option (Nat × Nat) :=
  (List.range x.capacity).foldl (fun best id =>
    let n := s.node x id
    if n.used && n.visible && !n.tomb then
      match best with
      | some b => if b.2 < n.level then some (id, n.level) else best
      | none => some (id, n.level)
    else best) none

end Sys2Proof.Machine
end

