-- ==== Sys2Proof/Machine/Retrieval.lean ====
section
/-! DEFINITION. Commands on indexes (R325, R326, R330, R337..R342, R349), the queues of the search and gather engines
(R273, R323), and the ends of operations on the search engines. -/

namespace Sys2Proof.Machine

/-! ## Engine queues (R273, R323) -/

/-- The kind runs on a search engine. -/
def RetKind.searches : RetKind → Bool
  | .search | .insert | .delete | .compact => true
  | .gather | .scatterAdd | .scatterSet => false

/-- The kind changes an index: such operations of one index run one at a time (R337). -/
def RetKind.changes : RetKind → Bool
  | .insert | .delete | .compact => true
  | _ => false

/-- An operation by its id. -/
def State.retOp (s : State) (id : Nat) : Option RetOp := s.ret.ops.find? (·.id == id)

/-- An operation replaced. -/
def State.setRetOp (s : State) (o : RetOp) : State :=
  { s with ret := { s.ret with ops := s.ret.ops.map fun (x : RetOp) => if x.id = o.id then o else x } }

/-- An operation removed. -/
def State.delRetOp (s : State) (id : Nat) : State :=
  { s with ret := { s.ret with ops := s.ret.ops.filter (·.id != id) } }

/-- The operation that an engine runs. -/
def State.engineOp (s : State) (die engine : Nat) (search : Bool) : Option RetOp :=
  s.ret.ops.find? fun o => o.engine == some engine && o.die == die && o.kind.searches == search

/-- A free engine of a die. -/
def State.freeEngine (s : State) (die : Nat) (search : Bool) : Option Nat :=
  (List.range 4).find? fun e => (s.engineOp die e search).isNone

/-- An operation may start: it waits for no earlier change of its index, and a compaction that has rewritten its lists
only waits for searches. -/
def State.retCanStart (s : State) (o : RetOp) : Bool :=
  o.engine.isNone && o.released.isNone &&
  (!o.kind.changes || !s.ret.ops.any fun p =>
    p.kind.changes && p.slice == o.slice && p.num == o.num && p.id < o.id)

/-- The waiting operation a die's engines take next (R273): LC before BE, slices round robin, then arrival order. -/
def State.retNext (s : State) (die : Nat) (search : Bool) : Option RetOp :=
  let w := s.ret.ops.filter fun o => o.die == die && o.kind.searches == search && s.retCanStart o
  let w1 := if w.any (·.lc) then w.filter (·.lc) else w
  let last := tabGetD s.ret.turn 0 (2 * die + boolBit (!search))
  let rank (o : RetOp) : Nat := (o.slice + 63 - last) % 64
  w1.foldl (fun b o => match b with
    | none => some o
    | some p => if rank o < rank p || (rank o == rank p && o.id < p.id) then some o else some p) none

/-- The table of a slice with a number, unless it has been destroyed. -/
def State.table (s : State) (sl n : Nat) : Option Table :=
  s.ret.tables.find? fun t => t.slice == sl && t.num == n

/-- The index of a slice with a number. -/
def State.index (s : State) (sl n : Nat) : Option Index :=
  s.ret.indexes.find? fun x => x.slice == sl && x.num == n

/-- An index replaced. -/
def State.setIndex (s : State) (x : Index) : State :=
  { s with ret := { s.ret with indexes := s.ret.indexes.map fun (y : Index) =>
    if y.slice = x.slice ∧ y.num = x.num then x else y } }

/-- Waiting operations started on the free engines of a die, at most `n`; a table operation takes the version current
at its start (R348). -/
def State.retStart (s : State) (die : Nat) (search : Bool) : Nat → State
  | 0 => s
  | n + 1 =>
    match s.freeEngine die search, s.retNext die search with
    | some e, some o =>
      let v := match s.table o.slice o.num with
        | some t => t.version
        | none => 0
      let s1 := s.setRetOp { o with engine := some e, version := v }
      ({ s1 with ret := { s1.ret with turn := tabPut s1.ret.turn (2 * die + boolBit (!search)) o.slice } }).retStart
        die search n
    | _, _ => s

/-- An operation accepted (R323): it queues at its home die and starts at once on a free engine. -/
def State.retAccept (s : State) (o : RetOp) : State :=
  let s1 := { s with ret := { s.ret with ops := s.ret.ops ++ [{ o with id := s.ret.nextId }], nextId := s.ret.nextId + 1 } }
  s1.retStart o.die o.kind.searches 4

/-- An operation ended: its engine is free for the next. -/
def State.retEnd (s : State) (o : RetOp) (status : Nat) (result : List (Nat × Nat)) : State :=
  ((s.delRetOp o.id).completeOpt o.tag status (packBytes result)).retStart o.die o.kind.searches 4

/-! ## INDEX_CREATE (R325, R326) -/

/-- The object at an address of a slice is still being created. -/
def State.creating (s : State) (sl va : Nat) : Bool :=
  s.mem.objects.any fun o => o.slice == sl && o.va == va && o.tag.isSome

/-- An index that commands may name. -/
def State.openIndex (s : State) (sl n : Nat) : Option Index :=
  match s.index sl n with
  | some x => if x.destroyed || s.creating sl x.va then none else some x
  | none => none

/-- Operands outside the ranges of *INDEX_CREATE operands* (R326 check 2), the range of VA apart. -/
def indexBad (o : IndexOps) : Bool :=
  let d := o.dims.toNat
  let g0 := o.degree0.toNat
  let g := o.degree.toNat
  let l := o.levels.toNat
  d < 32 || 4096 < d || d % 32 != 0 || !([0, 3, 8].contains o.vformat.toNat) || !([3, 8, 255].contains o.rformat.toNat) ||
  o.metric == 3 || g0 < 16 || 128 < g0 || g0 % 16 != 0 || g < 8 || 64 < g || g % 8 != 0 || l == 0 || 8 < l ||
  o.beam.toNat < 16 || 1024 < o.beam.toNat || 64 < o.attrBytes.toNat || o.attrBytes.toNat % 8 != 0 ||
  ((o.upperCap == 0) != (l == 1)) || o.tier == 3 || o.rtier == 3

/-- The index that INDEX_CREATE asks for, at its address. -/
def indexOf (o : IndexOps) (sl die va : Nat) : Index :=
  { slice := sl, num := o.index.toNat, die := die, dims := o.dims.toNat, vformat := o.vformat.toNat
    rformat := o.rformat.toNat, metric := o.metric.toNat, degree0 := o.degree0.toNat, degree := o.degree.toNat
    levels := o.levels.toNat, beam := o.beam.toNat, attrBytes := o.attrBytes.toNat
    capacity := if o.capacity = 0 then 2 ^ 32 else o.capacity.toNat, upperCap := o.upperCap.toNat, serial := o.serial
    va := va, rva := 0 }

/-- One object of a command taken in a tier at a given or at the lowest free address, which for the arrays of an index is a
multiple of 2 MiB (R325); T2 waits for its members. Answers
the code of the check that fails (R298 checks 4 to 6). -/
def State.takeObj (s : State) (sl type tier va units : Nat) (die : Option Nat) (prot : Bool) (t : Option Tag) :
    Except Nat (State × Nat) :=
  if units = 0 then .ok (s, 0)
  else
    let w := max 1 (le (s.tierMap sl) 2 2)
    match if va = 0 then s.lowestRange sl tier (units * 4096) (if type = 2 then 2 ^ 21 else 4096) else some va with
    | none => .error eTierFull
    | some a =>
      if (s.objRanges sl).any (overlaps a (units * 4096)) then .error eVaBusy
      else if tier = 2 ∧ prot ∧ ¬ s.stripeFormable sl w then .error eTierProt
      else match if tier = 1 then s.allocT1 sl type a units die prot t else s.allocT2 sl type a units 0 w prot t with
        | some s1 => .ok (s1, a)
        | none => .error eTierFull

/-- The command that creates objects ends at once when none of them waits for a pool member. -/
def State.endCreate (s : State) (t : Tag) (result : List (Nat × Nat)) : Reply :=
  if (s.createdBy (some t)).all (·.awaited.isEmpty) then .done (s.created (some t)) eOk result else .later s

/-- The objects of an index or table taken, then the rest; a failure to take them rejects the command. -/
def objThen {α : Type} (r : Except Nat (State × α)) (k : State → α → Reply) : Reply :=
  match r with
  | .error c => .reject c
  | .ok x => k x.1 x.2

/-- The objects of an index taken, and the index recorded. -/
def State.makeIndex (s : State) (o : IndexOps) (sl die : Nat) (t : Tag) : Reply :=
  let prot := s.protFor sl (o.protect == 1)
  let x := indexOf o sl die 0
  let runits := if x.rformat = 0xFF then 0 else x.rbytes / 4096
  objThen (s.takeObj sl 2 (s.tierFor sl 2 o.tier.toNat) o.va.toNat (x.bytes / 4096) none prot (some t)) fun s1 va =>
    objThen (s1.takeObj sl 2 (s.tierFor sl 2 o.rtier.toNat) 0 runits none prot (some t)) fun s2 rva =>
      State.endCreate { s2 with ret := { s2.ret with indexes := s2.ret.indexes ++ [{ x with va := va, rva := rva }] } } t
        [(64, va)]

/-- Widths of the operands of INDEX_CREATE. -/
def indexWidths : List Nat := [6, 8, 4, 16, 8, 8, 2, 8, 8, 4, 16, 8, 32, 32, 2, 2, 1, 64, 64]

/-- INDEX_CREATE (R325, R326). -/
def execIndexCreate (h : Hdr) (o : IndexOps) (s : State) : Host.Outcome State Fault Refusal :=
  hostCmd { widths := indexWidths } h (fun s t =>
    let sl := cmdSlice h.fn.toNat o.slice.toNat
    let dies := s.dieList sl
    let ti := s.tierFor sl 2 o.tier.toNat
    let n := (indexOf o sl 0 0).bytes
    checked
      [(!s.defined sl, eNoImage),
       (decide (dies.length ≤ o.die.toNat) || indexBad o ||
        (o.va != 0 && (o.va.toNat % 2 ^ 21 != 0 || !inTier ti o.va.toNat n)), eIndexParam),
       ((s.index sl o.index.toNat).isSome, eIndexExists),
       (decide (256 ≤ s.ret.indexes.length), eIndexLimit),
       ((o.tier != 0 || o.rtier != 0) && s.objectMode sl, eTierMode)]
      (s.makeIndex o sl (dies.getD o.die.toNat 0) t)) s

/-! ## INDEX_DESTROY (R349) -/

/-- An index whose destruction waits for nothing more is removed with its objects. -/
def State.indexGone (s : State) (sl n : Nat) : State :=
  match s.index sl n with
  | none => s
  | some x =>
    if ¬ x.destroyed ∨ s.ret.ops.any (fun o => o.kind.searches && o.slice == sl && o.num == n) then s
    else
      let os := s.mem.objects.filter fun o => o.slice == sl && (o.va == x.va || (x.rformat != 0xFF && o.va == x.rva))
      let s1 := os.foldl State.freeObj s
      ({ s1 with ret := { s1.ret with indexes := s1.ret.indexes.filter fun y => !(y.slice == sl && y.num == n) } }).completeOpt
        x.dtag eOk []

/-- The state die a command on an index enters at (R22, R323): its home die. -/
def State.indexNode (s : State) (h : Hdr) (slice : BitVec 6) (index : U8) : List Nat :=
  ((s.index (cmdSlice h.fn.toNat slice.toNat) index.toNat).map fun x => [8 + x.die]).getD []

/-- The state die a command on a table enters at (R22, R323): its home die. -/
def State.tableNode (s : State) (h : Hdr) (slice : BitVec 6) (table : U8) : List Nat :=
  ((s.table (cmdSlice h.fn.toNat slice.toNat) table.toNat).map fun x => [8 + x.die]).getD []

/-- INDEX_DESTROY (R349): it completes when the requests already running have ended. -/
def execIndexDestroy (h : Hdr) (slice : BitVec 6) (index : U8) (s : State) : Host.Outcome State Fault Refusal :=
  hostCmd { widths := [6, 8], entry := s.indexNode h slice index } h (fun s t =>
    let sl := cmdSlice h.fn.toNat slice.toNat
    s.inSlice sl (match s.openIndex sl index.toNat with
    | none => .reject eNoIndex
    | some x => .later ((s.setIndex { x with destroyed := true, dtag := some t }).indexGone sl index.toNat))) s

/-! ## INSERT, DELETE, INDEX_COMPACT (R337, R339, R340) -/

/-- INSERT (R337): the source is read at acceptance. -/
def execInsertVec (h : Hdr) (slice : BitVec 6) (index : U8) (id : U32) (srcAddr attrAddr : U64) (s : State) :
    Host.Outcome State Fault Refusal :=
  hostCmd { widths := [6, 8, 32, 64, 64], entry := s.indexNode h slice index } h (fun s t =>
    let sl := cmdSlice h.fn.toNat slice.toNat
    s.inSlice sl (match s.openIndex sl index.toNat with
    | none => .reject eNoIndex
    | some x =>
      let n := s.node x id.toNat
      checked [(decide (x.capacity ≤ id.toNat), eIndexParam), (n.used, eVectorExists),
               ((x.freeUpper (x.levelOf id.toNat)).isNone, eIndexFull)]
        (match s.hostRead srcAddr.toNat (2 * x.dims), s.hostRead attrAddr.toNat x.attrBytes with
         | some e, some a => .later (s.retAccept { id := 0, kind := .insert, slice := sl, num := x.num, die := x.die
                                                   tag := some t, vec := id.toNat, elems := e, attrs := a })
         | _, _ => .done s eRetHost))) s

/-- DELETE (R339). -/
def execDeleteVec (h : Hdr) (slice : BitVec 6) (index : U8) (id : U32) (s : State) :
    Host.Outcome State Fault Refusal :=
  hostCmd { widths := [6, 8, 32], entry := s.indexNode h slice index } h (fun s t =>
    let sl := cmdSlice h.fn.toNat slice.toNat
    s.inSlice sl (match s.openIndex sl index.toNat with
    | none => .reject eNoIndex
    | some x =>
      let n := s.node x id.toNat
      let waits := s.ret.ops.any fun o => o.kind.changes && o.slice == sl && o.num == x.num
      checked [(decide (x.capacity ≤ id.toNat) || (!waits && n.miss.isNone && (!n.used || n.tomb)), eNoVector)]
        (.later (s.retAccept { id := 0, kind := .delete, slice := sl, num := x.num, die := x.die, tag := some t
                               vec := id.toNat })))) s

/-- INDEX_COMPACT (R340). -/
def execIndexCompact (h : Hdr) (slice : BitVec 6) (index : U8) (s : State) : Host.Outcome State Fault Refusal :=
  hostCmd { widths := [6, 8], entry := s.indexNode h slice index } h (fun s t =>
    let sl := cmdSlice h.fn.toNat slice.toNat
    s.inSlice sl (match s.openIndex sl index.toNat with
    | none => .reject eNoIndex
    | some x => .later (s.retAccept { id := 0, kind := .compact, slice := sl, num := x.num, die := x.die, tag := some t }))) s

/-! ## SEARCH and SEARCH_NEXT (R330, R341, R342) -/

/-- The session of a handle for a retrieval cursor (R330 check 3, R342): the tail's (R67), not one whose CLOSE has been accepted
(R71), in Autumn or Summer. `shut` is the code of a Closing session: E_SEASON in R330's check, E_SESSION_CLOSING (R71) for the
commands of R342, which state no season. -/
def State.cursorSession (s : State) (shut fn : Nat) (h : U64) : Except Nat Nat :=
  match s.tailHandle fn h with
  | .error c => .error c
  | .ok i =>
    if (s.ax i).closeAtEnd then .error eSessionClosing
    else match (s.d i).season with
      | .autumn | .summer => .ok i
      | .closing => .error shut
      | _ => .error eSeason

/-- Cursor slot `k` of a session: its 64 bytes. -/
def State.cursorSlot (s : State) (i k : Nat) : Bytes :=
  let pa := (s.kvOf i).cursorPa
  if pa = 0 then zeros 64 else s.pread (pa + 64 * k) 64

/-- CURSORS of a session (R341): one more than the highest slot that holds a VALID cursor. -/
def State.cursorCount (s : State) (i : Nat) : Nat :=
  ((List.range 64).filter fun k => bitAt (byteAt (s.cursorSlot i k) 1) 0).foldl (fun m k => max m (k + 1)) 0

/-- A cursor slot written, and CURSORS brought up to date. -/
def State.putCursor (s : State) (i k : Nat) (b : Bytes) : State :=
  match s.sideAreas i with
  | none => s
  | some t =>
    let t1 := t.rekeyAt [(t.kvOf i).cursorPa]
    let t2 := t1.pwrite ((t1.kvOf i).cursorPa + 64 * k) b
    t2.setD i { t2.d i with cursors := t2.cursorCount i }

/-- A cursor record (R341). -/
def cursorBytes (o : RetOp) (x : Index) (returned last : Nat) (dist : U32) (qoff : Nat) : Bytes :=
  bytesOf 1 x.num ++ bytesOf 1 (1 + 2 * (o.sflags % 16)) ++ bytesOf 2 o.k ++ bytesOf 2 o.beam ++ bytesOf 2 o.cand ++
  bytesOf 2 o.hops ++ bytesOf 2 o.fillHops ++ bytesOf 4 returned ++ bytesOf 8 x.serial.toNat ++ bytesOf 4 qoff ++
  bytesOf 4 last ++ bytesOf 4 dist.toNat ++ zeros 28

/-- The query and filter of a saved search written into the session's scratch objects (R341). -/
def State.saveQuery (s : State) (i qoff : Nat) (query filter : Bytes) : State :=
  match s.sideAreas i with
  | none => s
  | some t =>
    let b := query ++ padTo 64 filter
    let t1 := t.rekeyAt [(t.kvOf i).scratchPa]
    let t2 := t1.pwrite ((t1.kvOf i).scratchPa + qoff) b
    t2.setD i { t2.d i with scratchLen := max (t2.d i).scratchLen (qoff + b.length) }

/-- SEARCH parameters out of range (R330 check 2), its filter apart. -/
def searchBad (o : SearchOps) (x : Index) : Bool :=
  let k := o.k.toNat
  k == 0 || 1024 < k || o.beam.toNat < k || 4096 < o.beam.toNat || o.cand.toNat < k || o.beam.toNat < o.cand.toNat ||
  (bitAt o.sflags.toNat 3 && x.rformat == 0xFF) || 32 ≤ o.sflags.toNat

/-- The checks of SAVE (R330 check 3). -/
def State.saveCheck (s : State) (fn : Nat) (o : SearchOps) (x : Index) : Except Nat (Option (Nat × Nat × Nat)) :=
  if ¬ bitAt o.sflags.toNat 4 then .ok none
  else match s.cursorSession eSeason fn o.handle with
    | .error c => .error c
    | .ok i =>
      if 1048576 < o.queryOff.toNat + 2 * x.dims + 64 then .error eSearchParam
      else .ok (some (i, o.cursor.toNat, o.queryOff.toNat))

/-- The dies SEARCH waits for: that of the index (R22) and, with SAVE, the home die of the session it names (R94). -/
def State.searchNode (s : State) (h : Hdr) (o : SearchOps) : List Nat :=
  (((fnSlice h.fn.toNat).bind fun sl => s.index sl o.index.toNat).map fun x => [8 + x.die]).getD [] ++
    if bitAt o.sflags.toNat 4 then handleNode o.handle else []

/-- SEARCH (R330): the caller's slice; PF1 is no caller of a slice's index. -/
def execSearch (h : Hdr) (o : SearchOps) (s : State) : Host.Outcome State Fault Refusal :=
  hostCmd { widths := [8, 8, 16, 16, 16, 16, 16, 64, 64, 64, 64, 6, 20], entry := s.searchNode h o } h (fun s t =>
    match fnSlice h.fn.toNat with
    | none => .reject eNoIndex
    | some sl => s.inSlice sl (match s.openIndex sl o.index.toNat with
    | none => .reject eNoIndex
    | some x =>
      if searchBad o x then .reject eSearchParam
      else
        let filter := if o.filterAddr = 0 then some [] else s.hostRead o.filterAddr.toNat 64
        if (filter.map fun f => filterBad f x.attrBytes) == some true then .reject eSearchParam
        else match s.saveCheck h.fn.toNat o x with
          | .error c => .reject c
          | .ok save =>
            match s.hostRead o.queryAddr.toNat (2 * x.dims), filter with
            | some q, some f => .later (s.retAccept
                { id := 0, kind := .search, slice := x.slice, num := x.num, die := x.die, lc := bitAt o.sflags.toNat 0
                  tag := some t, sflags := o.sflags.toNat, k := o.k.toNat, beam := o.beam.toNat, cand := o.cand.toNat
                  hops := o.hops.toNat, fillHops := o.fillHops.toNat, query := q, filter := f
                  addr := o.resultAddr.toNat, save := save })
            | _, _ => .done s eRetHost)) s

/-- The operation of SEARCH_NEXT from its cursor record. -/
def State.nextOp (s : State) (i k : Nat) (x : Index) (b : Bytes) (addr : Nat) (t : Tag) : RetOp :=
  let pa := (s.kvOf i).scratchPa + le b 0x18 4
  let fl := byteAt b 1 / 2 % 16
  { id := 0, kind := .search, slice := x.slice, num := x.num, die := x.die, lc := bitAt fl 0, tag := some t, sflags := fl
    k := le b 2 2, beam := le b 4 2, cand := le b 6 2, hops := le b 8 2, fillHops := le b 0xA 2
    query := s.pread pa (2 * x.dims), filter := s.pread (pa + 2 * x.dims) 64, addr := addr
    cursor := some (i, k)
    after := if le b 0xC 4 = 0 then none else some (BitVec.ofNat 32 (le b 0x20 4), le b 0x1C 4) }

/-- A cursor record with VALID cleared (R342). -/
def notValid (b : Bytes) : Bytes := sub b 0 1 ++ bytesOf 1 (byteAt b 1 / 2 * 2) ++ b.drop 2

/-- SEARCH_NEXT (R342). -/
def execSearchNext (h : Hdr) (handle : U64) (cursor : BitVec 6) (resultAddr : U64) (s : State) :
    Host.Outcome State Fault Refusal :=
  hostCmd { widths := [64, 6, 64], entry := handleNode handle } h (fun s t =>
    match s.cursorSession eSessionClosing h.fn.toNat handle with
    | .error c => .reject c
    | .ok i =>
      let b := s.cursorSlot i cursor.toNat
      if ¬ bitAt (byteAt b 1) 0 then .reject eSearchParam
      else match s.openIndex (s.d i).slice (byteAt b 0) with
        | some x =>
          if x.serial.toNat = le b 0x10 8 then .later (s.retAccept (s.nextOp i cursor.toNat x b resultAddr.toNat t))
          else .done (s.putCursor i cursor.toNat (notValid b)) eCursorStale
        | none => .done (s.putCursor i cursor.toNat (notValid b)) eCursorStale) s

/-- CURSOR_DROP (R342): VALID cleared; a slot that is not VALID gives E_SEARCH_PARAM. -/
def execCursorDrop (h : Hdr) (handle : U64) (cursor : BitVec 6) (s : State) : Host.Outcome State Fault Refusal :=
  hostCmd { widths := [64, 6], entry := handleNode handle } h (fun s _ =>
    match s.cursorSession eSessionClosing h.fn.toNat handle with
    | .error c => .reject c
    | .ok i =>
      let b := s.cursorSlot i cursor.toNat
      if ¬ bitAt (byteAt b 1) 0 then .reject eSearchParam
      else .done (s.putCursor i cursor.toNat (notValid b))) s

/-! ## Ends of operations on search engines -/

/-- The result of a search: header and entries, nearest first (R334). -/
def searchResult (k : Nat) (w : Walk) (filled exact : Bool) : Bytes :=
  let r := w.r.take k
  let flags := boolBit (r.length < k) + 2 * boolBit filled + 4 * boolBit exact + 8 * boolBit (!w.bad.isEmpty)
  bytesOf 4 r.length ++ bytesOf 4 flags ++ bytesOf 4 w.hops ++ bytesOf 4 w.dists ++
  r.flatMap fun a => bytesOf 4 a.2 ++ bytesOf 4 a.1.toNat

/-- The walk of a search operation, and whether FILL resumed it. -/
def State.runSearch (s : State) (x : Index) (o : RetOp) : Walk × Bool :=
  let p : WalkPar := { q := x.prepare (bfWords x.dims o.query), beam := o.beam, cand := o.cand, filter := o.filter
                       after := o.after }
  let exact := bitAt o.sflags 1
  let w := if exact then (s.exact x p, false) else s.search x p o.k o.hops o.fillHops (bitAt o.sflags 2)
  (if bitAt o.sflags 3 then s.rerank x p w.1 else w.1, w.2)

/-- The cursor of a search that saves, or of a SEARCH_NEXT, brought up to its results (R341, R342). -/
def State.cursorAfter (s : State) (x : Index) (o : RetOp) (r : List (U32 × Nat)) : State :=
  let last := r.getLast?
  match o.save, o.cursor with
  | some (i, k, qoff), _ =>
    if (s.d i).windowBase = 0 then s
    else (s.saveQuery i qoff o.query o.filter).putCursor i k
      (cursorBytes o x r.length ((last.map (·.2)).getD 0) ((last.map (·.1)).getD 0) qoff)
  | none, some (i, k) =>
    let b := s.cursorSlot i k
    if (s.d i).windowBase = 0 ∨ r.isEmpty then s
    else s.putCursor i k (cursorBytes o x (le b 0xC 4 + r.length) ((last.map (·.2)).getD 0) ((last.map (·.1)).getD 0)
      (le b 0x18 4))
  | none, none => s

/-- Some array of a node lies where no path leads from the index's home die (R17). -/
def State.nodeCut (s : State) (x : Index) (id : Nat) : Bool :=
  let d := 8 + x.die
  s.cutFrom d x.slice (x.at_ 2 16 id) 16 ||
  s.cutFrom d x.slice (x.at_ 0 (vecBytes x.dims x.vformat) id) (vecBytes x.dims x.vformat) ||
  s.cutFrom d x.slice (x.at_ 4 (x.degree0 * 4) id) (x.degree0 * 4)

/-- The code an operation ends with whose reads met the bad nodes given and whose writes went where they are (R17). -/
def State.pathCode (s : State) (x : Index) (bad : List Nat) (writes : List (Nat × Bytes)) : Nat :=
  if bad.any (s.nodeCut x) || writes.any fun w => s.cutTo (8 + x.die) x.slice w.1 w.2.length then ePathDown else eOk

/-- The end of a search: the result is written, the counters and the cursor follow; a result that cannot be written
ends it with E_RET_HOST. -/
def State.searchDone (s : State) (x : Index) (o : RetOp) : State :=
  let w := s.runSearch x o
  if ¬ w.1.miss.isEmpty then s.fetchAll x.slice w.1.miss
  else
    let b := searchResult o.k w.1 w.2 (bitAt o.sflags 1)
    let r := w.1.r.take o.k
    let s1 := (s.evc x.slice 0x50 0xFF w.1.hops).evc x.slice 0x51 0xFF w.1.dists
    let s2 := if w.1.bad.isEmpty then s1 else s1.bump .retPoison x.slice w.1.bad.length
    if ¬ s2.hostOk o.addr b.length then (s2.retEnd o eRetHost []).indexGone x.slice x.num
    else
      let s3 := (s2.hostWrite o.addr b).bump .searches x.slice 1
      let s4 := if r.length < o.k then s3.bump .shortResults x.slice 1 else s3
      ((s4.cursorAfter x o r).retEnd o (s.pathCode x w.1.bad []) []).indexGone x.slice x.num

/-- The writes of a plan made. -/
def State.runPlan (s : State) (die sl : Nat) (p : Plan) : State :=
  p.writes.foldl (fun t w => t.writeFrom (8 + die) sl w.1 w.2 false) s

/-- A write of a plan meets a granule whose fetch is in flight (R303). -/
def State.planWaits (s : State) (sl : Nat) (p : Plan) : Bool :=
  p.writes.any fun w => match s.access sl true w.1 w.2.length with
    | .wait _ => true
    | _ => false

/-- The end of an insert (R337) of a vector whose node is `n`: a check that has come to fail meanwhile rejects it. -/
def State.insertNode (s : State) (x : Index) (o : RetOp) (n : NodeView) : State :=
  let lv := x.levelOf o.vec
  match n.miss, x.freeUpper lv with
  | some a, _ => s.fetchAll x.slice [a]
  | none, none => (s.retEnd o eIndexFull []).indexGone x.slice x.num
  | none, some u =>
    if n.used then (s.retEnd o eVectorExists []).indexGone x.slice x.num
    else
      let p := s.insertPlan x o.vec u o.elems o.attrs
      if ¬ p.miss.isEmpty then s.fetchAll x.slice p.miss
      else if s.planWaits x.slice p then s
      else
        let ups := if lv = 0 then x.uppers else x.uppers ++ [(u, lv)]
        let x1 := if x.entry.isNone || decide (x.top < lv) then { x with entry := some o.vec, top := lv, uppers := ups }
          else { x with uppers := ups }
        let s1 := (s.runPlan x.die x.slice p).setIndex x1
        let s2 := if p.bad.isEmpty then s1 else s1.bump .retPoison x.slice p.bad.eraseDups.length
        (s2.retEnd o (s.pathCode x p.bad p.writes) []).indexGone x.slice x.num

/-- The end of an insert (R337). -/
def State.insertDone (s : State) (x : Index) (o : RetOp) : State := s.insertNode x o (s.node x o.vec)

/-- The end of a DELETE (R339) of a vector whose node is `n`: TOMBSTONE set. -/
def State.deleteNode (s : State) (x : Index) (o : RetOp) (n : NodeView) : State :=
  match n.miss with
  | some a => s.fetchAll x.slice [a]
  | none =>
    if ¬ n.used ∨ n.tomb then (s.retEnd o eNoVector []).indexGone x.slice x.num
    else
      let p : Plan := { writes := [(x.at_ 2 16 o.vec + 1, bytesOf 1 (1 + 2 * boolBit n.visible + 4))] }
      ((s.runPlan x.die x.slice p).retEnd o (s.pathCode x [] p.writes) []).indexGone x.slice x.num

/-- The end of a DELETE (R339). -/
def State.deleteDone (s : State) (x : Index) (o : RetOp) : State := s.deleteNode x o (s.node x o.vec)

/-- The rewriting of a compaction (R340 steps 1, 2); it then waits for the searches accepted before. -/
def State.compactDone (s : State) (x : Index) (o : RetOp) : State :=
  let t := s.tombs x
  let p := s.compactPlan x t.1
  let miss := t.2 ++ p.miss
  if ¬ miss.isEmpty then s.fetchAll x.slice miss
  else if s.planWaits x.slice p then s
  else
    let e := match x.entry with
      | some e => if t.1.contains e then s.newEntry x else some (e, x.top)
      | none => none
    let before := (s.ret.ops.filter fun q => q.kind == .search && q.slice == x.slice && q.num == x.num).map (·.id)
    let s1 := (s.runPlan x.die x.slice p).setIndex { x with entry := e.map (·.1), top := (e.map (·.2)).getD 0 }
    (s1.setRetOp { o with engine := none, released := some before, list := t.1, status := s.pathCode x p.bad p.writes }).retStart
      o.die true 4

/-- COMPACT_RELEASE (R340 steps 3, 4): the records of the tombstoned ids are cleared once the searches accepted before
the compaction have ended. -/
def execCompactRelease (slice : BitVec 6) (index : U8) (s : State) : Host.Outcome State Fault Refusal :=
  let sl := slice.toNat
  match s.index sl index.toNat, s.ret.ops.find? fun o =>
      o.kind == .compact && o.slice == sl && o.num == index.toNat && o.released.isSome with
  | some x, some o =>
    if s.ret.ops.any fun q => (o.released.getD []).contains q.id then .next s
    else
      let gone := o.list.map fun id => (id, s.node x id)
      let clear : Plan := { writes := gone.flatMap fun g => (x.at_ 2 16 g.1, zeros 16) :: (List.range g.2.level).map fun k =>
        let l := x.listAt g.1 (k + 1) g.2.upper
        (l.1, zeros (4 * l.2)) }
      let ups := (gone.filter fun g => g.2.level != 0).map fun g => (g.2.upper, g.2.level)
      let s1 := (s.runPlan x.die sl clear).setIndex { x with uppers := x.uppers.filter fun u => !ups.contains u }
      .next ((s1.retEnd o (if o.status = 0 then s.pathCode x [] clear.writes else o.status) []).indexGone sl x.num)
  | _, _ => .next s

end Sys2Proof.Machine
end

