-- ==== Sys2Proof/Machine/Tables.lean ====
section
/-! DEFINITION. Embedding tables (R343..R350): creation and destruction, gathers and scatters, versions, hot rows, and the
end of an operation on a search or gather engine. -/

namespace Sys2Proof.Machine

/-! ## Tables (R343) -/

/-- A table replaced. -/
def State.setTable (s : State) (t : Table) : State :=
  { s with ret := { s.ret with tables := s.ret.tables.map fun (y : Table) =>
    if y.slice = t.slice ∧ y.num = t.num then t else y } }

/-- A table that commands may name. -/
def State.openTable (s : State) (sl n : Nat) : Option Table :=
  match s.table sl n with
  | some t => if t.destroyed || s.creating sl t.va then none else some t
  | none => none

/-- 4 KiB units of `n` bytes. -/
def units4 (n : Nat) : Nat := divUp n 4096

/-- The objects of a table taken in turn (R343): base, hot area, hot map, default row. -/
def State.makeTable (s : State) (o : TableOps) (sl k : Nat) (dflt : Bytes) (t : Tag) : Reply :=
  let prot := s.protFor sl (o.protect == 1)
  let rows := if o.rows = 0 then 2 ^ 32 else o.rows.toNat
  let rb := o.rowBytes.toNat
  let hm := o.hotMax.toNat
  let r : Except Nat (State × List Nat) :=
    (s.takeObj sl 3 (s.tierFor sl 3 o.tier.toNat) o.va.toNat (units4 (rows * rb)) none prot (some t)).bind fun a =>
    (a.1.takeObj sl 3 1 0 (units4 (hm * rb)) none prot (some t)).bind fun b =>
    (b.1.takeObj sl 3 1 0 (units4 (hm * 32)) (some k) prot (some t)).bind fun c =>
    (c.1.takeObj sl 3 1 0 (units4 rb) (some k) prot (some t)).map fun d => (d.1, [a.2, b.2, c.2, d.2])
  objThen r fun s1 vs =>
    let tb : Table :=
      { slice := sl, num := o.table.toNat, die := (s.dieList sl).getD k 0, rows := rows, rowBytes := rb
        rformat := o.rformat.toNat, shared := o.shared == 1, tier := s.tierFor sl 3 o.tier.toNat, prot := prot
        hotMax := hm, va := vs.getD 0 0, hotVa := vs.getD 1 0, mapVa := vs.getD 2 0, defaultVa := vs.getD 3 0 }
    let s2 := s1.vwrite sl tb.defaultVa dflt
    State.endCreate { s2 with ret := { s2.ret with tables := s2.ret.tables ++ [tb] } } t [(64, tb.va)]

/-- TABLE_CREATE (R343). -/
def execTableCreate (h : Hdr) (o : TableOps) (s : State) : Host.Outcome State Fault Refusal :=
  hostCmd { widths := [6, 8, 4, 32, 32, 2, 1, 2, 1, 64, 32, 64] } h (fun s t =>
    let sl := cmdSlice h.fn.toNat o.slice.toNat
    let rb := o.rowBytes.toNat
    let ti := s.tierFor sl 3 o.tier.toNat
    let rows := if o.rows = 0 then 2 ^ 32 else o.rows.toNat
    let vaBad := o.va != 0 && (o.va.toNat % 4096 != 0 || !inTier ti o.va.toNat (rows * rb))
    checked
      [(!s.defined sl, eNoImage),
       (decide (rb < 64) || decide (65536 < rb) || rb % 64 != 0 || o.rformat == 3 || decide (1048576 < o.hotMax.toNat) ||
        o.tier == 3 || decide ((s.dieList sl).length ≤ o.die.toNat) || vaBad, eTableParam),
       ((s.table sl o.table.toNat).isSome, eTableExists),
       (decide (256 ≤ s.ret.tables.length), eTableLimit),
       (o.tier != 0 && s.objectMode sl, eTierMode)]
      (match if o.defaultAddr = 0 then some (zeros rb) else s.hostRead o.defaultAddr.toNat rb with
       | none => .done s eRetHost
       | some d => s.makeTable o sl o.die.toNat d t)) s

/-- Requests on a table are still running: its operations on the gather engines. -/
def State.tableBusy (s : State) (sl n : Nat) : Bool :=
  s.ret.ops.any fun o => !o.kind.searches && o.slice == sl && o.num == n && o.owner == 0xFFFF

/-- The objects at the addresses of a slice freed. -/
def State.freeVas (s : State) (sl : Nat) (vas : List Nat) : State :=
  (s.mem.objects.filter fun o => o.slice == sl && o.type == 3 && vas.contains o.va).foldl State.freeObj s

/-- A table whose destruction waits for nothing more is removed with its objects (R349). -/
def State.tableGone (s : State) (sl n : Nat) : State :=
  match s.table sl n with
  | none => s
  | some t =>
    if ¬ t.destroyed ∨ s.tableBusy sl n then s
    else
      let sizes := [(t.hotMax, t.hotVa), (t.hotMax, t.mapVa)].filter (·.1 != 0)
      let old := match t.discarded with
        | some d => [d.1]
        | none => []
      let s1 := s.freeVas sl ([t.va, t.defaultVa] ++ sizes.map (·.2) ++ t.staged.toList ++ old)
      ({ s1 with ret := { s1.ret with tables := s1.ret.tables.filter fun y => !(y.slice == sl && y.num == n) } }).completeOpt
        t.dtag eOk []

/-- TABLE_DESTROY (R349): it completes when the requests already running have ended. -/
def execTableDestroy (h : Hdr) (slice : BitVec 6) (table : U8) (s : State) : Host.Outcome State Fault Refusal :=
  hostCmd { widths := [6, 8], entry := s.tableNode h slice table } h (fun s t =>
    let sl := cmdSlice h.fn.toNat slice.toNat
    s.inSlice sl (match s.openTable sl table.toNat with
    | none => .reject eNoTable
    | some x => .later ((s.setTable { x with destroyed := true, dtag := some t }).tableGone sl table.toNat))) s

/-! ## Rows (R344..R346) -/

/-- The address of a row under a version of the table (R348): its hot slot if it has one, else its base row. -/
def Table.rowVa (t : Table) (version row : Nat) : Nat :=
  let old := version != t.version && t.discarded.isSome
  let hot := if old then t.hotOld else t.hot
  let base := if old then ((t.discarded.map (·.1)).getD t.va) else t.va
  match hot.find? (·.2 == row) with
  | some h => t.hotVa + h.1 * t.rowBytes
  | none => base + row * t.rowBytes

/-- An index list entry names no row: missing, or at or above ROWS. -/
def Table.badRow (t : Table) (row : Nat) : Bool := t.rows ≤ row

/-- A row as a gather reads it; a missing or invalid entry reads the default row. -/
def State.rowRead (s : State) (t : Table) (version row : Nat) : Part :=
  s.part t.die t.slice (if t.badRow row then t.defaultVa else t.rowVa version row) t.rowBytes

/-- FP32 words or BF16 halves added elementwise in FP32 (R345). -/
def addRows (fmt : Nat) (a b : Bytes) : Bytes :=
  if fmt = 2 then (List.range (a.length / 4)).flatMap fun k =>
    bytesOf 4 (add32 (BitVec.ofNat 32 (le a (4 * k) 4)) (BitVec.ofNat 32 (le b (4 * k) 4))).toNat
  else halfBytes ((List.range (a.length / 2)).map fun k =>
    add32 (BitVec.ofNat 32 (65536 * le a (2 * k) 2)) (BitVec.ofNat 32 (65536 * le b (2 * k) 2)))

/-- Time of an update for R346: the step number of the slice's job above every PKC value, else the PKC. -/
def State.updateTime (s : State) (sl : Nat) : Nat :=
  match tabGet s.srv.jobs sl with
  | some j => 2 ^ 64 + j.next
  | none => s.pkc

/-- An update of a row by a source conflicts with an earlier one of another source (R346). -/
def State.rowConflict (s : State) (t : Table) (row src : Nat) : Bool :=
  match tabGet t.lastUpdate row with
  | none => false
  | some u =>
    let now := s.updateTime t.slice
    u.1 != src && (if 2 ^ 64 ≤ now then u.2 == now else decide (u.2 < 2 ^ 64) && decide (now - u.2 < 2 ^ 20))

/-- An update applied whole at a row's home (R345, R346): `add` adds, else it is set. A poisoned row stays so under an
add. `dup` says that an earlier entry of the same batch named the row. -/
def State.rowUpdate (s : State) (sl n version row src : Nat) (add dup : Bool) (b : Bytes) : State :=
  match s.table sl n with
  | none => s
  | some t =>
    let va := t.rowVa version row
    let p := s.part t.die sl va t.rowBytes
    let s1 := if dup || s.rowConflict t row src then s.bump .scatterConflicts sl 1 else s
    let s2 := s1.setTable { t with lastUpdate := tabPut t.lastUpdate row (src, s.updateTime sl) }
    if add ∧ p.bad then s2.bump .retPoison sl 1
    else s2.writeFrom (8 + t.die) sl va (if add then addRows t.rformat p.bytes b else b) false

/-- What an update must fetch first, or a fetch in flight it must wait for: `some none` waits. -/
def State.rowWaits (s : State) (t : Table) (version row : Nat) (add : Bool) : Option (Option Nat) :=
  let va := t.rowVa version row
  if add then (match (s.part t.die t.slice va t.rowBytes).miss with
    | some a => some (some a)
    | none => none)
  else match s.access t.slice true va t.rowBytes with
    | .wait _ => some none
    | _ => none

/-! ## GATHER and SCATTER (R344, R345, R347) -/

/-- What a requester knows of the table it names (R347): row bytes, format, rows, default row. -/
structure TableInfo where
  rowBytes : Nat
  rformat : Nat
  rows : Nat
  dflt : Bytes := []
  deriving DecidableEq, Repr

/-- Of a table of another device: free values (log entry 21). -/
def remoteInfo (owner num : Nat) : TableInfo :=
  let x := Config.remoteTable owner num
  { rowBytes := 64 * (x.1 % 1024 + 1), rformat := x.2.1 % 3, rows := max 1 (min (2 ^ 32) x.2.2.1), dflt := x.2.2.2 }

/-- The table a batch command names: local, or of a member of the composition. -/
def State.batchTable (s : State) (sl : Nat) (o : BatchOps) : Option TableInfo :=
  if o.owner = 0xFFFF ∨ s.devNo = some o.owner.toNat then
    (s.openTable sl o.table.toNat).map fun t => { rowBytes := t.rowBytes, rformat := t.rformat, rows := t.rows }
  else if (s.member o.owner.toNat).isSome ∧ s.joined sl then some (remoteInfo o.owner.toNat o.table.toNat) else none

/-- The entries of an index list. -/
def listEntries (n : Nat) (b : Bytes) : List Nat := (List.range n).map fun k => le b (8 * k) 8

/-- The source rows of a scatter that lie in host memory; those in slice memory are read when it runs (R345). -/
def State.batchRows (s : State) (o : BatchOps) (rb : Nat) : Option (List Bytes) :=
  let n := o.count.toNat
  if o.isVa = 1 then some [] else (s.hostRead o.addr.toNat (n * rb)).map fun b => pieces rb n b

/-- A batch command accepted: it runs on the gather engines of the table's home die; for a table of another device on
those of the first die of the slice. -/
def State.batch (s : State) (kind : RetKind) (h : Hdr) (o : BatchOps) (t : Tag) : Reply :=
  let sl := cmdSlice h.fn.toNat o.slice.toNat
  s.inSlice sl (match s.batchTable sl o with
  | none => .reject eNoTable
  | some i =>
    let n := o.count.toNat
    let own := o.owner = 0xFFFF ∨ s.devNo = some o.owner.toNat
    let die := if own then ((s.table sl o.table.toNat).map (·.die)).getD 0 else (s.dieList sl).getD 0 0
    checked [(n == 0 || decide (65536 < n), eTableParam), (kind == .scatterAdd && i.rformat == 0, eRowFormat)]
      (match s.hostRead o.listAddr.toNat (8 * n), if kind = .gather then some [] else s.batchRows o i.rowBytes with
       | some b, some rows => .later (s.retAccept
           { id := 0, kind := kind, slice := sl, num := o.table.toNat, die := die, lc := o.lc == 1, tag := some t
             addr := o.addr.toNat, isVa := o.isVa == 1, list := listEntries n b
             owner := if own then 0xFFFF else o.owner.toNat, rows := rows })
       | _, _ => .done s eRetHost))

/-- The state die a batch command enters at (R22): that of the table. -/
def State.batchNode (s : State) (h : Hdr) (o : BatchOps) : List Nat :=
  let sl := cmdSlice h.fn.toNat o.slice.toNat
  if o.owner = 0xFFFF ∨ s.devNo = some o.owner.toNat then
    ((s.table sl o.table.toNat).map fun t => [8 + t.die]).getD []
  else ((s.dieList sl).head?.map fun d => [8 + d]).getD []

/-- Widths of the operands of the batch commands. -/
def batchWidths : List Nat := [6, 8, 16, 32, 64, 64, 1, 1]

/-- GATHER (R344). -/
def execGather (h : Hdr) (o : BatchOps) (s : State) : Host.Outcome State Fault Refusal :=
  hostCmd { widths := batchWidths, entry := s.batchNode h o } h (fun s t => s.batch .gather h o t) s

/-- SCATTER_ADD (R345). -/
def execScatterAdd (h : Hdr) (o : BatchOps) (s : State) : Host.Outcome State Fault Refusal :=
  hostCmd { widths := batchWidths, entry := s.batchNode h o } h (fun s t => s.batch .scatterAdd h o t) s

/-- SCATTER_SET (R345). -/
def execScatterSet (h : Hdr) (o : BatchOps) (s : State) : Host.Outcome State Fault Refusal :=
  hostCmd { widths := batchWidths, entry := s.batchNode h o } h (fun s t => s.batch .scatterSet h o t) s

/-- A table locator (R359). -/
def tableLocator (num row : Nat) : Nat := 2 ^ 56 * num + row % 2 ^ 32

/-- The requests of an operation on a table of another device (R347, R363): a READ or an ATOMIC for each valid entry, a
row above 16,384 bytes in parts. -/
def State.sendRows (s : State) (o : RetOp) (i : TableInfo) : State :=
  let parts := divUp i.rowBytes 16384
  (o.list.zipIdx.filter fun x => x.1 < i.rows).foldl (fun t x =>
    (List.range parts).foldl (fun u k =>
      let loc := tableLocator o.num x.1
      let len := min 16384 (i.rowBytes - 16384 * k)
      if o.kind = .gather then u.send o.owner 1 0 o.slice [loc, 65536 * k + len] [] (.ret o.id (x.2 * 4 + k))
      else
        let op := if o.kind = .scatterSet then 3 else if i.rformat = 2 then 1 else 2
        u.send o.owner 3 op o.slice [loc, 65536 * k + parts] (sub (o.rows.getD x.2 []) (16384 * k) len)
          (.ret o.id (x.2 * 4 + k))) t) s

/-- Requests of an operation that have no response yet. -/
def State.retWaiting (s : State) (id : Nat) : Bool :=
  s.comp.outst.any fun t => match t.purpose with
    | .ret o _ => o == id
    | _ => false

/-- Missing and invalid entries of a list. -/
def badEntries (rows : Nat) (l : List Nat) : Nat := (l.filter fun e => rows ≤ e).length

/-- An engine access of an operation to slice memory that no valid leaf serves (R139). -/
def State.retFault (s : State) (sl : Nat) (write : Bool) (va n : Nat) : State :=
  match s.access sl write va n with
  | .fault a code => s.engineFault sl a code
  | _ => s

/-- Rows delivered to a gather's destination, in list order (R344): poison goes with the data, to the host as poisoned TLPs
(R313). -/
def State.deliver (s : State) (o : RetOp) (rows : List (Bytes × Bool)) : State :=
  if o.isVa then
    rows.zipIdx.foldl (fun t r => t.writeFrom (8 + o.die) o.slice (o.addr + r.2 * r.1.1.length) r.1.1 r.1.2)
      (s.retFault o.slice true o.addr (rows.map fun r => r.1.length).sum)
  else
    (rows.zipIdx.filter (·.1.2)).foldl (fun (t : State) r =>
      (t.emit (.poisonedWrite (o.addr + r.2 * r.1.1.length) r.1.1.length)).emit (.aer 0)) (s.hostWrite o.addr (rows.flatMap (·.1)))

/-- The destination of a gather in slice memory cannot be written yet: a fetch is in flight there, or a page of it waits for its
priority copy (R118, R139). -/
def State.destHeld (s : State) (o : RetOp) (n : Nat) : Option State :=
  if ¬ o.isVa then none
  else match s.guarded o.slice o.addr n, s.access o.slice true o.addr n with
    | some pa, _ => some (s.wantCopy pa)
    | none, .wait _ => some s
    | none, _ => none

/-- A scatter with its source rows: those in slice memory are read now (R345), by the engine's die; it waits for granules and pages
that are not present, and ends where the rows are lost, have no path or are poisoned (R305, R17, R313). -/
def State.withSource (s : State) (o : RetOp) (rb : Nat) (f : State → RetOp → State) : State :=
  if ¬ o.isVa ∨ o.waiting ≠ 0 then f s o
  else
    let n := o.list.length * rb
    let p := s.part o.die o.slice o.addr n
    match p.miss with
    | some a => s.fetchAll o.slice [a]
    | none =>
      if p.lost then s.retEnd o ePoolLost []
      else if p.cut then s.retEnd o ePathDown []
      else if p.bad then (s.retFault o.slice false o.addr n).retEnd o eMemPoison []
      else f s { o with rows := pieces rb o.list.length p.bytes }

/-- The end of a gather: its rows delivered, bad entries counted and reported. -/
def State.gatherEnd (s : State) (o : RetOp) (rows : List (Bytes × Bool)) (nbad status : Nat) : State :=
  let s1 := if nbad = 0 then s else s.bump .badIndex o.slice nbad
  let n := (rows.map fun r => r.1.length).foldl (· + ·) 0
  if ¬ o.isVa ∧ ¬ s1.hostOk o.addr n then s1.retEnd o eRetHost []
  else
    let np := (rows.filter (·.2)).length
    let s2 := (s1.deliver o rows).evc o.slice 0x52 0xFF rows.length
    let s3 := if np = 0 then s2 else s2.bump .retPoison o.slice np
    s3.retEnd o (if status ≠ 0 then status else if np = 0 then eOk else eMemPoison) [(32, nbad)]

/-- A local gather (R344): it waits for the granules its rows lie in. -/
def State.gatherDone (s : State) (t : Table) (o : RetOp) : State :=
  let parts := o.list.map fun e => s.rowRead t o.version e
  let miss := parts.filterMap (·.miss)
  if ¬ miss.isEmpty then s.fetchAll t.slice miss
  else match s.destHeld o (o.list.length * t.rowBytes) with
  | some u => u
  | none => (s.gatherEnd o (parts.map fun p => (p.bytes, p.bad)) (badEntries t.rows o.list)
    (if parts.any (·.lost) then ePoolLost
     else if parts.any (·.cut) || (o.isVa && s.cutTo (8 + o.die) o.slice o.addr (o.list.length * t.rowBytes)) then ePathDown
     else eOk)).tableGone t.slice t.num

/-- A local scatter (R345): every valid entry applied in batch order. -/
def State.scatterDone (s : State) (t : Table) (o : RetOp) : State :=
  let add := o.kind == .scatterAdd
  let good := o.list.zipIdx.filter fun e => !t.badRow e.1
  let waits := good.filterMap fun e => s.rowWaits t o.version e.1 add
  if ¬ waits.isEmpty then s.fetchAll t.slice (waits.filterMap fun w => w)
  else
    let lost := good.any fun e => (s.rowRead t o.version e.1).lost
    let cut := good.any fun e => s.cutTo (8 + t.die) t.slice (t.rowVa o.version e.1) t.rowBytes
    let nbad := badEntries t.rows o.list
    let s1 := good.foldl (fun u e =>
      let dup := (o.list.take e.2).contains e.1
      u.rowUpdate t.slice t.num o.version e.1 0xFFFF add dup (o.rows.getD e.2 [])) s
    let s2 := (if nbad = 0 then s1 else s1.bump .badIndex o.slice nbad).evc o.slice 0x53 0xFF good.length
    (s2.retEnd o (if lost then ePoolLost else if cut then ePathDown else eOk) [(32, nbad)]).tableGone t.slice t.num

/-- An operation on a table of another device: its requests are sent when it starts; it ends with their responses. -/
def State.remoteDone (s : State) (o : RetOp) : State :=
  let i := remoteInfo o.owner o.num
  if o.waiting = 0 then
    if o.kind = .gather then (s.setRetOp { o with waiting := 1 }).sendRows o i
    else s.withSource o i.rowBytes fun t p => (t.setRetOp { o with waiting := 1 }).sendRows p i
  else if s.retWaiting o.id then s
  else
    let nbad := badEntries i.rows o.list
    if o.status ≠ 0 ∧ o.status ≠ eMemPoison ∧ o.status ≠ ePoolLost then s.retEnd o o.status [(32, nbad)]
    else if o.kind = .gather then
      let parts := List.range (divUp i.rowBytes 16384)
      let rows := o.list.zipIdx.map fun e =>
        if i.rows ≤ e.1 then (padTo i.rowBytes i.dflt, false)
        else (padTo i.rowBytes (parts.flatMap fun k => tabGetD o.got [] (e.2 * 4 + k)), parts.any fun k => o.gotBad.contains (e.2 * 4 + k))
      match s.destHeld o (o.list.length * i.rowBytes) with
      | some u => u
      | none => s.gatherEnd o rows nbad o.status
    else
      let s1 := (if nbad = 0 then s else s.bump .badIndex o.slice nbad).evc o.slice 0x53 0xFF (o.list.length - nbad)
      s1.retEnd o o.status [(32, nbad)]

/-! ## The end of an operation (R323) -/

/-- The operation of an engine does its work and ends, or waits for what it needs. -/
def State.retDone (s : State) (o : RetOp) : State :=
  match o.kind with
  | .gather | .scatterAdd | .scatterSet =>
    if o.owner ≠ 0xFFFF then s.remoteDone o
    else match s.table o.slice o.num with
      | none => s.retEnd o eNoTable []
      | some t =>
        if o.kind = .gather then s.gatherDone t o
        else (s.withSource o t.rowBytes fun u p => u.scatterDone t p).tableGone t.slice t.num
  | k => match s.index o.slice o.num with
    | none => s.retEnd o eNoIndex []
    | some x =>
      if k = .search then s.searchDone x o else if k = .insert then s.insertDone x o
      else if k = .delete then s.deleteDone x o else s.compactDone x o

/-- RETRIEVAL_OPERATION_DONE of an engine of a state die (R323, R273). -/
def execRetrievalOperationDone (die : BitVec 3) (gather : U1) (engine : BitVec 2) (s : State) :
    Host.Outcome State Fault Refusal :=
  match s.engineOp die.toNat engine.toNat (gather == 0) with
  | none => .next s
  | some o => .next (s.retDone o)

/-! ## Versions (R348) -/

/-- TABLE_STAGE (R348): a base object of the table's geometry; its address is returned. -/
def execTableStage (h : Hdr) (slice : BitVec 6) (table : U8) (s : State) : Host.Outcome State Fault Refusal :=
  hostCmd { widths := [6, 8], entry := s.tableNode h slice table } h (fun s t =>
    let sl := cmdSlice h.fn.toNat slice.toNat
    s.inSlice sl (match s.openTable sl table.toNat with
    | none => .reject eNoTable
    | some x =>
      if x.staged.isSome then .reject eVersionBusy
      else objThen (s.takeObj sl 3 x.tier 0 (units4 (x.rows * x.rowBytes)) none x.prot (some t)) fun s1 va =>
        State.endCreate (s1.setTable { x with staged := some va }) t [(64, va)])) s

/-- A discarded version's base is freed and its hot rows are gesso-filled once the requests that started before the switch have ended; TABLE_SWITCH
then completes (R348 step 3). -/
def State.switchEnd (s : State) (sl n : Nat) : State :=
  match s.table sl n with
  | none => s
  | some t => match t.discarded with
    | none => s
    | some d =>
      if s.ret.ops.any fun o => d.2.1.contains o.id then s
      else
        let s1 := (t.hotOld.filter fun h => (tabGet t.hot h.1).isNone).foldl (fun (u : State) h =>
          u.gessoRange sl (t.hotVa + h.1 * t.rowBytes) t.rowBytes) s
        ((s1.setTable { t with discarded := none, hotOld := [] }).freeVas sl [d.1]).completeOpt d.2.2 eOk []

/-- The switch of a table, in one write (R348 step 2). -/
def State.switchNow (s : State) (t : Table) : State :=
  match t.switching, t.staged with
  | some tag, some va =>
    let running := (s.ret.ops.filter fun o => !o.kind.searches && o.slice == t.slice && o.num == t.num &&
      o.owner == 0xFFFF && o.engine.isSome).map (·.id)
    (s.setTable { t with va := va, version := t.version + 1, staged := none, switching := none, hot := [], hotOld := t.hot
                         migrations := [], discarded := some (t.va, running, tag) }).switchEnd t.slice t.num
  | _, _ => s

/-- The time of a switch has come (R348 step 1): a step boundary of the slice's job with no migration running, or, with no
job, no request in flight. -/
def State.switchDue (s : State) (t : Table) : Bool :=
  t.discarded.isNone && t.migrations.isEmpty && !s.creating t.slice (t.staged.getD 0) &&
  match tabGet s.srv.jobs t.slice with
  | some j => !j.inStep
  | none => !s.tableBusy t.slice t.num

/-- TABLE_SWITCH (R348). -/
def execTableSwitch (h : Hdr) (slice : BitVec 6) (table : U8) (s : State) : Host.Outcome State Fault Refusal :=
  hostCmd { widths := [6, 8], entry := s.tableNode h slice table } h (fun s t =>
    let sl := cmdSlice h.fn.toNat slice.toNat
    s.inSlice sl (match s.openTable sl table.toNat with
    | none => .reject eNoTable
    | some x =>
      if x.staged.isNone then .reject eNoVersion
      else if x.switching.isSome then .reject eVersionBusy
      else .later (s.setTable { x with switching := some (some t) }))) s

/-- TABLE_SWITCH_APPLY (R348): the switch, or the end of one whose old requests have ended. -/
def execTableSwitchApply (slice : BitVec 6) (table : U8) (s : State) : Host.Outcome State Fault Refusal :=
  match s.table slice.toNat table.toNat with
  | none => .next s
  | some t =>
    if t.discarded.isSome then .next (s.switchEnd t.slice t.num)
    else if t.switching.isSome ∧ s.switchDue t then .next (s.switchNow t) else .next s

/-- The switches of a slice's tables that a step boundary brings. -/
def State.switchAll (s : State) (sl : Nat) : State :=
  (s.ret.tables.filter (·.slice == sl)).foldl (fun u t => match u.table sl t.num with
    | some x => if x.switching.isSome ∧ u.switchDue x then u.switchNow x else u
    | none => u) s

/-! ## Hot rows (R350) -/

/-- The pending list of a table installed: rows not hot migrate in, hot rows not listed migrate out. -/
def Table.install (t : Table) : Table :=
  match t.pendingHot with
  | none => t
  | some l =>
    let out := t.hot.filter fun h => !l.contains h.2
    let into := l.filter fun r => !(t.hot.any fun h => h.2 == r)
    { t with pendingHot := none
             migrations := out.map (fun h => ⟨h.2, h.1, false⟩) ++ into.map fun r => ⟨r, 0, true⟩ }

/-- Pending hot lists of a slice's tables installed at the end of a step whose number is a multiple of HOT_EVERY. -/
def State.hotInstall (s : State) (sl step : Nat) : State :=
  if step % max 1 (s.fld .hotEvery sl 0 0 16) ≠ 0 then s
  else { s with ret := { s.ret with tables := s.ret.tables.map fun (t : Table) =>
    if t.slice = sl ∧ t.discarded.isNone then t.install else t } }

/-- HOT_POST (R350). -/
def execHotPost (h : Hdr) (slice : BitVec 6) (table : U8) (listAddr : U64) (count : U32) (s : State) :
    Host.Outcome State Fault Refusal :=
  hostCmd { widths := [6, 8, 64, 32], entry := s.tableNode h slice table } h (fun s _ =>
    let sl := cmdSlice h.fn.toNat slice.toNat
    s.inSlice sl (match s.openTable sl table.toNat with
    | none => .reject eNoTable
    | some t =>
      let n := count.toNat
      if t.hotMax < n then .reject eHotParam
      else match s.hostRead listAddr.toNat (8 * n) with
        | none => .done s eRetHost
        | some b =>
          let l := listEntries n b
          let nbad := badEntries t.rows l
          let t1 := { t with pendingHot := some ((l.filter fun e => !t.badRow e).eraseDups) }
          let s1 := if nbad = 0 then s else s.bump .badIndex sl nbad
          .done (s1.setTable (if (tabGet s.srv.jobs sl).isNone ∧ t.discarded.isNone then t1.install else t1)))) s

/-- The state die that holds a hot slot (R299). -/
def State.slotDie (s : State) (t : Table) (slot : Nat) : Nat :=
  (t.hotVa + slot * t.rowBytes) / 2 ^ 21 % max 1 (s.dieList t.slice).length

/-- The free hot slot of the next row to migrate in, round robin over the dies (R350). -/
def State.freeSlot (s : State) (t : Table) : Option Nat :=
  let n := max 1 (s.dieList t.slice).length
  let free := (List.range t.hotMax).filter fun k => (tabGet t.hot k).isNone
  ((List.range n).findSome? fun i => free.find? fun k => s.slotDie t k == (t.hot.length + i) % n)

/-- A hot map entry written (R350 step 3): 32 bytes for each slot, the row, and a version bit that flips. -/
def State.putMap (s : State) (t : Table) (slot row : Nat) (used : Bool) : State :=
  let va := t.mapVa + 32 * slot
  let bit := byteAt (s.vread t.slice (va + 8) 1) 0
  s.writeFrom (8 + t.die) t.slice va (bytesOf 8 row ++ bytesOf 1 (putBits (1 - bit % 2) 1 1 (boolBit used)) ++ zeros 23) false

/-- A row moved between its base and its hot slot (R350); updates never meet a row in between. -/
def State.migrateRow (s : State) (t : Table) (m : Migration) (slot : Nat) : State :=
  let hot := t.hotVa + slot * t.rowBytes
  let base := t.va + m.row * t.rowBytes
  let p := s.part t.die t.slice (if m.into then base else hot) t.rowBytes
  let dst := if m.into then hot else base
  match p.miss, s.access t.slice true dst t.rowBytes with
  | some a, _ => s.fetchAll t.slice [a]
  | none, .wait _ => s
  | none, _ =>
    let s1 := (s.writeFrom (8 + t.die) t.slice dst p.bytes p.bad).putMap t slot m.row m.into
    (s1.setTable { t with
      hot := if m.into then tabPut t.hot slot m.row else tabDel t.hot slot
      migrations := t.migrations.filter (· != m) }).bump .hotMigrations t.slice 1

/-- ROW_MIGRATION (R350): a gather engine of the home die is free and no LC work waits for it. -/
def execRowMigration (slice : BitVec 6) (table : U8) (row : U32) (s : State) : Host.Outcome State Fault Refusal :=
  match s.table slice.toNat table.toNat with
  | none => .next s
  | some t =>
    match t.migrations.find? fun m => m.row == row.toNat with
    | none => .next s
    | some m =>
      if (s.freeEngine t.die false).isNone ∨ t.discarded.isSome then .next s
      else match if m.into then s.freeSlot t else some m.slot with
        | none => .next s
        | some k => .next (s.migrateRow t m k)

end Sys2Proof.Machine
end

