-- ==== Sys2Proof/Machine/Pool.lean ====
section
/-! DEFINITION. This device as a target: its pool contribution (R306, R379), READ, WRITE and ATOMIC on pool addresses and
table rows (R344..R347, R359, R360), POOL_INFO and IDENTIFY, and POOL_RECLAIM. -/

namespace Sys2Proof.Machine

/-! ## The pool contribution (R306, R379) -/

/-- A stretch of the contribution: its first pool address, physical address and bytes, and the slice that gives it. -/
structure PoolPiece where
  off : Nat
  pa : Nat
  len : Nat
  slice : Nat
  deriving DecidableEq, Repr

/-- What a slice contributes, in order: the share of POOL_UNITS of each of its state dies, then the PCGs of POOL_PCGS
(physical address and bytes). -/
def State.contribution (s : State) (sl : Nat) : List (Nat × Nat) :=
  if ¬ bitAt (s.sliceComp sl) 1 then []
  else
    ((s.dieList sl).map fun n => s.topShare sl n 2) ++
    (setBits (le (s.tierMap sl) 0x10 8) 64).map fun j =>
      (2 ^ 37 * (j / 8) + pcgGeneral * (j % 8), pcgGeneral - reservePerPcg s.tableLog2)

/-- Pieces laid out one after another from an offset. -/
def layPieces (off sl : Nat) : List (Nat × Nat) → List PoolPiece
  | [] => []
  | x :: l => (if x.2 = 0 then [] else [⟨off, x.1, x.2, sl⟩]) ++ layPieces (off + x.2) sl l

/-- The contribution of the device: its slices in ascending order (log entry 24). -/
def State.poolPieces (s : State) : List PoolPiece :=
  (s.slices.foldl (fun (acc : List PoolPiece × Nat) sl =>
    let l := s.contribution sl
    (acc.1 ++ layPieces acc.2 sl l, acc.2 + (l.map (·.2)).foldl (· + ·) 0)) ([], 0)).1

/-- 64 KiB units of the contribution. -/
def State.poolTotal (s : State) : Nat := (s.poolPieces.foldl (fun n p => n + p.len) 0) / 65536

/-- The physical address of a byte of the contribution. -/
def poolPa (l : List PoolPiece) (off : Nat) : Option Nat :=
  (l.find? fun p => p.off ≤ off && off < p.off + p.len).map fun p => p.pa + (off - p.off)

/-- The parts of a range of the contribution by piece: offset in the range, physical address, bytes. -/
def poolParts (l : List PoolPiece) (off n : Nat) : List (Nat × Nat × Nat) :=
  l.filterMap fun p =>
    let a := max off p.off
    let b := min (off + n) (p.off + p.len)
    if a < b then some (a - off, p.pa + (a - p.off), b - a) else none

/-- Ranges of the contribution that cannot be given: allocated ones, and freed ones whose gesso is not complete: first
unit and units. -/
def State.poolTaken (s : State) : List (Nat × Nat) :=
  s.pool.map (fun r => (r.base, r.units)) ++
  s.mem.gesso.filterMap fun g =>
    (s.poolPieces.find? fun p => p.pa ≤ g.pa && g.pa < p.pa + p.len).map fun p =>
      let off := p.off + (g.pa - p.pa)
      (off / 65536, divUp (off + g.size) 65536 - off / 65536)

/-- The lowest free contiguous range of `n` units. -/
def State.poolFit (s : State) (n : Nat) : Option Nat :=
  let t := s.poolTaken
  let total := s.poolTotal
  ((candidates 0 1 t).filter fun a => a + n ≤ total && t.all fun r => a + n ≤ r.1 || r.1 + r.2 ≤ a).foldl
    (fun m a => match m with
      | none => some a
      | some b => some (min a b)) none

/-- Bytes of the contribution read, and whether they are poisoned. -/
def State.poolRead (s : State) (off n : Nat) : Bytes × Bool :=
  let l := poolParts s.poolPieces off n
  (l.flatMap fun p => memRead s.mem.data p.2.1 p.2.2,
   l.any fun p => s.mem.poison.any fun x => p.2.1 < x + 128 && x < p.2.1 + p.2.2)

/-- The 2 MiB units of the pool contribution that `n` bytes at a physical address lie in, as the sweep numbers them. -/
def poolUnits (pa n : Nat) : List Nat :=
  (List.range ((2 ^ 21 + pa + n - 1) / 2 ^ 21 - pa / 2 ^ 21)).map fun k => 2 ^ 20 + pa / 2 ^ 21 + k

/-- The 128-byte sectors that `n` bytes at a physical address lie in. -/
def sectorsOf (pa n : Nat) : List Nat := (List.range ((pa + n + 127) / 128 - pa / 128)).map fun k => (pa / 128 + k) * 128

/-- One part of a write to the pool contribution: an offset into its bytes, a physical address and a length. -/
def State.poolPart (s : State) (b : Bytes) (bad : Bool) (p : Nat × Nat × Nat) : State :=
  let v := s.pwrite p.2.1 (sub b p.1 p.2.2)
  let u : State := { v with sec := { v.sec with sweep := { v.sec.sweep with
    genMap := (poolUnits p.2.1 p.2.2).foldl (fun m k => tabPut m k v.sec.current) v.sec.sweep.genMap } } }
  if bad then { u with mem := { u.mem with poison := (sectorsOf p.2.1 p.2.2).foldl setInsert u.mem.poison } } else u

/-- Bytes of the contribution written; poison goes with them (R313, R356). -/
def State.poolWrite (s : State) (off : Nat) (b : Bytes) (bad : Bool) : State :=
  (poolParts s.poolPieces off b.length).foldl (fun t p => t.poolPart b bad p) s

/-- A pool range freed: its bytes wait for gesso before they are given again (R306). -/
def State.poolDrop (s : State) (r : PoolRange) : State :=
  let g := (poolParts s.poolPieces (65536 * r.base) (65536 * r.units)).map fun p =>
    ({ pa := p.2.1, size := p.2.2, slice := r.slice } : Gesso)
  { s with pool := s.pool.filter (· != r), mem := { s.mem with gesso := s.mem.gesso ++ g } }

/-- The allocated range that holds a byte of the contribution. -/
def State.poolAt (s : State) (off : Nat) : Option PoolRange :=
  s.pool.find? fun r => 65536 * r.base ≤ off && off < 65536 * (r.base + r.units)

/-- A range begins with a valid canvas record (R379, R382). -/
def State.recordAt (s : State) (r : PoolRange) : Bool :=
  let b := (s.poolRead (65536 * r.base) 256).1
  le b 0 4 == 0x44435250 && hashAt b 0xE0 == Config.sha3 (sub b 0 0xE0)

/-! ## POOL_ALLOC, POOL_FREE, POOL_INFO, IDENTIFY (R360, R379) -/

/-- POOL_ALLOC served: the lowest free range that fits, owned by the device and slice that asked; its base is the
result. -/
def State.poolGive (s : State) (src sl units : Nat) : State × Ans :=
  match if units = 0 then none else s.poolFit units with
  | none => (s, { status := eTierFull })
  | some a =>
    let gives := ((s.poolPieces.find? fun p => p.off ≤ 65536 * a && 65536 * a < p.off + p.len).map (·.slice)).getD 0
    ({ s with pool := s.pool ++ [{ base := a, units := units, owner := src, ownerSlice := sl, slice := gives }] },
     { result := 65536 * a })

/-- The rule of POOL_ALLOC. -/
def poolAllocRule (t : TxHdr) (units : U64) : Rule :=
  { t := t, type := 7, op := 0x20, len := 8, data := bytesOf 8 units.toNat, cmd := .poolAlloc t units
    eff := fun s => s.poolGive t.src.toNat t.slice.toNat units.toNat }

/-- POOL_ALLOC (R379). -/
def execPoolAlloc (t : TxHdr) (units : U64) (s : State) : Host.Outcome State Fault Refusal :=
  .next (s.serve (poolAllocRule t units))

/-- POOL_FREE served: of the owner only. -/
def State.poolTake (s : State) (src base : Nat) : State × Ans :=
  match s.pool.find? fun r => 65536 * r.base == base with
  | none => (s, { status := eNotMember })
  | some r => if r.owner = src then (s.poolDrop r, {}) else (s, { status := eNotMember })

/-- The rule of POOL_FREE: the object it names is the range. -/
def State.poolFreeRule (s : State) (t : TxHdr) (base : U64) : Rule :=
  { t := t, type := 7, op := 0x21, len := 8, data := bytesOf 8 base.toNat, cmd := .poolFree t base
    holds := (s.poolAt base.toNat).isSome, eff := fun s => s.poolTake t.src.toNat base.toNat }

/-- POOL_FREE (R379). -/
def execPoolFree (t : TxHdr) (base : U64) (s : State) : Host.Outcome State Fault Refusal :=
  .next (s.serve (s.poolFreeRule t base))

/-- Free units of the contribution. -/
def State.poolFree (s : State) : Nat := s.poolTotal - (s.poolTaken.foldl (fun n r => n + r.2) 0)

/-- The rule of POOL_INFO: free and total units, 8 bytes each. -/
def poolInfoRule (t : TxHdr) : Rule :=
  { t := t, type := 7, op := 0x22, len := 0, cmd := .poolInfo t
    eff := fun s => (s, { data := bytesOf 8 s.poolFree ++ bytesOf 8 s.poolTotal }) }

/-- POOL_INFO (R360). -/
def execPoolInfo (t : TxHdr) (s : State) : Host.Outcome State Fault Refusal := .next (s.serve (poolInfoRule t))

/-- The rule of IDENTIFY: kind 1, pool units, and the subset level, whose value for a QW5200 the spec does not state
(free, log entry 1). -/
def identifyRule (t : TxHdr) : Rule :=
  { t := t, type := 7, op := 0x38, len := 0, cmd := .identify t, exempt := true
    eff := fun s => (s.drew, { data := bytesOf 1 1 ++ zeros 7 ++ bytesOf 8 s.poolTotal ++ bytesOf 8 s.freeVal.toNat }) }

/-- IDENTIFY (R360). -/
def execIdentify (t : TxHdr) (s : State) : Host.Outcome State Fault Refusal := .next (s.serve (identifyRule t))

/-- POOL_RECLAIM (R379): a kept range holding a canvas record is given back; a locator that names none gives
E_NO_OBJECT. -/
def execPoolReclaim (h : Hdr) (locator : U64) (s : State) : Host.Outcome State Fault Refusal :=
  hostCmd { fns := .pf0, priv := eCompPriv, widths := [64], noImage := true } h (fun s _ =>
    let dev := locator.toNat / 2 ^ 48
    match s.pool.find? fun r => r.kept && 65536 * r.base == locator.toNat % 2 ^ 48 with
    | none => .reject eNoObject
    | some r => if s.devNo ≠ some dev then .reject eNoObject else .done (s.poolDrop r)) s

/-! ## Table rows named by other devices (R347) -/

/-- The SHARED table a locator names: of the target slice first, else of the lowest slice that has one (log entry 25). -/
def State.sharedTable (s : State) (sl num : Nat) : Option Table :=
  let ok (t : Table) : Bool := t.shared && t.num == num && !t.destroyed && s.joined t.slice
  match s.ret.tables.find? fun t => ok t && t.slice == sl with
  | some t => some t
  | none => (s.ret.tables.filter ok).foldl (fun b t => match b with
    | none => some t
    | some x => if t.slice < x.slice then some t else some x) none

/-- ADDR is a table locator: TSLICE names a slice, or bits [63:56] name a table (a pool address has bits [63:48] zero). -/
def tableAddr (t : TxHdr) : Bool := t.slice.toNat < 64

/-! ## READ and WRITE (R359) -/

/-- READ of a pool address: the data; poisoned data carries the mark. -/
def State.readPool (s : State) (t : TxHdr) : State × Ans :=
  let r := s.poolRead t.addr.toNat (t.aux.toNat % 65536)
  (s, { data := r.1, poison := r.2 })

/-- READ of a table row, or of part AUX[31:16] of a row above 16,384 bytes (R344, R347): a missing row reads the default
row and is counted; a granule of a T2 base that is not resident is fetched, and the answer is E_POOL_LOST where its home is
lost. -/
def State.readRow (s : State) (t : TxHdr) : State × Ans :=
  match s.sharedTable t.slice.toNat (t.addr.toNat / 2 ^ 56) with
  | none => (s, { status := eNoTable })
  | some tb =>
    let row := t.addr.toNat % 2 ^ 32
    let p := s.rowRead tb tb.version row
    let s1 := if tb.badRow row then s.bump .badIndex tb.slice 1 else s
    let s2 := if p.bad then s1.bump .retPoison tb.slice 1 else s1
    let s3 := s2.evc tb.slice 0x52 0xFF 1
    (s3, { status := if p.lost then ePoolLost else if p.cut then ePathDown else if p.bad then eMemPoison else 0
           data := sub p.bytes (16384 * (t.aux.toNat / 65536)) (t.aux.toNat % 65536), poison := p.bad })

/-- The granule a READ or an ATOMIC of a row must fetch first. -/
def State.rowMiss (s : State) (t : TxHdr) : Option Nat :=
  (s.sharedTable t.slice.toNat (t.addr.toNat / 2 ^ 56)).bind fun tb =>
    (s.rowRead tb tb.version (t.addr.toNat % 2 ^ 32)).miss

/-- The rule of READ. -/
def State.readRule (s : State) (t : TxHdr) : Rule :=
  { t := t, type := 1, op := 0, len := 0, cmd := .readTxn t
    holds := tableAddr t || (s.poolAt t.addr.toNat).isSome
    eff := fun s => if tableAddr t then s.readRow t else s.readPool t }

/-- A row's request waits at its home while a granule it needs is fetched: it is served when its source sends it again
(R362). -/
def State.serveRow (s : State) (t : TxHdr) (r : Rule) : State :=
  match if tableAddr t then s.rowMiss t else none with
  | some a => State.fetchAll { s with net := { s.net with redo := false } } (((s.sharedTable t.slice.toNat (t.addr.toNat / 2 ^ 56)).map (·.slice)).getD 0) [a]
  | none => s.serve r

/-- READ (R359). -/
def execReadTxn (t : TxHdr) (s : State) : Host.Outcome State Fault Refusal := .next (s.serveRow t (s.readRule t))

/-- The rule of WRITE: the whole range must lie in one allocated range. -/
def State.writeRule (s : State) (t : TxHdr) (data : Bytes) : Rule :=
  { t := t, type := 2, op := 0, len := data.length, data := data, cmd := .writeTxn t data
    holds := match s.poolAt t.addr.toNat with
      | some r => t.addr.toNat + data.length ≤ 65536 * (r.base + r.units)
      | none => false
    eff := fun s => (s.poolWrite t.addr.toNat data (t.poison == 1), {}) }

/-! ## ATOMIC (R345, R360, R363) -/

/-- A row's update whole: added or set, at the home (R345); a row that does not exist is counted and changes nothing. -/
def State.atomicWhole (s : State) (tb : Table) (src row : Nat) (add : Bool) (b : Bytes) (bad : Bool) : State × Ans :=
  if tb.badRow row then (s.bump .badIndex tb.slice 1, {})
  else
    let p := s.rowRead tb tb.version row
    let s1 := s.rowUpdate tb.slice tb.num tb.version row src add false (padTo tb.rowBytes b)
    let s2 := if bad then s1.poisonRange tb.slice (tb.rowVa tb.version row) tb.rowBytes else s1
    (s2.evc tb.slice 0x53 0xFF 1,
     { status := if p.lost then ePoolLost else if p.cut then ePathDown else 0 })

/-- An ATOMIC of a row: at once when it is whole, else its part is kept until all parts have arrived; every part is
answered (R363). -/
def State.atomicRow (s : State) (t : TxHdr) (op : Nat) (data : Bytes) : State × Ans :=
  match s.sharedTable t.slice.toNat (t.addr.toNat / 2 ^ 56) with
  | none => (s, { status := eNoTable })
  | some tb =>
    let add := op ≠ 3
    if (add ∧ tb.rformat = 0) ∨ (op = 1 ∧ tb.rformat ≠ 2) ∨ (op = 2 ∧ tb.rformat ≠ 1) then (s, { status := eRowFormat })
    else
      let row := t.addr.toNat % 2 ^ 32
      let src := t.src.toNat
      let bad := t.poison == 1
      let parts := max 1 (t.aux.toNat % 65536)
      if parts = 1 then s.atomicWhole tb src row add data bad
      else
        let same (x : PartRow) : Bool :=
          x.src == src && x.slice == tb.slice && x.addr == t.addr.toNat && x.op == op && x.parts == parts
        let cur := (s.ret.parts.find? same).getD { src := src, slice := tb.slice, addr := t.addr.toNat, op := op, parts := parts }
        let got : Tab Bytes := tabPut cur.got (t.aux.toNat / 65536) data
        let all : Bytes := (got.map fun x => x.2).flatten
        let rest := s.ret.parts.filter fun x => !same x
        if got.length < parts then ({ s with ret := { s.ret with parts := rest ++ [{ cur with got := got }] } }, {})
        else { s with ret := { s.ret with parts := rest } }.atomicWhole tb src row add all bad

/-- The rule of a row ATOMIC. -/
def rowRule (t : TxHdr) (op : Nat) (data : Bytes) (cmd : Instr) : Rule :=
  { t := t, type := 3, op := op, len := data.length, data := data, cmd := cmd, eff := fun s => s.atomicRow t op data }

/-- ADD_F32 (R345). -/
def execAddF32 (t : TxHdr) (data : Bytes) (s : State) : Host.Outcome State Fault Refusal :=
  .next (s.serveRow t (rowRule t 1 data (.addF32 t data)))

/-- ADD_BF16 (R345). -/
def execAddBf16 (t : TxHdr) (data : Bytes) (s : State) : Host.Outcome State Fault Refusal :=
  .next (s.serveRow t (rowRule t 2 data (.addBf16 t data)))

/-- SET (R345). -/
def execSetRow (t : TxHdr) (data : Bytes) (s : State) : Host.Outcome State Fault Refusal :=
  .next (s.serveRow t (rowRule t 3 data (.setRow t data)))

/-- An atomic on 8 bytes of the pool: the old value is the result (R360). -/
def State.atomic64 (s : State) (t : TxHdr) (f : Nat → Nat) : State × Ans :=
  let r := s.poolRead t.addr.toNat 8
  let old := le r.1 0 8
  (s.poolWrite t.addr.toNat (bytesOf 8 (f old % 2 ^ 64)) false, { result := old, poison := r.2 })

/-- The rule of FADD64 and CAS64. -/
def State.word64Rule (s : State) (t : TxHdr) (op : Nat) (data : Bytes) (cmd : Instr) (f : Nat → Nat) : Rule :=
  { t := t, type := 3, op := op, len := data.length, data := data, cmd := cmd
    holds := (s.poolAt t.addr.toNat).isSome && (s.poolAt (t.addr.toNat + 7)).isSome
    eff := fun s => s.atomic64 t f }

/-- The rule of FADD64. -/
def State.faddRule (s : State) (t : TxHdr) (data : Bytes) : Rule :=
  s.word64Rule t 4 data (.fadd64 t data) fun v => v + le data 0 8

/-- FADD64 (R360). -/
def execFadd64 (t : TxHdr) (data : Bytes) (s : State) : Host.Outcome State Fault Refusal :=
  .next (s.serve (s.faddRule t data))

/-- The rule of CAS64: the payload holds the compare and the swap value. -/
def State.casRule (s : State) (t : TxHdr) (data : Bytes) : Rule :=
  s.word64Rule t 5 data (.cas64 t data) fun v => if v = le data 0 8 then le data 8 8 else v

/-- CAS64 (R360). -/
def execCas64 (t : TxHdr) (data : Bytes) (s : State) : Host.Outcome State Fault Refusal :=
  .next (s.serve (s.casRule t data))

end Sys2Proof.Machine
end

