-- ==== Sys2Proof/Machine/Mirror.lean ====
section
/-! DEFINITION. Sessions between devices: the check of OWNER_EPOCH (R91), mirrors of D1 stretches (R85, R152, R176, R384),
their promotion (R385), and the neighbours of a ring position (R121, R385). -/

namespace Sys2Proof.Machine

/-! ## Messages about a session (R91, R377) -/

/-- The first descriptor of a session on this device. -/
def State.sessOf (s : State) (sid : U64) : Option Nat :=
  (s.desc.find? fun x => x.2.used && x.2.sessionId == sid).map (·.1)

/-- The slice whose descriptor of the session has a higher OWNER_EPOCH than a message (R91). -/
def State.staleOwner (s : State) (sid : U64) (epoch : Nat) : Option Nat :=
  (s.desc.find? fun x => x.2.used && x.2.sessionId == sid && epoch < x.2.ownerEpoch).map (·.2.slice)

/-- The device holds the session, a mirror of it, or its part of a handoff (R377). -/
def State.holdsSession (s : State) (sid : U64) : Bool :=
  (s.sessOf sid).isSome || s.mirrors.any (·.sessionId == sid) || s.handoffs.any (·.sid == sid)

/-- The rule of a message about a session: under an older OWNER_EPOCH it is discarded, answered with E_STALE_OWNER and
counted (R91). -/
def State.sessRule (s : State) (t : TxHdr) (type op : Nat) (data : Bytes) (cmd : Instr) (sid : U64) (epoch : Nat)
    (always : Bool) (eff : State → State × Ans) : Rule :=
  { t := t, type := type, op := op, len := data.length, data := data, cmd := cmd, target := some (1, sid.toNat)
    holds := always || s.holdsSession sid
    eff := fun u => match u.staleOwner sid epoch with
      | some sl => (u.bump .staleOwnerCnt sl 1, { status := eStaleOwner })
      | none => eff u }

/-! ## Mirrors (R384) -/

/-- The key of a mirror. -/
def Mirror.key (m : Mirror) : Nat := mirrorKey m.slice m.window

/-- A mirror written back. -/
def State.setMirror (s : State) (m : Mirror) : State :=
  { s with mirrors := s.mirrors.map fun (x : Mirror) => (if x.slice = m.slice ∧ x.window = m.window then m else x) }

/-- The mirror of a session that a device fills. -/
def State.mirrorFrom (s : State) (sid : U64) (src : Nat) : Option Mirror :=
  s.mirrors.find? fun m => m.sessionId == sid && m.primary == src

/-- The slice that holds a new mirror (R384): the lowest-numbered RING slice that runs a job with the session's model
program, as far as this device knows it, whose rows have the length that arrives (log entry 28). -/
def State.mirrorSlice (s : State) (sid : U64) (bytes : Nat) : Option Nat :=
  let hash := (s.sessOf sid).bind fun i => s.modelHash (s.d i).slice
  s.slices.find? fun sl =>
    bitAt (s.sliceComp sl) 2 && (tabGet s.srv.jobs sl).isSome && (s.freeWindow sl).isSome &&
    (hash.isNone || s.modelHash sl == hash) &&
    match s.geom sl with
    | some g => bytes != 0 && bytes % (g.e + g.s + g.c) == 0
    | none => false

/-- The ring position of a mirror's primary: one below or above this device's own, else 0. -/
def State.mirrorPos (s : State) (sid : U64) (src : Nat) : Nat :=
  match s.sessOf sid with
  | none => 0
  | some i =>
    let d := s.d i
    if d.ringPrev = src then d.ringPos - 1 else if d.ringNext = src then d.ringPos + 1 else 0

/-- The mirror that takes rows of a stretch: the one that stands, or a new one with a window of its slice. No message tells a
mirror whether its session is PROTECTED; one whose session has no descriptor here is held as protected, so that a promotion cannot
lose PROTECTED (R78; DESIGN CHOICE, log entry 89). -/
def State.mirrorFor (s : State) (sid : U64) (src epoch offset bytes : Nat) : Option (State × Mirror) :=
  match s.mirrorFrom sid src with
  | some m => some (s, m)
  | none => (s.mirrorSlice sid bytes).bind fun sl => (s.freeWindow sl).map fun w =>
      let prot := s.confidential sl || ((s.sessOf sid).map fun i => (s.d i).prot).getD true
      let m : Mirror := { sessionId := sid, ringPos := s.mirrorPos sid src, epoch := epoch, offset := offset
                          committed := offset, tentative := offset, slice := sl, window := w, primary := src, prot := prot }
      ({ s with mirrors := s.mirrors ++ [m] }.takeGroup sl w, m)

/-- A mirror's pages grown to hold `n` tokens of the stretch; none where they cannot be had (R152). -/
def State.mirrorGrow (s : State) (m : Mirror) (p : Prog) (n : Nat) : Option State :=
  let k := s.kvOf m.key
  let need := pagesFor n p.pageMax - k.perLayer
  (s.takePages m.slice p.geom m.prot p.pageMax need k.perLayer k).bind fun x => (x.1.setKv m.key x.2).remap m.slice

/-- Rows of a layer written to a mirror from stretch-local token `t` on. -/
def State.mirrorWrite (s : State) (m : Mirror) (g : Geom) (layer t : Nat) (rows : List Bytes) : State :=
  rows.zipIdx.foldl (fun (u : State) x => match (u.kvOf m.key).pageOf layer (t + x.2) with
    | none => u
    | some q => u.writeRow g q (t + x.2 - q.first)
        { elem := sub x.1 0 g.e, scale := sub x.1 g.e g.s, side := sub x.1 (g.e + g.s) g.c }) s

/-- MIRROR_ROWS served (R152): tentative rows; a mirror that cannot allocate refuses them. ADDR is the row slot, 16 above
the stretch-local token (R359). -/
def State.takeRows (s : State) (t : TxHdr) (sid : U64) (layer first : Nat) (data : Bytes) : State × Ans :=
  let off := first - (t.addr.toNat - 16)
  match s.mirrorFor sid t.src.toNat t.aux.toNat off data.length with
  | none => (s, { status := eKvFull })
  | some (s1, m) => match s1.curProg m.slice with
    | none => (s, { status := eKvFull })
    | some p =>
      let g := p.geom
      let n := data.length / max 1 (g.e + g.s + g.c)
      if t.aux.toNat < m.epoch then (s.bump .staleOwnerCnt m.slice 1, { status := eStaleOwner })
      else match s1.mirrorGrow m p (first - off + n) with
        | none => (s, { status := eKvFull })
        | some s2 =>
          ((s2.mirrorWrite m g layer (first - off) (pieces (g.e + g.s + g.c) n data)).setMirror
            { m with epoch := t.aux.toNat, tentative := max m.tentative (first + n) }, {})

/-- MIRROR_ROWS (R152, R384). -/
def execMirrorRows (t : TxHdr) (sid : U64) (layer : U8) (first : U32) (data : Bytes) (s : State) :
    Host.Outcome State Fault Refusal :=
  .next (s.serve (s.sessRule t 5 3 data (.mirrorRows t sid layer first data) sid t.aux.toNat true fun u =>
    u.takeRows t sid layer.toNat first.toNat data))

/-- A mirror given up: its pages freed and gesso-filled, its window with them (R176). -/
def State.dropMirror (s : State) (m : Mirror) : State :=
  let g := (s.geom m.slice).getD ⟨0, 0, 0, 0, 0⟩
  let n := s.mem.gesso.length
  let s1 := (s.dropFrom g m.key 0 0).unmapped m.slice
  let w := m.slice * 2 ^ 14 + m.window
  let gs := s1.mem.gesso.take n ++ (s1.mem.gesso.drop n).map fun x => { x with window := some w }
  { s1 with
    mirrors := s1.mirrors.filter fun x => !(x.slice == m.slice && x.window == m.window)
    mem := { s1.mem with kv := tabDel s1.mem.kv m.key, gesso := gs
                         winGesso := if gs.length ≤ n then s1.mem.winGesso else s1.mem.winGesso ++ [w] } }

/-- MIRROR_COMMIT served (R151, R152): the mirror commits its rows up to the primary's committed length and drops the
rest; a mirror that a primary commits to the start of its stretch holds nothing and is given up. -/
def State.commitMirror (s : State) (t : TxHdr) (sid : U64) (n : Nat) : State × Ans :=
  match s.mirrorFrom sid t.src.toNat with
  | none => (s, {})
  | some m =>
    if t.aux.toNat < m.epoch then (s.bump .staleOwnerCnt m.slice 1, { status := eStaleOwner })
    else if n ≤ m.offset then (s.dropMirror m, {})
    else match s.curProg m.slice with
      | none => (s, {})
      | some p =>
        let j := pagesFor (n - m.offset) p.pageMax
        (((s.dropFrom p.geom m.key j p.pageMax).unmapped m.slice).setMirror
          { m with epoch := t.aux.toNat, committed := n, tentative := n }, {})

/-- MIRROR_COMMIT (R152). -/
def execMirrorCommit (t : TxHdr) (sid : U64) (committed : U32) (s : State) : Host.Outcome State Fault Refusal :=
  .next (s.serve (s.sessRule t 5 4 [] (.mirrorCommit t sid committed) sid t.aux.toNat true fun u =>
    u.commitMirror t sid committed.toNat))

/-- MIRROR_STATE (R384): the sampler record, scratch objects and cursors of a D1 tail, as its mirror keeps them. A message
carries at most 16,384 bytes, so scratch objects come in pieces: ADDR is a piece's offset, and what a message does not carry
stays (log entry 28). -/
def execMirrorState (t : TxHdr) (sid : U64) (sampler scratch cursors : Bytes) (s : State) :
    Host.Outcome State Fault Refusal :=
  .next (s.serve (s.sessRule t 5 5 (sampler ++ scratch ++ cursors) (.mirrorState t sid sampler scratch cursors) sid
    t.aux.toNat true fun u => match u.mirrorFrom sid t.src.toNat with
      | none => (u, {})
      | some m =>
        if t.aux.toNat < m.epoch then (u.bump .staleOwnerCnt m.slice 1, { status := eStaleOwner })
        else (u.setMirror { m with
          epoch := t.aux.toNat, sampler := if sampler.isEmpty then m.sampler else samplerOf sampler
          scratch := if scratch.isEmpty then m.scratch else padTo t.addr.toNat (m.scratch.take t.addr.toNat) ++ scratch
          cursors := if cursors.isEmpty then m.cursors
            else (pieces 64 (cursors.length / 64) cursors).map fun x => ⟨true, byteAt x 0, x⟩ }, {})))

/-! ## The primary's side (R152, R176, R384) -/

/-- The rows of a page as a mirror message carries them. -/
def KvRow.flat (g : Geom) (r : KvRow) : Bytes := padTo g.e r.elem ++ padTo g.s r.scale ++ padTo g.c r.side

/-- Every committed row of a stretch sent to a new mirror, as BE CANVAS traffic (R176), then its committed length. -/
def State.copyStretch (s : State) (i dev : Nat) : State :=
  let d := s.d i
  match s.curProg d.slice with
  | none => s
  | some p =>
    let g := p.geom
    let per := max 1 (16384 / max 1 (g.e + g.s + g.c))
    (s.kvOf i).pages.foldl (fun (t : State) q =>
      let rows := t.pageRows g q (tokensIn d q.first q.log2)
      (pieces per (divUp rows.length per) rows).zipIdx.foldl (fun (u : State) x =>
        let local_ := q.first + per * x.2
        u.send dev 5 3 0xFF [local_ + 16, d.ownerEpoch, d.sessionId.toNat, q.layer, d.stretchOffset + local_]
          (x.1.flatMap (KvRow.flat g)) (.mirror i (2 ^ 64))) t) s

/-- The copy to a new mirror is complete (R176): the new tail is the mirror from here on, and the old one is given up. -/
def State.mirrorMoved (s : State) (i : Nat) : State :=
  let d := s.d i
  let s1 := s.send d.mirrorDev 5 4 0xFF [0, d.ownerEpoch, d.sessionId.toNat, d.stretchOffset] [] .none
  let s2 := s1.send d.ringNext 5 4 0xFF [0, d.ownerEpoch, d.sessionId.toNat, d.committedLen] [] .none
  s2.setD i { s2.d i with mirrorDev := d.ringNext }

/-! ## Neighbours (R121, R385) -/

/-- Position `pos` of a session's ring is on `dev` from here on: descriptors on this device name it, where it was their
neighbour or the mirror `old` (R121 step 8, R385). -/
def State.setNeighbours (s : State) (sid : U64) (pos dev old epoch : Nat) : State :=
  let f (d : Desc) : Desc :=
    if ¬ d.used ∨ d.sessionId ≠ sid then d
    else { d with
      ringNext := if d.ringPos + 1 = pos then dev else d.ringNext
      ringPrev := if d.ringPos = pos + 1 then dev else d.ringPrev
      mirrorDev := if d.mirrorDev = old ∧ old ≠ 0xFFFF then dev else d.mirrorDev
      ownerEpoch := max d.ownerEpoch epoch }
  { s with
    desc := s.desc.map fun x => (x.1, f x.2)
    mirrors := s.mirrors.map fun (m : Mirror) =>
      (if m.sessionId = sid ∧ m.ringPos = pos ∧ m.primary = old then { m with primary := dev } else m) }

/-- What a tail here knows of its ring's devices holds no longer once a stretch has moved. -/
def State.forgetRing (s : State) (sid : U64) : State :=
  (s.desc.filter fun x => x.2.used && x.2.sessionId == sid).foldl (fun (t : State) x =>
    t.setAx x.1 { t.ax x.1 with ringDevs := [] }) s

/-- Which neighbours of a position this device holds: 1 the position below, 2 the position above. -/
def State.besides (s : State) (sid : U64) (pos : Nat) : Nat :=
  let has (p : Nat) : Bool := s.desc.any fun x => x.2.used && x.2.sessionId == sid && x.2.ringPos == p && x.2.pagesHeld != 0
  boolBit (pos != 0 && has (pos - 1)) + 2 * boolBit (has (pos + 1))

/-- A QUERY that still waits sent again, to a promoted member (R385). -/
def State.resendQueries (s : State) (sid : U64) (dev : Nat) : State :=
  let is := (s.desc.filter fun x => x.2.used && x.2.sessionId == sid && x.2.tail).map (·.1)
  (s.srv.waits.filter fun w => is.contains w.index).foldl (fun (t : State) w =>
    t.sendOne (t.d w.index).slice dev 4 1 0 [0, (t.d w.index).ownerEpoch] w.query) s

/-! ## Promotion (R385) -/

/-- The descriptor a promoted mirror becomes: Autumn, committed rows only, OWNER_EPOCH + 1. -/
def State.promotedDesc (s : State) (m : Mirror) (i : Nat) : Desc :=
  let near := (s.sessOf m.sessionId).map s.d
  let size := (near.map (·.ringSize)).getD 1
  { season := .autumn, ownerState := .owned, gen := (s.d i).gen, slice := m.slice, ringPos := m.ringPos
    pageMaxLog2 := ((s.curProg m.slice).map (·.pageMax)).getD 15, tail := decide (m.ringPos + 1 = size), dclass := 1
    prot := m.prot, sessionId := m.sessionId, ownerEpoch := m.epoch + 1, mapEpoch := s.comp.epoch
    palette := (near.map (·.palette)).getD 0xFFFF, ringSize := size, windowBase := windowBase m.window
    ptRoot := s.windowRoot m.slice m.window, scratchAddr := 0x1F_0000_0000 + windowBase m.window
    stretchOffset := m.offset, committedLen := m.committed, tentativeLen := m.committed
    pagesHeld := (s.kvOf m.key).pages.length, lastSummerPkc := s.pkg.pkc, scratchLen := m.scratch.length
    cursors := m.cursors.length }

/-- A mirror promoted at the commit of the map that removes its primary: a member again, or the tail, which posts
OWNER_RESOLVED. Every QW5200 member is told (R385). At the last owner epoch no mirror is promoted (R90). -/
def State.promoteMirror (s : State) (m : Mirror) : State :=
  match (if m.epoch < 0xFFFFFFFF then s.emptyIndex else none) with
  | none => s
  | some i =>
    let d := s.promotedDesc m i
    let k := s.kvOf m.key
    let s1 := { s with
      mirrors := s.mirrors.filter fun x => !(x.slice == m.slice && x.window == m.window)
      mem := { s.mem with kv := tabDel s.mem.kv m.key } }
    let s2 := (((s1.setD i d).descWritten i).setKv i { k with sampler := m.sampler }).setAx i { emptyAt := (s1.ax i).emptyAt }
    let s3 := if d.palette < 4096 then s2.palRef d.palette true else s2
    let s4 := (if d.tail then s3.fillSide i m.scratch (m.cursors.flatMap Cursor.record) else s3)
    let own := s.devNo.getD 0xFFFF
    let b := s4.besides m.sessionId m.ringPos
    let s5 := (s4.setNeighbours m.sessionId m.ringPos own 0xFFFF 0).setD i
      { s4.d i with ringPrev := if bitAt b 0 then own else 0xFFFF, ringNext := if bitAt b 1 then own else 0xFFFF }
    let o := { ringOps 5 m.sessionId.toNat (m.epoch + 1) with
      pos := BitVec.ofNat 8 m.ringPos, targetDev := BitVec.ofNat 16 own }
    let others := (s5.comp.members.filter fun x => x.2.state == 1 && x.2.kind == 1 && x.1 != own).map (·.1)
    let s6 := others.foldl (fun (t : State) dev => t.ringSend dev o (.ring 5 i)) s5
    if d.tail then s6.sessEvent i .empty .autumn 7 else s6

end Sys2Proof.Machine
end

