-- ==== Sys2Proof/Machine/Handoff.lean ====
section
/-! DEFINITION. Ownership handoff (R120..R127) and tail handover (R174..R176): MIGRATE, the messages of both sides, canvas
streams, the end of canvas work (R107, R113, R121), and the arbiter's resolution (R123, R124). -/

namespace Sys2Proof.Machine

/-! ## Records -/

/-- A side's record of a handoff. -/
def State.hoOf (s : State) (sid : U64) (giver : Bool) : Option Handoff :=
  s.handoffs.find? fun h => h.sid == sid && h.giver == giver

/-- A record written back. -/
def State.setHo (s : State) (h : Handoff) : State :=
  { s with handoffs := s.handoffs.map fun (x : Handoff) => (if x.sid = h.sid ∧ x.giver = h.giver then h else x) }

/-- A record removed. -/
def State.delHo (s : State) (h : Handoff) : State :=
  { s with handoffs := s.handoffs.filter fun x => !(x.sid == h.sid && x.giver == h.giver) }

/-- A message of the handoff sequences sent to the other side (R121, R360): OP, epoch, session, and further operands. -/
def State.hoSend (s : State) (h : Handoff) (op : Nat) (more : List Nat) : State :=
  s.send h.peer 7 op 0xFF ([0, h.epoch, h.sid.toNat] ++ more) [] (.handoff h.index)

/-- The MIGRATE that began a handoff ends: the host's completion, or the answer to the tail that carried it. -/
def State.migrateDone (s : State) (h : Handoff) (code : Nat) (handle : U64) : State :=
  let s1 := s.completeOpt h.tag code (packBytes [(64, handle.toNat)])
  match h.reply with
  | some t => s1.lateAnswer t 7 code handle.toNat
  | none => s1

/-! ## MIGRATE (R120) -/

/-- The season column MIGRATE of *Season transitions*: the code that refuses it, if any. -/
def State.migrateSeason (s : State) (i : Nat) : Option Nat :=
  let d := s.d i
  if s.closing i then some eSessionClosing
  else match d.season, d.op with
  | .autumn, .none => if d.liveReq then some eReqActive else none
  | .summer, _ => some eSeason
  | .spring, .thaw => if d.runahead then none else some eSessionBusy
  | .winter, .none => none
  | _, _ => some eSessionBusy

/-- The devices whose pool holds a T2 canvas: its members, or the device its locator names. -/
def State.canvasHosts (s : State) (d : Desc) : List Nat :=
  match s.storedAt d with
  | some c => c.members.map (·.1)
  | none => [d.canvasAddr.toNat / 2 ^ 48]

/-- Only the descriptor of a Winter session moves (R126): its canvas lies in a pool that the receiver reaches too, by the
link-state records, and is not device-sealed. -/
def State.descOnly (s : State) (d : Desc) (dev : Nat) : Bool :=
  d.season == .winter && d.canvasTier == 2 && (s.canvasFor d).any (·.sealMode != 1) &&
  let reach := s.reachFrom s.comp.links.length [dev]
  (s.canvasHosts d).all fun m => reach.contains m

/-- The canvas a session gives away: the one it lies in, or its cut, sealed for the pool's tier (R106, R126). -/
def State.givenCanvas (s : State) (i : Nat) : Option Canvas :=
  let d := s.d i
  if d.season = .winter then
    (s.canvasFor d).map fun c =>
      let m := if c.sealMode = 0 then s.sealFor d.prot 2 else c.sealMode
      { c with sealMode := m, sealNonce := if c.sealMode = 0 ∧ m ≠ 0 then Config.drbg s.free 16 else c.sealNonce
               compositionId := s.comp.id, sealer := if m = 2 then (s.sec.csk.getD 0).toNat else c.sealer }
  else some (s.cut i false false (s.sealFor d.prot 2))

/-- OFFER's operands beside epoch and session: what the receiver's checks need. -/
def offerArgs (c : Canvas) (d : Desc) (h : Handoff) : List Nat :=
  [boolBit h.winter, boolBit h.descOnly, h.tier, c.len, c.kvFormat, c.layers, c.stretchOffset, c.committedLen,
   d.pageMaxLog2, c.pages.length, d.pageBudget, d.dclass, boolBit d.prot, d.ringPos, d.ringSize, boolBit d.tail]

/-- Step 1 of *Ownership handoff*: OP MIGRATE_OUT, HANDING, held OWNER (R92), and OFFER(n + 1). -/
def State.startMigrate (s : State) (i dev sl tier : Nat) (tag : Option Tag) (reply : Option TxHdr) : State :=
  let d := s.d i
  match s.givenCanvas i with
  | none => s
  | some c =>
    let h : Handoff := { index := i, giver := true, peer := dev, peerSlice := sl, epoch := d.ownerEpoch + 1, step := 1
                         tier := tier, since := s.pkg.pkc, tag := tag, reply := reply, sid := d.sessionId, slice := d.slice
                         winter := d.season == .winter, descOnly := s.descOnly d dev, own := handleOf i d }
    let s1 := s.setD i { d with op := .migrateOut, ownerState := .handing, heldReason := .owner }
    let s2 := { s1 with handoffs := s1.handoffs ++ [h] }
    (if c.sealMode = 0 then s2 else s2.drew).send dev 7 1 sl ([0, h.epoch, h.sid.toNat] ++ offerArgs c d h)
      (hashBytes c.modelHash ++ match c.palette with
        | some x => hashBytes x.1 ++ bytesOf 4 x.2
        | none => []) (.handoff i)

/-- A device of a session's ring, as this device knows it: itself, the neighbours of the stretches it holds, and the devices
that have answered its tail. The rest of the ring is met at the target, whose refusal is mapped to the same code. -/
def State.inRing (s : State) (i dev : Nat) : Bool :=
  match s.devNo with
  | none => false
  | some n => n == dev || (s.ax i).ringDevs.contains dev || s.desc.any fun x =>
      x.2.used && x.2.sessionId == (s.d i).sessionId && (x.2.ringPrev == dev || x.2.ringNext == dev)

/-- The checks of R120 from 2 on that a device can make. A run-ahead thaw is abandoned first, so its session is checked as
Winter (R71). A canvas that is incomplete is not accepted (R105). -/
def State.migrateChecks (s : State) (i member dev tier : Nat) : List (Bool × Nat) :=
  let d := s.d i
  let c := if d.season = .winter ∨ d.season = .spring then s.canvasFor d else none
  [(decide (d.ringSize ≤ member) || s.inRing i dev || tier == 3, eSessionParam),
   (s.devNo.isNone || !s.reachable d.slice dev, eCanvasTarget),
   ((d.prot && s.sec.csk.isNone) || c.any (·.sealMode == 1), eCanvasSeal),
   ((d.season == .winter || d.season == .spring) && !c.any (·.complete), eCanvasFormat),
   (decide (0xFFFFFFFF ≤ d.ownerEpoch), eEpochLimit)]

/-- MIGRATE of this device's own stretch: a run-ahead thaw is abandoned first (R71). -/
def State.migrateOwn (s : State) (i dev sl tier : Nat) (tag : Option Tag) (reply : Option TxHdr) : State :=
  let s1 := if (s.d i).season = .spring then s.stopThaw i eAborted else s
  s1.startMigrate i dev sl tier tag reply

/-- MIGRATE (R120): the tail's own stretch, another position on this device, or a member's, to which the command is
carried. -/
def execMigrate (h : Hdr) (handle : U64) (member : BitVec 6) (targetDev : U16) (targetSlice : BitVec 6) (tier : BitVec 2)
    (s : State) : Host.Outcome State Fault Refusal :=
  hostCmd { widths := [64, 6, 16, 6, 2], entry := handleNode handle } h (fun s t =>
    withIndex (s.tailHandle h.fn.toNat handle) fun i =>
      match s.migrateSeason i with
      | some c => .reject c
      | none =>
        let d := s.d i
        let m := member.toNat
        checked (s.migrateChecks i m targetDev.toNat tier.toNat)
          (if m = d.ringPos then .later (s.migrateOwn i targetDev.toNat targetSlice.toNat tier.toNat (some t) none)
           else
             let chain := s.ringChain 64 i
             match chain.1.find? fun k => (s.d k).ringPos == m with
             | some k => match s.migrateSeason k with
               | some c => .reject c
               | none => .later (s.migrateOwn k targetDev.toNat targetSlice.toNat tier.toNat (some t) none)
             | none => match chain.2 with
               | none => .reject eSessionParam
               | some dev =>
                 let r : Relay := { kind := 4, index := i, tag := some t }
                 let s1 := { s with comp := { s.comp with relays := s.comp.relays ++ [r] } }
                 .later (s1.ringSend dev { ringOps 4 d.sessionId.toNat d.ownerEpoch with
                   pos := BitVec.ofNat 8 m, targetDev := targetDev, targetSlice := targetSlice, tier := tier }
                   (.ring 4 i)))) s

/-! ## The receiver: OFFER (R121) -/

/-- The descriptor of an offered session, in Spring (R121 step 2). -/
def State.offerDesc (s : State) (sl : Nat) (o : OfferOps) (i : Nat) : Desc :=
  { season := .spring, ownerState := .none, gen := (s.d i).gen, slice := sl, ringPos := o.ringPos.toNat
    pageMaxLog2 := o.pageMaxLog2.toNat, tail := o.tail == 1, dclass := o.dclass.toNat, prot := o.prot == 1
    sessionId := o.sid, ownerEpoch := o.epoch.toNat, ringSize := o.ringSize.toNat
    palette := (o.palette.bind fun x => s.palFind sl x.1 x.2.toNat).getD 0xFFFF
    op := .migrateIn, heldReason := .owner }

/-- An offered session's descriptor written and its palette entry referenced. -/
def State.offerSeat (s : State) (sl : Nat) (o : OfferOps) (i : Nat) : State :=
  let d := s.offerDesc sl o i
  let s1 := (s.setD i d).descWritten i
  if d.palette < 4096 then s1.palRef d.palette true else s1

/-- The page maximum of an offered session in a program: the program's where it never allocated (R143). -/
def offerPageMax (o : OfferOps) (p : Prog) : Nat := if o.pageMaxLog2 = 15 then p.pageMax else o.pageMaxLog2.toNat

/-- An offered session seated with its pages, not present yet, its window and tables (R131, R134, R112 check 8). -/
def State.offerRoom (s : State) (sl : Nat) (o : OfferOps) (i : Nat) : Option State :=
  (s.curProg sl).bind fun p =>
    let m := offerPageMax o p
    let u := s.offerSeat sl o i
    (u.takePages sl p.geom (o.prot == 1) m (pagesFor (o.committedLen.toNat - o.stretchOffset.toNat) m) 0 {}).bind fun x =>
      let v := (x.1.setKv i { x.2 with pages := x.2.pages.map fun q => { q with np := true } }).takeWindow i
      (v.setD i { v.d i with pagesHeld := x.2.pages.length }).remap sl

/-- Checks 4 to 8 of R112 on an offer, an Empty descriptor, and the session's id (R121); without a current model program
E_JOB_PROGRAM (R133). -/
def State.offerChecks (s : State) (sl : Nat) (o : OfferOps) : List (Bool × Nat) :=
  let p := (s.curProg sl).getD (progOf [])
  let n := o.committedLen.toNat - o.stretchOffset.toNat
  [(!bitAt (s.sliceComp sl) 2, eNotMember),
   ((s.curProg sl).isNone, eJobProgram),
   (o.pageCount.toNat != o.layers.toNat * pagesFor n (offerPageMax o p), eCanvasFormat),
   (s.modelHash sl != some o.modelHash || (o.kvFormat != 2 && o.kvFormat.toNat != p.kvFormat), eCanvasModel),
   (match o.palette with
     | some x => (s.palFind sl x.1 x.2.toNat).isNone
     | none => false, eNoPalette),
   ((s.freeWindow sl).isNone, eNoWindow),
   ((s.offerRoom sl o (s.emptyIndex.getD 0)).isNone || (o.pageBudget != 0 && o.pageBudget.toNat < o.pageCount.toNat),
     eThawNoRoom),
   (s.emptyIndex.isNone, eTableFull),
   (s.sidUsed o.sid, eDupSessionId)]

/-- Where a Winter canvas goes at the receiver: tier, address, pool members; the code that refuses it. -/
def State.offerPlace (s : State) (sl : Nat) (o : OfferOps) : Except Nat (Nat × Nat × List Nat) :=
  let tr := if o.tier = 0 then s.winterTier sl else o.tier.toNat
  if o.winter = 0 ∨ o.descOnly = 1 then .ok (0, 0, [])
  else if tr = 1 then match s.winterFit sl o.len.toNat with
    | some a => .ok (1, a, [])
    | none => .error eNoWinterRoom
  else
    let ms := s.canvasMembers sl (o.prot == 1) (unitsPerMember o.dclass.toNat o.len.toNat)
    if ms.length < membersNeeded o.dclass.toNat then .error eCanvasTarget
    else .ok (2, 0, ms.take (membersNeeded o.dclass.toNat))

/-- Step 2 of *Ownership handoff*: a descriptor in Spring with OP MIGRATE_IN, its window and pages unless it stays Winter, the
canvas's place, and ACCEPT. -/
def State.acceptOffer (s : State) (t : TxHdr) (o : OfferOps) (i : Nat) (place : Nat × Nat × List Nat) : State :=
  let sl := t.slice.toNat
  let winter := o.winter == 1
  let s3 := if winter then s.offerSeat sl o i else (s.offerRoom sl o i).getD s
  let c : Canvas := { sessionId := o.sid, len := o.len.toNat }
  let op : CanvasOp := { index := i, kind := if winter then 5 else 4, lc := true, canvas := c, tier := place.1
                         addr := BitVec.ofNat 64 place.2.1, todo := [], small := true, waiting := true
                         members := place.2.2.map fun m => (m, none) }
  let s4 := if o.descOnly = 1 then s3 else s3.addOp op
  let h : Handoff := { index := i, giver := false, peer := t.src.toNat, peerSlice := 0xFF, epoch := o.epoch.toNat, step := 2
                       since := s.pkg.pkc, sid := o.sid, slice := sl, winter := winter, descOnly := o.descOnly == 1 }
  let s5 := { s4 with handoffs := s4.handoffs ++ [h] }
  let s6 := place.2.2.foldl (fun (u : State) m =>
    u.send m 7 0x20 0xFF [unitsPerMember o.dclass.toNat o.len.toNat] [] (.canvasAlloc i)) s5
  s6.hoSend h 2 [(handleOf i (s6.d i)).toNat]

/-- An OFFER served: ACCEPT or REFUSE with the code goes back as a message of its own. -/
def State.takeOffer (s : State) (t : TxHdr) (o : OfferOps) : State :=
  let refuse (c : Nat) : State := s.send t.src.toNat 7 3 0xFF [0, o.epoch.toNat, o.sid.toNat, c] [] .none
  match firstFail (s.offerChecks t.slice.toNat o), s.offerPlace t.slice.toNat o, s.emptyIndex with
  | some c, _, _ => refuse c
  | none, .error c, _ => refuse c
  | none, .ok _, none => refuse eTableFull
  | none, .ok place, some i => s.acceptOffer t o i place

/-- OFFER (R121). -/
def execOffer (t : TxHdr) (o : OfferOps) (s : State) : Host.Outcome State Fault Refusal :=
  .next (s.serve (s.sessRule t 7 1 [] (.offer t o) o.sid o.epoch.toNat true fun u => (u.takeOffer t o, {})))

/-! ## The giver: back to OWNED(n), or released (R121 steps 2, 8; R174 step 6) -/

/-- The giver keeps the session at its old epoch: OWNED(n), OP NONE; the MIGRATE ends with a code. After a tail handover the
requests end at their next commit point with E_RING_MEMBER (R174 step 3). -/
def State.giverBack (s : State) (h : Handoff) (code : Nat) : State :=
  let s1 := s.delHo h
  if h.lost then s1.migrateDone h eSessionReset 0
  else if h.tail then
    let s2 := s1.setD h.index { s1.d h.index with ownerState := .owned, heldReason := .none, heldSteps := 0 }
    { s2 with srv := { s2.srv with causes := tabPut s2.srv.causes h.index eRingMember } }
  else
    let s2 := s1.abandonPark h.index
    (s2.setD h.index { s2.d h.index with
      ownerState := .owned, op := .none, heldReason := .none, heldSteps := 0 }).migrateDone h code 0

/-- The neighbours of a stretch that has moved learn its new device (R121 step 8). -/
def State.tellNeighbours (s : State) (h : Handoff) : State :=
  let d := s.d h.index
  let own := s.devNo.getD 0xFFFF
  let o := { ringOps 5 h.sid.toNat d.ownerEpoch with pos := BitVec.ofNat 8 d.ringPos, targetDev := BitVec.ofNat 16 h.peer }
  let devs := [d.ringPrev, d.ringNext, d.mirrorDev].eraseDups.filter fun x => x != 0xFFFF && x != own
  (devs.foldl (fun (t : State) x => t.ringSend x o .none) s).setNeighbours h.sid d.ringPos h.peer own 0

/-- A forwarding record of a session that left (R377). -/
def State.leaveForward (s : State) (sid : U64) (dev : Nat) : State :=
  { s with comp := { s.comp with
    forward := (s.comp.forward.filter fun f => !(f.1 == 1 && f.2.1 == sid.toNat)) ++ [(1, sid.toNat, dev, s.comp.epoch)] } }

/-- The canvas of a Winter session that has moved: freed, unless only its descriptor moved or it lies in host memory
(R126). -/
def State.leaveCanvas (s : State) (h : Handoff) (d : Desc) : State :=
  if h.descOnly then match s.storedAt d with
    | some c => { s with cnv := { s.cnv with stored := s.cnv.stored.filter fun x => x != c } }
    | none => s
  else if d.canvasTier = 3 then s else s.freeCanvas d

/-- What a giver keeps of a session it has released: its id, slice and handle, for an OWNER_RESOLVED that a resolution after the
release still posts (R123). -/
def State.keepLeft (s : State) (h : Handoff) : State :=
  { s with comp := { s.comp with left := (s.comp.left.filter fun x => x.1 != h.sid) ++ [(h.sid, h.slice, h.own)] } }

/-- Step 8 of *Ownership handoff*: requests end with E_STALE_OWNER (R125), the stretch is released, the descriptor becomes
Empty, RELEASED goes out, MIGRATE completes with the receiver's handle. -/
def State.giverRelease (s : State) (h : Handoff) (handle : U64) : State :=
  let i := h.index
  let s0 := s.delHo h
  let s1 := if h.lost then s0.keepLeft h else
    let d := s0.d i
    let a := ((s0.dropRequests i eStaleOwner).tellNeighbours h).delOp i
    let b := (if h.winter then a.leaveCanvas h d else a.freeSession i)
    (((b.toEmpty i).unmapped d.slice).leaveForward h.sid h.peer).keepLeft h
  (s1.hoSend h 7 []).migrateDone h eOk handle

/-- The requests of a tail that has handed over its role: served from the new tail, their rings and completions stay here
(R175). -/
def State.handOver (s : State) (h : Handoff) (r : Request) : State :=
  if ¬ r.live then s
  else
    let x : Handed := { handle := r.handle, requestId := r.requestId, slice := h.slice, ring := r.tokenRing, tag := r.tag, sid := h.sid
                        dev := h.peer, devSlice := h.peerSlice, via := r.away }
    ({ s with srv := { s.srv with handed := s.srv.handed ++ [x] } }).passCredit h.slice r.tokenRing

/-- Step 6 of *Tail handover*: TAIL = 0, RING_NEXT and OWNER_EPOCH n + 1; scratch, cursors and reserved pages freed;
RELEASED. -/
def State.tailRelease (s : State) (h : Handoff) : State :=
  let i := h.index
  let s0 := s.delHo h
  let s1 := if h.lost then s0 else
    let d := s0.d i
    let g := (s0.geom d.slice).getD ⟨0, 0, 0, 0, 0⟩
    let a := s0.releaseReserve g i
    let k := a.kvOf i
    let b := if k.scratchPa = 0 then a else a.freeAt k.scratchPa
    let c := if k.cursorPa = 0 then b else b.freeAt k.cursorPa
    let e := c.setKv i { c.kvOf i with scratchPa := 0, cursorPa := 0, sampler := {} }
    let f := e.setD i { e.d i with
      tail := false, ringNext := h.peer, ownerEpoch := h.epoch, ownerState := .owned, season := .autumn
      heldReason := .none, heldSteps := 0, scratchLen := 0, cursors := 0, active := {}, pending := {}, reservePage := 0 }
    ((f.handOver h d.active).handOver h d.pending).bump .ringHandovers d.slice 1
  s1.hoSend h 7 []

/-- The giver's release, of either sequence. -/
def State.releaseSide (s : State) (h : Handoff) (handle : U64) : State :=
  if h.tail then s.tailRelease h else s.giverRelease h handle

/-! ## The receiver: refuse, prepare, own (R121 steps 4, 5, 7, 9; R174 steps 3, 5, 7) -/

/-- What the receiver holds is discarded, gesso-filled, and its descriptor becomes Empty (R122, R123). A standby stays as it
was. -/
def State.receiverDrop (s : State) (h : Handoff) : State :=
  let i := h.index
  let s1 := s.delHo h
  if h.tail then s1.setD i { s1.d i with ownerState := .owned, heldReason := .none }
  else
    let d := s1.d i
    let s2 := (s1.abandonPark i).freeSession i
    let s3 := if d.canvasTier = 1 ∨ (d.canvasTier = 2 ∧ ¬ h.descOnly) then s2.freeCanvas d else s2
    (s3.toEmpty i).unmapped h.slice

/-- REFUSE with a code (R121): the receiver discards its copy. -/
def State.refuse (s : State) (h : Handoff) (code : Nat) : State := (s.receiverDrop h).hoSend h 3 [code]

/-- Step 5: PREPARED(n + 1), then ACK. -/
def State.prepared (s : State) (h : Handoff) : State :=
  let s1 := s.setD h.index { s.d h.index with ownerState := .prepared, ownerEpoch := h.epoch }
  (s1.setHo { h with step := 5, since := s.pkg.pkc, stream := [] }).hoSend h 4 []

/-- The descriptor the receiver rebuilds from the canvas's DESCRIPTOR section (R113, R121 step 4). -/
def State.receivedDesc (s : State) (h : Handoff) (c : Canvas) : Desc :=
  let d := s.d h.index
  let x := c.desc
  { d with
    pinned := x.pinned, deepOk := x.deepOk, dclass := x.dclass, prot := x.prot, pageBudget := x.pageBudget
    ringNext := x.ringNext, ringPrev := x.ringPrev, mirrorDev := x.mirrorDev, ringPos := x.ringPos, ringSize := x.ringSize
    tail := x.tail, stretchOffset := c.stretchOffset, committedLen := c.committedLen, tentativeLen := c.committedLen
    lastSummerPkc := s.pkg.pkc, scratchLen := c.scratch.length, cursors := c.cursors.length, deep := c.deep && h.winter
    pageMaxLog2 := if c.pages.isEmpty then x.pageMaxLog2 else c.pageMax ((s.curProg d.slice).getD (progOf [])) }

/-- A migrated session rebuilt (R121 step 4): the descriptor, sampler, scratch objects and cursors. -/
def State.finishMigrateIn (s : State) (h : Handoff) (o : CanvasOp) : State :=
  let i := h.index
  let s1 := s.setD i (s.receivedDesc h o.canvas)
  let s2 := s1.setKv i { s1.kvOf i with sampler := s1.thawedSampler i o.canvas }
  let s3 := (s2.fillSide i o.canvas.scratch (o.canvas.cursors.flatMap Cursor.record)).delOp i
  s3.prepared h

/-- A migrated Winter canvas stored at its place (R126); in T1 it is not sealed, since it lies in a protected region (R106). -/
def State.finishWinterIn (s : State) (h : Handoff) (o : CanvasOp) : State :=
  let i := h.index
  let ms := o.members.map fun m => (m.1, m.2.getD 0)
  let addr : U64 := match o.tier, ms with
    | 2, m :: _ => BitVec.ofNat 64 (2 ^ 48 * m.1 + m.2)
    | _, _ => o.addr
  let c := if o.tier = 1 then { o.canvas with sealMode := 0, sealNonce := [] } else o.canvas
  let x : Stored := { tier := o.tier, slice := h.slice, addr := addr, canvas := c, members := ms, keygen := s.sec.current }
  let s0 := s.ceBytes h.slice (homeDie i) (4096 * c.len)
  let s1 := { s0 with cnv := { s0.cnv with stored := s0.cnv.stored ++ [x] } }
  let s2 := s1.setD i { s1.receivedDesc h o.canvas with
    canvasAddr := addr, canvasLen := o.canvas.len, canvasTier := o.tier }
  (s2.delOp i).prepared h

/-- Step 9: OWNED(n + 1) and MAP_EPOCH; Spring → Autumn, or Winter for a Winter session; held requests are released. -/
def State.receiverOwn (s : State) (h : Handoff) : State :=
  let i := h.index
  let s1 := (s.delHo h).setD i { s.d i with
    ownerState := .owned, ownerEpoch := h.epoch, mapEpoch := s.comp.epoch, op := .none
    season := if h.winter then .winter else .autumn, heldReason := .none, heldSteps := 0 }
  s1.promote i

/-- Step 7 of *Tail handover*: TAIL = 1, OWNED(n + 1), and the new ring size sent down the ring; a D1 session's mirror is
RING_PREV from here on (R176). -/
def State.tailOwn (s : State) (h : Handoff) : State :=
  let i := h.index
  let d := s.d i
  let s1 := (s.delHo h).setD i { d with
    tail := true, ownerState := .owned, ownerEpoch := h.epoch, mapEpoch := s.comp.epoch, ringSize := d.ringSize + 1
    heldReason := .none, heldSteps := 0, mirrorDev := if d.dclass = 1 then d.ringPrev else d.mirrorDev }
  let chain := s1.ringChain 64 i
  let s2 := chain.1.foldl (fun (t : State) k => t.setD k { t.d k with ringSize := d.ringSize + 1, ownerEpoch := h.epoch }) s1
  let s3 := match chain.2 with
    | none => s2
    | some dev => s2.ringSend dev { ringOps 6 d.sessionId.toNat h.epoch with size := BitVec.ofNat 8 (d.ringSize + 1) } .none
  s3.promote i

/-- The receiver owns, in either sequence. -/
def State.ownSide (s : State) (h : Handoff) : State := if h.tail then s.tailOwn h else s.receiverOwn h

/-! ## Ends of canvas work (R107, R113, R121) -/

/-- The canvas of a migration streamed to the receiver (R121 step 3). -/
def State.sendMigration (s : State) (o : CanvasOp) : State :=
  match s.hoOf o.canvas.sessionId true with
  | none => s.delOp o.index
  | some h =>
    let c := { o.canvas with len := o.canvas.units, complete := true, ownerEpoch := h.epoch }
    let key := s.canvasKey c.sealMode c.sealNonce c.sessionId c.compositionId
    ((s.delOp o.index).setHo { h with step := 4, since := s.pkg.pkc }).sendCanvas h.peer h.peerSlice
      (c.bytes (if c.sealMode = 0 then none else key)) [h.epoch, h.sid.toNat] (.handoff o.index)

/-- A park whose pool members have refused it with no replacement left (R111): an own park has failed for want of room (R83). -/
def State.parkRefused (s : State) (i status : Nat) : State :=
  (if (s.ax i).parkCause = 0 then s else s.bump .ownParkFail (s.d i).slice 1).stopPark i status

/-- PARK_END (R107): once every item of a park is done and the home die, whose engines write header and trailer, is released
(R97); a T2 canvas must have been acknowledged by its members. The same row ends the cut of a migration, and the storing of
a Winter canvas that has arrived (R121, R126). -/
def execParkEnd (index : BitVec 24) (s : State) : Host.Outcome State Fault Refusal :=
  match s.opOf index.toNat with
  | none => .next s
  | some o =>
    if o.waiting ∨ ¬ o.placed ∨ ¬ s.dieUp (homeDie o.index) then .next s
    else if o.kind = 3 then .next (if o.items.isEmpty then s.sendMigration o else s)
    else if o.kind = 1 then
      if ¬ o.items.isEmpty then .next s
      else if o.tier = 2 ∧ ¬ o.sent then .next (s.sendPark o)
      else if o.tier = 2 ∧ s.canvasOut o.index then .next s
      else if o.tier = 2 ∧ o.status ≠ 0 then .next (s.parkRefused o.index o.status)
      else .next (s.finishPark o)
    else if o.kind = 5 then
      match s.hoOf o.canvas.sessionId false with
      | none => .next s
      | some h =>
        if o.tier = 2 ∧ ¬ o.sent then .next (s.sendPark o)
        else if o.tier = 2 ∧ s.canvasOut o.index then .next s
        else if o.tier = 2 ∧ o.status ≠ 0 then .next (s.refuse h o.status)
        else .next (s.finishWinterIn h o)
    else .next s

/-- THAW_END (R113, R114): once everything is rebuilt; with STREAM = 1 once the small sections and each layer's last
page are. The same row ends the rebuilding of a migrated session: PREPARED, or REFUSE where a page failed its hash
(R121). -/
def execThawEnd (index : BitVec 24) (s : State) : Host.Outcome State Fault Refusal :=
  let i := index.toNat
  match s.opOf i with
  | none => .next s
  | some o =>
    if o.kind = 2 ∧ (s.d i).season = .spring ∧ ¬ o.small ∧ (o.todo.isEmpty ∨ ((s.d i).stream ∧ o.lastsDone)) then
      .next (s.finishThaw o)
    else if o.kind = 4 ∧ ¬ o.waiting ∧ ¬ o.small ∧ o.todo.isEmpty then
      match s.hoOf o.canvas.sessionId false with
      | none => .next s
      | some h => .next (if o.status = 0 then s.finishMigrateIn h o else s.refuse h o.status)
    else .next s

/-! ## Messages to the giver -/

/-- The rule of a handoff message: answered with RESP. -/
def State.hoRule (s : State) (t : TxHdr) (op : Nat) (cmd : Instr) (sid : U64) (epoch : Nat) (giver : Bool)
    (eff : State → Handoff → State) : Rule :=
  s.sessRule t 7 op [] cmd sid epoch false fun u => match u.hoOf sid giver with
    | some h => if h.peer = t.src.toNat ∧ h.epoch = epoch then (eff u h, {}) else (u, {})
    | none => (u, {})

/-- Step 3 at the giver: the cut begins, or a Winter session's canvas or descriptor goes out. -/
def State.accepted (s : State) (h : Handoff) (handle : U64) : State :=
  let i := h.index
  let d := s.d i
  let h' := { h with step := 3, since := s.pkg.pkc, peerHandle := handle }
  let s1 := s.setHo h'
  if h.lost ∨ h.step ≠ 1 then s1
  else if h.descOnly then
    s1.send h.peer 5 2 h.peerSlice [0, h.epoch, h.sid.toNat, d.canvasAddr.toNat, d.canvasLen] d.bytes (.handoff i)
  else match s.givenCanvas i with
    | none => s1
    | some c =>
      if h.winter then
        let x := { c with ownerEpoch := h.epoch }
        let key := s.canvasKey x.sealMode x.sealNonce x.sessionId x.compositionId
        (s1.ceBytes d.slice (homeDie i) (4096 * x.len)).sendCanvas h.peer h.peerSlice (x.bytes (if x.sealMode = 0 then none else key)) [h.epoch, h.sid.toNat] (.handoff i)
      else
        let o : CanvasOp := { index := i, kind := 3, lc := true, canvas := c, tier := 0, addr := 0
                              todo := List.range c.pages.length, small := true, waiting := d.stream }
        let s2 := if c.sealMode = 0 then s1 else s1.drew
        (if d.stream then s2 else s2.guardAll i true).addOp o

/-- ACCEPT (R121 step 2). -/
def execAccept (t : TxHdr) (sid : U64) (epoch : U32) (handle : U64) (s : State) : Host.Outcome State Fault Refusal :=
  .next (s.serve (s.hoRule t 2 (.accept t sid epoch handle) sid epoch.toNat true fun u h => u.accepted h handle))

/-- REFUSE (R121, R174): the giver is OWNED(n) again, and MIGRATE ends with the code; for a session of a ring, an id already
on the target means a device that is in the ring (R120 check 2). -/
def execRefuse (t : TxHdr) (sid : U64) (epoch : U32) (code : U16) (s : State) : Host.Outcome State Fault Refusal :=
  .next (s.serve (s.hoRule t 3 (.refuse t sid epoch code) sid epoch.toNat true fun u h =>
    let c := if code.toNat = eDupSessionId ∧ 1 < (u.d h.index).ringSize then eSessionParam else code.toNat
    u.giverBack h c))

/-- ACK (R121 step 6): COMMIT goes out. -/
def execAck (t : TxHdr) (sid : U64) (epoch : U32) (s : State) : Host.Outcome State Fault Refusal :=
  .next (s.serve (s.hoRule t 4 (.ack t sid epoch) sid epoch.toNat true fun u h =>
    (u.setHo { h with step := 6, since := u.pkg.pkc }).hoSend h 5 []))

/-- COMMITTED (R121 step 8, R174 step 6): the giver releases. -/
def execCommitted (t : TxHdr) (sid : U64) (epoch : U32) (handle : U64) (s : State) : Host.Outcome State Fault Refusal :=
  .next (s.serve (s.hoRule t 6 (.committed t sid epoch handle) sid epoch.toNat true fun u h => u.releaseSide h handle))

/-! ## Messages to the receiver -/

/-- COMMIT (R121 step 7): COMMITTED(n + 1) is written, then COMMITTED goes out with the receiver's handle. -/
def execCommitHandoff (t : TxHdr) (sid : U64) (epoch : U32) (s : State) : Host.Outcome State Fault Refusal :=
  .next (s.serve (s.hoRule t 5 (.commitHandoff t sid epoch) sid epoch.toNat false fun u h =>
    let d := u.d h.index
    if d.ownerState = .prepared ∨ d.ownerState = .committed then
      ((u.setD h.index { d with ownerState := .committed }).setHo { h with step := 7, since := u.pkg.pkc }).hoSend h 6
        [(handleOf h.index d).toNat]
    else u))

/-- RELEASED (R121 step 9, R174 step 7): the receiver owns. -/
def execReleased (t : TxHdr) (sid : U64) (epoch : U32) (s : State) : Host.Outcome State Fault Refusal :=
  .next (s.serve (s.hoRule t 7 (.released t sid epoch) sid epoch.toNat false fun u h =>
    if (u.d h.index).ownerState = .committed then u.ownSide h else u))

/-! ## Canvas streams (R121 step 4, R174 step 3) -/

/-- The bytes of a stream in order. -/
def streamBytes (t : Tab Bytes) : Bytes := t.flatMap (·.2)

/-- The length in 4 KiB units that a stream's header gives, once its first piece is here. -/
def streamLen (t : Tab Bytes) : Nat := le ((tabGet t 0).getD []) 0x18 4

/-- Every byte of the stream has arrived. -/
def streamFull (t : Tab Bytes) : Bool :=
  streamLen t != 0 && (t.foldl (fun n x => n + x.2.length) 0) == streamLen t * 4096

/-- A request entry that keeps its token ring and completion queue at the device and slice it comes from (R175). -/
def Request.from_ (r : Request) (dev sl : Nat) : Request := if r.opcode = 0 then {} else { r with away := some (dev, sl) }

/-- A tail canvas arrived whole (R174 step 3): steps 1 to 4 of R112, then lengths, sampler state, request slots, scratch and
cursors; PREPARED and ACK. -/
def State.tailArrived (s : State) (h : Handoff) (b : Bytes) : State :=
  let i := h.index
  match s.canvasOf (b.length / 4096) b with
  | none => s.refuse h eCanvasFormat
  | some c =>
    match firstFail [(!s.sealOk c, eCanvasSeal), (!c.hashOk, eCanvasHash),
        (c.sessionId != h.sid || !c.reservedOk || !c.pages.isEmpty, eCanvasFormat)] with
    | some e => s.refuse h e
    | none =>
      let d := s.d i
      let dev := h.peer
      let sl := c.desc.slice
      let s1 := s.setD i { d with
        stretchOffset := c.committedLen, committedLen := c.committedLen, tentativeLen := c.committedLen
        scratchLen := c.scratch.length, cursors := c.cursors.length, heldReason := .owner
        active := c.desc.active.from_ dev sl, pending := c.desc.pending.from_ dev sl }
      let s2 := s1.setKv i { s1.kvOf i with sampler := c.sampler }
      (s2.fillSide i c.scratch (c.cursors.flatMap Cursor.record)).prepared h

/-- A migrated canvas arrived whole: checked as R112 checks 1 to 6 do, then rebuilt by the canvas engines, or stored where
the session is Winter, every hash verified (R121 step 4, R126). -/
def State.canvasArrived (s : State) (h : Handoff) (b : Bytes) : State :=
  let i := h.index
  match s.canvasOf (b.length / 4096) b, s.opOf i with
  | some c, some o =>
    match firstFail ([(!s.sealOk c, eCanvasSeal), (!c.hashOk, eCanvasHash)] ++
        (if h.winter then
          [(c.sessionId != h.sid || !c.reservedOk, eCanvasFormat),
           (!c.mapOk || !c.smallOk || !c.kvOk || c.pages.any (·.bad), eCanvasHash)]
        else s.canvasCheck h.slice h.sid c ++
          [(c.pages.length != (s.kvOf i).pages.length, eCanvasFormat),
           (c.desc.pageBudget != 0 && decide (c.desc.pageBudget < c.pages.length), eThawNoRoom)])) with
    | some e => s.refuse h e
    | none => (s.setHo { h with step := 4, since := s.pkg.pkc, stream := [] }).setOp
        { o with canvas := c, waiting := false, todo := if h.winter then [] else List.range c.pages.length
                 small := !h.winter }
  | _, _ => s.refuse h eCanvasFormat

/-- A piece of a stream put at its offset. -/
def State.streamIn (s : State) (h : Handoff) (off : Nat) (b : Bytes) : State :=
  let st := tabPut h.stream off b
  let h' := { h with stream := st, since := s.pkg.pkc }
  let s1 := s.setHo h'
  if ¬ streamFull st then s1
  else if h.tail then s1.tailArrived h' (streamBytes st) else s1.canvasArrived h' (streamBytes st)

/-- The record of a tail handover that a standby keeps from the first piece of the tail canvas on. -/
def State.standbyRecord (s : State) (t : TxHdr) (sid : U64) : Option (State × Handoff) :=
  match s.desc.find? fun x => x.2.used && x.2.sessionId == sid && !x.2.tail && x.2.ringPos == x.2.ringSize with
  | none => none
  | some (i, d) =>
    let h : Handoff := { index := i, giver := false, peer := t.src.toNat, peerSlice := 0xFF, epoch := t.aux.toNat, step := 2
                         tail := true, since := s.pkg.pkc, sid := sid, slice := d.slice }
    some ({ s with handoffs := s.handoffs ++ [h] }, h)

/-- CANVAS DATA served: a fragment written to the pool, or a piece of a stream to a session that is being received. -/
def State.takeCanvas (s : State) (t : TxHdr) (sid : U64) (data : Bytes) : State × Ans :=
  if 64 ≤ t.slice.toNat then (s.poolWrite t.addr.toNat data (t.poison == 1), {})
  else match s.hoOf sid false with
    | some h => if h.peer = t.src.toNat ∧ h.epoch = t.aux.toNat ∧ h.step ≤ 4 then (s.streamIn h t.addr.toNat data, {})
      else (s, {})
    | none => match s.standbyRecord t sid with
      | some x => (x.1.streamIn x.2 t.addr.toNat data, {})
      | none => (s, {})

/-- The rule of CANVAS DATA: a pool range for device-level targets, else a session (R359). -/
def State.canvasRule (s : State) (t : TxHdr) (sid : U64) (data : Bytes) : Rule :=
  let r := s.sessRule t 5 1 data (.canvasData t sid data) sid t.aux.toNat false fun u => u.takeCanvas t sid data
  if 64 ≤ t.slice.toNat then
    { r with target := none, holds := match s.poolAt t.addr.toNat with
        | some p => t.addr.toNat + data.length ≤ 65536 * (p.base + p.units)
        | none => false }
  else r

/-- CANVAS_DATA (R359, R360). -/
def execCanvasData (t : TxHdr) (sid : U64) (data : Bytes) (s : State) : Host.Outcome State Fault Refusal :=
  .next (s.serve (s.canvasRule t sid data))

/-- DESC served (R126): the descriptor and the place of its canvas; the receiver reads the canvas's header and verifies it
holds the session. -/
def State.takeDesc (s : State) (h : Handoff) (x : Desc) (locator : U64) (len : Nat) : State :=
  let d := s.d h.index
  let s1 := s.setD h.index { x with
    season := d.season, ownerState := d.ownerState, gen := d.gen, slice := d.slice, op := d.op, runahead := false
    stream := false, ownerEpoch := d.ownerEpoch, mapEpoch := d.mapEpoch, palette := d.palette, windowBase := 0, ptRoot := 0
    tentativeLen := x.committedLen, pagesHeld := 0, canvasAddr := locator, canvasLen := len, canvasTier := 2
    heldReason := d.heldReason, heldSteps := d.heldSteps, parent := 0, children := 0, scratchAddr := 0, reservePage := 0
    active := d.active, pending := d.pending }
  s1.prepared h

/-- DESC (R126, R360). -/
def execDesc (t : TxHdr) (data : Bytes) (locator : U64) (len : U32) (s : State) : Host.Outcome State Fault Refusal :=
  let x := descOfBytes data
  .next (s.serve (s.sessRule t 5 2 data (.desc t data locator len) x.sessionId t.aux.toNat false fun u =>
    match u.hoOf x.sessionId false with
    | some h => if h.descOnly ∧ h.peer = t.src.toNat then (u.takeDesc h x locator len.toNat, {}) else (u, {})
    | none => (u, {})))

/-! ## The arbiter (R123, R124) -/

/-- HANDOFF_LIMIT (R123, R128). -/
def State.handoffLimit (s : State) : Nat := s.reg64 .handoffLimitLo .handoffLimitHi 0

/-- The arbiter, as this device sees it: the lowest-numbered quorum member whose link-state record is live, this device
among them (R123, R373). -/
def State.arbiter (s : State) : Option Nat :=
  (s.comp.quorum.filter fun q => s.ownNo == some q || (tabGet s.comp.links q).isSome).foldl (fun m q => match m with
    | none => some q
    | some x => some (min x q)) none

/-- This device's owner record of a session: OWNER_STATE, and OWNER_EPOCH × 2^8; 0 for none. -/
def State.ownerRecord (s : State) (sid : U64) : Nat :=
  match s.sessOf sid with
  | none => 0
  | some i => (s.d i).ownerState.code + 256 * (s.d i).ownerEpoch

/-- A case written back. -/
def State.setCase (s : State) (c : ArbCase) : State :=
  { s with comp := { s.comp with arbCases := s.comp.arbCases.map fun (x : ArbCase) => (if x.sid = c.sid then c else x) } }

/-- OWNER_RESOLVED for a handle of a slice (R75). -/
def State.resolvedEvent (s : State) (sl : Nat) (handle : U64) (old new : Season) : State :=
  s.post sl 0x01 sl 0 (packBytes [(64, handle.toNat), (8, old.code), (8, new.code), (8, 7)])

/-- A resolution applied by the giver (table *Handoff resolution*). -/
def State.resolveGiver (s : State) (h : Handoff) (toReceiver : Bool) (handle : U64) : State :=
  let old := if h.lost then Season.empty else (s.d h.index).season
  if toReceiver then
    let s1 := s.resolvedEvent h.slice h.own old (if h.tail && !h.lost then .autumn else .empty)
    let s2 := s1.releaseSide h (if h.peerHandle ≠ 0 then h.peerHandle else handle)
    { s2 with comp := { s2.comp with left := s2.comp.left.filter fun x => x.1 != h.sid } }
  else (s.resolvedEvent h.slice h.own old old).giverBack h eHandoffAborted

/-- A resolution applied by a receiver: none that would discard what it has prepared, since from PREPARED on it owns under any
resolution (R121 step 5, R124). -/
def State.resolveReceiver (s : State) (h : Handoff) (toReceiver : Bool) : Bool × State :=
  let d := s.d h.index
  let ready := d.ownerState == .prepared || d.ownerState == .committed
  if toReceiver != ready then (false, s)
  else if toReceiver then
    let t := s.ownSide h
    (true, t.sessEvent h.index d.season (t.d h.index).season 7)
  else (true, (s.sessEvent h.index d.season (if h.tail then .autumn else .empty) 7).receiverDrop h)

/-- A resolution applied on this device: each side posts OWNER_RESOLVED, a giver that has released and a receiver that owns
already too (R123). -/
def State.resolveHere (s : State) (sid : U64) (toReceiver : Bool) (handle : U64) : Bool × State :=
  let s1 := s.bump .handoffResolved 0 1
  match s.hoOf sid true, s.hoOf sid false, s.comp.left.find? (·.1 == sid) with
  | some h, _, _ => (true, s1.resolveGiver h toReceiver handle)
  | none, some h, _ => s1.resolveReceiver h toReceiver
  | none, none, some x =>
    let s2 := { s1 with comp := { s1.comp with left := s1.comp.left.filter fun y => y.1 != sid } }
    (true, s2.resolvedEvent x.2.1 x.2.2 .empty .empty)
  | none, none, none => match s.sessOf sid with
    | some i => (true, s1.sessEvent i (s.d i).season (s.d i).season 7)
    | none => (true, s)

/-- A case removed. -/
def State.delCase (s : State) (sid : U64) : State :=
  { s with comp := { s.comp with arbCases := s.comp.arbCases.filter fun x => x.sid != sid } }

/-- The arbiter tells the sides that have not applied a decision yet, one after the other: the side that gives up first, so that
the owner stays held until both have applied it (R123). A side that the map has removed is passed over (R124). -/
def State.tellFrom (s : State) (sid : U64) : Nat → State
  | 0 => s.delCase sid
  | k + 1 => match (s.comp.arbCases.find? (·.sid == sid)).bind fun c => c.decided.map fun x => (c, x) with
    | none => s
    | some (c, toReceiver, epoch) =>
      let dev := if (k == 1) == toReceiver then c.giver else c.receiver
      let s1 := s.setCase { c with remaining := k + 1, asked := s.pkg.pkc }
      if s.devNo = some dev then
        let a := s1.resolveHere sid toReceiver 0
        if a.1 then a.2.tellFrom sid k else a.2
      else if (s.member dev).isNone then s1.tellFrom sid k
      else s1.send dev 7 8 0xFF [0, epoch, sid.toNat, boolBit toReceiver, 0] [] (.resolve sid.toNat k)

/-- The decision of a case told to both sides. -/
def State.sendResolve (s : State) (c : ArbCase) (toReceiver : Bool) (epoch : Nat) : State :=
  (s.setCase { c with decided := some (toReceiver, epoch) }).tellFrom c.sid 2

/-- A case whose two records are known decided by the table; one that would discard the only copy stays (R124). A receiver that
is OWNED at a later epoch than the giver's has completed the handoff. -/
def State.decideCase (s : State) (c : ArbCase) : State :=
  match c.given, c.received with
  | some g, some r =>
    let gs := g % 256
    let rs := r % 256
    let epoch := max (r / 256) (g / 256 + boolBit (gs == 2))
    if rs = 3 ∨ rs = 4 ∨ (rs = 1 ∧ g / 256 < r / 256) then s.sendResolve c true epoch
    else if (s.member c.giver).isNone then s
    else s.sendResolve c false epoch
  | _, _ => s

/-- One side's record read: its own at once, none for a device that the map has removed, else by RECORD_QUERY. -/
def State.askSide (s : State) (sid : U64) (dev : Nat) : State × Option Nat :=
  if s.devNo = some dev then (s, some (s.ownerRecord sid))
  else if (s.member dev).isNone then (s, some 0)
  else (s.send dev 7 9 0xFF [0, 0, sid.toNat] [] (.arb sid.toNat dev), none)

/-- Answers to the arbiter's earlier messages about a session no longer count. -/
def State.dropAsked (s : State) (sid : U64) : State :=
  let mine (p : Purpose) : Bool := match p with
    | .arb n _ | .resolve n _ => n == sid.toNat
    | _ => false
  let quiet (t : Txn) : Txn := if mine t.purpose then { t with purpose := .none } else t
  { s with comp := { s.comp with outst := s.comp.outst.map quiet } }

/-- Both sides of a case asked afresh, since a record may have changed since it was read; or, of a case that is decided, the
sides told that have not applied it (R124). -/
def State.askCase (s : State) (c : ArbCase) : State :=
  let s1 := s.dropAsked c.sid
  if c.decided.isSome then s1.tellFrom c.sid c.remaining
  else
    let a := s1.askSide c.sid c.giver
    let b := a.1.askSide c.sid c.receiver
    let c' := { c with given := a.2, received := b.2, asked := s.pkg.pkc }
    (b.1.setCase c').decideCase c'

/-- A case opened, once per session. -/
def State.openCase (s : State) (sid : U64) (giver receiver : Nat) : State :=
  if s.comp.arbCases.any (·.sid == sid) then s
  else
    let c : ArbCase := { sid := sid, giver := giver, receiver := receiver }
    ({ s with comp := { s.comp with arbCases := s.comp.arbCases ++ [c] } }).askCase c

/-- A side that has waited too long asks the arbiter (R123): the spec names no message for it; RECORD_QUERY with the other
side in ADDR is (log entry 29). -/
def State.appeal (s : State) (h : Handoff) : State :=
  let own := s.devNo.getD 0xFFFF
  match s.arbiter with
  | none => s
  | some a =>
    if a = own then s.openCase h.sid (if h.giver then own else h.peer) (if h.giver then h.peer else own)
    else s.send a 7 9 0xFF [2 ^ 16 + h.peer + 2 ^ 17 * boolBit h.giver, h.epoch, h.sid.toNat] [] .none

/-- HANDOFF_LIMIT_EXPIRY (R123). -/
def execHandoffLimitExpiry (index : BitVec 24) (s : State) : Host.Outcome State Fault Refusal :=
  match s.handoffs.find? (·.index == index.toNat) with
  | none => .next s
  | some h =>
    if s.pkc - h.since.toNat ≤ s.handoffLimit then .next s
    else .next ((s.setHo { h with since := s.pkg.pkc }).appeal h)

/-- ARBITER_RETRY (R124): the arbiter asks again every HANDOFF_LIMIT counts. -/
def execArbiterRetry (sid : U64) (s : State) : Host.Outcome State Fault Refusal :=
  match s.comp.arbCases.find? (·.sid == sid) with
  | none => .next s
  | some c => if s.pkc - c.asked.toNat < s.handoffLimit then .next s else .next (s.askCase c)

/-- The answer of one side to the arbiter's RECORD_QUERY; a side that could not be read is asked again. -/
def State.arbAnswer (s : State) (sid : U64) (dev status record : Nat) : State :=
  match s.comp.arbCases.find? (·.sid == sid) with
  | none => s
  | some c =>
    if status ≠ 0 ∨ c.decided.isSome then s
    else
      let c' := { c with given := if c.giver = dev then some record else c.given
                         received := if c.receiver = dev then some record else c.received }
      (s.setCase c').decideCase c'

/-- The answer of one side to RESOLVE: the other side is told next. A receiver that has prepared meanwhile answers
E_STALE_OWNER, and both records are read again (log entry 90). -/
def State.resolveAnswer (s : State) (sid : U64) (left status : Nat) : State :=
  if status = 0 then s.tellFrom sid left
  else if status ≠ eStaleOwner then s
  else match s.comp.arbCases.find? (·.sid == sid) with
    | none => s
    | some c =>
      let c' := { c with decided := none, remaining := 2 }
      (s.setCase c').askCase c'

/-- RECORD_QUERY (R123, R360): this device's owner record, or an appeal to this device as arbiter. -/
def execRecordQuery (t : TxHdr) (sid : U64) (s : State) : Host.Outcome State Fault Refusal :=
  let a := t.addr.toNat
  let peer := a % 2 ^ 16
  let src := t.src.toNat
  .next (s.serve
    { t := t, type := 7, op := 9, len := 8, cmd := .recordQuery t sid, target := some (1, sid.toNat)
      eff := fun u =>
        if a = 0 then (u, { result := u.ownerRecord sid })
        else (if bitAt a 17 then u.openCase sid src peer else u.openCase sid peer src, {}) })

/-- RESOLVE (R123). -/
def execResolve (t : TxHdr) (sid : U64) (epoch : U32) (receiver : U1) (handle : U64) (s : State) :
    Host.Outcome State Fault Refusal :=
  .next (s.serve
    { t := t, type := 7, op := 8, len := 24, cmd := .resolve t sid epoch receiver handle, target := some (1, sid.toNat)
      eff := fun u =>
        let a := u.resolveHere sid (receiver == 1) handle
        (a.2, { status := if a.1 then 0 else eStaleOwner }) })

/-! ## Streams after Thaw end (R114, R115) -/

/-- The second failure of a streamed page (R115): the session is Winter again on its unchanged canvas; a PARK or MIGRATE
that waited ends with E_CANVAS_HASH, a receiver learns it by its own appeal (R114). -/
def State.streamLost (s : State) (i : Nat) : State :=
  let s1 := match s.opOf i, s.hoOf (s.d i).sessionId true with
    | some o, some h => if o.kind = 3 then s.giverBack h eCanvasHash else s.stopPark i eCanvasHash
    | some _, none => s.stopPark i eCanvasHash
    | none, _ => s
  let d := s1.d i
  let c := ((s1.canvasFor d).map (·.committedLen)).getD 0
  let s2 := (s1.delStream i).ceFill.toWinter i d.deep d.canvasAddr d.canvasLen d.canvasTier
  (s2.setD i { s2.d i with committedLen := c, tentativeLen := c }).setAx i { s2.ax i with streamFailed := false }

/-- A streamed page fails its hash for the second time: in Summer at the next commit point and step end, else at
once. -/
def State.streamFail (s : State) (i : Nat) : State :=
  if (s.d i).season == .summer then
    let s1 := s.setAx i { s.ax i with streamFailed := true }
    { s1 with srv := { s1.srv with causes := tabPut s1.srv.causes i eCanvasHash } }
  else (s.endActive i eCanvasHash fLast true).streamLost i

/-- Stream end, once every page is mapped (R114). -/
def State.streamDone (s : State) (i : Nat) : State :=
  if (s.streamOf i).any (·.todo.isEmpty) then s.streamEnd i else s

/-- No path leads from the die of an item to where the canvas lies or goes (R17): the state dies of a T1 canvas, RT for host
memory, the slice's ports for T2 and for another device. -/
def State.itemCut (s : State) (o : CanvasOp) (n : Nat) : Bool :=
  let e := 8 + s.itemDie o n
  let sl := (s.d o.index).slice
  if o.kind = 3 ∨ o.kind = 4 ∨ o.tier = 2 then s.netCut e sl
  else if o.tier = 3 then !s.pathOk e 19
  else (s.dieList sl).any fun d => !s.pathOk e (8 + d)

/-- STREAM_PAGE_ARRIVAL (R114, R115): the page at the head of the stream is verified and mapped; at its first failure it
is fetched once more. -/
def execStreamPageArrival (index : BitVec 24) (page : BitVec 20) (s : State) : Host.Outcome State Fault Refusal :=
  let i := index.toNat
  let n := page.toNat
  match s.streamOf i with
  | none => .next s
  | some o => match o.todo.head?, o.canvas.pages[n]? with
    | some hd, some q =>
      let die := s.itemDie o (n + 1)
      if hd ≠ n ∨ (s.ax i).streamFailed ∨ ¬ s.dieUp die then .next s
      else
        let s1 := s.ceBytes (s.d i).slice die q.data.length
        .next ((if s.itemCut o (n + 1) then s1.streamFail i
          else if q.bad then s1.retryPage o n q fun t => t.streamFail i else s1.rebuildPage o n).streamDone i)
    | _, _ => .next s

/-! ## Work items (R97, R98) -/

/-- An operation one of whose items cannot be done ends with a code: E_PATH_DOWN without a path (R17), E_MEM_POISON where a park or
a migration reads poisoned data (R313). -/
def State.itemEnds (s : State) (o : CanvasOp) (code : Nat) : State :=
  if o.kind = 1 then s.stopPark o.index code
  else if o.kind = 3 then
    match s.handoffs.find? fun h => h.index == o.index && h.giver with
    | some h => s.giverBack h code
    | none => s
  else s.readStops o code

/-- A priority copy made by an engine of the page's die, and counted; without a path, or of poisoned data, the operation ends (R17,
R313). -/
def State.prioCopied (s : State) (pa : Nat) (x : CanvasOp × Nat) : State :=
  match s.opOf x.1.index with
  | none => s
  | some o =>
    let sl := (s.d o.index).slice
    let s1 := s.pageCopied o x.2
    if s.itemCut o (x.2 + 1) then s.itemEnds o ePathDown
    else if s.itemBad o (x.2 + 1) then s.itemEnds o eMemPoison
    else ((s1.ceBytes sl (s.itemDie o (x.2 + 1)) (s1.storedLen o x.2)).evc sl 0x31 0xFF 1).bump .cePrioCopies (pa / 2 ^ 37) 1

/-- PRIORITY_COPY_DONE (R98, R118): the engines that hold a priority copy of a page have made it; once every copy set has the page
as it stood, the writer goes on. -/
def execPriorityCopyDone (pa : U64) (s : State) : Host.Outcome State Fault Refusal :=
  let a := pa.toNat
  if ¬ s.cnv.prio.contains a then .next s
  else
    let t := s.ceFill
    let u := ((t.copySets a).filter fun x => t.ceHolds x.1 (x.2 + 1)).foldl (fun v x => v.prioCopied a x) t
    .next (if (u.copySets a).isEmpty then u.clearGuard a else u).ceFill

/-- CANVAS_WORK_ITEM (R97, R98): an engine that holds an item of an operation does it, and free engines take their next; an item
whose data have no path, or are poisoned, ends its operation (R17, R313). -/
def execCanvasWorkItem (index : BitVec 24) (item : BitVec 20) (s : State) : Host.Outcome State Fault Refusal :=
  match s.opOf index.toNat with
  | none => .next s
  | some o =>
    let t := s.ceFill
    if ¬ t.ceHolds o item.toNat then .next t
    else if t.itemCut o item.toNat then .next (t.itemEnds o ePathDown).ceFill
    else if t.itemBad o item.toNat then .next (t.itemEnds o eMemPoison).ceFill
    else .next (t.doItem o item.toNat).ceFill

end Sys2Proof.Machine
end

