-- ==== Sys2Proof/Machine/Checkpoint.lean ====
section
/-! DEFINITION. Checkpoints (R390..R406, R425): what is cut, the target, staging, drain, commit, abandonment, CKPT_NOW,
CKPT_RELEASE and CKPT_RESTORE. -/

namespace Sys2Proof.Machine

/-! ## Frames (R390, R294) -/

/-- The checkpoint policy of a slice (R396). -/
def State.ckPolicy (s : State) (sl : Nat) : Bytes := (s.sect 0x000A sl 0).getD []

/-- On a state die, the general capacity that a checkpoint holds: without the fetch area and the pool contribution. -/
def State.ckRange (s : State) (sl n : Nat) : Nat × Nat :=
  let r := s.general sl n
  (r.1, r.2 + (s.topShare sl n 0).2)

/-- A frame is one of a slice's checkpoint frames. -/
def State.ckFrame (s : State) (sl f : Nat) : Bool :=
  (s.dieList sl).any fun n =>
    let r := s.ckRange sl n
    r.1 ≤ f * 4096 && f * 4096 < r.1 + r.2

/-- PCGs of the interleave set of a slice on a die, the first one, and the frame's place in the set (R294). -/
def State.ckPlace (s : State) (sl f : Nat) : Nat × Nat × Nat :=
  let n := f * 4096 / 2 ^ 37
  let e := (s.sliceEnt sl).getD {}
  let k := max 1 (e.pcgsOn n).1
  (k, (e.pcgsOn n).2, f - (s.ckRange sl n).1 / 4096)

/-- The PCG that holds a frame. -/
def State.ckPcg (s : State) (sl f : Nat) : Nat :=
  let p := s.ckPlace sl f
  8 * (f * 4096 / 2 ^ 37) + p.2.1 + p.2.2 % p.1

/-- Frames that PCG number `i` of the `k` of a set holds, of `m` frames. -/
def pcgFrames (m k i : Nat) : Nat := (m + k - 1 - i) / k

/-- F: frames of a slice. -/
def State.ckFrames (s : State) (sl : Nat) : Nat :=
  (s.dieList sl).foldl (fun n d => n + (s.ckRange sl d).2 / 4096) 0

/-- The package-wide number of a frame within its slice: PCGs in ascending order, frames of each in die-offset order. -/
def State.ckNumber (s : State) (sl f : Nat) : Nat :=
  let n := f * 4096 / 2 ^ 37
  let p := s.ckPlace sl f
  let before := ((s.dieList sl).filter (· < n)).foldl (fun t d => t + (s.ckRange sl d).2 / 4096) 0
  let m := (s.ckRange sl n).2 / 4096
  before + (List.range (p.2.2 % p.1)).foldl (fun t i => t + pcgFrames m p.1 i) 0 + p.2.2 / p.1

/-! ## Dirty maps (R391) -/

/-- Frames of a slice's protected regions that something has written since their gesso (R309). -/
def State.ckSealed (s : State) (sl : Nat) : List Nat :=
  (s.mem.regions.filter fun r => r.slice == sl && r.prot).flatMap fun r => (framesOf r.pa r.size).filter fun f =>
    !s.mem.gessoed.any fun g => g.1 ≤ f * 4096 && f * 4096 + 4096 ≤ g.1 + g.2.1

/-- Frames that hold data, of a slice. -/
def State.ckData (s : State) (sl : Nat) : List Nat :=
  ((s.mem.data.map fun (c : Host.Cell) => c.1 / 4096) ++ s.mem.poison.map (· / 4096) ++ s.ckSealed sl).foldl
    (fun l f => if s.ckFrame sl f then setInsert l f else l) []

/-- The target of a slice. -/
def State.ckTarget (s : State) (sl : Nat) : Option CkTarget := s.ck.targets.find? (·.slice == sl)

/-- A target put back. -/
def State.setTarget (s : State) (x : CkTarget) : State :=
  { s with ck := { s.ck with targets := s.ck.targets.filter (·.slice != x.slice) ++ [x] } }

/-- The image of a parity on a target. -/
def CkTarget.image (x : CkTarget) (p : Nat) : Option CkImage := if p = 0 then x.even else x.odd

/-- A target with the image of a parity replaced. -/
def CkTarget.setImage (x : CkTarget) (p : Nat) (i : Option CkImage) : CkTarget :=
  if p = 0 then { x with even := i } else { x with odd := i }

/-- Every bit of a parity of the slice is set. -/
def State.ckFull (s : State) (sl p : Nat) : Bool := bitAt (tabGetD s.ck.full 0 sl) p

/-- The frames of a slice whose bit D`p` is set. Where all are, a frame that holds no data and that the image does not hold
needs no entry: an entry of zeros stands for gesso (R398). -/
def State.ckSet (s : State) (sl p : Nat) : List Nat :=
  let m := ((if p = 0 then s.ck.d0 else s.ck.d1)).filter (s.ckFrame sl)
  if s.ckFull sl p then
    let old := (((s.ckTarget sl).bind (·.image p)).map fun i => i.frames.map (·.frame)).getD []
    (s.ckData sl ++ old).foldl setInsert m
  else m

/-- Frames marked in the map of a parity. -/
def State.ckMark (s : State) (p : Nat) (fs : List Nat) : State :=
  { s with ck := if p = 0 then { s.ck with d0 := fs.foldl setInsert s.ck.d0 }
                 else { s.ck with d1 := fs.foldl setInsert s.ck.d1 } }

/-- Every bit of the parities of a mask set. -/
def State.ckFill (s : State) (sl mask : Nat) : State :=
  { s with ck := { s.ck with full := tabPut s.ck.full sl (tabGetD s.ck.full 0 sl ||| mask) } }

/-- The bits of a parity cleared, as checkpoint N copies its frames. -/
def State.ckClear (s : State) (sl p : Nat) : State :=
  let full := tabGetD s.ck.full 0 sl
  let ck := { s.ck with full := tabPut s.ck.full sl (if bitAt full p then full - 2 ^ p else full) }
  { s with ck := if p = 0 then { ck with d0 := ck.d0.filter fun f => !s.ckFrame sl f }
                 else { ck with d1 := ck.d1.filter fun f => !s.ckFrame sl f } }

/-! ## The image (R390, R398) -/

/-- Count-store records that the leaves of a session name. -/
def SessKv.records (k : SessKv) : List Nat :=
  (k.pages.filter (·.rcp != 0)).map (fun p => countKey p.elem p.rcp) ++
  (k.granules.filter (·.rcp != 0)).map fun g => countKey g.pa g.rcp

/-- The metadata and the manifest of a checkpoint as they stand at the cut. -/
def State.ckImage (s : State) (sl num step : Nat) : CkImage :=
  let e := (s.sliceEnt sl).getD {}
  let ds := s.desc.filter fun x => x.2.slice == sl && x.2.used
  let kv := s.mem.kv.filter fun x => ds.any (·.1 == x.1)
  { slice := sl, ckpt := num, step := step, pkc := s.pkg.pkc, clusters := e.clusters, pcgs := e.pcgs
    tableLog2 := s.tableLog2, device := s.devNo.getD 0xFFFF
    count := (s.comp.members.filter (·.2.state == 1)).length, modelHash := s.modelHash sl
    desc := ds, kv := kv
    counts := s.mem.counts.filter fun c => kv.any fun x => x.2.records.contains c.1
    regions := s.mem.regions.filter (·.slice == sl), objects := s.mem.objects.filter (·.slice == sl)
    pals := s.srv.pals.filter (·.2.slice == sl)
    ptables := s.mem.tables.filter (·.slice == sl)
    indexes := s.ret.indexes.filter (·.slice == sl), tables := s.ret.tables.filter (·.slice == sl)
    stored := s.cnv.stored.filter fun c => c.tier == 1 && c.slice == sl }

/-- A metadata record (R390). -/
def metaRecord (type : Nat) (b : Bytes) : Bytes := bytesOf 2 type ++ zeros 2 ++ bytesOf 4 b.length ++ b

/-- The metadata of an image: a count record by its die's store and index, then its 4 bytes (R146). -/
def CkImage.metadata (i : CkImage) : Bytes :=
  metaRecord 1 (i.desc.flatMap fun x => bytesOf 4 x.1 ++ x.2.bytes) ++
  metaRecord 2 (i.counts.flatMap fun x => bytesOf 4 x.1 ++ bytesOf 4 x.2) ++
  metaRecord 3 (Config.ckRegistries i.slice i.ckpt) ++ metaRecord 4 (bytesOf 8 i.step)

/-- Bytes of the frame table and of the metadata area, rounded to 64 KiB. -/
def ckTableBytes (f : Nat) : Nat := 65536 * divUp (f * 32) 65536
def ckMetaBytes (tableLog2 : Nat) : Nat := 2 ^ 28 + 2 ^ tableLog2 * 256

/-- Offsets in an image region: metadata, and frame 0 (R398). -/
def ckMetaAt (f : Nat) : Nat := 0x2_0000 + ckTableBytes f
def ckFramesAt (f tableLog2 : Nat) : Nat := ckMetaAt f + ckMetaBytes tableLog2

/-- 64 KiB units of an image region. -/
def ckUnits (f tableLog2 : Nat) : Nat := divUp (ckFramesAt f tableLog2 + f * 4096) 65536

/-- The poison marker pattern of R311 in the place of a sector's 128 bytes. -/
def markerSector : Bytes := (List.replicate 16 ([0x50, 0x4F, 0x49, 0x53, 0x4F, 0x4E, 0x21, 0x21] : Bytes)).flatten

/-- The stored bytes of a frame, poisoned sectors replaced. -/
def CkFrame.bytes (x : CkFrame) : Bytes :=
  (List.range 32).flatMap fun k =>
    let a := x.frame * 4096 + 128 * k
    if x.poison.contains a then markerSector else memRead x.data a 128

/-- 4,096 bytes coded as 32 packed blocks (R399). -/
def packFrame (b : Bytes) : Bytes :=
  (List.range 32).flatMap fun k => packBlock ((List.range 64).map fun j => le b (128 * k + 2 * j) 2)

/-- FORM of a frame and its stored bytes before sealing (R399). -/
def CkFrame.form (x : CkFrame) (compress : Bool) : Nat × Bytes :=
  if x.poison.length = 32 then (4, [])
  else if x.poison.isEmpty ∧ (if x.prot then x.gesso else x.data.isEmpty) then (0, [])
  else if x.prot then (3, x.bytes)
  else
    let p := packFrame x.bytes
    if compress ∧ x.poison.isEmpty ∧ p.length < 4096 then (2, p) else (1, x.bytes)

/-- The locator of a target: its first member and the base there (R397). -/
def CkTarget.locator (x : CkTarget) : Nat :=
  match x.members with
  | (m, some b) :: _ => 2 ^ 48 * m + b
  | _ => 0

/-- The checkpoint key of a slice (R425). -/
def State.ckKey (s : State) (x : CkTarget) : Option Bytes :=
  s.sec.csk.map fun k => Config.kmac (hashBytes k)
    (bytesOf 8 s.comp.id.toNat ++ bytesOf 1 x.slice ++ bytesOf 8 x.locator ++ bytesOf 4 x.rgen) 256
    (ascii "QW5200 checkpoint")

/-- A frame as CX stores it: frame table entry and bytes. -/
def State.ckStore (s : State) (x : CkTarget) (num f : Nat) (compress : Bool) (c : CkFrame) : Bytes × Bytes :=
  let fm := c.form compress
  let head := bytesOf 1 fm.1 ++ zeros 3 ++ bytesOf 2 fm.2.length ++ zeros 2 ++ bytesOf 8 num
  if fm.1 = 3 then
    let r := Config.gcmSeal ((s.ckKey x).getD []) (bytesOf 8 num ++ bytesOf 4 f) head fm.2
    (head ++ padTo 16 r.2, r.1)
  else if fm.2.isEmpty then (head ++ zeros 16, [])
  else (head ++ (hashBytes (Config.sha3 fm.2)).take 16, fm.2)

/-- The manifest (R398): its fields in the order of the table; how wide they are the spec does not say. -/
def CkImage.manifest (i : CkImage) (f q : Nat) (table : U256) : Bytes :=
  let md := i.metadata
  bytesOf 4 1 ++ bytesOf 8 i.ckpt ++ bytesOf 8 i.step ++ bytesOf 8 i.pkc.toNat ++ bytesOf 8 i.clusters ++
  bytesOf 8 i.pcgs ++ bytesOf 4 i.tableLog2 ++ bytesOf 4 q ++ bytesOf 2 i.device ++ bytesOf 2 i.count ++
  hashBytes (i.modelHash.getD 0) ++ bytesOf 8 f ++ bytesOf 4 md.length ++ hashBytes table ++ hashBytes (Config.sha3 md)

/-- The commit record (R399). -/
def commitRecord (num step : Nat) (manifest : Bytes) : Bytes :=
  let b := bytesOf 4 0x54434D43 ++ zeros 4 ++ bytesOf 8 num ++ bytesOf 8 step ++ hashBytes (Config.sha3 manifest)
  b ++ hashBytes (Config.sha3 b)

/-- The target record of member `m` (R397): the canvas record's layout. -/
def State.targetRecord (s : State) (x : CkTarget) (units m : Nat) : Bytes :=
  let b := bytesOf 4 0x54434B43 ++ bytesOf 2 x.members.length ++ bytesOf 2 m ++ bytesOf 4 units ++ zeros 4 ++
    bytesOf 8 x.slice ++ bytesOf 8 s.comp.id.toNat ++ bytesOf 4 x.rgen ++ zeros 28 ++
    padTo 160 ((x.members.take 10).flatMap fun y => bytesOf 2 y.1 ++ zeros 6 ++ bytesOf 8 (y.2.getD 0))
  b ++ hashBytes (Config.sha3 b)

/-! ## Writes to the target (R397, R400) -/

/-- Units each member gives: the target record and its share of two images. -/
def ckPerMember (units w : Nat) : Nat := divUp units (max 1 w)

/-- Bytes written at an offset of an image region: WRITEs of at most 16 KiB to the members that hold the units. -/
def State.ckWrite (s : State) (x : CkTarget) (units sl num p off : Nat) (b : Bytes) : State :=
  let w := max 1 x.members.length
  (stripePieces off (b.length / 16384 + 2) b.length).foldl (fun (t : State) q =>
    let m := x.members.getD (q.1 / 65536 % w) (0, none)
    let addr := m.2.getD 0 + 65536 * (1 + p * ckPerMember units w + q.1 / 65536 / w) + q.1 % 65536
    t.send m.1 2 0 0xFF [addr, 0] (sub b (q.1 - off) q.2) (.ckpt sl num)) s

/-- Units of an image of the slice. -/
def State.ckImageUnits (s : State) (sl : Nat) : Nat := ckUnits (s.ckFrames sl) s.tableLog2

/-- The checkpoint of a slice with a number. -/
def State.ckOf (s : State) (sl num : Nat) : Option Ckpt := s.ck.flight.find? fun c => c.slice == sl && c.num == num

/-- A checkpoint put back in its place; leaves whose GUARD has changed are invalidated (R138). -/
def State.setCk (s : State) (c : Ckpt) : State :=
  State.invalidate (sl := c.slice) { s with ck := { s.ck with flight := s.ck.flight.map fun (x : Ckpt) =>
      if x.slice = c.slice ∧ x.num = c.num then c else x } }

/-- A checkpoint no longer in flight. -/
def State.delCk (s : State) (c : Ckpt) : State :=
  State.invalidate (sl := c.slice)
    { s with ck := { s.ck with flight := s.ck.flight.filter fun (x : Ckpt) => !(x.slice == c.slice && x.num == c.num) } }

/-- Requests of the checkpoint have no response yet. -/
def State.ckOut (s : State) (sl num : Nat) : Bool := s.comp.outst.any fun t => t.purpose == Purpose.ckpt sl num

/-- The registers that hold the target's locator (R405). -/
def State.ckLocator (s : State) (sl v : Nat) : State := s.setReg64 .ckptTargetLo .ckptTargetHi sl v

/-- The target of a slice released (R397, R401): POOL_FREE to the members still in the map. -/
def State.releaseTarget (s : State) (sl : Nat) : State :=
  match s.ckTarget sl with
  | none => s
  | some x =>
    let s1 := ({ s with ck := { s.ck with targets := s.ck.targets.filter (·.slice != sl) } }).ckLocator sl 0
    x.members.foldl (fun (t : State) m => match m.2 with
      | some b => if (t.member m.1).isSome then t.send m.1 7 0x21 sl [b] [] .none else t
      | none => t) s1

/-- The event of a checkpoint (R400, R401). -/
def State.ckEvent (s : State) (c : Ckpt) (status : Nat) : State :=
  s.post c.slice 0x03 c.slice status (bytesOf 8 c.num ++ bytesOf 8 c.image.step)

/-- A checkpoint abandoned (R401): its event, every bit of its parity set, CKPT_ABANDONED, LAST_ERR; a CKPT_NOW that waits
for it ends with the code. -/
def State.ckAbandon (s : State) (c : Ckpt) (code : Nat) (targetLost : Bool) : State :=
  let p := c.num % 2
  let s1 := (s.delCk c).ckFill c.slice (2 ^ p)
  let s2 := s1.ckMark p (c.image.frames.map (·.frame) ++ c.fresh ++ c.old)
  let s3 := (s2.ckEvent c code).bump .ckptAbandoned c.slice 1
  let s4 := s3.setFld .ckptStatus c.slice 0 16 16 code
  let s5 := { s4 with comp := { s4.comp with outst := s4.comp.outst.map fun (t : Txn) =>
    if (t.purpose == Purpose.ckpt c.slice c.num) then { t with purpose := .none } else t } }
  let s6 := s5.completeOpt c.tag code []
  if targetLost then s6.releaseTarget c.slice else s6

/-- A member of a target is lost or does not answer (R401): every checkpoint of the slice in flight is abandoned, and the
target goes. -/
def State.ckTargetLost (s : State) (sl : Nat) : State :=
  let s1 := (s.ck.flight.filter (·.slice == sl)).foldl (fun (t : State) c => t.ckAbandon c eCkptTarget false) s
  s1.releaseTarget sl

/-! ## The cut (R392, R393, R397) -/

/-- PCGs of a slice. -/
def State.ckPcgs (s : State) (sl : Nat) : List Nat := setBits ((s.sliceEnt sl).getD {}).pcgs 64

/-- The members of a new target: those the policy names, the others chosen under R302; none where there are too few. -/
def State.ckMembers (s : State) (sl need : Nat) : Option (List Nat) :=
  let b := s.ckPolicy sl
  let w := byteAt b 1
  let prot := s.confidential sl
  let named := ((List.range w).map fun k => le b (0x28 + 2 * k) 2).filter (· != 0xFFFF)
  let free := (s.stripeMembers sl prot need).filter fun m => !named.contains m
  let ok := named.all fun m => s.reachable sl m && (s.member m).any fun x => x.pool != 0 && (!prot || x.kind == 1)
  let l := named ++ free.take (w - named.length)
  if ok ∧ l.length = w then some l else none

/-- The bits of a checkpoint taken at its cut: the frames of the new set and of the old set, and the maps without them. -/
def State.ckTake (s : State) (sl num : Nat) : State × List Nat × List Nat :=
  let p := num % 2
  let mine := s.ckSet sl p
  let other := s.ckSet sl (1 - p)
  let all := s.ckFull sl (1 - p)
  let fresh := mine.filter fun f => all || other.contains f
  (s.ckClear sl p, fresh, mine.filter fun f => !fresh.contains f)

/-- Checkpoint N cut (R393). -/
def State.ckCut (s : State) (sl step : Nat) (tag : Option Tag) : State :=
  let num := tabGetD s.ck.next 1 sl
  let s0 := { s with ck := { s.ck with
    next := tabPut s.ck.next sl (num + 1), lastPkc := tabPut s.ck.lastPkc sl s.pkg.pkc
    lastStep := tabPut s.ck.lastStep sl (step + 1) } }
  let image := s0.ckImage sl num step
  match s0.ckTarget sl with
  | some _ =>
    let x := s0.ckTake sl num
    let c : Ckpt := { slice := sl, num := num, fresh := x.2.1, old := x.2.2, pcgs := s.ckPcgs sl, image := image, tag := tag }
    { x.1 with ck := { x.1.ck with flight := x.1.ck.flight ++ [c] } }.invalidate sl
  | none =>
    let w := byteAt (s.ckPolicy sl) 1
    let need := 1 + 2 * ckPerMember (s.ckImageUnits sl) w
    match s0.ckMembers sl need with
    | none => s0.ckAbandon { slice := sl, num := num, image := image, tag := tag } eCkptTarget false
    | some ms =>
      let s1 := (s0.ckFill sl 3).setTarget { slice := sl, members := ms.map fun m => (m, none) }
      let x := s1.ckTake sl num
      let c : Ckpt := { slice := sl, num := num, phase := .target, fresh := x.2.1, old := x.2.2, pcgs := s.ckPcgs sl
                        image := image, tag := tag }
      let s2 := { x.1 with ck := { x.1.ck with flight := x.1.ck.flight ++ [c] } }.invalidate sl
      ms.foldl (fun (t : State) m => t.send m 7 0x20 sl [need] [] (.ckpt sl num)) s2

/-- A new checkpoint has to wait (R392): checkpoint N − 2 is in flight, or N − 1 is not past its staging. -/
def State.ckDefers (s : State) (sl : Nat) : Bool :=
  let num := tabGetD s.ck.next 1 sl
  s.ck.flight.any fun c => c.slice == sl &&
    (c.num % 2 == num % 2 || c.phase == .target || c.phase == .staging)

/-- A trigger of the slice holds at the end of step `step` (R392). -/
def State.ckTriggered (s : State) (sl step : Nat) : Bool :=
  let si := s.reg64 .ckptStepIntervalLo .ckptStepIntervalHi sl
  let pi := s.reg64 .ckptPkcIntervalLo .ckptPkcIntervalHi sl
  byteAt (s.ckPolicy sl) 0 == 1 &&
  ((si != 0 && si ≤ step + 1 - tabGetD s.ck.lastStep 0 sl) ||
   (pi != 0 && decide (pi ≤ s.pkc - (tabGetD s.ck.lastPkc 0 sl).toNat)) || (tabGet s.ck.now sl).isSome)

/-- The checkpoint part of a step end (R393, step 8 of R249). -/
def State.ckAtStepEnd (s : State) (sl step : Nat) : State :=
  let s0 := { s with ck := { s.ck with ended := tabPut s.ck.ended sl step } }
  if ¬ s0.ckTriggered sl step then s0
  else if s0.ckDefers sl then s0.bump .ckptDeferred sl 1
  else
    let tag := tabGet s0.ck.now sl
    ({ s0 with ck := { s0.ck with now := tabDel s0.ck.now sl } }).ckCut sl step tag

/-- While no job runs, a CKPT_NOW cuts at its acceptance, or once the checkpoint that defers it ends (R392). -/
def State.ckIdle (s : State) (sl : Nat) : State :=
  match tabGet s.ck.now sl with
  | none => s
  | some t =>
    if (tabGet s.srv.jobs sl).isSome ∨ s.ckDefers sl then s
    else ({ s with ck := { s.ck with now := tabDel s.ck.now sl } }).ckCut sl (tabGetD s.ck.ended 0 sl) (some t)

/-- POOL_ALLOC of a target answered by a member (R397): with the last answer the target records are written and staging
begins; a failure abandons the checkpoint. -/
def State.ckAllocated (s : State) (sl num dev status base : Nat) : State :=
  match s.ckTarget sl, s.ckOf sl num with
  | some x, some c =>
    if status ≠ 0 then s.ckAbandon c eCkptTarget true
    else
      let x' := { x with members := x.members.map fun m => if m.1 = dev then (dev, some base) else m }
      let s1 := s.setTarget x'
      if x'.members.any (·.2.isNone) then s1
      else
        let s2 := (s1.ckLocator sl x'.locator).setCk { c with phase := .staging }
        x'.members.zipIdx.foldl (fun (t : State) m =>
          t.send m.1.1 2 0 0xFF [m.1.2.getD 0, 0] (padTo 4096 (s2.targetRecord x' (s.ckImageUnits sl) m.2)) (.ckpt sl num)) s2
  | _, _ => s

/-! ## CKPT_NOW and CKPT_RELEASE (R392, R405) -/

/-- CKPT_NOW: busy while another waits for its cut; one that finds a checkpoint in its way with no job running is deferred,
and counted (R392). -/
def execCkptNow (h : Hdr) (slice : BitVec 6) (s : State) : Host.Outcome State Fault Refusal :=
  hostCmd { widths := [6], entry := s.stateNodes (cmdSlice h.fn.toNat slice.toNat) } h (fun s t =>
    let sl := cmdSlice h.fn.toNat slice.toNat
    checked [(!s.defined sl, eNoImage), (byteAt (s.ckPolicy sl) 0 != 1, eCkptNoTarget),
      ((tabGet s.ck.now sl).isSome, eCkptBusy)]
      (let s1 := { s with ck := { s.ck with now := tabPut s.ck.now sl t } }
       let s2 := if (tabGet s.srv.jobs sl).isNone ∧ s.ckDefers sl then s1.bump .ckptDeferred sl 1 else s1
       .later (s2.ckIdle sl))) s

/-- CKPT_RELEASE. -/
def execCkptRelease (h : Hdr) (slice : BitVec 6) (s : State) : Host.Outcome State Fault Refusal :=
  hostCmd { widths := [6], entry := s.stateNodes (cmdSlice h.fn.toNat slice.toNat) } h (fun s _ =>
    let sl := cmdSlice h.fn.toNat slice.toNat
    checked [(!s.defined sl, eNoImage), (s.ck.flight.any (·.slice == sl), eCkptBusy)]
      (.done (s.releaseTarget sl))) s

/-! ## Staging and drain (R394..R400) -/

/-- Metadata pieces of 2 MiB that PCG number `k` of `n` takes, in bytes (R395). -/
def metaShare (len n k : Nat) : Nat := 2 ^ 21 * shareOf (divUp len (2 ^ 21)) (max 1 n) k

/-- The slot of a PCG has room for what checkpoint `c` has copied there (R395). -/
def State.ckRoom (s : State) (c : Ckpt) (pcg : Nat) : Bool :=
  let l := s.ckPcgs c.slice
  let n := (c.image.frames.filter fun f => s.ckPcg c.slice f.frame == pcg).length
  decide (metaShare c.image.metadata.length l.length ((l.findIdx? (· == pcg)).getD 0) + n * (16 + 4096) ≤ 767 * 2 ^ 20)

/-- The old commit record overwritten with zeros (R400 step 1). -/
def State.ckZero (s : State) (c : Ckpt) : State :=
  match s.ckTarget c.slice with
  | none => s
  | some x =>
    (s.setCk { c with phase := .zeroing }).ckWrite x (s.ckImageUnits c.slice) c.slice c.num (c.num % 2) 0 (zeros 0x58)

/-- Frames of the new set of PCG `pcg` copied to the slot (R395); once every PCG is done the drain begins. -/
def State.ckStaged (s : State) (c : Ckpt) (pcg : Nat) : State :=
  let c1 := (c.fresh.filter fun f => s.ckPcg c.slice f == pcg).foldl (fun x f => s.stageFrame x f) c
  let c2 := { c1 with pcgs := c1.pcgs.filter (· != pcg), records := c1.records && s.ckRoom c1 pcg }
  if c2.pcgs.isEmpty then (s.setCk c2).ckZero c2 else s.setCk c2

/-- STAGING_DONE (R395): the steward of a PCG has copied the new set of the checkpoint that stages. -/
def execStagingDone (slice : BitVec 6) (pcg : BitVec 6) (s : State) : Host.Outcome State Fault Refusal :=
  match s.ck.flight.find? fun c => c.slice == slice.toNat && c.phase == .staging && c.pcgs.contains pcg.toNat with
  | none => .next s
  | some c => .next ((s.ckStaged c pcg.toNat).ckIdle slice.toNat)

/-- The old set of a drain: from general capacity, or after a reset from the image of the other parity (R399, R404). -/
def State.ckOld (s : State) (c : Ckpt) (x : CkTarget) : Ckpt :=
  if c.resumed then
    let other := ((x.image (1 - c.num % 2)).map (·.frames)).getD []
    { c with old := [], image := { c.image with
        frames := c.image.frames ++ other.filter fun f => c.old.contains f.frame } }
  else c.old.foldl (fun y f => s.stageFrame y f) c

/-- The frame table entry of a frame that an image holds from an earlier checkpoint is part of the table's hash; the table
is hashed as the entries of the image's frames in ascending order. -/
def State.ckTableHash (s : State) (x : CkTarget) (i : CkImage) (compress : Bool) : U256 :=
  let sl := i.slice
  let l := (i.frames.map fun f => (s.ckNumber sl f.frame, f)).mergeSort fun a b => a.1 ≤ b.1
  Config.sha3 (l.flatMap fun f => (s.ckStore x i.ckpt f.1 compress f.2).1)

/-- An image with the frames of the last image of its parity that the checkpoint has not written again. -/
def CkImage.over (i : CkImage) (old : Option CkImage) : CkImage :=
  let l := (old.map (·.frames)).getD []
  { i with frames := i.frames ++ l.filter fun f => !(i.frames.any (·.frame == f.frame)) }

/-- COMPRESS of a slice's policy. -/
def State.ckCompress (s : State) (sl : Nat) : Bool := bitAt (byteAt (s.ckPolicy sl) 2) 0

/-- The manifest of checkpoint `c` on a target. -/
def State.ckManifest (s : State) (x : CkTarget) (c : Ckpt) : Bytes :=
  let i := c.image.over (x.image (c.num % 2))
  i.manifest (s.ckFrames c.slice) (reservePerPcg s.tableLog2) (s.ckTableHash x i (s.ckCompress c.slice))

/-- Frames, frame table entries, metadata and manifest written (R400 step 2). -/
def State.ckDrain (s : State) (c : Ckpt) (x : CkTarget) : State :=
  let sl := c.slice
  let p := c.num % 2
  let u := s.ckImageUnits sl
  let f := s.ckFrames sl
  let c1 := s.ckOld c x
  let s1 := s.setCk { c1 with phase := .draining }
  let w (t : State) (off : Nat) (b : Bytes) : State := t.ckWrite x u sl c.num p off b
  let s2 := c1.image.frames.foldl (fun (t : State) y =>
    let n := s.ckNumber sl y.frame
    let e := s.ckStore x c.num n (s.ckCompress sl) y
    w (w t (ckFramesAt f s.tableLog2 + 4096 * n) e.2) (0x2_0000 + 32 * n) e.1) s1
  w (w s2 (ckMetaAt f) c1.image.metadata) 0x1_0000 (s.ckManifest x c1)

/-- The commit record written (R400 step 3). -/
def State.ckSeal (s : State) (c : Ckpt) (x : CkTarget) : State :=
  (s.setCk { c with phase := .committing }).ckWrite x (s.ckImageUnits c.slice) c.slice c.num (c.num % 2) 0
    (commitRecord c.num c.image.step (s.ckManifest x c))

/-- The checkpoint commits (R400): event, CKPT_LAST, CKPT_COMMITTED; CKPT_NOW completes with the number. -/
def State.ckCommitted (s : State) (c : Ckpt) (x : CkTarget) : State :=
  let p := c.num % 2
  let i := { c.image.over (x.image p) with committed := true }
  let s1 := (s.delCk c).setTarget (x.setImage p (some i))
  let s2 := (s1.setReg64 .ckptLastLo .ckptLastHi c.slice c.num).bump .ckptCommitted c.slice 1
  ((s2.ckEvent c 0).completeOpt c.tag 0 (packBytes [(64, c.num)])).ckIdle c.slice

/-- CKPT_COMMIT (R400): the oldest drain of the slice with every WRITE acknowledged goes on by one step. -/
def execCkptCommit (slice : BitVec 6) (s : State) : Host.Outcome State Fault Refusal :=
  let sl := slice.toNat
  match s.ck.flight.find? (fun c => c.slice == sl && c.phase != .target && c.phase != .staging && !s.ckOut sl c.num),
      s.ckTarget sl with
  | some c, some x => match c.phase with
    | .zeroing =>
      if (s.dieList sl).any fun d => s.netCut (8 + d) sl then .next (s.ckAbandon c ePathDown false) else .next (s.ckDrain c x)
    | .draining => .next (s.ckSeal c x)
    | _ => .next (s.ckCommitted c x)
  | _, _ => .next s

/-- What a response to a request of a checkpoint does: a failure loses the target (R401). -/
def State.ckAnswer (s : State) (sl num dev op status result : Nat) : State :=
  if op = 0x20 then s.ckAllocated sl num dev status result
  else if status ≠ 0 then s.ckTargetLost sl else s

/-! ## Resets (R401, R404) -/

/-- The checkpoints of a slice at a reset narrower than cold: those whose staging records are all written are kept for the
slice's next definition, the others are abandoned. -/
def State.ckReset (s : State) (sl : Nat) : State :=
  (s.ck.flight.filter (·.slice == sl)).foldl (fun (t : State) c =>
    if c.records ∧ c.phase ≠ .target ∧ c.phase ≠ .staging then
      let t1 := t.delCk c
      let t2 := t1.completeOpt c.tag eCkptAborted []
      { t2 with ck := { t2.ck with kept := t2.ck.kept ++ [{ c with tag := none, resumed := true }] } }
    else t.ckAbandon c eCkptAborted false) s

/-- A tenant change (R318, R401): checkpoints abandoned, the target released. -/
def State.ckTenant (s : State) (sl : Nat) : State :=
  let s1 := (s.ck.flight.filter (·.slice == sl)).foldl (fun (t : State) c => t.ckAbandon c eCkptAborted false) s
  ({ s1 with ck := { s1.ck with kept := s1.ck.kept.filter (·.slice != sl) } }).releaseTarget sl

/-- The slice is defined again (R404): a kept drain resumes when the slice entry is the same, else it is abandoned. -/
def State.ckResume (s : State) (sl : Nat) : State :=
  let mine := s.ck.kept.filter (·.slice == sl)
  let e := (s.sliceEnt sl).getD {}
  let s1 := { s with ck := { s.ck with kept := s.ck.kept.filter (·.slice != sl) } }
  mine.foldl (fun (t : State) c =>
    let t1 := { t with ck := { t.ck with flight := t.ck.flight ++ [c] } }
    if c.image.clusters = e.clusters ∧ c.image.pcgs = e.pcgs then t1.ckZero c else t1.ckAbandon c eCkptAborted false) s1

/-! ## CKPT_RESTORE (R402, R403, R425) -/

/-- The target a locator names: one this device allocated, or one read from the pool. -/
def State.targetAt (s : State) (locator : Nat) : Option CkTarget :=
  match s.ck.targets.find? fun x => x.members.any fun m => m.2.any fun b => 2 ^ 48 * m.1 + b == locator with
  | some x => some x
  | none => Config.remoteTarget locator

/-- The committed image with a number on a target; the newest for 0. -/
def CkTarget.pick (x : CkTarget) (num : Nat) : Option CkImage :=
  let l := (x.even.toList ++ x.odd.toList).filter fun i => i.committed && (num == 0 || i.ckpt == num)
  l.foldl (fun b i => match b with
    | none => some i
    | some y => if y.ckpt < i.ckpt then some i else some y) none

/-- The shape of an image differs from the slice, its running image and its composition. -/
def State.ckShapeDiffers (s : State) (sl : Nat) (i : CkImage) : Bool :=
  let e := (s.sliceEnt sl).getD {}
  !(i.clusters == e.clusters && i.pcgs == e.pcgs && i.tableLog2 == s.tableLog2 && i.device == s.devNo.getD 0xFFFF &&
    i.count == (s.comp.members.filter (·.2.state == 1)).length && i.modelHash == s.modelHash sl)

/-- The checks of R402 in order, then the limits of R11 with the codes of the chapters that own the objects. -/
def State.restoreChecks (s : State) (sl locator num : Nat) : List (Bool × Nat) :=
  let x := s.targetAt locator
  let i := x.bind (·.pick num)
  [(!s.defined sl, eNoImage), ((tabGet s.srv.jobs sl).isSome, eCkptJob),
   (s.ck.flight.any (·.slice == sl) || s.ck.restores.any (·.slice == sl) || s.desc.any (fun d => d.2.slice == sl && d.2.used) ||
     i.any (fun i => i.desc.any fun d => (s.d d.1).used), eCkptBusy),
   (x.all fun x => x.members.any fun m => !s.reachable sl m.1, eCkptTarget), (i.isNone, eCkptNone),
   (i.any (s.ckShapeDiffers sl), eCkptShape),
   (i.any (fun i => i.frames.any (·.prot)) && s.sec.csk.isNone, eCkptSeal)] ++
  -- the device's limits hold for what the image brings as well (R11)
  let others {α : Type} (l : List α) (slice : α → Nat) : Nat := (l.filter fun x => slice x != sl).length
  [(i.any fun i => decide (256 < others s.ret.indexes (·.slice) + i.indexes.length), eIndexFull),
   (i.any fun i => decide (256 < others s.ret.tables (·.slice) + i.tables.length), eTableLimit),
   (i.any fun i => decide (4096 < others s.srv.pals (·.2.slice) + i.pals.length), ePaletteFull)]

/-- The slice's general capacity gesso-filled, its pool contribution with it (R403 step 1); no cache keeps a leaf of it. -/
def State.ckGesso (s : State) (sl : Nat) : State :=
  State.invalidate (sl := sl) <|
  let ranges := (s.dieList sl).map (s.ckRange sl) ++ s.contribution sl
  let s1 := ranges.foldl (fun (t : State) r => t.gessoFill r.1 r.2) s
  let inside (pa : Nat) : Bool := ranges.any fun r => r.1 ≤ pa && pa < r.1 + r.2
  { s1 with
    mem := { s1.mem with
      regions := s1.mem.regions.filter (·.slice != sl), gesso := s1.mem.gesso.filter fun g => !inside g.pa
      objects := s1.mem.objects.filter (·.slice != sl), fetched := s1.mem.fetched.filter (·.slice != sl)
      tables := s1.mem.tables.filter (·.slice != sl) }
    pool := s1.pool.filter (·.slice != sl)
    srv := { s1.srv with pals := s1.srv.pals.filter (·.2.slice != sl) }
    ret := { s1.ret with
      indexes := s1.ret.indexes.filter (·.slice != sl), tables := s1.ret.tables.filter (·.slice != sl) }
    cnv := { s1.cnv with stored := s1.cnv.stored.filter fun c => !(c.tier == 1 && c.slice == sl) } }

/-- CKPT_RESTORE. -/
def execCkptRestore (h : Hdr) (slice : BitVec 6) (locator ckpt : U64) (s : State) : Host.Outcome State Fault Refusal :=
  hostCmd { widths := [6, 64, 64], entry := s.stateNodes (cmdSlice h.fn.toNat slice.toNat) } h (fun s t =>
    let sl := cmdSlice h.fn.toNat slice.toNat
    checked (s.restoreChecks sl locator.toNat ckpt.toNat)
      (match s.targetAt locator.toNat with
      | none => .reject eCkptTarget
      | some x => match x.pick ckpt.toNat with
        | none => .reject eCkptNone
        | some i =>
          let s1 := (s.ckGesso sl).setTarget { x with slice := sl }
          let s2 := s1.ckLocator sl locator.toNat
          .later { s2 with ck := { s2.ck with restores := s2.ck.restores ++ [{ slice := sl, image := i, tag := some t }] } }))
    s

/-- Packed blocks decoded one after another: the 128 bytes of each, none of an illegal one (R214, R215). -/
def unpackFrame (b : Bytes) : Nat → List (Option Bytes)
  | 0 => []
  | n + 1 =>
    let len := packedLen (le b 0 2)
    ((unpackBlock (b.take len)).map fun v => v.flatMap (bytesOf 2)) :: unpackFrame (b.drop len) n

/-- A PACKED frame as CX decodes it (R215): an illegal block's sector is poisoned; how many there are. -/
def CkFrame.decoded (f : CkFrame) : CkFrame × Nat :=
  if f.packed.isEmpty then (f, 0)
  else
    let l := (unpackFrame f.packed 32).zipIdx
    let bad := (l.filter (·.1.isNone)).map fun x => f.frame * 4096 + 128 * x.2
    let data := l.foldl (fun m x => memWrite m (f.frame * 4096 + 128 * x.2) (x.1.getD (zeros 128))) []
    ({ f with data := data, poison := bad.foldl setInsert f.poison }, bad.length)

/-- A frame written back, its poisoned sectors poisoned again (R399, R403); illegal blocks count in PACK_ILLEGAL (R215). -/
def State.putFrame (s : State) (frame : CkFrame) : State :=
  let f := frame.decoded.1
  let s0 := if frame.decoded.2 = 0 then s else s.bump .packIllegal 0 frame.decoded.2
  let s1 := s0.gessoFill (f.frame * 4096) 4096
  let m := f.data.foldl (fun m c => memPut m c.1 c.2) s1.mem.data
  { s1 with mem := { s1.mem with data := m, poison := f.poison.foldl setInsert s1.mem.poison } }

/-- What is left of gesso in the protected regions of an image once its frames are written (R309). -/
def CkImage.gessoed (i : CkImage) : List (Nat × Nat × Nat) :=
  (i.regions.filter (·.prot)).flatMap fun r => (i.frames.filter fun f => !f.gesso).foldl
    (fun l f => cutGesso l (f.frame * 4096) 4096) [(r.pa, r.size, r.keygen)]

/-- The descriptor of a restored session (R403). -/
def State.restoredDesc (s : State) (d : Desc) : Desc :=
  let base := { d with
    op := .none, active := {}, pending := {}, heldReason := .none, heldSteps := 0, lastSummerPkc := s.pkg.pkc
    ownerState := if d.ownerState = .none then .none else .owned, runahead := false, stream := false }
  match d.season with
  | .summer => { base with season := .autumn, tentativeLen := d.committedLen }
  | .spring => { base with season := .winter, windowBase := 0, ptRoot := 0, scratchAddr := 0, pagesHeld := 0
                           reservePage := 0 }
  | _ => base

/-- A restored session that becomes Empty: Closing, or the receiver of a migration. -/
def endsRestored (d : Desc) : Bool := d.season == .closing || d.op == .migrateIn

/-- A session put back: descriptor, pages, sampler; one that had no pages before its operation gives them up. -/
def State.putSession (s : State) (i : Nat) (d : Desc) (k : Option SessKv) : State :=
  let s1 := match k with
    | some k => s.setKv i { k with
        sampler := { k.sampler with heldDue := false, cancel := false, drafts := [] }
        pages := k.pages.map fun (p : KvPage) => { p with guard := false } }
    | none => s
  let s2 := (s1.setD i d).setAx i {}
  if endsRestored d then (s2.freeSession i).toEmpty i
  else if d.season = .spring then (s2.freeSession i).setD i (s.restoredDesc d)
  else s2.setD i (s.restoredDesc d)

/-- A number to restore something under: its own where it is free, else the lowest free one. -/
def restoreKey {α : Type} (t : Tab α) (k : Nat) : Nat := if (tabGet t k).isNone then k else tabFresh t 0

/-- The tables of a restore (R403 step 3): registries, count records, descriptors. -/
def State.ckRebuild (s : State) (i : CkImage) : State :=
  let s1 := i.frames.foldl State.putFrame s
  let s2 := { s1 with
    mem := { s1.mem with
      regions := s1.mem.regions ++ i.regions, objects := s1.mem.objects ++ i.objects
      gessoed := s1.mem.gessoed ++ i.gessoed
      counts := i.counts.foldl (fun t c => tabPut t c.1 c.2) s1.mem.counts
      tables := s1.mem.tables ++ i.ptables }
    srv := { s1.srv with pals := i.pals.foldl (fun t c => tabPut t (restoreKey t c.1) c.2) s1.srv.pals }
    ret := { s1.ret with indexes := s1.ret.indexes ++ i.indexes, tables := s1.ret.tables ++ i.tables }
    cnv := { s1.cnv with stored := s1.cnv.stored ++ i.stored } }
  let pal (e : Nat) : Nat := match i.pals.find? (·.1 == e) with
    | some _ => restoreKey s1.srv.pals e
    | none => e
  (i.desc.foldl (fun (t : State) x =>
    t.putSession x.1 { x.2 with palette := pal x.2.palette } (tabGet i.kv x.1)) s2).unmapped i.slice

/-- The key epoch of the target raised, both commit records zeroed (R425). -/
def State.ckRaise (s : State) (sl : Nat) : State :=
  match s.ckTarget sl with
  | none => s
  | some x =>
    let x' := { x with rgen := x.rgen + 1, even := none, odd := none }
    let u := s.ckImageUnits sl
    let s1 := s.setTarget x'
    let s2 := x'.members.zipIdx.foldl (fun (t : State) m =>
      t.send m.1.1 2 0 0xFF [m.1.2.getD 0, 0] (padTo 4096 (s1.targetRecord x' u m.2)) .none) s1
    let z (t : State) (p : Nat) : State :=
      match x'.members with
      | (m, some b) :: _ => t.send m 2 0 0xFF [b + 65536 * (1 + p * ckPerMember u x'.members.length), 0] (zeros 0x58) .none
      | _ => t
    z (z s2 0) 1

/-- RESTORE_DONE (R403): verification decides between E_CKPT_HASH, which leaves the slice gesso-filled, and the rebuilt
slice, whose next checkpoint is CKPT + 1. -/
def execRestoreDone (slice : BitVec 6) (s : State) : Host.Outcome State Fault Refusal :=
  let sl := slice.toNat
  match s.ck.restores.find? (·.slice == sl) with
  | none => .next s
  | some r =>
    let s1 := { s with ck := { s.ck with restores := s.ck.restores.filter (· != r) } }
    if ¬ r.image.hashOk then .next (s1.completeOpt r.tag eCkptHash [])
    else
      let s2 := ((s1.ckRebuild r.image).ckFill sl 3).ckRaise sl
      let s3 := { s2 with ck := { s2.ck with
        next := tabPut s2.ck.next sl (r.image.ckpt + 1), ended := tabPut s2.ck.ended sl r.image.step } }
      .next (s3.completeOpt r.tag 0 (packBytes [(64, r.image.ckpt), (64, r.image.step)]))

end Sys2Proof.Machine
end

