-- ==== Sys2Proof/Machine/Repair.lean ====
section
/-! DEFINITION. Pool members of a coded canvas that fail: replacement during a park (R111) and repair of a stored canvas
(R383). -/

namespace Sys2Proof.Machine

/-! ## A member fails during a park (R111) -/

/-- A member that may take the place of one that has failed. -/
def State.replacement (s : State) (sl : Nat) (prot : Bool) (dclass len : Nat) (ms : List Nat) : Option Nat :=
  (s.canvasMembers sl prot (unitsPerMember dclass len)).find? fun m => !ms.contains m

/-- A pool member of a canvas operation has failed: its fragments go to a replacement; without one the park ends with
E_CANVAS_TARGET at its end, when every other member has answered. -/
def State.swapMember (s : State) (i dev : Nat) : State :=
  match s.opOf i with
  | none => s
  | some o =>
    if ¬ o.members.any (·.1 == dev) then s
    else
      let d := s.d i
      let s1 := { s with comp := { s.comp with outst := s.comp.outst.map fun (t : Txn) =>
        if (t.dev = dev ∧ (t.purpose == Purpose.canvasData i || t.purpose == Purpose.canvasAlloc i)) then
          { t with purpose := .none } else t } }
      match s.replacement d.slice d.prot d.dclass o.canvas.len (o.members.map (·.1)) with
      | some m =>
        (s1.setOp { o with members := o.members.map fun x => if x.1 = dev then (m, none) else x }).send m 7 0x20 0xFF
          [unitsPerMember d.dclass o.canvas.len] [] (.canvasAlloc i)
      | none => s1.setOp { o with members := o.members.filter (·.1 != dev), status := eCanvasTarget, sent := true }

/-- POOL_ALLOC of a canvas operation answered: the base of the member; a member that came as a replacement after the bytes
had been sent takes its fragments and the records at once. -/
def State.canvasAllocated (s : State) (i dev base : Nat) : State :=
  match s.opOf i with
  | none => s.send dev 7 0x21 0xFF [base] [] .none
  | some o =>
    let o' := { o with members := o.members.map fun x => if x.1 = dev then (dev, some base) else x }
    let s1 := s.setOp o'
    if o.sent ∧ o.status = 0 then
      let c := { o.canvas with len := o.canvas.units, complete := true, desc := { o.canvas.desc with canvasLen := 0 } }
      let key := s.canvasKey c.sealMode c.sealNonce c.sessionId c.compositionId
      let b := c.bytes (if c.sealMode = 0 then none else key)
      let ms := o'.members.map fun m => (m.1, m.2.getD 0)
      let k := (ms.findIdx? (·.1 == dev)).getD 0
      let s2 := s1.poolPut dev (base + fragBytes) (if ms.length = 1 then b else fragmentsOf k b) c.ownerEpoch
        c.sessionId.toNat (.canvasData i)
      ms.zipIdx.foldl (fun (t : State) x => t.poolPut x.1.1 x.1.2 (padTo fragBytes (canvasRecord c ms 0 x.2)) c.ownerEpoch
        c.sessionId.toNat (.canvasData i)) s2
    else s1

/-! ## Repair of a stored canvas (R383) -/

/-- The name a repair goes by: the canvas's address. -/
def Stored.key (c : Stored) : Nat := c.addr.toNat

/-- The stored canvas under repair with a name. -/
def State.repairOf (s : State) (addr : Nat) : Option Stored :=
  s.cnv.stored.find? fun c => c.tier == 2 && c.key == addr && c.repair.isSome

/-- A stored canvas put back in its place. -/
def State.setStored (s : State) (old new : Stored) : State :=
  { s with cnv := { s.cnv with stored := s.cnv.stored.map fun c => if c = old then new else c } }

/-- Requests of a repair have no response yet. -/
def State.repairOut (s : State) (addr : Nat) : Bool := s.comp.outst.any fun t => t.purpose == Purpose.repair addr

/-- A member of the composition is gone: a repair of each coded canvas that has lost at most two of its members there
begins with the POOL_ALLOC of the replacements. -/
def State.startRepair (s : State) (c : Stored) : State :=
  let lost := c.members.zipIdx.filter fun m => (s.member m.1.1).isNone
  if c.tier ≠ 2 ∨ c.members.length ≠ 10 ∨ lost.isEmpty ∨ 2 < lost.length then s
  else
    let need := unitsPerMember 1 c.canvas.len
    let free := (s.canvasMembers c.slice c.canvas.prot need).filter fun m => !(c.members.any (·.1 == m))
    if free.length < lost.length then s
    else
      let repl := (lost.zip free).map fun x => (x.1.2, x.2, (none : Option Nat))
      let s1 := s.setStored c { c with repair := some { repl := repl } }
      repl.foldl (fun (t : State) r => t.send r.2.1 7 0x20 0xFF [need] [] (.repair c.key)) s1

/-- A repair given up: the replacements' ranges are freed, and the canvas stays as it is. -/
def State.dropRepair (s : State) (c : Stored) (r : Repair) : State :=
  let s1 := s.setStored c { c with repair := none }
  let s2 := { s1 with comp := { s1.comp with outst := s1.comp.outst.map fun (t : Txn) =>
    if (t.purpose == Purpose.repair c.key) then { t with purpose := .none } else t } }
  r.repl.foldl (fun (t : State) x => match x.2.2 with
    | some b => t.send x.2.1 7 0x21 0xFF [b] [] .none
    | none => t) s2

/-- The members after a repair. -/
def Repair.members (r : Repair) (ms : List (Nat × Nat)) : List (Nat × Nat) :=
  ms.zipIdx.map fun m => match r.repl.find? (·.1 == m.2) with
    | some x => (x.2.1, x.2.2.getD 0)
    | none => m.1

/-- The bytes of a stored canvas. -/
def State.storedBytes (s : State) (c : Stored) : Bytes :=
  let k := s.canvasKey c.canvas.sealMode c.canvas.sealNonce c.canvas.sessionId c.canvas.compositionId
  c.canvas.bytes (if c.canvas.sealMode = 0 then none else k)

/-- Step 1 of R383: the fragments of eight other members read. -/
def State.repairRead (s : State) (c : Stored) (r : Repair) : State :=
  let n := divUp (c.canvas.len * 4096) (8 * fragBytes) * fragBytes
  let from_ := (c.members.zipIdx.filter fun m => !(r.repl.any (·.1 == m.2))).take 8
  let s1 := s.setStored c { c with repair := some { r with step := 1 } }
  from_.foldl (fun (t : State) m => (List.range (n / 16384)).foldl (fun (u : State) k =>
    u.send m.1.1 1 0 0xFF [m.1.2 + fragBytes + 16384 * k, 16384] [] (.repair c.key)) t) s1

/-- Steps 1 and 2: the lost fragments written to the replacements, then the record with RGEN + 1 on all ten. -/
def State.repairWrite (s : State) (c : Stored) (r : Repair) : State :=
  let ms := r.members c.members
  let b := s.storedBytes c
  let s1 := s.setStored c { c with repair := some { r with step := 2 } }
  let s2 := r.repl.foldl (fun (t : State) x =>
    t.poolPut x.2.1 (x.2.2.getD 0 + fragBytes) (fragmentsOf x.1 b) c.canvas.ownerEpoch c.canvas.sessionId.toNat (.repair c.key))
    s1
  ms.zipIdx.foldl (fun (t : State) x => t.poolPut x.1.1 x.1.2 (padTo fragBytes (canvasRecord c.canvas ms (c.rgen + 1) x.2))
    c.canvas.ownerEpoch c.canvas.sessionId.toNat (.repair c.key)) s2

/-- A response to a request of a repair. -/
def State.repairAnswer (s : State) (addr dev op status base : Nat) : State :=
  match s.repairOf addr with
  | none => if op = 0x20 ∧ status = 0 then s.send dev 7 0x21 0xFF [base] [] .none else s
  | some c => match c.repair with
    | none => s
    | some r =>
      if status ≠ 0 then s.dropRepair c r
      else if r.step = 0 then
        let r' := { r with repl := r.repl.map fun x => if x.2.1 = dev then (x.1, dev, some base) else x }
        let c' := { c with repair := some r' }
        let s1 := s.setStored c c'
        if r'.repl.all fun x => x.2.2.isSome then s1.repairRead c' r' else s1
      else if r.step = 1 ∧ ¬ s.repairOut addr then s.repairWrite c r
      else s

/-- CANVAS_REPAIR_DONE (R383): every fragment and record is written; CANVAS_ADDR names the lowest-indexed live member. -/
def execCanvasRepairDone (index : BitVec 24) (s : State) : Host.Outcome State Fault Refusal :=
  let i := index.toNat
  let d := s.d i
  match s.storedAt d with
  | none => .next s
  | some c => match c.repair with
    | none => .next s
    | some r =>
      if r.step ≠ 2 ∨ s.repairOut c.key then .next s
      else
        let ms := r.members c.members
        let addr : U64 := match ms.find? fun m => (s.member m.1).isSome with
          | some m => BitVec.ofNat 64 (2 ^ 48 * m.1 + m.2)
          | none => c.addr
        let s1 := s.setStored c { c with members := ms, rgen := c.rgen + 1, repair := none, addr := addr }
        .next ((s1.setD i { d with canvasAddr := addr }).bump .repairs 0 1)

end Sys2Proof.Machine
end

