-- ==== Sys2Proof/Machine/Ring.lean ====
section
/-! DEFINITION. Rings over several devices: RING_EXTEND (R169), RING_CMD (R67, R89, R120, R121, R174, R385), QUERY and RESULT
(R168, R170..R172), and the writes of handed-over requests (R175). -/

namespace Sys2Proof.Machine

/-! ## RING_EXTEND (R169) -/

/-- The checks of R169 that the tail's device makes, the season check apart. -/
def State.extendChecks (s : State) (i dev : Nat) : List (Bool × Nat) :=
  let d := s.d i
  let pending := s.comp.relays.any fun r => r.kind == 3 && r.index == i
  [(d.ringNext != 0xFFFF || pending, eRingMember), (d.ringSize == 64, eRingLimit), (s.inRing i dev, eSessionParam),
   (s.devNo.isNone || !s.reachable d.slice dev, eRingMember)]

/-- RING_CMD for a new standby sent to its device (R169). -/
def State.extendNow (s : State) (i dev sl : Nat) (t : Tag) : State :=
  let d := s.d i
  let pal := (tabGet s.srv.pals d.palette).map fun e => (e.content, BitVec.ofNat 32 e.tokens)
  let r : Relay := { kind := 3, index := i, tag := some t }
  let s1 := { s with comp := { s.comp with relays := s.comp.relays ++ [r] } }
  s1.ringSend dev { ringOps 3 d.sessionId.toNat d.ownerEpoch with
    pos := BitVec.ofNat 8 (d.ringPos + 1), size := BitVec.ofNat 8 d.ringSize, prev := BitVec.ofNat 16 (s.devNo.getD 0xFFFF)
    dclass := BitVec.ofNat 2 d.dclass, prot := if d.prot then 1 else 0, pageMaxLog2 := BitVec.ofNat 4 d.pageMaxLog2
    modelHash := (s.modelHash d.slice).getD 0, palette := pal, targetDev := BitVec.ofNat 16 dev
    targetSlice := BitVec.ofNat 6 sl } (.ring 3 i)

/-- RING_EXTEND (R169): at once in Autumn, at the step end in Summer. -/
def execRingExtend (h : Hdr) (handle : U64) (targetDev : U16) (targetSlice : BitVec 6) (s : State) :
    Host.Outcome State Fault Refusal :=
  hostCmd { widths := [64, 16, 6], entry := handleNode handle } h (fun s t =>
    withIndex (s.tailHandle h.fn.toNat handle) fun i =>
      let d := s.d i
      if s.closing i then .reject eSessionClosing
      else if ¬ ((d.season = .autumn ∧ d.op = .none) ∨ d.season = .summer) then .reject eSeason
      else checked (s.extendChecks i targetDev.toNat)
        (if d.season = .summer then
          .later { s with srv := { s.srv with
            extends_ := s.srv.extends_ ++ [(i, targetDev.toNat, targetSlice.toNat, t)] } }
        else .later (s.extendNow i targetDev.toNat targetSlice.toNat t))) s

/-- The standby made at its device: checks 4 to 8 of R169 there, and E_JOB_PROGRAM where the slice has no current model program
(R133); its handle is the result. -/
def State.makeStandby (s : State) (src : Nat) (o : RingOps) : State × Ans :=
  let sl := o.targetSlice.toNat
  let pal := o.palette.bind fun x => s.palFind sl x.1 x.2.toNat
  match firstFail
      [(s.sidUsed o.sid, eSessionParam), ((s.curProg sl).isNone, eJobProgram),
       (!bitAt (s.sliceComp sl) 2 || (tabGet s.srv.jobs sl).isNone || s.modelHash sl != some o.modelHash, eRingMember),
       (o.palette.isSome && pal.isNone, eNoPalette),
       (s.emptyIndex.isNone, eTableFull), ((s.freeWindow sl).isNone, eNoWindow)], s.emptyIndex with
  | some c, _ => (s, { status := c })
  | none, none => (s, { status := eTableFull })
  | none, some i =>
    let d : Desc := { season := .autumn, ownerState := .owned, gen := (s.d i).gen, slice := sl, ringPos := o.pos.toNat
                      pageMaxLog2 := o.pageMaxLog2.toNat, dclass := o.dclass.toNat, prot := o.prot == 1 || s.confidential sl
                      sessionId := o.sid, ownerEpoch := o.epoch.toNat, mapEpoch := s.comp.epoch
                      palette := pal.getD 0xFFFF, ringSize := o.size.toNat, ringPrev := src, lastSummerPkc := s.pkg.pkc }
    match ((((s.setD i d).descWritten i).takeWindow i).setKv i {}).remap sl with
    | none => (s, { status := eNoWindow })
    | some s1 =>
      let s2 := match pal with
        | some e => s1.palRef e true
        | none => s1
      (s2, { result := (handleOf i (s2.d i)).toNat })

/-! ## RING_CMD at a member -/

/-- The member's descriptor that a RING_CMD meets first on this device: below the sender, else any that is not the tail. -/
def State.ringEntry (s : State) (sid : U64) (src : Nat) : Option Nat :=
  let l := s.desc.filter fun x => x.2.used && x.2.sessionId == sid && !x.2.tail
  match l.find? fun x => x.2.ringNext == src with
  | some x => some x.1
  | none => l.head?.map (·.1)

/-- A relay of a RING_CMD down the ring: its answer goes up when the one from below is here. -/
def State.relayDown (s : State) (t : TxHdr) (o : RingOps) (i dev : Nat) (fresh : List Nat := []) : State × Ans :=
  let r : Relay := { kind := o.kind.toNat, index := i, ids := o.ids, hdr := some t, fresh := fresh }
  let s1 := { s with comp := { s.comp with relays := s.comp.relays ++ [r] } }
  (s1.ringSend dev o (.ring o.kind.toNat i), { reply := false })

/-- A command that the tail has carried here (R67): done to this device's stretches, then carried on down the ring. -/
def State.carryDown (s : State) (o : RingOps) (i : Nat) (f : State → Nat → State) : State × Ans :=
  let chain := s.ringChain 64 i
  let s1 := chain.1.foldl f s
  (match chain.2 with
    | none => s1
    | some dev => s1.ringSend dev o .none, {})

/-- FORK carried to this member (R89): its stretch, or stretches, forked, then the members below. -/
def State.memberFork (s : State) (t : TxHdr) (o : RingOps) (i : Nat) : State × Ans :=
  let chain := s.ringChain 64 i
  match s.forkEach o.ids chain.1 false with
  | .error c => (s, { status := c })
  | .ok s1 => match chain.2 with
    | none => (s1.forkKept o.ids, {})
    | some dev => s1.relayDown t o i dev (s.newRecords s1)

/-- MIGRATE carried to this device (R120): of a stretch it holds, else carried on. -/
def State.memberMigrate (s : State) (t : TxHdr) (o : RingOps) (i : Nat) : State × Ans :=
  let chain := s.ringChain 64 i
  match chain.1.find? fun k => (s.d k).ringPos == o.pos.toNat with
  | some k =>
    match s.migrateSeason k with
    | some c => (s, { status := c })
    | none => match firstFail (s.migrateChecks k o.pos.toNat o.targetDev.toNat o.tier.toNat) with
      | some c => (s, { status := c })
      | none => (s.migrateOwn k o.targetDev.toNat o.targetSlice.toNat o.tier.toNat none (some t), { reply := false })
  | none => match chain.2 with
    | none => (s, { status := eSessionParam })
    | some dev => s.relayDown t o i dev

/-- A new ring size and owner epoch (R174 step 7) at a member. The old tail of a D1 session now copies its stretch to its new
mirror, the new tail (R176). -/
def State.memberSize (s : State) (src size epoch i : Nat) : State :=
  let d := { s.d i with ringSize := size, ownerEpoch := epoch }
  let s1 := s.setD i d
  if d.dclass = 1 ∧ d.ringPos + 2 = d.ringSize ∧ d.ringNext = src ∧ d.mirrorDev ≠ src then s1.copyStretch i src else s1

/-- A stretch that a reset has ended counts as removed (R173): the holder of its mirror takes its place; the tail of a session
without mirrors has lost it. -/
def State.stretchLost (s : State) (sid : U64) (pos : Nat) : State :=
  let s1 := match s.mirrors.find? fun m => m.sessionId == sid && m.ringPos == pos with
    | some m => s.promoteMirror m
    | none => s
  (s1.desc.filter fun x => x.2.used && x.2.sessionId == sid && x.2.tail && x.2.dclass != 1).foldl (fun (t : State) x =>
    (t.setAx x.1 { t.ax x.1 with ringLost := true }).rowCause x.2.slice x.1 eRingLost) s1

/-- The loss of a stretch told to the devices above it in the ring and to its mirror's (R173, R84), `src` apart. -/
def State.tellLost (s : State) (sid : U64) (pos epoch src : Nat) (more : List Nat) : State :=
  let up := (s.desc.filter fun x => x.2.used && x.2.sessionId == sid && !x.2.tail).map (·.2.ringNext)
  let devs := ((up ++ more).filter fun dev => dev != 0xFFFF && dev != src && s.devNo != some dev).eraseDups
  devs.foldl (fun (t : State) dev =>
    t.ringSend dev { ringOps 10 sid.toNat epoch with pos := BitVec.ofNat 8 pos } .none) s

/-- What a RING_CMD does (R360). -/
def State.takeRing (s : State) (t : TxHdr) (o : RingOps) : State × Ans :=
  let src := t.src.toNat
  match o.kind.toNat, s.ringEntry o.sid src with
  | 1, some i => s.memberFork t o i
  | 2, _ => (s.closeRing o.sid 0xFFFFFFFF src, {})
  | 3, _ => s.makeStandby src o
  | 4, some i => s.memberMigrate t o i
  | 5, _ =>
    let old := if o.epoch.toNat > ((s.sessOf o.sid).map fun i => (s.d i).ownerEpoch).getD 0 then 0xFFFF else src
    let s1 := s.setNeighbours o.sid o.pos.toNat o.targetDev.toNat old o.epoch.toNat
    ((s1.forgetRing o.sid).resendQueries o.sid o.targetDev.toNat, { result := s1.besides o.sid o.pos.toNat })
  | 6, some i => s.carryDown o i fun u k => u.memberSize src o.size.toNat o.epoch.toNat k
  | 7, some i => s.carryDown o i fun u k =>
      u.memberPark k o.tier.toNat (bitAt o.flags.toNat 0) (bitAt o.flags.toNat 1)
  | 8, some i => s.carryDown o i fun u k => u.memberThaw k (bitAt o.flags.toNat 0) (bitAt o.flags.toNat 1)
  | 9, some i => s.carryDown o i fun u k => u.memberSet o k
  | 10, _ => ((s.stretchLost o.sid o.pos.toNat).tellLost o.sid o.pos.toNat o.epoch.toNat src [], {})
  | _, _ => (s, { status := eStaleMap })

/-- RING_CMD (R67, R89, R120, R169, R385). -/
def execRingCmd (t : TxHdr) (o : RingOps) (s : State) : Host.Outcome State Fault Refusal :=
  .next (s.serve (s.sessRule t 7 0x10 [] (.ringCmd t o) o.sid o.epoch.toNat (o.kind == 3 || o.kind == 5) fun u =>
    u.takeRing t o))

/-! ## Answers to a RING_CMD -/

/-- A relay removed. -/
def State.delRelay (s : State) (kind i : Nat) : State :=
  { s with comp := { s.comp with relays := s.comp.relays.filter fun r => !(r.kind == kind && r.index == i) } }

/-- A FORK at the tail ends with the members' answer: its children's handles are written, or the children are closed
again (R89). -/
def State.forkAnswered (s : State) (i status : Nat) : State :=
  match s.srv.forkPends.find? (·.index == i) with
  | none => s
  | some f =>
    let s1 := { s with srv := { s.srv with forkPends := s.srv.forkPends.filter (·.index != i) } }
    let s2 := s1.setD i { s1.d i with op := if (s1.d i).op = .fork then .none else (s1.d i).op }
    if status = 0 then (s2.forkOut f.ids f.outAddr f.children).complete f.tag eOk 0 []
    else
      -- members that an answer never came from may have forked
      let s3 := match status == eDevUnreachable, (s2.ringChain 64 i).2 with
        | true, some dev => f.ids.foldl (fun (u : State) (sid : U64) =>
            u.ringSend dev (ringOps 2 sid.toNat (s2.d i).ownerEpoch) .none) s2
        | _, _ => s2
      (s3.unfork f.ids f.fresh).complete f.tag status 0 []

/-- The answer to a RING_CMD of this device: a relay's goes on up the ring; the tail's ends its command (R89, R120, R169). -/
def State.ringAnswer (s : State) (kind i dev status result : Nat) : State :=
  if kind = 5 then
    let d := s.d i
    if status ≠ 0 then s
    else s.setD i { d with ringPrev := if bitAt result 0 then dev else d.ringPrev
                           ringNext := if bitAt result 1 then dev else d.ringNext }
  else match s.comp.relays.find? fun r => r.kind == kind && r.index == i with
  | none => s
  | some r =>
    let s1 := s.delRelay kind i
    match r.hdr with
    | some t => (if kind ≠ 1 then s1 else if status = 0 then s1.forkKept r.ids else s1.unfork r.ids r.fresh).lateAnswer t 7
        status result
    | none =>
      if kind = 1 then s1.forkAnswered i status
      else if kind = 3 then
        if status ≠ 0 then s1.completeOpt r.tag status []
        else
          let s2 := (s1.setD i { s1.d i with ringNext := dev }).setAx i
            { s1.ax i with nextSlice := bitsOf result 40 6, ringDevs := setInsert (s1.ax i).ringDevs dev }
          s2.completeOpt r.tag eOk (packBytes [(64, result)])
      else (if status = 0 then s1.setAx i { s1.ax i with ringDevs := [] } else s1).completeOpt r.tag status
        (packBytes [(64, result)])

/-! ## QUERY and RESULT (R168, R170..R172) -/

/-- A ring partial instance of a member's job for a QUERY (R168, R170 step 3): its first stage of scope 3. -/
def State.startPartial (s : State) (i : Nat) (b : Bytes) : State :=
  let d := s.d i
  let h := partialHdrOf b
  match tabGet s.srv.jobs d.slice with
  | none => s
  | some j =>
    let plan := s.plan d.slice j
    match plan.zipIdx.find? fun x => x.1.scope == 3 with
    | none => s
    | some (st, k) =>
      if j.state = .ending then s
      else
        let q : MemberQuery := { index := i, layer := h.layer, part := h.part, step := h.step, epoch := h.epoch
                                 tailDev := h.tailDev, rows := h.rows, heads := h.heads, pos0 := h.pos0, body := b.drop 64 }
        let x : Inst := { slice := d.slice, kernel := st.kernel, cls := .partial_, layer := h.layer, stage := k
                          sessions := [i], query := some q }
        s.queuePartial x

/-- QUERY taken by a member (R170 step 3): forwarded unchanged, then its partial begins; under an older owner epoch it is
discarded and counted (R91, R183). -/
def State.takeQuery (s : State) (src : Nat) (b : Bytes) : State :=
  let h := partialHdrOf b
  let sid := BitVec.ofNat 64 h.sid
  match s.staleOwner sid h.epoch, s.ringEntry sid src with
  | some sl, _ => (s.bump .staleOwnerCnt sl 1).bump .ringStale sl 1
  | none, none => s
  | none, some i =>
    let chain := s.ringChain 64 i
    let s1 := match chain.2 with
      | none => s
      | some dev => s.sendOne (s.d i).slice dev 4 1 0 [0, h.epoch] b
    chain.1.foldl (fun (u : State) k => u.startPartial k b) s1

/-- QUERY (R170..R172). -/
def execQuery (t : TxHdr) (data : Bytes) (s : State) : Host.Outcome State Fault Refusal :=
  let a := s.arrive t 4 1 data.length (laneOf 1 false) true
  .next (if a.2 ∧ (a.1.member t.src.toNat).isSome then a.1.takeQuery t.src.toNat data else a.1)

/-- RESULT (R170 step 5, R172). -/
def execResult (t : TxHdr) (data : Bytes) (s : State) : Host.Outcome State Fault Refusal :=
  let a := s.arrive t 4 2 data.length (laneOf 1 false) true
  .next (if a.2 ∧ (a.1.member t.src.toNat).isSome then a.1.resultIn data else a.1)

/-! ## Writes of handed-over requests (R175) -/

/-- A token ring entry from its 16 bytes (R258). -/
def ringEntryOf (b : Bytes) : RingEntry :=
  ⟨le b 0 4, le b 4 4, le b 8 2, le b 10 2, BitVec.ofNat 32 (le b 12 4)⟩

/-- A ring entry that the new tail sends for a request handed over from here: written in the usual order, or sent on to the
device this one had it from. -/
def State.handedEntry (s : State) (src sl ring : Nat) (b : Bytes) : State :=
  match s.srv.handed.find? fun h => h.dev == src && h.slice == sl && h.ring == ring with
  | none => s
  | some h => match h.via with
    | none => s.ringWrite sl ring [ringEntryOf b]
    | some v => s.send v.1 2 0 v.2 [ring, s.epochOf h.sid] b .none

/-- The completion of a request handed over from here. -/
def State.handedDone (s : State) (src : Nat) (b : Bytes) : State :=
  let hd := BitVec.ofNat 64 (le b 0 8)
  let id := BitVec.ofNat 64 (le b 8 8)
  match s.srv.handed.find? fun h => h.dev == src && h.handle == hd && h.requestId == id with
  | none => s
  | some h =>
    let s1 := { s with srv := { s.srv with handed := s.srv.handed.filter fun x => x != h } }
    match h.via with
    | none => s1.completeOpt h.tag (le b 16 4) (packBytes [(64, id.toNat), (32, le b 20 4)])
    | some v => s1.send v.1 2 0 v.2 [2 ^ 33, s.epochOf h.sid] b .none

/-- P and C of a ring that a request of a session here writes to. -/
def State.handedCredit (s : State) (src ring : Nat) (b : Bytes) : State :=
  let hd := BitVec.ofNat 64 (le b 0 8)
  let mine (r : Request) : Bool := r.live && r.handle == hd && r.tokenRing == ring && r.away.any (·.1 == src)
  match s.desc.find? fun x => mine x.2.active || mine x.2.pending with
  | none => (s.srv.handed.filter fun h => h.handle == hd && h.ring == ring && h.via.any (·.1 == src)).foldl
      (fun (u : State) h => u.send h.dev 2 0 h.devSlice [2 ^ 32 + ring, u.epochOf h.sid] b .none) s
  | some (i, _) =>
    let k := i * 2 ^ 14 + ring
    let t : TRing := { fn := 0, log2 := le b 16 4, base := 0, tailAddr := 0, vector := 0, ien := false
                       p := max (le b 8 4) (((tabGet s.srv.awayRings k).map (·.p)).getD 0), c := le b 12 4 }
    { s with srv := { s.srv with awayRings := tabPut s.srv.awayRings k t } }

/-- The session that a message of a handed-over request is about. -/
def State.handedSid (s : State) (t : TxHdr) (data : Bytes) : Option U64 :=
  let a := t.addr.toNat
  let hd := BitVec.ofNat 64 (le data 0 8)
  let mine (h : Handed) : Bool := h.dev == t.src.toNat &&
    if a < 2 ^ 32 then h.slice == t.slice.toNat && h.ring == a else h.handle == hd
  match s.srv.handed.find? mine with
  | some h => some h.sid
  | none => (s.desc.find? fun x => x.2.used && (x.2.active.handle == hd || x.2.pending.handle == hd)).map (·.2.sessionId)

/-- A WRITE to a slice of this device: what handed-over requests send each other, by address (log entry 26). Under an owner
epoch that has passed it is discarded, answered with E_STALE_OWNER and counted (R91). -/
def State.takeHanded (s : State) (t : TxHdr) (data : Bytes) : State × Ans :=
  let a := t.addr.toNat
  let src := t.src.toNat
  match (s.handedSid t data).bind fun sid => s.staleOwner sid t.aux.toNat with
  | some sl => (s.bump .staleOwnerCnt sl 1, { status := eStaleOwner })
  | none =>
  if a < 2 ^ 32 then (s.handedEntry src t.slice.toNat a data, {})
  else if a < 2 ^ 33 then (s.handedCredit src (a % 2 ^ 32) data, {})
  else (s.handedDone src data, {})

/-- The rule of WRITE: to the pool, where the whole range must lie in one allocated range, or to a slice. -/
def State.writeTxnRule (s : State) (t : TxHdr) (data : Bytes) : Rule :=
  if 64 ≤ t.slice.toNat then s.writeRule t data
  else { t := t, type := 2, op := 0, len := data.length, data := data, cmd := .writeTxn t data
         eff := fun u => u.takeHanded t data }

/-- WRITE (R175, R359). -/
def execWriteTxn (t : TxHdr) (data : Bytes) (s : State) : Host.Outcome State Fault Refusal :=
  .next (s.serve (s.writeTxnRule t data))

end Sys2Proof.Machine
end

