-- ==== Sys2Proof/Machine/Responses.lean ====
section
/-! DEFINITION. What a response does (R361): it ends the outstanding request and goes on with the operation the request belongs
to; a request that ends without one (R362, R364). -/

namespace Sys2Proof.Machine

/-! ## Parts of operations -/

/-- Bytes of a fetched granule written into its frame, poison with them (R301, R313). -/
def State.fetchBytes (s : State) (pa : Nat) (b : Bytes) (bad : Bool) : State :=
  let s1 := s.pwrite pa b
  if ¬ bad then s1
  else
    let secs := (List.range (divUp (pa + b.length) 128 - pa / 128)).map fun k => (pa / 128 + k) * 128
    { s1 with mem := { s1.mem with poison := secs.foldl setInsert s1.mem.poison } }

/-- A device no longer serves a T2 object (R305). -/
def State.objLost (s : State) (sl va dev : Nat) : State :=
  { s with mem := { s.mem with objects := s.mem.objects.map fun (o : Obj) =>
      if o.slice = sl ∧ o.tier = 2 ∧ o.va ≤ va ∧ va < o.va + o.bytes ∧ ¬ o.failed.contains dev then
        { o with failed := o.failed ++ [dev] } else o } }

/-- A READ of a granule answered (R301, R305); its data are poisoned where no path leads from the ports to its frame (R17). -/
def State.fetchAnswer (s : State) (sl va off dev status : Nat) (data : Bytes) (bad : Bool) : State :=
  match s.mem.fetched.find? fun f => f.slice == sl && f.va == va && f.inflight with
  | none => s
  | some f =>
    let cut := s.netCut (f.pa / 2 ^ 37 + 8) sl
    if status = 0 ∧ cut then (s.fetchBytes (f.pa + off) (zeros data.length) true).logErr 0x0008 (f.pa / 2 ^ 37 + 8) sl ePathDown
      (f.pa + off) none
    else if status = 0 then s.fetchBytes (f.pa + off) data bad
    else ({ s with mem := { s.mem with fetched := s.mem.fetched.filter (· != f) } }).objLost sl va dev

/-- A WRITE to an object's home answered (R303, R304). -/
def State.homeAnswer (s : State) (sl va dev status : Nat) : State :=
  let s1 := { s with mem := { s.mem with fetched := s.mem.fetched.map fun (f : FetchGran) =>
    if f.slice = sl ∧ f.va ≤ va ∧ va < f.va + f.size then { f with writes := f.writes - 1 } else f } }
  if status = 0 then s1 else s1.objLost sl va dev

/-- A request of a mover answered (R225, R305): its data goes to the destination; a failed READ gives poisoned data and ends
the requests of the instance; the command ends with the last response. -/
def State.moverAnswer (s : State) (c sl dst len status : Nat) (data : Bytes) (bad : Bool) : State :=
  let b := if status = 0 then padTo len data else zeros len
  let worse := bad || status != 0
  let bc := decide (2 ^ 40 ≤ dst ∧ dst < 2 ^ 60)
  let s1 :=
    if dst < 2 ^ 60 then (c :: if bc then s.broadcast c else []).foldl
      (fun (t : State) k => t.setCore k ((t.core k).write (dst % 2 ^ 40) b worse)) s
    else if dst < 2 ^ 61 then s.writeFrom (c / 64) sl (dst % 2 ^ 60) b worse else s
  let cut := decide (2 ^ 60 ≤ dst ∧ dst < 2 ^ 61) && s.cutTo (c / 64) sl (dst % 2 ^ 60) b.length
  let s2 := match (s1.core c).inst with
    | none => s1
    | some i => if status ≠ 0 then s1.poolLost i else if cut then s1.pathLost c i else s1
  if s2.moving c then s2 else s2.mvEnds c bc

/-- The mirror has refused rows of the running step (R152, R155): the session takes no further part in it. -/
def State.mirrorRefused (s : State) (i : Nat) : State :=
  let sl := (s.d i).slice
  match tabGet s.srv.jobs sl, s.openRow sl i with
  | some j, some r =>
    if r.held ≠ .none then s
    else
      let r' := { r with held := HeldReason.noPage, carry := false, chunk := 0, drafts := [], rows := 0, last := false }
      (s.setJob sl { j with batch := j.batch.map fun x => if x.index = i then r' else x }).markHeld r'
  | _, _ => s

/-- A copy of a stretch to its new mirror that has failed: what is still outstanding of it completes nothing, and the old mirror
stays (R176). -/
def State.copyFailed (s : State) (i : Nat) : State :=
  { s with comp := { s.comp with outst := s.comp.outst.map fun (t : Txn) =>
      if (t.purpose == Purpose.mirror i (2 ^ 64)) then { t with purpose := .none } else t } }

/-- A mirror's answer (R152, R176). Rows of the copy to a new mirror that it has no room for yet go out again. -/
def State.mirrorAnswer (s : State) (x : Txn) (i step status : Nat) : State :=
  if step = 2 ^ 64 then
    if status = eKvFull then s.send x.dev x.type x.op x.slice x.args x.payload (.mirror i (2 ^ 64))
    else if status ≠ 0 then s.copyFailed i
    else if s.comp.outst.any fun t => t.purpose == Purpose.mirror i (2 ^ 64) then s else s.mirrorMoved i
  else if status = 0 then s else s.mirrorRefused i

/-- A part of a batch command on a table of another device answered (R344, R345, R347). -/
def State.retAnswer (s : State) (id pos dev status : Nat) (data : Bytes) (bad : Bool) : State :=
  match s.ret.ops.find? (·.id == id) with
  | none => s
  | some o =>
    let st := if status = eNotMember ∨ (s.member dev).isNone then eNoTable
      else if status ≠ 0 then status else if bad then eMemPoison else 0
    s.setRetOp { o with got := tabPut o.got pos data, gotBad := if bad then setInsert o.gotBad pos else o.gotBad, status := if o.status = 0 then st else o.status }

/-- A message of a handoff answered: only an OFFER that is not taken ends the handoff here (R121). -/
def State.handoffAnswer (s : State) (i type op status : Nat) : State :=
  if type = 7 ∧ op = 1 ∧ status ≠ 0 ∧ status ≠ eDevUnreachable ∧ status ≠ eLinkDown then
    match s.handoffs.find? fun h => h.index == i && h.giver with
    | some h => s.giverBack h status
    | none => s
  else s

/-- The arbiter's answer to a PROPOSE (R373 step 6): the COMP_CHANGE that waits completes. -/
def State.proposeAnswer (s : State) (id status epoch : Nat) : State :=
  let tag := tabGet s.comp.waiting id
  ({ s with comp := { s.comp with waiting := tabDel s.comp.waiting id } }).completeOpt tag status
    (if status = 0 then packBytes [(32, epoch)] else [])

/-- What the operation of a request does with its answer: a status, and data. The request is no longer outstanding. -/
def State.respond (s : State) (x : Txn) (status : Nat) (data : Bytes) (bad : Bool) : State :=
  let result := le data 0 8
  let base : Option Nat := if status = 0 then some result else none
  match x.purpose with
  | .none | .map => s
  | .canvasAlloc i => if status = 0 then s.canvasAllocated i x.dev result else s.swapMember i x.dev
  | .objAlloc sl va => s.objAllocated sl va x.dev base
  | .aperture sl va => s.apertureAnswer sl va x.dev base
  | .fetch sl va off => s.fetchAnswer sl va off x.dev status data bad
  | .homeWrite sl va => s.homeAnswer sl va x.dev status
  | .mover c dst len => s.moverAnswer c x.slice dst len status data bad
  | .mirror i step => s.mirrorAnswer x i step status
  | .handoff i => s.handoffAnswer i x.type x.op status
  | .ring kind i => s.ringAnswer kind i x.dev status result
  | .ret o pos => s.retAnswer o pos x.dev status data bad
  | .ckpt sl num => s.ckAnswer sl num x.dev x.op status result
  | .canvasData i => if status = 0 then s else s.swapMember i x.dev
  | .repair addr => s.repairAnswer addr x.dev x.op status result
  | .arb sid dev => s.arbAnswer (BitVec.ofNat 64 sid) dev status result
  | .resolve sid left => s.resolveAnswer (BitVec.ofNat 64 sid) left status
  | .propose id => s.proposeAnswer id status result

/-- A request ended with an answer. -/
def State.answered (s : State) (x : Txn) (status : Nat) (data : Bytes) (bad : Bool) : State :=
  (s.endTxn x.dev x.tag).respond x status data bad

/-- The outstanding request a response belongs to: by its source and TAG; a request that was forwarded is answered by the new
holder, and is found by TAG and ADDR (R377). -/
def State.respTo (s : State) (t : TxHdr) : Option Txn :=
  match s.txn t.src.toNat t.tag.toNat with
  | some x => some x
  | none => s.comp.outst.find? fun x => x.tag == t.tag.toNat && x.args.headD 0 == t.addr.toNat

/-- RESP (R361, R377 order 5): E_STALE_MAP makes the source fetch the map and send the request again with its TAG. -/
def execResp (t : TxHdr) (status : U16) (data : Bytes) (s : State) : Host.Outcome State Fault Refusal :=
  let a := s.arriveResp t 8 data.length
  match a.2, a.1.respTo t with
  | true, some x =>
    if status.toNat = eStaleMap ∧ x.type ≠ 6 then
      if t.epoch.toNat ≤ a.1.comp.epoch then .next (a.1.again x)
      else .next ((a.1.setTxn { x with stale := true }).send t.src.toNat 6 6 0xFF [] [] .map)
    else .next (a.1.answered x status.toNat data (t.poison == 1))
  | _, _ => .next a.1

/-- TXN_LIMIT_EXPIRY (R362, R364): a request without a response for TXN_LIMIT counts ends with E_DEV_UNREACHABLE; one that
found no route ends with E_LINK_DOWN. -/
def execTxnLimitExpiry (dev : U16) (tag : U32) (s : State) : Host.Outcome State Fault Refusal :=
  match s.txn dev.toNat tag.toNat with
  | none => .next s
  | some x =>
    if x.held then .next s
    else if x.port = 48 ∧ (s.route x.slice x.dev x.type x.op).isNone then .next (s.answered x eLinkDown [] false)
    else if s.pkc - x.first.toNat < s.txnLimit then .next s
    else .next (s.answered x eDevUnreachable [] false)

/-! ## Requests held for a newer map (R377 order 3) -/

/-- A command that is a request, run once more from its decision on. -/
def State.rerun (s : State) (c : Instr) : Host.Outcome State Fault Refusal :=
  match c with
  | .readTxn t => execReadTxn t s
  | .writeTxn t data => execWriteTxn t data s
  | .addF32 t data => execAddF32 t data s
  | .addBf16 t data => execAddBf16 t data s
  | .setRow t data => execSetRow t data s
  | .fadd64 t data => execFadd64 t data s
  | .cas64 t data => execCas64 t data s
  | .canvasData t sid data => execCanvasData t sid data s
  | .desc t data locator len => execDesc t data locator len s
  | .mirrorRows t sid layer first data => execMirrorRows t sid layer first data s
  | .mirrorCommit t sid committed => execMirrorCommit t sid committed s
  | .mirrorState t sid sampler scratch cursors => execMirrorState t sid sampler scratch cursors s
  | .offer t o => execOffer t o s
  | .accept t sid epoch handle => execAccept t sid epoch handle s
  | .refuse t sid epoch code => execRefuse t sid epoch code s
  | .ack t sid epoch => execAck t sid epoch s
  | .commitHandoff t sid epoch => execCommitHandoff t sid epoch s
  | .committed t sid epoch handle => execCommitted t sid epoch handle s
  | .released t sid epoch => execReleased t sid epoch s
  | .resolve t sid epoch receiver handle => execResolve t sid epoch receiver handle s
  | .recordQuery t sid => execRecordQuery t sid s
  | .ringCmd t o => execRingCmd t o s
  | .poolAlloc t units => execPoolAlloc t units s
  | .poolFree t base => execPoolFree t base s
  | .poolInfo t => execPoolInfo t s
  | _ => .next s

/-- EPOCH_HOLD_EXPIRY (R377): the map has caught up, or TXN_LIMIT ÷ 4 counts have passed: the request is decided again. -/
def execEpochHoldExpiry (src : U16) (tag : U32) (s : State) : Host.Outcome State Fault Refusal :=
  match s.net.held.find? fun h => h.hdr.src == src && h.hdr.tag == tag with
  | none => .next s
  | some h =>
    if s.comp.epoch < h.hdr.epoch.toNat ∧ s.pkc - h.since.toNat < s.txnLimit / 4 then .next s
    else State.rerun { s with net := { s.net with held := s.net.held.filter (· != h), redo := true } } h.cmd

end Sys2Proof.Machine
end

