-- ==== Sys2Proof/Machine/Composition.lean ====
section
/-! DEFINITION. The composition map (R371..R376): changes, the quorum and its vote, what a new epoch does on a member, the
composition sealing key (R423), liveness and removal (R378, R383..R386). -/

namespace Sys2Proof.Machine

/-! ## Messages -/

/-- A change as a message carries it. -/
def MapChange.args (c : MapChange) : List Nat :=
  [c.op, c.device, c.slice, c.kind, c.identity.toNat, c.pool, boolBit c.force] ++ c.qlist

/-- A change from the operands of a command or a message. -/
def changeOf (o : ChangeOps) : MapChange :=
  { op := o.op.toNat, device := o.device.toNat, slice := o.slice.toNat, kind := o.kind.toNat, identity := o.identity
    pool := o.poolUnits.toNat, force := o.force == 1
    qlist := (o.qlist.map BitVec.toNat).filter (· != 0xFFFF) }

/-- The map as a message carries it (R371). -/
def State.mapArgs (s : State) : List Nat :=
  [s.comp.id.toNat, s.comp.epoch, s.comp.quorum.length] ++ s.comp.quorum ++ [s.comp.members.length] ++
  s.comp.members.flatMap fun m => [m.1, m.2.kind, m.2.state, m.2.slices, m.2.pool, m.2.identity.toNat]

/-- The table of members of a map message. -/
def membersOf (m : MapOps) : Tab Member :=
  m.members.foldl (fun t x => tabPut t x.device.toNat
    { kind := x.kind.toNat, state := x.state.toNat, slices := x.slices.toNat, pool := x.poolUnits.toNat
      identity := x.identity, gone := if x.state.toNat = 2 then m.epoch.toNat else 0 }) []

/-! ## The quorum (R370, R373) -/

/-- The majority of a quorum. -/
def State.majority (s : State) : Nat := s.comp.quorum.length / 2 + 1

/-- This device is a quorum member. -/
def State.inQuorum (s : State) : Bool := s.ownNo.any s.comp.quorum.contains

/-- Quorum members this device finds live, itself among them. -/
def State.liveQuorum (s : State) : List Nat :=
  s.comp.quorum.filter fun q => s.ownNo == some q || (tabGet s.comp.links q).isSome

/-- The other quorum members. -/
def State.otherQuorum (s : State) : List Nat := s.comp.quorum.filter fun q => s.ownNo != some q

/-! ## Checks of a change (R375) -/

/-- Operands out of range (R375 check 1). -/
def State.changeBad (s : State) (c : MapChange) : Bool :=
  let m := s.member c.device
  match c.op with
  | 1 => decide (4094 < c.device) || m.isSome || !(c.kind == 1 || c.kind == 2)
  | 2 => m.isNone || s.comp.quorum.contains c.device
  | 3 => !(m.any fun x => x.kind == 1) || m.any fun x => bitAt x.slices c.slice
  | 4 => !(m.any fun x => bitAt x.slices c.slice)
  | 5 => !([3, 5, 7].contains c.qlist.length && (c.qlist.zip (c.qlist.drop 1)).all (fun p => decide (p.1 < p.2)) &&
      c.qlist.all fun q => (s.member q).any fun x => x.kind == 1)
  | _ => true

/-- Two changes concern the same device or slice. -/
def MapChange.same (a b : MapChange) : Bool := a.device == b.device && a.op != 5 && b.op != 5

/-- State of this device that a removal without FORCE must not meet (R375 check 2), for one slice or for all. -/
def State.holdsState (s : State) (sl : Option Nat) : Bool :=
  let mine (x : Nat) : Bool := sl.all (· == x)
  (s.desc.any fun d => d.2.used && mine d.2.slice && d.2.ringSize > 1) || s.mirrors.any (fun m => mine m.slice) ||
  s.pool.any (fun r => mine r.slice && s.ownNo != some r.owner) || s.handoffs.any fun h => mine h.slice

/-- Check 2 of R375: what a device can see of it: the queue it holds, and its own state. -/
def State.changeBusy (s : State) (c : MapChange) : Bool :=
  s.comp.queue.any (fun p => p.change.same c) ||
  (s.ownNo == some c.device && !c.force &&
    ((c.op == 2 && s.holdsState none) || (c.op == 4 && s.holdsState (some c.slice))))

/-- The checks of a change against the current map, in order. -/
def State.changeCheck (s : State) (c : MapChange) : Option Nat :=
  firstFail [(s.changeBad c, eCompParam), (s.changeBusy c, eCompBusy),
    (decide (s.liveQuorum.length < s.majority), eNoQuorum), (decide (0xFFFFFFFF ≤ s.comp.epoch), eMapEpochLimit)]

/-! ## What a new epoch does on a member (R372, R377, R379, R383..R386) -/

/-- Pool ranges of an owner that has left: reclaimed, but for those that begin with a valid canvas record (R379). -/
def State.reclaimOwner (s : State) (dev : Nat) : State :=
  (s.pool.filter fun r => r.owner == dev && !r.kept).foldl (fun (t : State) r =>
    if t.recordAt r then { t with pool := t.pool.map fun x => if x = r then { x with kept := true } else x }
    else t.poolDrop r) s

/-- T2 objects with a stripe member that has left (R305). -/
def State.objectsLost (s : State) (dev : Nat) : State :=
  { s with mem := { s.mem with objects := s.mem.objects.map fun (o : Obj) =>
      if (o.tier = 2 ∧ o.members.any (·.1 == dev) ∧ ¬ o.failed.contains dev) then { o with failed := o.failed ++ [dev] }
      else o } }

/-- Sessions that a removed member concerns: a ring neighbour of a D0 or D2 session (R173), the mirror of a D1 session
(R85). -/
def State.sessionsLost (s : State) (dev : Nat) : State :=
  (s.desc.filter fun x => x.2.used).foldl (fun (t : State) x =>
    let d : Desc := x.2
    let known := (s.ax x.1).ringDevs.contains dev && d.ringNext != dev
    let below := s.desc.any fun y => y.2.used && y.2.sessionId == d.sessionId && y.2.ringPrev == dev
    if d.dclass ≠ 1 ∧ d.ringSize > 1 ∧ d.tail ∧ (known ∨ below) then
      (t.setAx x.1 { t.ax x.1 with ringLost := true }).rowCause d.slice x.1 eRingLost
    else if d.dclass ≠ 1 ∧ ¬ d.tail ∧ d.ringPrev = dev then t.tellLost d.sessionId (d.ringPos - 1) d.ownerEpoch dev []
    else if d.dclass = 1 ∧ d.mirrorDev = dev then t.rowCause d.slice x.1 eNoMirror
    else t) s

/-- Requests to a device that has left end (R386). -/
def State.endRequests (s : State) (dev : Nat) : State :=
  (s.comp.outst.filter (·.dev == dev)).foldl (fun (t : State) x =>
    if (t.txn dev x.tag).isSome then t.answered x eNotMember [] false else t) s

/-- Everything a member's removal does on this device. -/
def State.memberGone (s : State) (dev : Nat) : State :=
  let s1 := ((s.reclaimOwner dev).objectsLost dev).sessionsLost dev
  let s2 := (s1.mirrors.filter (·.primary == dev)).foldl State.promoteMirror s1
  let s3 := { s2 with comp := { s2.comp with links := tabDel s2.comp.links dev } }
  let s4 := ((s3.cnv.ops.filter fun o => o.members.any (·.1 == dev)).foldl (fun (t : State) o => t.swapMember o.index dev)
    (s3.endRequests dev))
  let s5 := (s4.ck.targets.filter fun x => x.members.any (·.1 == dev)).foldl (fun (t : State) x => t.ckTargetLost x.slice) s4
  (s5.cnv.stored.filter fun c => c.members.any (·.1 == dev)).foldl State.startRepair s5

/-- Ports to devices that the map has admitted or removed: LIMITED to UP or DEGRADED without a new bring-up, and back
(R366, R376). -/
def State.portsByMap (s : State) : State :=
  { s with net := { s.net with ports := s.net.ports.map fun p =>
      let x := p.2
      let st := if x.state < 3 ∨ 5 < x.state then x.state
        else if (s.member x.peerDev).isNone then 5 else if x.width = 8 then 3 else 4
      (p.1, { x with state := st }) } }

/-- A map applied in one write (R371, R372, R377): entries removed two epochs ago and older forwarding records are dropped,
what the removal of members does follows, requests that waited for the map go out again, open handoff cases are asked
again. -/
def State.applyMap (s : State) (epoch : Nat) (id : U64) (quorum : List Nat) (members : Tab Member) : State :=
  let kept : Tab Member := (members.map fun m =>
    match tabGet s.comp.members m.1 with
    | some old => (m.1, if m.2.state = 2 ∧ old.state = 2 then { m.2 with gone := old.gone } else m.2)
    | none => m).filter fun m => m.2.state != 2 || decide (epoch < m.2.gone + 2)
  let was := (s.comp.members.filter (·.2.state == 1)).map (·.1)
  let s1 := { s with comp := { s.comp with
    epoch := epoch, id := id, quorum := quorum, members := kept
    forward := s.comp.forward.filter fun f => decide (epoch ≤ f.2.2.2 + 2)
    left := s.comp.left.filter fun x => s.comp.forward.any fun f => f.2.1 == x.1.toNat && decide (epoch ≤ f.2.2.2 + 2)
    vote := match s.comp.vote with
      | some v => if v.1 ≤ epoch then none else some v
      | none => none } }
  let gone := was.filter fun d => (s1.member d).isNone && s1.ownNo != some d
  let s2 := (gone.foldl State.memberGone s1).portsByMap
  let s2 := (s2.cnv.stored.filter (·.repair.isNone)).foldl State.startRepair s2
  let s3 := (s2.comp.outst.filter (·.stale)).foldl (fun (t : State) x =>
    (t.setTxn { x with stale := false }).again { x with stale := false }) s2
  let s4 := s3.comp.arbCases.foldl State.askCase s3
  s4.sendLinks

/-- The members after a change committed at epoch `e` (R371, R375). -/
def State.changed (s : State) (c : MapChange) (e : Nat) : List Nat × Tab Member :=
  let ms := s.comp.members
  let put (f : Member → Member) : Tab Member := match tabGet ms c.device with
    | some m => tabPut ms c.device (f m)
    | none => ms
  match c.op with
  | 1 =>
    let pool := if c.kind = 2 then c.pool
      else if s.ownNo = some c.device then s.poolTotal else (Config.memberOffer c.device).2
    (s.comp.quorum, tabPut ms c.device { kind := c.kind, pool := pool, identity := c.identity })
  | 2 => (s.comp.quorum, put fun m => { m with state := 2, gone := e, slices := 0 })
  | 3 => (s.comp.quorum, put fun m => { m with slices := m.slices ||| 2 ^ c.slice })
  | 4 => (s.comp.quorum, put fun m => { m with slices := if bitAt m.slices c.slice then m.slices - 2 ^ c.slice else m.slices })
  | _ => (c.qlist, ms)

/-- Epoch 1: the map of the quorum members and their joined slices (R373). -/
def State.firstMembers (s : State) : Tab Member :=
  let b := s.compSect.getD []
  s.comp.quorum.zipIdx.foldl (fun t q =>
    let offer := if s.ownNo = some q.1 then
        (maskOf ((List.range 64).filter fun sl => bitAt (s.sliceComp sl) 0), s.poolTotal)
      else Config.memberOffer q.1
    tabPut t q.1 { kind := 1, slices := offer.1 % 2 ^ 64, pool := offer.2, identity := hashAt b (0x20 + 32 * q.2) }) []

/-! ## The composition sealing key (R376, R423) -/

/-- The wrap key of SEAL_KEY. -/
def State.wrapKey (s : State) (ss : Bytes) (dev : Nat) : Bytes :=
  Config.kmac ss (bytesOf 8 s.comp.id.toNat ++ bytesOf 2 dev ++ bytesOf 4 s.comp.epoch) 256 (ascii "QW5200 seal")

/-- The key kept by the security root, with a copy in the device reserve. -/
def State.setCsk (s : State) (k : U256) : State := { s with sec := { s.sec with csk := some k, cskReserve := some k } }

/-- SEAL_KEY sent to a member: refused where its DEVICE_ID is not its map IDENTITY or it is not measured and APPROVED. -/
def State.sendKey (s : State) (dev : Nat) : State :=
  match s.sec.csk, s.member dev with
  | some k, some m =>
    let a := Config.peerAttest dev
    if m.kind ≠ 1 ∨ s.ownNo = some dev ∨ a.1 ≠ m.identity ∨ ¬ a.2.2 then s
    else
      let e := Config.kemEncap a.2.1 s.free
      let w := Config.gcmSeal (s.wrapKey e.2 dev) (zeros 12) [] (hashBytes k)
      s.drew.send dev 6 8 0xFF [] (padTo 1088 e.1 ++ w.1 ++ padTo 16 w.2) .map
  | _, _ => s

/-- The arbiter's key at a commit: drawn at epoch 1, and when no member holds it, which the spec gives it no message to learn:
a free value says so. -/
def State.drawKey (s : State) (epoch : Nat) : State :=
  if s.sec.csk.isSome then s
  else if epoch = 1 ∨ bitAt (Config.freeValue s.free).toNat 0 then
    (s.setCsk (hashAt (Config.drbg (s.free + 1) 32) 0)).drew.drew
  else s.drew

/-- SEAL_KEY (R423): taken from a quorum member only. -/
def State.takeKey (s : State) (src : Nat) (blob : Bytes) : State × Ans :=
  if ¬ s.comp.quorum.contains src then (s, { status := eNotMember })
  else if s.module = 2 then (s, { status := eCryptoError })
  else match Config.kemDecap deviceKemSeed (sub blob 0 1088) with
    | none => (s, { status := eKeyUnwrap })
    | some ss => match Config.gcmOpen (s.wrapKey ss (s.ownNo.getD 0xFFFF)) (zeros 12) [] (sub blob 1088 32) (sub blob 1120 16) with
      | none => (s, { status := eKeyUnwrap })
      | some k => (s.setCsk (hashAt k 0), {})

/-- SEAL_KEY. -/
def execSealKey (t : TxHdr) (blob : Bytes) (s : State) : Host.Outcome State Fault Refusal :=
  .next (s.serve { t := t, type := 6, op := 8, len := blob.length, cmd := .sealKey t blob, exempt := true
                   eff := fun u => u.takeKey t.src.toNat blob })

/-! ## The arbiter (R373, R374) -/

/-- The answer to whoever made a proposal. -/
def State.tellProposer (s : State) (p : Proposal) (status : Nat) : State :=
  match p.hdr, p.own with
  | some t, _ => (s.tagDone t.src.toNat t.tag.toNat status s.comp.epoch).answer t 6 8 status s.comp.epoch
      (bytesOf 8 s.comp.epoch) false
  | none, some id => s.proposeAnswer id status s.comp.epoch
  | none, none => s

/-- The first proposal is removed, and the vote with it. -/
def State.popProposal (s : State) : State :=
  { s with comp := { s.comp with queue := s.comp.queue.drop 1, votes := [], prepared := none } }

/-- The first proposal is checked against the map, written to the vote record and sent to the quorum (R373 step 2). A change
this device has already voted for at the next epoch is proposed before any other (R374). Its own vote on a REMOVE_DEVICE is
yes only when it too finds the device unreachable (R373 step 3). `n` bounds failed proposals. -/
def State.prepareFront (s : State) : Nat → State
  | 0 => s
  | n + 1 =>
    match s.comp.prepared, s.comp.queue with
    | none, p :: rest =>
      let e := s.comp.epoch + 1
      let owed := match s.comp.vote with
        | some v => if v.1 = e ∧ v.2 ≠ p.change then some v.2 else none
        | none => none
      let q : List Proposal := match owed with
        | some c => { change := c } :: p :: rest
        | none => p :: rest
      let c := (q.head?.map (·.change)).getD p.change
      match ({ s with comp := { s.comp with queue := q.drop 1 } }).changeCheck c with
      | some code => ((s.tellProposer (q.headD p) code).popProposal).prepareFront n
      | none =>
        let own := s.ownNo.getD 0xFFFF
        let s1 := { s with comp := { s.comp with
          queue := q, vote := some (e, c), votes := if s.comp.voteLost ∨ (c.op = 2 ∧ ¬ s.unreachable c.device) then [] else [own], prepared := some s.pkg.pkc } }
        s1.otherQuorum.foldl (fun (t : State) d => t.send d 6 2 0xFF (e :: c.args) [] .map) s1
    | _, _ => s

/-- A committed change told to the members: COMMIT_MAP to the quorum, MAP_UPDATE to every member, appliances too
(R365), the key to a device that has joined (R373 step 4, R376). -/
def State.tellMembers (s : State) (c : MapChange) : State :=
  let own := s.ownNo.getD 0xFFFF
  let s1 := s.otherQuorum.foldl (fun (t : State) d => t.send d 6 4 0xFF (s.comp.epoch :: c.args) [] .map) s
  let to_ := (s.comp.members.filter fun m => m.2.state == 1 && m.1 != own).map (·.1)
  let s2 := to_.foldl (fun (t : State) d => t.send d 6 5 0xFF s.mapArgs [] .map) s1
  if s.comp.epoch = 1 then to_.foldl State.sendKey s2
  else if c.op = 1 ∧ c.kind = 1 then s2.sendKey c.device else s2

/-- MAP_COMMIT: a majority of yes votes (R373 step 4). -/
def State.commitChange (s : State) (p : Proposal) : State :=
  let e := s.comp.epoch + 1
  let x := s.changed p.change e
  let s1 := ((s.popProposal).applyMap e s.comp.id x.1 x.2).drawKey e
  ((s1.tellMembers p.change).tellProposer p 0).prepareFront 64

/-- The votes counted. -/
def State.countVotes (s : State) : State :=
  match s.comp.prepared, s.comp.queue with
  | some _, p :: _ => if s.majority ≤ s.comp.votes.length then s.commitChange p else s
  | _, _ => s

/-- The arbiter that reaches a majority before any map exists commits epoch 1 (R373). -/
def State.commitFirst (s : State) : State :=
  let s1 := (s.applyMap 1 s.comp.id s.comp.quorum s.firstMembers).drawKey 1
  (s1.tellMembers { op := 0 }).prepareFront 64

/-- This device looks whether it is the arbiter: one that has become it asks the quorum first (R374); with the replies of a
majority it commits the first map or goes on with its proposals. -/
def State.checkArbiter (s : State) : State :=
  if ¬ s.inQuorum ∨ s.arbiter ≠ s.ownNo then
    { s with comp := { s.comp with leads := false, heard := [], votes := [], prepared := none } }
  else if ¬ s.comp.leads then
    let s1 := { s with comp := { s.comp with leads := true, heard := [] } }
    s1.otherQuorum.foldl (fun (t : State) d => t.send d 6 6 0xFF [] [] .map) s1
  else if s.comp.heard.length + 1 < s.majority then s
  else if s.comp.epoch = 0 then s.commitFirst
  else s.prepareFront 64

/-- A change put into this device's queue as the arbiter (R373 step 2). -/
def State.enqueueChange (s : State) (p : Proposal) : State :=
  match s.changeCheck p.change with
  | some code => s.tellProposer p code
  | none =>
    let s1 := { s with comp := { s.comp with queue := s.comp.queue ++ [p] } }
    if s1.comp.leads ∧ s1.majority ≤ s1.comp.heard.length + 1 then s1.prepareFront 64 else s1

/-- A change this device proposes by itself (R372, R378). -/
def State.proposeSelf (s : State) (c : MapChange) : State :=
  match s.arbiter with
  | none => s
  | some a => if s.ownNo = some a then s.enqueueChange { change := c } else s.send a 6 1 0xFF c.args [] .map

/-- The slices of this device whose Composition section differs from the map (R372). -/
def State.proposeSlices (s : State) : State :=
  match s.devNo with
  | none => s
  | some n => (List.range 64).foldl (fun (t : State) sl =>
    let want := bitAt (t.sliceComp sl) 0
    if want = t.joined sl then t
    else t.proposeSelf { op := if want then 3 else 4, device := n, slice := sl, force := !want }) s

/-- COMP_CHANGE (R373 step 1, R375). -/
def execCompChange (h : Hdr) (c : ChangeOps) (s : State) : Host.Outcome State Fault Refusal :=
  hostCmd { fns := .pf0, priv := eCompPriv, widths := [3, 16, 6, 2, 256, 64, 1, 112]
            noImage := true } h (fun s t =>
    let x := { changeOf c with proposer := s.devNo.getD 0xFFFF }
    checked [(s.devNo.isNone, eNotMember), (s.changeBad x, eCompParam), (s.changeBusy x, eCompBusy),
      (s.arbiter.isNone, eNoQuorum)]
      (let id := tabFresh s.comp.waiting 0
       let s1 := { s with comp := { s.comp with waiting := tabPut s.comp.waiting id t } }
       match s.arbiter with
       | some a =>
         if s.ownNo = some a then .later (s1.enqueueChange { change := x, own := some id })
         else .later (s1.send a 6 1 0xFF x.args [] (.propose id))
       | none => .reject eNoQuorum)) s

/-- PROPOSE (R373 step 2): answered when the change has committed or failed. -/
def execPropose (t : TxHdr) (c : ChangeOps) (s : State) : Host.Outcome State Fault Refusal :=
  .next (s.serve { t := t, type := 6, op := 1, len := 0, cmd := .propose t c, exempt := true
                   eff := fun u =>
                     if ¬ u.inQuorum then (u, { status := eNoQuorum })
                     else
                       let x := { changeOf c with proposer := t.src.toNat }
                       match u.changeCheck x with
                       | some code => (u, { status := code })
                       | none => (u.enqueueChange { change := x, hdr := some t }, { reply := false }) })

/-- This quorum member's vote on a change (R373 step 3, R374). -/
def State.votes (s : State) (epoch : Nat) (c : MapChange) : Bool :=
  s.inQuorum && epoch == s.comp.epoch + 1 && !s.comp.voteLost &&
  (match s.comp.vote with
    | some v => v.1 != epoch || v.2 == c
    | none => true) &&
  (c.op != 2 || s.unreachable c.device)

/-- PREPARE (R373 step 3): the vote record is written before the VOTE goes out. -/
def execPrepare (t : TxHdr) (epoch : U32) (c : ChangeOps) (s : State) : Host.Outcome State Fault Refusal :=
  .next (s.serve { t := t, type := 6, op := 2, len := 0, cmd := .prepare t epoch c, exempt := true
                   eff := fun u =>
                     let x := changeOf c
                     let yes := u.votes epoch.toNat x
                     let u1 := if yes then { u with comp := { u.comp with vote := some (epoch.toNat, x) } } else u
                     (u1.send t.src.toNat 6 3 0xFF [epoch.toNat, boolBit yes] [] .map, {}) })

/-- VOTE (R373 step 4). -/
def execVote (t : TxHdr) (epoch : U32) (yes : U1) (s : State) : Host.Outcome State Fault Refusal :=
  .next (s.serve { t := t, type := 6, op := 3, len := 0, cmd := .vote t epoch yes, exempt := true
                   eff := fun u =>
                     let src := t.src.toNat
                     if yes = 1 ∧ u.comp.prepared.isSome ∧ epoch.toNat = u.comp.epoch + 1 ∧ u.comp.quorum.contains src ∧
                         ¬ u.comp.votes.contains src then
                       (({ u with comp := { u.comp with votes := u.comp.votes ++ [src] } }).countVotes, {})
                     else (u, {}) })

/-- COMMIT_MAP (R373, R374): the change is applied; a member whose vote record was lost may vote again. -/
def execCommitMap (t : TxHdr) (epoch : U32) (c : ChangeOps) (s : State) : Host.Outcome State Fault Refusal :=
  .next (s.serve { t := t, type := 6, op := 4, len := 0, cmd := .commitMap t epoch c, exempt := true
                   eff := fun u =>
                     let u1 := { u with comp := { u.comp with voteLost := false } }
                     if epoch.toNat = u.comp.epoch + 1 ∧ u.comp.epoch ≠ 0 then
                       let x := u1.changed (changeOf c) epoch.toNat
                       (u1.applyMap epoch.toNat u.comp.id x.1 x.2, {})
                     else (u1, {}) })

/-- A newer map of this composition applied. -/
def State.takeMap (s : State) (m : MapOps) : State :=
  if m.compId = s.comp.id ∧ s.compSect.isSome ∧ s.comp.epoch < m.epoch.toNat then
    (s.applyMap m.epoch.toNat m.compId (m.qmembers.map BitVec.toNat) (membersOf m)).proposeSlices
  else s

/-- MAP_UPDATE (R372, R373 step 5). -/
def execMapUpdate (t : TxHdr) (m : MapOps) (s : State) : Host.Outcome State Fault Refusal :=
  .next (s.serve { t := t, type := 6, op := 5, len := 0, cmd := .mapUpdate t m, exempt := true
                   eff := fun u => (u.takeMap m, {}) })

/-- MAP_QUERY (R374, R377): answered with RESP, and with the map and the vote record in a MAP_STATE. -/
def execMapQuery (t : TxHdr) (s : State) : Host.Outcome State Fault Refusal :=
  .next (s.serve { t := t, type := 6, op := 6, len := 0, cmd := .mapQuery t, exempt := true
                   eff := fun u =>
                     let v := match u.comp.vote with
                       | some v => 1 :: v.1 :: v.2.args
                       | none => [0]
                     (u.send t.src.toNat 6 7 0xFF (u.mapArgs ++ v) [] .map, {}) })

/-- MAP_STATE (R374): a newer map is applied; a change prepared at the next epoch becomes the arbiter's first. -/
def execMapState (t : TxHdr) (m : MapOps) (vote : Option (U32 × ChangeOps)) (s : State) :
    Host.Outcome State Fault Refusal :=
  .next (s.serve { t := t, type := 6, op := 7, len := 0, cmd := .mapState t m vote, exempt := true
                   eff := fun u =>
                     let u1 := u.takeMap m
                     let src := t.src.toNat
                     let u2 := match vote with
                       | some v =>
                         if u1.comp.leads ∧ v.1.toNat = u1.comp.epoch + 1 ∧ u1.comp.prepared.isNone ∧
                             ¬ (u1.comp.queue.any fun p => p.change == changeOf v.2) then
                           { u1 with comp := { u1.comp with queue := { change := changeOf v.2 } :: u1.comp.queue } }
                         else u1
                       | none => u1
                     let u3 := if u2.comp.leads ∧ u2.comp.quorum.contains src ∧ ¬ u2.comp.heard.contains src then
                         { u2 with comp := { u2.comp with heard := u2.comp.heard ++ [src] } } else u2
                     (u3.checkArbiter, {}) })

/-- MAP_VOTE_TIMEOUT (R373): no majority within TXN_LIMIT. -/
def execMapVoteTimeout (s : State) : Host.Outcome State Fault Refusal :=
  match s.comp.prepared, s.comp.queue with
  | some since, p :: _ =>
    if s.pkc - since.toNat < s.txnLimit then .next s
    else .next (((s.tellProposer p eNoQuorum).popProposal).prepareFront 64)
  | _, _ => .next s

/-! ## Liveness (R378) -/

/-- LINK_STATE_SEND (R378): once every 2^20 counts; a device without a map asks the quorum for it (R387). -/
def execLinkStateSend (s : State) : Host.Outcome State Fault Refusal :=
  match s.ownNo with
  | none => .next s
  | some n =>
    let due : Bool := match tabGet s.comp.links n with
      | some r => decide (2 ^ 20 ≤ s.pkc - r.seen.toNat)
      | none => true
    if ¬ due then .next s
    else
      let s1 := s.sendLinks
      let s2 := if s1.comp.epoch = 0 then s1.otherQuorum.foldl (fun (t : State) d => t.send d 6 6 0xFF [] [] .map) s1 else s1
      .next s2.checkArbiter

/-- LINK_STATE (R378): the record of a member, or before the first map of a quorum member. -/
def execLinkState (t : TxHdr) (ports : List (BitVec 6 × U16 × BitVec 6)) (appliances : List U16) (s : State) :
    Host.Outcome State Fault Refusal :=
  .next (s.serve { t := t, type := 7, op := 0x30, len := 8 * ports.length, cmd := .linkState t ports appliances, exempt := true
                   eff := fun u =>
                     let src := t.src.toNat
                     if (u.member src).isNone ∧ ¬ u.comp.quorum.contains src then (u, { status := eNotMember })
                     else
                       let r : LinkRec :=
                         { seen := u.pkg.pkc, ports := ports.map fun p => (p.1.toNat, p.2.1.toNat, p.2.2.toNat)
                           appliances := appliances.map BitVec.toNat }
                       ((({ u with comp := { u.comp with links := tabPut u.comp.links src r } }).noteCuts).checkArbiter, {}) })

/-- LIVE_LIMIT (R378, R388). -/
def State.liveLimit (s : State) : Nat := s.reg64 .liveLimitLo .liveLimitHi 0

/-- A record that has not been refreshed within LIVE_LIMIT is dropped (R378). -/
def State.dropStale (s : State) (d : Nat) : State :=
  match tabGet s.comp.links d with
  | none => s
  | some r =>
    if s.pkc - r.seen.toNat < s.liveLimit then s
    else (({ s with comp := { s.comp with links := tabDel s.comp.links d } }).noteCuts).checkArbiter

/-- This device has found a member unreachable for LIVE_LIMIT (R378). -/
def State.cutLong (s : State) (d : Nat) : Bool :=
  s.unreachable d && (tabGet s.comp.cutSince d).any fun t => decide (s.liveLimit ≤ s.pkc - t.toNat)

/-- LIVE_LIMIT_EXPIRY (R378): a record that has not been refreshed is dropped; a quorum member proposes the removal of a
member it has found unreachable for LIVE_LIMIT. -/
def execLiveLimitExpiry (dev : U16) (s : State) : Host.Outcome State Fault Refusal :=
  let d := dev.toNat
  if s.ownNo = some d then .next s
  else
    let s1 := s.dropStale d
    if s1.inQuorum ∧ (s1.member d).isSome ∧ s1.cutLong d then
      .next (s1.proposeSelf { op := 2, device := d, force := true, proposer := s1.ownNo.getD 0xFFFF })
    else .next s1

end Sys2Proof.Machine
end

