-- ==== Sys2Proof/Machine/ImageCheck.lean ====
section
/-! DEFINITION. The layout of a Voltiov image and what is checked of it (R32..R43): header, directory and trailer, every
section's own conditions (R209, R234, R268, R285, R293, R295, R296, R370, R396, R433, R512), authentication and rollback. -/

namespace Sys2Proof.Machine

/-! ## Layout (R32..R36) -/

/-- A directory entry (R33). -/
structure DirEnt where
  type : Nat
  slice : Nat
  index : Nat
  off : Nat
  len : Nat
  rsvd : Nat
  deriving DecidableEq, Repr

/-- The directory of an image. -/
def dirOf (b : Bytes) : List DirEnt :=
  (List.range (le b 0xC 2)).map fun k =>
    let o := 64 + 16 * k
    { type := le b o 2, slice := byteAt b (o + 2), index := byteAt b (o + 3), off := le b (o + 4) 4, len := le b (o + 8) 4
      rsvd := le b (o + 0xC) 4 }

/-- Where the trailer of an image begins (R35). -/
def trailerAt (b : Bytes) : Nat := b.length - 3764

/-- The number of the slice that a slice entry names, and its masks (R36). -/
def entryOf (b : Bytes) (o : Nat) : Nat × SliceEnt :=
  (byteAt b (o + 0x18), { clusters := le b o 8, pcgs := le b (o + 8) 8, ports := le b (o + 0x10) 8 })

/-- Some two members of a list, at different places, stand in a relation. -/
def anyPair {α : Type} (p : α → α → Bool) : List α → Bool
  | [] => false
  | x :: l => l.any (p x) || anyPair p l

/-- The sections of an image. -/
def sectionsOf (b : Bytes) : List Section :=
  (dirOf b).map fun e => { type := e.type, slice := e.slice, index := e.index, data := sub b e.off e.len }

/-- The slice entries of an image: of its slice map, or of its amendments (R34, R36). -/
def sliceEntries (l : List Section) : List (Nat × SliceEnt) :=
  ((l.filter (·.type == 1)).flatMap fun x => (List.range (x.data.length / 32)).map fun k => entryOf x.data (32 * k)) ++
  (l.filter (·.type == 0xC)).map fun x => entryOf x.data 0

/-- An image by its bytes, of the author in a slot. -/
def imageOf (b : Bytes) (slot : Nat) : Image :=
  let l := sectionsOf b
  { partial_ := le b 6 2 == 2, raiseSvn := bitAt (le b 0xE 2) 0, discard := bitAt (le b 0xE 2) 1, svn := le b 0x14 2
    imageId := BitVec.ofNat 64 (le b 0x18 8), baseId := BitVec.ofNat 64 (le b 0x20 8), tableLog2 := byteAt b 0x28
    hash := hashAt b (trailerAt b), slot := slot
    slices := (sliceEntries l).foldl (fun t x => tabPut t x.1 x.2) []
    sections := l.filter fun x => x.type != 1 && x.type != 0xC }

/-- An amendment that undefines its slice (R47). -/
def SliceEnt.isEmpty (e : SliceEnt) : Bool := e.clusters == 0 && e.pcgs == 0 && e.ports == 0

/-! ## Header, part, authentication, rollback (step 3 of *Partial load sequence*) -/

/-- The header is wrong (R32, R40 row 1); `len` is the number of bytes fetched. -/
def headerBad (b : Bytes) (len : Nat) : Bool :=
  let kind := le b 6 2
  le b 0 4 != 0x56495456 || le b 4 2 != 1 || (kind != 1 && kind != 2) || le b 8 4 != len || decide (2 ^ 26 < len) ||
  decide (len < 64 + 3764) || le b 0xC 2 == 0 || decide (1024 < le b 0xC 2) || decide (4 ≤ le b 0xE 2) ||
  !zeroAt b 0x16 2 || !zeroAt b 0x29 23 || decide (32 < le b 0x14 2) || (kind == 1 && !zeroAt b 0x20 8) ||
  (kind == 2 && byteAt b 0x28 != 0)

/-- PART is not this device's (R32). -/
def partBad (b : Bytes) : Bool := le b 0x10 4 != 0x520000B0

/-- An author slot as the fuses hold it (R41): slot 0 is fused at manufacture. -/
def State.author (s : State) (i : Nat) : Author :=
  tabGetD s.sec.authors (if i = 0 then { fused := true, keyHash := hashAt (Config.fuse 19 0x2C0 40) 0 } else {}) i

/-- The author public key of a trailer. -/
def authorKey (b : Bytes) : Bytes := sub b (trailerAt b + 32) 1312

/-- The unrevoked slot whose key hash an image's author key has (R42 check 2). -/
def State.authorSlot (s : State) (b : Bytes) : Option Nat :=
  (List.range 8).find? fun i => (s.author i).fused && !(s.author i).revoked && (s.author i).keyHash == Config.sha3 (authorKey b)

/-- Authentication and rollback (R42, R43). -/
def State.authChecks (s : State) (b : Bytes) : List (Bool × Nat) :=
  let slot := s.authorSlot b
  [(Config.sha3 (b.take (trailerAt b)) != hashAt b (trailerAt b), eImgHash),
   (slot.isNone, eImgAuthor),
   (!Config.mldsaVerify (authorKey b) (hashBytes (hashAt b (trailerAt b))) (sub b (trailerAt b + 1344) 2420), eImgSignature),
   (decide (le b 0x14 2 < (s.author (slot.getD 0)).minSvn), eImgRollback)]

/-! ## The directory and its sections (R33, R34, R36) -/

/-- The directory is wrong (R33): an entry's type, slice, index, place or reserved field, two entries with one triple, two
sections that overlap. -/
def directoryBad (b : Bytes) : Bool :=
  let l := dirOf b
  let lo := 64 + 16 * l.length
  decide (trailerAt b < lo) ||
  l.any (fun e => e.type == 0 || decide (0xC < e.type) || e.rsvd != 0 || decide (e.off < lo) ||
    decide (trailerAt b < e.off + e.len) || decide (15 < e.index) || (e.type != 7 && e.index != 0) ||
    (if e.type = 1 then e.slice != 0xFF else if e.type = 4 then decide (64 ≤ e.slice) && e.slice != 0xFF
     else decide (64 ≤ e.slice))) ||
  anyPair (fun x y => (x.type == y.type && x.slice == y.slice && x.index == y.index) ||
    (decide (x.off < y.off + y.len) && decide (y.off < x.off + x.len))) l

/-- A slice entry is malformed (R36). -/
def entryBad (b : Bytes) (o : Nat) : Bool :=
  decide (2 ^ 48 ≤ le b (o + 0x10) 8) || decide (64 ≤ byteAt b (o + 0x18)) || !zeroAt b (o + 0x19) 7

/-- The slice map and amendments are malformed, or two entries name one slice (R36). -/
def entriesBad (l : List Section) : Bool :=
  l.any (fun x => (x.type == 1 && (x.data.length % 32 != 0 ||
      (List.range (x.data.length / 32)).any fun k => entryBad x.data (32 * k))) ||
    (x.type == 0xC && (x.data.length != 32 || entryBad x.data 0 || byteAt x.data 0x18 != x.slice))) ||
  anyPair (fun x y => x.1 == y.1) (sliceEntries l)

/-- A required section is missing or one is there that R34 does not allow. -/
def kindsBad (part : Bool) (l : List Section) : Bool :=
  let es := sliceEntries l
  let needs (sl : Nat) : Bool := [2, 3, 6, 8].any fun t => !l.any fun x => x.type == t && x.slice == sl
  let mapped (sl : Nat) : Bool := es.any fun e => e.1 == sl && !(part && e.2.isEmpty)
  (if part then l.any (·.type == 1) else l.any (·.type == 0xC) || !l.any (·.type == 1)) ||
  l.any (fun x => x.type != 1 && x.type != 0xC && x.slice != 0xFF && !mapped x.slice) ||
  es.any fun e => !(part && e.2.isEmpty) && needs e.1

/-! ## Tier map (R295, R296) -/

/-- Check 1 of R296. -/
def tierBad (b : Bytes) : Bool :=
  b.length != 64 || decide (1 < byteAt b 0) || (byteAt b 1 != 1 && byteAt b 1 != 2) || le b 2 2 == 0 || decide (16 < le b 2 2) ||
  !zeroAt b 0x20 32 || (byteAt b 1 == 1 && le b 4 4 == 0) ||
  (List.range 8).any fun t =>
    let v := byteAt b (0x18 + t)
    if t < 4 then v != 1 && v != 2 else if t < 6 then v != 1 else v != 0

/-- General capacity of a slice entry under a table size (R39). -/
def SliceEnt.capacity (e : SliceEnt) (tableLog2 : Nat) : Nat := countBits e.pcgs 64 * (pcgGeneral - reservePerPcg tableLog2)

/-- Check 3 of R296. -/
def tierTooBig (e : SliceEnt) (tableLog2 : Nat) (b : Bytes) : Bool :=
  decide (e.capacity tableLog2 < 2 ^ 21 * (le b 4 4 + le b 8 4 + le b 0xC 4)) ||
  (le b 8 4 == 0 && (List.range 8).any fun t => byteAt b (0x18 + t) == 2)

/-- The PCGs of a slice on some state die are not consecutive (R293). -/
def SliceEnt.scattered (e : SliceEnt) : Bool :=
  (List.range 8).any fun n =>
    let m := bitsOf e.pcgs (8 * n) 8
    let (k, g0) := e.pcgsOn n
    m != (2 ^ k - 1) * 2 ^ g0

/-! ## Composition (R370) -/

/-- The device form is out of range. -/
def compDeviceBad (b : Bytes) : Bool :=
  let q := byteAt b 0xA
  let ms := (List.range 7).map fun k => le b (0xC + 2 * k) 2
  b.length != 256 || le b 0 8 == 0 || decide (4094 < le b 8 2) || (q != 3 && q != 5 && q != 7) || !zeroAt b 0xB 1 ||
  !zeroAt b 0x1A 6 || (ms.take q).any (4094 < ·) || (ms.drop q).any (· != 0xFFFF) ||
  ((ms.take q).zip ((ms.take q).drop 1)).any (fun x => decide (x.2 ≤ x.1)) || !zeroAt b (0x20 + 32 * q) (224 - 32 * q)

/-- The slice form is out of range. -/
def compSliceBad (b : Bytes) : Bool :=
  b.length != 16 || decide (8 ≤ byteAt b 0) || !zeroAt b 1 15 || (decide (2 ≤ byteAt b 0) && !bitAt (byteAt b 0) 0)

/-! ## Service tables (R285) -/

/-- A regulator entry is malformed. -/
def regulatorBad (b : Bytes) (o : Nat) : Bool :=
  let rate := le b o 4
  let rmax := le b (o + 4) 4
  let burst := le b (o + 8) 2
  let bmax := le b (o + 0xA) 2
  let on := bitAt (le b (o + 0xC) 2) 0
  decide (2 ^ 24 ≤ rate) || (on && (rate == 0 || burst == 0)) || (rmax != 0 && decide (rmax < rate)) ||
  (bmax != 0 && decide (bmax < burst)) || decide (4 ≤ le b (o + 0xC) 2) || !zeroAt b (o + 0xE) 2

/-- A meter entry is malformed. -/
def meterBad (b : Bytes) (o : Nat) : Bool :=
  let cir := le b (o + 4) 4
  let pir := le b (o + 8) 4
  decide (1 < byteAt b (o + 2)) || decide (4 ≤ byteAt b (o + 3)) || !zeroAt b (o + 0x18) 8 ||
  (bitAt (byteAt b (o + 3)) 0 && (cir == 0 || decide (2 ^ 24 ≤ cir) || decide (pir < cir) || decide (2 ^ 24 ≤ pir) ||
    le b (o + 0xC) 2 == 0 || le b (o + 0xE) 2 == 0))

/-- The Service tables section of a slice is malformed. -/
def serviceBad (e : SliceEnt) (b : Bytes) : Bool :=
  let n := le b 0xC0 2
  let ms := (List.range n).map fun k => 0xD0 + 32 * k
  let on := ms.filter fun o => bitAt (byteAt b (o + 3)) 0
  b.length != 0xD0 + 32 * n || decide (64 < n) || (List.range 10).any (fun k => regulatorBad b (16 * k)) ||
  (List.range 8).any (fun k => bitsOf e.pcgs (8 * k) 8 == 0 && !zeroAt b (16 * k) 16) ||
  (List.range 6).any (fun k => decide (7 < byteAt b (0xA0 + k))) || !zeroAt b 0xA6 2 ||
  (List.range 8).any (fun k => byteAt b (0xA8 + k) == 0) || decide (2 ≤ byteAt b 0xB0) || !zeroAt b 0xB1 15 ||
  !zeroAt b 0xC2 14 || ms.any (meterBad b) ||
  anyPair (fun x y => le b x 2 == le b y 2 && byteAt b (x + 2) == byteAt b (y + 2)) on

/-! ## Kernel library (R231..R234) -/

/-- A kernel entry is malformed (R232). -/
def kernelBad (b : Bytes) (o : Nat) : Bool :=
  decide (128 ≤ byteAt b o) || decide (2 ≤ byteAt b (o + 1)) || !zeroAt b (o + 2) 2 || le b (o + 4) 4 % 32 != 0 ||
  le b (o + 8) 4 % 32 != 0 || decide (131072 < le b (o + 8) 4) || decide (b.length < le b (o + 4) 4 + le b (o + 8) 4) ||
  decide (6291456 < le b (o + 0xC) 4) || !zeroAt b (o + 0x1C) 4

/-- A stage entry is malformed (R233). -/
def stageBad (kernels : Nat) (x : Stage) : Bool :=
  decide (kernels ≤ x.kernel) || decide (3 < x.scope) || decide (0xA < x.role) || decide (2 < x.phase) ||
  decide (3 < x.split) || decide (512 < x.maxParts)

/-- Offsets of the plan directory entries. -/
def planEnts (b : Bytes) : List Nat := (List.range (le b 2 2)).map fun j => le b 8 4 + 8 * j

/-- The stages of a plan directory entry. -/
def stagesAt (b : Bytes) (o : Nat) : List Stage :=
  (List.range (le b (o + 2) 2)).map fun j => stageOf b (le b (o + 4) 4 + 16 * j)

/-- Row 1 of *Kernel library checks*. -/
def klibBad (b : Bytes) : Bool :=
  let k := le b 0 2
  let p := le b 2 2
  decide (b.length < 32) || k == 0 || decide (1024 < k) || p == 0 || decide (16 < p) || le b 4 4 % 32 != 0 ||
  decide (b.length < le b 4 4 + 32 * k) || decide (b.length < le b 8 4 + 8 * p) || !zeroAt b 0xC 20 ||
  (List.range k).any (fun i => kernelBad b (le b 4 4 + 32 * i)) ||
  (planEnts b).any (fun o => byteAt b (o + 1) != 0 || decide (15 < byteAt b o) ||
    decide (b.length < le b (o + 4) 4 + 16 * le b (o + 2) 2) || (stagesAt b o).any (stageBad k)) ||
  anyPair (fun x y => byteAt b x == byteAt b y) (planEnts b)

/-- Row 2 of *Kernel library checks*: of a slice with its engine power bytes, its model programs by INDEX, and whether it has
ports. -/
def klibCannotRun (b power : Bytes) (progs : List (Nat × Bytes)) (ports : Bool) : Bool :=
  let plans := planEnts b
  progs.any (fun p => !plans.any fun o => byteAt b o == p.1) ||
  plans.any (fun o => match progs.find? fun p => p.1 == byteAt b o with
    | none => true
    | some p => (stagesAt b o).any fun x =>
        (x.role != 0 && !(tensorsOf p.2).any fun t => t.role == x.role) || (x.split == 1 && x.role == 0)) ||
  (List.range (le b 0 2)).any (fun i =>
    let need := (kernelOf b i).engines
    !power.any fun m => m.toNat &&& need == need) ||
  (ports && plans.any fun o => !(stagesAt b o).any fun x => x.scope == 3)

/-! ## Model programs (R205..R209) -/

/-- A tensor entry is malformed (R206); `layers` is L. -/
def tensorBad (layers : Nat) (b : Bytes) (o : Nat) : Bool :=
  let t := tensorOf b o
  (decide (layers ≤ t.layer) && t.layer != 0xFFFF) || t.role == 0 || decide (0xA < t.role) || decide (9 < t.wformat) ||
  decide (9 < t.aformat) || decide (32 ≤ t.flags) || !zeroAt b (o + 6) 2 || !zeroAt b (o + 0x18) 8 || t.va % 4096 != 0 ||
  decide (0x8_0000_0000_0000 ≤ t.va)

/-- Row 1 of *Model program checks*. -/
def progBad (b : Bytes) : Bool :=
  let p := progOf b
  let pm := byteAt b 0xC
  decide (b.length < 0x40) || p.layers == 0 || decide (255 < p.layers) || p.kvHeads == 0 || decide (64 < p.kvHeads) ||
  p.qHeads == 0 || decide (512 < p.qHeads) || p.qHeads % p.kvHeads != 0 ||
  (p.headDim != 64 && p.headDim != 128 && p.headDim != 256) || p.rotDim % 2 != 0 || decide (p.headDim < p.rotDim) ||
  decide (1 < p.kvFormat) || decide (2 ≤ byteAt b 0xB) || (decide (10 < pm) && pm != 0xFF) || !zeroAt b 0xD 1 ||
  p.tensors == 0 || decide (4096 < p.tensors) || p.vocab == 0 || decide (2 ^ 24 < p.vocab) || p.tensorOff % 32 != 0 ||
  decide (b.length < p.tensorOff + 32 * p.tensors) || p.freqOff % 4 != 0 || decide (b.length < p.freqOff + 2 * p.rotDim) ||
  !zeroAt b 0x28 24 || (List.range p.tensors).any fun j => tensorBad p.layers b (p.tensorOff + 32 * j)

/-- Row 2 of *Model program checks* for one tensor. -/
def tensorCannotRun (t : Tensor) : Bool :=
  let wide := bitAt t.flags 0
  let norm := t.role == 2 || t.role == 5 || t.role == 8
  let f32 := t.wformat == 9 || t.aformat == 9
  (!f32 && !pairSupported t.aformat t.wformat) || t.aformat == 6 || t.aformat == 7 ||
  (t.wformat == 9) != (t.aformat == 9) || (f32 && (!norm || t.flags != 0)) || (norm && t.rows != 1 && t.rows != 2) ||
  (wide && (t.wformat != 8 || t.aformat != 8)) || (bitAt t.flags 1 && t.wformat == 8) || (bitAt t.flags 2 && t.aformat == 8) ||
  (bitAt t.flags 3 && t.aformat != 0) || (bitAt t.flags 4 && !wide) ||
  t.cols % (if bitAt t.flags 4 then 64 else 32) != 0

/-- Row 2 of *Model program checks*. -/
def progCannotRun (b : Bytes) : Bool :=
  (tensorsOf b).any tensorCannotRun || decide ((progOf b).geom.cap < 16384)

/-! ## Security policy (R432, R433) -/

/-- A protected range of a policy is malformed (R433). -/
def rangeBad (r : Nat × Nat) : Bool :=
  r.1 % 2 ^ 21 != 0 || r.2 % 2 ^ 21 != 0 || r.2 == 0 ||
  !(decide (r.1 + r.2 ≤ 0x3_0000_0000_0000) || (decide (0x4_0000_0000_0000 ≤ r.1) && decide (r.1 + r.2 ≤ 0x7_0000_0000_0000)))

/-- A policy breaks a rule of R433, for a slice of `dies` compute dies. -/
def policyBad (dies : Nat) (b : Bytes) : Bool :=
  let f := byteAt b 0
  let n := byteAt b 0x48
  let rs := (List.range n).map fun k => (le b (0x50 + 16 * k) 8, le b (0x58 + 16 * k) 8)
  decide (16 ≤ f) || !zeroAt b 1 7 || !zeroAt b 0x49 7 || (decide (3 ≤ dies) && (!bitAt f 0 || bitAt f 1)) ||
  (bitAt f 1 && zeroAt b 8 32) || decide (16 < n) || rs.any rangeBad ||
  anyPair (fun x y => decide (x.1 < y.1 + y.2) && decide (y.1 < x.1 + x.2)) rs ||
  !zeroAt b (0x50 + 16 * n) (256 - 16 * n)

/-- Compute dies with a cluster of the slice (R40). -/
def SliceEnt.computeDies (e : SliceEnt) : Nat := ((List.range 8).filter fun d => bitsOf e.clusters (8 * d) 8 != 0).length

/-! ## Counter defaults (R511, R512), checkpoint policy (R396), serving defaults (R268) -/

/-- What the FILTER of a counter source may name (R242, R511): 0 nothing but 0xFF, 1 a state die, 2 a port, 3 a compute die;
none for a reserved source. -/
def sourceFilter (source : Nat) : Option Nat :=
  if source ≤ 4 ∨ source = 0x30 ∨ source = 0x31 ∨ (0x50 ≤ source ∧ source ≤ 0x53) ∨ source = 0x60 ∨ source = 0x61 then some 0
  else if 0x10 ≤ source ∧ source ≤ 0x12 then some 1
  else if 0x20 ≤ source ∧ source ≤ 0x22 then some 2
  else if 0x40 ≤ source ∧ source ≤ 0x4D then some 3
  else none

/-- A source is reserved, or does not allow the FILTER (R511). -/
def counterBad (source filter : Nat) : Bool :=
  match sourceFilter source with
  | none => true
  | some 0 => filter != 0xFF
  | some 2 => filter != 0xFF && decide (48 ≤ filter)
  | some _ => filter != 0xFF && decide (8 ≤ filter)

/-- A FILTER names a unit outside the slice (R512). -/
def SliceEnt.lacks (e : SliceEnt) (source filter : Nat) : Bool :=
  filter != 0xFF && match sourceFilter source with
    | some 1 => bitsOf e.pcgs (8 * filter) 8 == 0
    | some 2 => !bitAt e.ports filter
    | some 3 => bitsOf e.clusters (8 * filter) 8 == 0
    | _ => false

/-- The Counter defaults section is malformed. -/
def countersBad (b : Bytes) : Bool :=
  b.length != 64 || (List.range 16).any fun k =>
    counterBad (byteAt b (4 * k)) (byteAt b (4 * k + 1)) || !zeroAt b (4 * k + 2) 2

/-- Some FILTER of a Counter defaults section names a unit outside the slice. -/
def countersLack (e : SliceEnt) (b : Bytes) : Bool :=
  (List.range 16).any fun k => e.lacks (byteAt b (4 * k)) (byteAt b (4 * k + 1))

/-- The Checkpoint policy section is malformed. -/
def ckPolicyBad (b : Bytes) : Bool :=
  b.length != 96 || decide (1 < byteAt b 0) || (byteAt b 0 == 1 && (byteAt b 1 == 0 || decide (16 < byteAt b 1))) ||
  decide (4 ≤ byteAt b 2) || !zeroAt b 3 5 || (le b 8 8 != 0 && decide (le b 8 8 < le b 0x10 8)) ||
  (le b 0x18 8 != 0 && decide (le b 0x18 8 < le b 0x20 8)) || !zeroAt b 0x48 24

/-- The Serving defaults section is malformed. -/
def servingBad (b : Bytes) : Bool :=
  let lo := byteAt b 0
  let up := byteAt b 1
  b.length != 32 || decide (up < lo) || decide (100 < up) || decide (lo < byteAt b 2) || decide (byteAt b 3 < up) ||
  decide (100 < byteAt b 3) || le b 4 2 == 0 || decide (le b 6 2 < le b 4 2) ||
  (le b 8 8 != 0 && decide (le b 8 8 < le b 0x10 8)) || decide (2 ≤ byteAt b 0x18) || !zeroAt b 0x19 7

/-! ## The structural checks (R40) -/

/-- A section of a defined slice is malformed. -/
def sectionBad (e : SliceEnt) (x : Section) : Bool :=
  match x.type with
  | 2 => x.data.length != e.cores.length || x.data.any fun m => decide (128 ≤ m.toNat)
  | 3 => tierBad x.data
  | 4 => compSliceBad x.data
  | 5 => serviceBad e x.data
  | 6 => klibBad x.data
  | 7 => progBad x.data
  | 8 => x.data.length != 336
  | 9 => countersBad x.data
  | 0xA => ckPolicyBad x.data
  | 0xB => servingBad x.data
  | _ => false

/-- The defined slices of an image with their entries: an amendment that undefines its slice apart (R47). -/
def Image.defines (i : Image) : List (Nat × SliceEnt) := i.slices.filter fun x => !(i.partial_ && x.2.isEmpty)

/-- Sections that are malformed (R40 row 1). -/
def Image.sectionsBad (i : Image) : Bool :=
  i.sections.any (fun x => x.slice == 0xFF && x.type == 4 && compDeviceBad x.data) ||
  i.defines.any fun e => i.sections.any fun x => x.slice == e.1 && sectionBad e.2 x

/-- Two slices share a cluster, a PCG or a port (R37). -/
def sharesUnit (x y : Nat × SliceEnt) : Bool :=
  x.2.clusters &&& y.2.clusters != 0 || x.2.pcgs &&& y.2.pcgs != 0 || x.2.ports &&& y.2.ports != 0

/-- POOL_PCGS of a slice (R295). -/
def Image.poolPcgs (i : Image) (sl : Nat) : Nat := le ((i.sect 3 sl 0).getD []) 0x10 8

/-- Slices overlap, or POOL_PCGS names a PCG that a slice holds or that another slice names (R37, R296 check 2). -/
def Image.overlapBad (i : Image) : Bool :=
  anyPair sharesUnit i.defines ||
  i.defines.any (fun x => i.defines.any fun y => i.poolPcgs x.1 &&& y.2.pcgs != 0) ||
  anyPair (fun x y => i.poolPcgs x.1 &&& i.poolPcgs y.1 != 0) i.defines

/-- A slice's resources or engines do not serve (R37, R38, R293, R296 check 3, R512). -/
def Image.resourceBad (i : Image) (tableLog2 : Nat) : Bool :=
  i.defines.any fun x =>
    let power := (i.sect 2 x.1 0).getD []
    x.2.clusters == 0 || x.2.pcgs == 0 || power.any (fun m => !bitAt m.toNat 6) ||
    [0, 2, 3, 4, 5].any (fun k => !power.any fun m => bitAt m.toNat k) || x.2.scattered ||
    tierTooBig x.2 tableLog2 ((i.sect 3 x.1 0).getD []) || countersLack x.2 ((i.sect 9 x.1 0).getD [])

/-- A slice's policy breaks a rule (R433). -/
def Image.policiesBad (i : Image) : Bool :=
  i.defines.any fun x => policyBad x.2.computeDies ((i.sect 8 x.1 0).getD [])

/-- The model programs of a slice by INDEX. -/
def Image.progs (i : Image) (sl : Nat) : List (Nat × Bytes) :=
  (i.sections.filter fun x => x.type == 7 && x.slice == sl).map fun x => (x.index, x.data)

/-- A kernel or a model program cannot run on its slice (R209, R234). -/
def Image.kernelsBad (i : Image) : Bool :=
  i.defines.any fun x =>
    (i.progs x.1).any (fun p => progCannotRun p.2) ||
    klibCannotRun ((i.sect 6 x.1 0).getD []) ((i.sect 2 x.1 0).getD []) (i.progs x.1) (x.2.ports != 0)

/-- The checks of the table *Structural checks* after the header and the part (R40): of an image by its bytes, under the table
size that holds. -/
def structuralChecks (b : Bytes) (i : Image) (tableLog2 : Nat) : List (Bool × Nat) :=
  [(directoryBad b || entriesBad (sectionsOf b) || kindsBad i.partial_ (sectionsOf b) || i.sectionsBad, eImgFormat),
   (!i.partial_ && (decide (i.tableLog2 < 16) || decide (24 < i.tableLog2)), eImgFormat),
   (i.overlapBad, eImgOverlap),
   (i.resourceBad tableLog2, eImgResource),
   (i.policiesBad, eImgPolicy),
   (i.kernelsBad, eImgKernel)]

/-- The running image as a partial image amends it (R47). -/
def Image.amend (old p : Image) : Image :=
  let named := p.slices.map (·.1)
  let dev (x : Section) : Bool := x.slice == 0xFF
  { p with
    partial_ := false, baseId := 0, tableLog2 := old.tableLog2
    slices := p.slices.foldl (fun t x => if x.2.isEmpty then tabDel t x.1 else tabPut t x.1 x.2) old.slices
    sections := (old.sections.filter fun x =>
        if dev x then !p.sections.any (fun y => dev y && y.type == x.type) else !named.contains x.slice) ++ p.sections }

/-- The checks of R40, R42 and R43 of an image by its bytes, in the order of *Partial load sequence*. -/
def State.imageChecks (s : State) (b : Bytes) (len : Nat) : List (Bool × Nat) :=
  let i := imageOf b ((s.authorSlot b).getD 0)
  (headerBad b len, eImgFormat) :: (partBad b, eImgPart) :: s.authChecks b ++
  structuralChecks b i (if i.partial_ then s.tableLog2 else i.tableLog2)

end Sys2Proof.Machine
end

