-- ==== Sys2Proof/Machine/Measure.lean ====
section
/-! DEFINITION. Measurements and reports (R427, R428, R430, R431), slice digests and the erasure of content key slots when a
digest changes (R446). -/

namespace Sys2Proof.Machine

/-- Measurement DIE_d (R427): zero while the die is not MEASURED. -/
def State.dieMeas (s : State) (d : Nat) : U256 := if s.dieState d = 0 then (s.die d).meas else 0

/-- Measurement ROM. -/
def State.romMeas (s : State) : U256 := if s.sec.romMeasured then Config.romHash else 0

/-- A measurement register that is stored by its index (IMAGE, STAGED, STAGED_FW, POLICY_s, CONSENT_s). -/
def State.meas (s : State) (i : Nat) : U256 := tabGetD s.sec.meas 0 i

/-- FW_PENDING (R430, R506). -/
def State.fwPending (s : State) : Bool := s.flash.staged

/-- UPDATE_PENDING (R57). -/
def State.updatePending (s : State) : Bool := s.fld .imgStatus 0 0 20 1 == 1

/-- The mask of slices with a consent record installed. -/
def State.debugOn (s : State) : Nat := maskOf (s.sec.consents.map (·.1))

/-- Report bytes 0x0315..0x031A: current generation, retired mask, in-use mask, ZCOUNT. -/
def State.keygenBytes (s : State) : Bytes :=
  bytesOf 1 s.sec.current ++ bytesOf 2 s.sec.retired ++ bytesOf 2 s.inUse ++ bytesOf 1 s.sec.zcount

/-- Measurements DEBUG and KEYGEN (R427). -/
def State.debugMeas (s : State) : U256 := Config.sha3 (bytesOf 1 s.sec.lifecycle ++ bytesOf 8 s.debugOn)
def State.keygenMeas (s : State) : U256 := Config.sha3 s.keygenBytes

/-- Defined slices, and those of them that are confidential. -/
def State.definedMask (s : State) : Nat := maskOf s.slices
def State.confidentialMask (s : State) : Nat := maskOf (s.slices.filter s.confidential)

/-- SERIAL and CERT_HASH (R414). -/
def serial : Bytes := Config.fuse 19 0x2A0 16
def certHash : Bytes := Config.fuse 19 0x280 32

/-- The part of a report from CERT_HASH to DIE_STATE (0x0040..0x0313). -/
def State.reportDies (s : State) : Bytes :=
  certHash ++ hashBytes s.romMeas ++ ((List.range 20).flatMap fun d => hashBytes (s.dieMeas d)) ++
  (List.range 20).flatMap fun d => bytesOf 1 (s.dieState d)

/-- IMAGE, STAGED and STAGED_FW (0x0320..0x037F). -/
def State.reportImages (s : State) : Bytes := hashBytes (s.meas 22) ++ hashBytes (s.meas 23) ++ hashBytes (s.meas 24)

/-- RFLAGS of a report (R428, R430). -/
def State.reportFlags (s : State) (auto : Bool) : Nat :=
  boolBit s.updatePending + 2 * boolBit s.fwPending + 4 * boolBit s.unmeasured + 8 * boolBit (s.module == 2) +
  16 * boolBit s.sec.zeroizePending + 32 * boolBit auto

/-- A report body (R428). -/
def State.reportBody (s : State) (nonce : U256) (auto : Bool) : Bytes :=
  let i := s.img.running
  bytesOf 4 0x54505251 ++ bytesOf 2 1 ++ bytesOf 2 (s.reportFlags auto) ++ bytesOf 8 s.pkc ++ hashBytes nonce ++ serial ++
  s.reportDies ++ bytesOf 1 s.sec.lifecycle ++ s.keygenBytes ++ zeros 5 ++ s.reportImages ++
  bytesOf 8 ((i.map (·.imageId.toNat)).getD 0) ++ bytesOf 2 ((i.map (·.svn)).getD 0) ++
  bytesOf 1 ((i.map (·.slot)).getD 0) ++ zeros 5 ++ bytesOf 8 s.definedMask ++ bytesOf 8 s.confidentialMask ++
  bytesOf 8 s.debugOn ++ zeros 24 ++ ((List.range 64).flatMap fun k => hashBytes (s.meas (25 + k))) ++
  (List.range 64).flatMap fun k => hashBytes (s.meas (89 + k))

/-- The slice digest of a slice (R428). -/
def State.sliceDigest (s : State) (sl : Nat) : U256 :=
  Config.sha3 (s.reportDies ++ s.reportImages ++ bytesOf 1 sl ++ hashBytes (s.meas (25 + sl)) ++ hashBytes (s.meas (89 + sl)))

/-- A sealed report produced (R431): signed by the device attestation key, kept in the always-on island, its nonce remembered;
GLB_GEN rises (R485). -/
def State.makeReport (s : State) (nonce : U256) (auto : Bool) : State :=
  let b := s.reportBody nonce auto
  let sig := Config.mldsaSign attestSeed b s.free
  ({ s.drew with sec := { s.sec with
      report := b ++ sig, reportDue := none, nonces := ((nonce, s.pkg.pkc) :: s.sec.nonces).take 16
      meas := tabPut (tabPut s.sec.meas 153 s.debugMeas) 154 s.keygenMeas } }).genUp

/-- Content key slots of a slice erased (R446). -/
def State.eraseSlots (s : State) (p : Nat → Bool) : State :=
  { s with sec := { s.sec with slots := s.sec.slots.filter fun k => !p (k.1 / 16) } }

/-- A measurement register set (R427). Where a slice's digest covers it and it changes, the slice's key slots are erased
(R446). -/
def State.remeasure (s : State) (i : Nat) (v : U256) : State :=
  if s.meas i = v then s
  else
    let hit (sl : Nat) : Bool :=
      if 25 ≤ i ∧ i < 89 then sl == i - 25 else if 89 ≤ i ∧ i < 153 then sl == i - 89 else decide (i < 25)
    (s.setMeas i v).eraseSlots hit

/-- DEBUG set after a change of the bytes it covers (R427). -/
def State.debugChanged (s : State) : State := s.setMeas 153 s.debugMeas

/-- KEYGEN set after a change of the bytes it covers (R427). -/
def State.keygenChanged (s : State) : State := s.setMeas 154 s.keygenMeas

/-- A die's measurement or state has changed: every slice's digest changes with it (R427, R446). -/
def State.diesChanged (s : State) : State := (s.eraseSlots fun _ => true).measChanged

/-- The consent record of a slice removed with what it granted (R438). -/
def State.consentOff (s : State) (sl : Nat) : State :=
  if (tabGet s.sec.consents sl).isNone then s
  else
    let on := ((s.sliceEnt sl).map SliceEnt.dies).getD []
    let s1 : State := { s with
      sec := { s.sec with consents := tabDel s.sec.consents sl, jtag := s.sec.jtag.filter (· != sl) }
      pkg := { s.pkg with dies := s.pkg.dies.map fun (x : Nat × Die) =>
        (x.1, if on.contains x.1 then { x.2 with halted := false } else x.2) } }
    (s1.remeasure (89 + sl) 0).debugChanged

/-- AUTO_REPORT (R431): a report with NONCE zero after a change of a measurement register. -/
def execAutoReport (s : State) : Host.Outcome State Fault Refusal :=
  if s.sec.reportDue.isSome ∨ s.meas 154 ≠ s.keygenMeas ∨ s.meas 153 ≠ s.debugMeas then .next (s.makeReport 0 true)
  else .next s

end Sys2Proof.Machine
end

