-- ==== Sys2Proof/Machine/Steps.lean ====
section
/-! DEFINITION. STEP_END (R249 step 8): lengths and pages (R151), reservations (R153), mirrors (R152, R384), seasons (R72, R74),
requests (R70), what waits for a step end (R71), the window of R210, the prefill share (R248), hot lists and table switches
(R348, R350), checkpoints (R392). -/

namespace Sys2Proof.Machine

/-- A phase has no stage to dispatch and no instance left. -/
def Phase.over (p : Phase) : Bool := p.todo.isEmpty && p.live == 0

/-- The running step of a job can end: both phases are over, and every row of a D1 session is acknowledged (R363). -/
def State.stepOver (s : State) (j : Job) : Bool :=
  j.inStep && j.decode.over && j.prefill.over && !(j.batch.any fun r => (s.d r.index).dclass == 1 && s.mirrorWaits r.index)

/-! ## One session at a step end -/

/-- A row that no instance has committed is committed by the lead, in batch order (R250). -/
def State.commitRest (s : State) (sl : Nat) (rows : List BatchRow) : State :=
  rows.foldl (fun (t : State) r => match t.openRow sl r.index with
    | some q => t.commit sl q (some [])
    | none => t) s

/-- R151: TENTATIVE_LEN falls to COMMITTED_LEN, pages with rejected tokens only are freed, PAGES_HELD follows. -/
def State.settleLengths (s : State) (i : Nat) (p : Prog) : State :=
  let d := s.d i
  let m := s.pageMaxOf i p
  let s1 := (s.dropFrom p.geom i (pagesFor (d.committedLen - d.stretchOffset) m) m).unmapped d.slice
  s1.setD i { s1.d i with tentativeLen := d.committedLen, pagesHeld := (s1.kvOf i).pages.length }

/-- The next page of every layer is due (R153): the committed tokens of the last page reach three-quarters of its size. -/
def State.reserveDue (s : State) (i : Nat) (p : Prog) : Bool :=
  let d := s.d i
  let k := s.kvOf i
  let m := s.pageMaxOf i p
  let n := k.perLayer
  let size := 16 * 2 ^ pageLog2 (n - 1) m
  n != 0 && k.reserve.isEmpty && decide (3 * size ≤ 4 * (d.committedLen - d.stretchOffset - pageFirst (n - 1) m)) &&
  decide (pageFirst n m < p.geom.cap) && (d.pageBudget == 0 || decide (d.pagesHeld + p.layers ≤ d.pageBudget))

/-- The reservation of a session, with its record, or a miss (R153). -/
def State.reserve (s : State) (i : Nat) (p : Prog) : State :=
  if ¬ s.reserveDue i p then s
  else
    let d := s.d i
    let k := s.kvOf i
    let m := s.pageMaxOf i p
    match (s.alloc d.slice (s.layerDie d.slice 0) (divUp (32 * p.layers) 4096 * 4096) 4096 d.prot).bind fun a =>
        (a.1.reservePages d.slice p.geom d.prot k k.perLayer m (List.range p.layers) []).map fun x => (a.2, x) with
    | none => s.bump .kvReserveMiss d.slice 1
    | some (pa, x) => ((x.1.setKv i { k with reserve := x.2 }).setD i { d with reservePage := pa }).pwrite pa
        (x.2.flatMap ResEnt.bytes)

/-- What the mirror of a D1 session is sent (R152, R384): the committed length; of a tail the sampler record, the scratch
objects and the cursors. -/
def State.mirrorEnd (s : State) (r : BatchRow) (step : Nat) : State :=
  let i := r.index
  let d := s.d i
  if d.dclass ≠ 1 ∨ r.held ≠ .none then s
  else
    let args (a : Nat) : List Nat := [a, d.ownerEpoch, d.sessionId.toNat]
    let s1 := s.send d.mirrorDev 5 4 0xFF (args 0 ++ [d.committedLen]) [] (.mirror i step)
    if ¬ d.tail then s1
    else
      let sc := s.scratchOf i
      let cur := (s.cursorsOf i).flatMap Cursor.record
      let s2 := s1.send d.mirrorDev 5 5 0xFF (args 0) ((s.kvOf i).sampler.bytes ++ cur) (.mirror i step)
      (pieces 16384 (divUp sc.length 16384) sc).zipIdx.foldl (fun (t : State) x =>
        t.send d.mirrorDev 5 5 0xFF (args (16384 * x.2)) x.1 (.mirror i step)) s2

/-- The held state and the drafts of a session whose row took part (R155, R255): a step that succeeds clears the hold; the
messages of its ring belong to a step that is over. -/
def State.rowEnd (s : State) (r : BatchRow) : State :=
  if r.held ≠ .none then s
  else
    let k := s.kvOf r.index
    let s1 := s.setKv r.index { k with sampler := { k.sampler with
      drafts := if (s.d r.index).active.live then r.proposed else [] } }
    let s2 := s1.setD r.index { s1.d r.index with heldReason := .none, heldSteps := 0 }
    { s2 with srv := { s2.srv with waits := s2.srv.waits.filter (·.index != r.index) } }

/-- RING_FULL holds have reached the limit: the session goes to Autumn with its request live (R262). -/
def State.ringFullOut (s : State) (i : Nat) : Bool :=
  let d := s.d i
  d.heldReason == .ringFull && decide (s.fld .heldLimit d.slice 0 0 16 ≤ d.heldSteps)

/-- The season of a Summer session after the step, its last Summer step so far (R66, R72, R74, R115, R172): with a live request,
or one pending, it stays. -/
def State.seasonEnd (s : State) (i : Nat) (stop : Bool) : State :=
  let s0 := s.setD i { s.d i with lastSummerPkc := s.pkg.pkc }
  let s1 := if (s0.d i).active.live then s0 else s0.promote i
  let leaves := (s1.ax i).leaves
  let s2 := if leaves then s1.setAx i { s1.ax i with leaves := false } else s1
  if (s2.ax i).streamFailed then (s2.toAutumn i).streamLost i
  else if stop || leaves || !(s2.d i).active.live || s2.ringFullOut i then s2.toAutumn i
  else s2

/-! ## What waits for the step end (R71, R89, R169) -/

/-- A reply given outside a command's own fetch. -/
def State.runReply (s : State) (t : Tag) (r : Reply) : State :=
  match r with
  | .reject code info result => s.reject t code info result
  | .done s' status result => s'.complete t status 0 (packBytes result)
  | .later s' => s'

/-- FORKs taken at the step end of a slice. -/
def State.forksDue (s : State) (sl : Nat) : State :=
  let mine := s.srv.forks.filter fun f => (s.d f.1).slice == sl
  let s1 := { s with srv := { s.srv with forks := s.srv.forks.filter fun f => (s.d f.1).slice != sl } }
  mine.foldl (fun (t : State) f =>
    t.runReply f.2.2 (t.forkCore f.1 (f.2.1.getD 0 0) (f.2.1.getD 1 0) (f.2.1.getD 2 0) f.2.2)) s1

/-- RING_EXTENDs taken at the step end of a slice. -/
def State.extendsDue (s : State) (sl : Nat) : State :=
  let mine := s.srv.extends_.filter fun f => (s.d f.1).slice == sl
  let s1 := { s with srv := { s.srv with extends_ := s.srv.extends_.filter fun f => (s.d f.1).slice != sl } }
  mine.foldl (fun (t : State) f =>
    t.runReply f.2.2.2 (checked (t.extendChecks f.1 f.2.1) (.later (t.extendNow f.1 f.2.1 f.2.2.1 f.2.2.2)))) s1

/-- CLOSEs taken at the step end of a slice. -/
def State.closesDue (s : State) (sl : Nat) : State :=
  ((s.desc.filter fun x => x.2.slice == sl && (s.ax x.1).closeAtEnd).map (·.1)).foldl (fun (t : State) i =>
    (t.toAutumn i).toClosing i (t.ax i).closeTag) s

/-! ## The job at a step end -/

/-- The judgement of the prefill share at a step number that is a multiple of 256 (R248). -/
def State.shareEnd (s : State) (sl : Nat) (j : Job) : State :=
  if j.next % 256 ≠ 0 then s.setJob sl j
  else
    let p := judgeShare j.share (s.shareMin sl) (s.shareMax sl) j.qp0 (s.pendingPrompt sl) j.wp j.wd j.noPrefill
    let s1 := s.setJob sl { j with nextShare := p, winOpen := false, qp0 := 0, wp := 0, wd := 0, noPrefill := 0 }
    if p = j.share then s1 else s1.bump .psChanges sl 1

/-- The token rings of a slice: the next step may send a message again (R259). -/
def State.ringsFree (s : State) (sl : Nat) : State :=
  { s with srv := { s.srv with rings := s.srv.rings.map fun r =>
      if r.1 / 2 ^ 14 = sl then (r.1, { r.2 with msgSent := false }) else r } }

/-- The step number advances (R249); on entry to Hibernate the job is suspended (R241). -/
def State.stepCounted (s : State) (sl : Nat) (p : Prog) : State :=
  match tabGet s.srv.jobs sl with
  | none => s
  | some j =>
    let n := j.next
    let win := bitsOf (s.reg .satCtrl sl 0) 16 16
    let s1 := if win ≠ 0 ∧ n % win = 0 then s.satWindowEnd sl p.layers else s
    let s2 := s1.shareEnd sl j
    let j2 := (tabGet s2.srv.jobs sl).getD j
    let state := if j2.state = .running ∧ s.pkg.hib ≠ .awake then JobState.suspended else j2.state
    let s3 := s2.setJob sl { j2 with next := n + 1, inStep := false, batch := [], state := state }
    ((s3.setReg64 .jobStepLo .jobStepHi sl n).evc sl 0x01 0xFF 1).ringsFree sl

/-- The end of a step. -/
def State.stepEnds (s : State) (sl : Nat) (j : Job) (p : Prog) : State :=
  let rows := j.batch
  let stop := j.state == .ending || s.pkg.hib != .awake
  let s1 := s.commitRest sl rows
  let s2 := rows.foldl (fun (t : State) r => ((t.settleLengths r.index p).rowEnd r).mirrorEnd r j.next) s1
  let s3 := rows.foldl (fun (t : State) r => t.reserve r.index p) s2
  let summer := (s3.desc.filter fun x => x.2.slice == sl && x.2.season == .summer).map (·.1)
  let s4 := summer.foldl (fun (t : State) i => t.seasonEnd i stop) s3
  let s5 := s4.stepCounted sl p
  let s6 := ((s5.forksDue sl).extendsDue sl).closesDue sl
  let s7 := ((s6.hotInstall sl j.next).switchAll sl).ckAtStepEnd sl j.next
  (s7.jobCheckEnd sl).ckIdle sl

/-- STEP_END (R249). -/
def execStepEnd (slice : BitVec 6) (s : State) : Host.Outcome State Fault Refusal :=
  let sl := slice.toNat
  match tabGet s.srv.jobs sl, s.curProg sl with
  | some j, some p => if s.stepOver j then .next (s.stepEnds sl j p) else .next s
  | _, _ => .next s

end Sys2Proof.Machine
end

