-- ==== Sys2Proof/Machine/Reset.lean ====
section
/-! DEFINITION. Resets of a function, of a slice and of a die (R6, R93, R318, R472, R490..R495), and the values that the
running image gives to registers (R55). -/

namespace Sys2Proof.Machine

/-! ## Registers (R6, R495) -/

/-- The fields of stored registers that `hit` picks return to their reset values; a pending LO of such a field is discarded
(R483). -/
def State.resetRegs (s : State) (hit : Reg → Nat → Field → Bool) : State :=
  { s with
    host := { s.host with pendLo := s.host.pendLo.filter fun (x : Nat × U32) => (match regAt (x.1 % 2 ^ 26) with
      | none => true
      | some (r, u, _) => !r.row.fields.any (hit r u)) }
    regs := s.regs.filterMap fun (x : Nat × U32) => (match regAt x.1 with
      | none => some x
      | some (r, u, _) =>
        let v := r.row.fields.foldl (fun n f => if hit r u f then putBits n f.lo f.width f.rst else n) x.2.toNat
        if v = r.rstVal then none else some (x.1, BitVec.ofNat 32 v)) }

/-- Blocks with one group per slice (R477). -/
def Block.ofSlice : Block → Bool
  | .sess | .kv | .att | .arith | .job | .serve | .mem | .ret | .ckpt | .qos | .evc => true
  | _ => false

/-- Values that the running image gives to registers of a slice (R55): prefill bounds, held-step limit, idle limit (0x000B),
checkpoint intervals (0x000A), event counter selections (0x0009), and RT.QOS. -/
def State.imageValues (s : State) (sl : Nat) : State :=
  let s1 := match s.sect 0x000B sl 0 with
    | none => s
    | some b =>
      ((s.setReg .psBounds sl 0 (byteAt b 0 + 256 * byteAt b 1)).setReg .heldLimit sl 0 (le b 4 2)).setReg64
        .sessIdleLimitLo .sessIdleLimitHi sl (le b 8 8)
  let s2 := match s1.sect 0x000A sl 0 with
    | none => s1
    | some b => (s1.setReg64 .ckptPkcIntervalLo .ckptPkcIntervalHi sl (le b 8 8)).setReg64
        .ckptStepIntervalLo .ckptStepIntervalHi sl (le b 0x18 8)
  let s3 := match s2.sect 0x0009 sl 0 with
    | none => s2
    | some b => (List.range 16).foldl (fun (t : State) k => t.setReg .evcSel sl k (le b (4 * k) 2)) s2
  s3.qosImage sl

/-! ## Functions (R472) -/

/-- A command of a queue ends without a completion (R351). -/
def State.forget (s : State) (t : Option Tag) : State :=
  match t with
  | none => s
  | some t =>
    if s.epoch t.fn t.cq ≠ t.epoch then s
    else match tabGet s.host.cqs t.cq with
    | none => s
    | some c => { s with host := { s.host with cqs := tabPut s.host.cqs t.cq { c with outstanding := c.outstanding - 1 } } }

/-- What a reset of a function destroys (R263, R471, R472): its queues, event queues, doorbells, MSI-X state, latches but
that of PKC_HI, which is of class K (R31), token rings, class V registers; its TDI goes to CONFIG_UNLOCKED. -/
def State.dropQueues (s : State) (fn : Nat) : State :=
  let h := s.host
  let s1 : State := { s with
    host := { h with
      sqs := h.sqs.filter (·.2.fn != fn), cqs := h.cqs.filter (·.2.fn != fn), eqs := h.eqs.filter (·.2.fn != fn)
      msixOn := h.msixOn.filter (· / 2048 != fn), msixPending := h.msixPending.filter (· / 2048 != fn)
      latches := h.latches.filter fun x => x.1 / 2 ^ 26 != fn || x.1 % 2 ^ 26 == Reg.addr .pkcHi 0 0
      pendLo := h.pendLo.filter (·.1 / 2 ^ 26 != fn)
      tdis := tabDel h.tdis fn, epochs := tabPut h.epochs fn (tabGetD h.epochs 0 fn + 1) }
    srv := { s.srv with rings := s.srv.rings.filter (·.2.fn != fn) } }
  s1.resetRegs fun r u f => r.row.block == .host && f.cls == .v && u == fn

/-- A live request that a function sent. -/
def Request.sentBy (r : Request) (fn : Nat) : Bool := r.live && r.tag.any (·.fn == fn)

/-- A session's requests from a reset function (R93, row Function): in Summer they end at the next commit point, in Spring and
Winter they are kept, else they are removed. -/
def State.dropFnRequests (s : State) (fn i : Nat) : State :=
  let d := s.d i
  let mark (t : State) (k : Nat) : State := { t with srv := { t.srv with dropped := setInsert t.srv.dropped k } }
  if d.season = .winter ∨ d.season = .spring then s
  else if d.season = .summer then
    let s1 := if d.pending.sentBy fn then mark s (2 ^ 24 + i) else s
    if d.active.sentBy fn then mark s1 i else s1
  else
    let s1 := if d.pending.sentBy fn then s.endPending i eAborted fLast else s
    if d.active.sentBy fn then (s1.endActive i eAborted fLast true).afterEnd i else s1

/-- A function reset (R472, R490): of PF1 or a VF. -/
def State.functionReset (s : State) (fn : Nat) : State :=
  (s.desc.map (·.1)).foldl (fun (t : State) i => t.dropFnRequests fn i) (s.dropQueues fn)

/-! ## Sessions ended by a reset (R93, R127) -/

/-- Commands that wait for a session end with a status: PARK, THAW, CLOSE, FORK, RING_EXTEND, and RING_CMDs carried on. -/
def State.endWaits (s : State) (i status : Nat) : State :=
  let a := s.ax i
  let forks := (s.srv.forks.filter (·.1 == i)).map (·.2.2) ++ (s.srv.forkPends.filter (·.index == i)).map (·.tag) ++
    (s.srv.extends_.filter (·.1 == i)).map (·.2.2.2)
  let mine := s.comp.relays.filter (·.index == i)
  let tags := a.parkTag.toList ++ a.thawTags ++ a.closeTag.toList ++ forks ++ mine.filterMap (·.tag)
  let s1 := s.setAx i { a with parkTag := none, thawTags := [], closeTag := none, closeAtEnd := false, parkCause := 0 }
  let s2 : State := { s1 with
    srv := { s1.srv with
      forks := s1.srv.forks.filter (·.1 != i), forkPends := s1.srv.forkPends.filter (·.index != i)
      extends_ := s1.srv.extends_.filter (·.1 != i) }
    comp := { s1.comp with relays := s1.comp.relays.filter (·.index != i) } }
  let s3 := tags.foldl (fun (t : State) g => t.complete g status 0 []) s2
  (mine.filterMap (·.hdr)).foldl (fun (t : State) h => t.lateAnswer h 7 status 0) s3

/-- A canvas operation of a session given up: a park's or a migration's partial canvas is freed, a thaw leaves its canvas. -/
def State.dropOp (s : State) (i : Nat) : State :=
  match s.opOf i with
  | none => s
  | some o => if o.kind = 2 then s.delOp i else s.abandonPark i

/-- What is kept by session index beside the descriptor forgets the session. -/
def State.forgetIndex (s : State) (i : Nat) : State :=
  let mine (p : Purpose) : Bool := match p with
    | .mirror k _ => k == i
    | .ring _ k => k == i
    | .canvasData k => k == i
    | _ => false
  { s with
    srv := { s.srv with
      waits := s.srv.waits.filter (·.index != i), causes := tabDel s.srv.causes i
      dropped := s.srv.dropped.filter (· % 2 ^ 24 != i), awayRings := s.srv.awayRings.filter fun x => x.1 / 2 ^ 14 != i }
    comp := { s.comp with outst := s.comp.outst.map fun (t : Txn) => if mine t.purpose then { t with purpose := .none } else t } }

/-- The handoffs of a session whose slice a reset takes (R127): the giver's record stays, marked lost; a receiver's goes, with
what it had of a canvas. -/
def State.loseHandoff (s : State) (i : Nat) : State :=
  let s1 : State := { s with handoffs := s.handoffs.map fun (h : Handoff) =>
    if h.index = i ∧ h.giver then { h with lost := true } else h }
  match s1.handoffs.find? fun h => h.index == i && !h.giver with
  | none => s1
  | some h =>
    let s2 := s1.delHo h
    let d := s2.d i
    if ¬ h.tail ∧ d.canvasTier = 2 ∧ ¬ h.descOnly then s2.freeCanvas d else s2

/-- A session ended by a reset (R93): live requests and waiting commands end with E_SESSION_RESET, its pages and a canvas in T1
are freed, RESET_LOST is posted, SESS_LOST rises, the descriptor becomes Empty. A canvas in T2 or T3 stays, unless `whole`. The
stretch of a ring member counts as removed (R173). -/
def State.loseSession (s : State) (i : Nat) (whole : Bool) : State :=
  let d := s.d i
  let s1 := (s.dropRequests i eSessionReset).endWaits i eSessionReset
  let s2 := ((s1.dropOp i).loseHandoff i).freeSession i
  let s3 := if d.canvasTier = 1 ∨ (whole ∧ d.canvasTier = 2) then s2.freeCanvas d else s2
  let s4 := ((s3.sessEvent i d.season .empty 6).toEmpty i).bump .sessLost 0 1
  let s5 := (s4.forgetIndex i).unmapped d.slice
  if d.tail ∨ d.ringSize ≤ 1 ∨ d.pagesHeld = 0 then s5
  else (s5.stretchLost d.sessionId d.ringPos).tellLost d.sessionId d.ringPos d.ownerEpoch 0xFFFF
    [d.ringNext, if d.dclass = 1 then d.mirrorDev else 0xFFFF]

/-- A Winter session that a reset keeps (R93, R182): its request slots are cleared, it holds no palette reference. -/
def State.keepWinter (s : State) (i : Nat) : State :=
  let s1 := s.dropRequests i eSessionReset
  s1.setD i { s1.d i with palette := 0xFFFF }

/-- Every session of a slice at a slice reset; `tenant` for a tenant change (R93, R318). -/
def State.resetSessions (s : State) (sl : Nat) (tenant : Bool) : State :=
  ((s.desc.filter fun x => x.2.slice == sl && x.2.used).map (·.1)).foldl (fun (t : State) i =>
    match (t.d i).season with
    | .empty => t
    | .closing => (t.closeEnd i).forgetIndex i
    | .winter => if tenant then t.loseSession i true else t.keepWinter i
    | _ => t.loseSession i false) s

/-! ## A slice's engines, memory and objects at a slice reset -/

/-- The slice's job, cores, monitors and requests away from it (R93, R230, R241). -/
def State.resetJob (s : State) (sl : Nat) : State :=
  let own := ((s.sliceEnt sl).map SliceEnt.cores).getD []
  let endTag := (tabGet s.srv.jobs sl).bind (·.endTag)
  let away := s.srv.handed.filter (·.slice == sl)
  let s1 : State := { s with
    srv := { s.srv with
      jobs := tabDel s.srv.jobs sl, sat := tabDel s.srv.sat sl, cores := s.srv.cores.filter fun c => !own.contains c.1
      rings := s.srv.rings.filter fun x => x.1 / 2 ^ 14 != sl, handed := s.srv.handed.filter (·.slice != sl) }
    mem := { s.mem with curProg := tabDel s.mem.curProg sl }
    comp := { s.comp with outst := s.comp.outst.map fun (t : Txn) =>
      (match t.purpose with
       | .mover c _ _ => if own.contains c then { t with purpose := .none } else t
       | _ => t) } }
  away.foldl (fun (t : State) x => t.completeOpt x.tag eSessionReset []) (s1.completeOpt endTag eOk [])

/-- Indexes, tables and retrieval operations of a slice (R351). -/
def State.resetRetrieval (s : State) (sl : Nat) : State :=
  let ops := s.ret.ops.filter (·.slice == sl)
  let tables := s.ret.tables.filter (·.slice == sl)
  let tags := ops.map (·.tag) ++ (s.ret.indexes.filter (·.slice == sl)).map (·.dtag) ++ tables.map (·.dtag) ++
    tables.map (fun t => t.switching.bind id) ++ tables.map (fun t => t.discarded.bind (·.2.2))
  let gone (t : Txn) : Bool := match t.purpose with
    | .ret id _ => ops.any (·.id == id)
    | .fetch k _ _ => k == sl
    | .homeWrite k _ => k == sl
    | _ => false
  let s1 : State := { s with
    ret := { s.ret with
      ops := s.ret.ops.filter (·.slice != sl), indexes := s.ret.indexes.filter (·.slice != sl)
      tables := s.ret.tables.filter (·.slice != sl), parts := s.ret.parts.filter (·.slice != sl) }
    comp := { s.comp with outst := s.comp.outst.map fun (t : Txn) => if gone t then { t with purpose := .none } else t } }
  tags.foldl State.forget s1

/-- Objects, apertures, palette entries and mirrors of a slice (R182, R320, R387): freed; commands that wait for them end with
E_ABORTED, but for those of indexes and tables (R351). -/
def State.resetObjects (s : State) (sl : Nat) : State :=
  let objs := s.mem.objects.filter (·.slice == sl)
  let waits := (objs.filter (·.type < 2)).filterMap (·.tag)
  let s1 := objs.foldl State.freeObj s
  let s2 := waits.eraseDups.foldl (fun (t : State) g => t.complete g eAborted 0 []) s1
  let s3 := ((objs.filter (2 ≤ ·.type)).map (·.tag)).eraseDups.foldl State.forget s2
  let aps := s3.apertures.filter (·.slice == sl)
  let s4 := aps.foldl (fun (t : State) a => match a.base with
    | some b => if (t.member a.member).isSome then t.send a.member 7 0x21 sl [b] [] .none else t
    | none => t.completeOpt a.tag eAborted []) { s3 with apertures := s3.apertures.filter (·.slice != sl) }
  let pals := s4.srv.pals.filter (·.2.slice == sl)
  let s5 := pals.foldl (fun (t : State) p => (t.freePal p.1).completeOpt p.2.tag eAborted []) s4
  (s5.mirrors.filter (·.slice == sl)).foldl State.dropMirror s5

/-- Dirty units of 2 MiB of HBM ranges (R318), as gesso that a slice reset waits for. -/
def State.dirtyGesso (s : State) (sl : Nat) (ranges : List (Nat × Nat)) : List Gesso :=
  (s.mem.dirty.filter fun u => ranges.any fun r => 2 ^ 21 * u < r.1 + r.2 && r.1 < 2 ^ 21 * (u + 1)).map fun u =>
    { pa := 2 ^ 21 * u, size := 2 ^ 21, slice := sl, reset := true }

/-- General ranges of a slice by state die (R293, R296). -/
def State.generalRanges (s : State) (sl : Nat) : List (Nat × Nat) := (List.range 8).map fun n => s.general sl n

/-- The slice's memory at a slice reset (R318): what is left of its regions is freed; every dirty unit of its general memory, at
a tenant change of its pool contribution too, waits for gesso, as do canvases in the Winter area that no kept Winter session
names. -/
def State.resetMemory (s : State) (sl : Nat) (tenant : Bool) : State :=
  let kept (c : Stored) : Bool := s.desc.any fun x =>
    x.2.slice == sl && x.2.season == .winter && x.2.canvasTier == 1 && x.2.canvasAddr == c.addr
  let lost := s.cnv.stored.filter fun c => c.tier == 1 && c.slice == sl && !kept c
  let pool := if tenant then s.pool.filter (·.slice == sl) else []
  let ranges := s.generalRanges sl ++ if tenant then s.contribution sl else []
  let fresh := s.dirtyGesso sl ranges ++ lost.map fun (c : Stored) =>
    ({ pa := winterPa sl c.addr.toNat, size := c.canvas.len * 4096, slice := sl, reset := true } : Gesso)
  let s1 := pool.foldl State.poolDrop s
  State.invalidate (sl := sl) { s1 with
    mem := { s1.mem with
      regions := s1.mem.regions.filter (·.slice != sl)
      gesso := s1.mem.gesso.map (fun (g : Gesso) => if g.slice = sl then { g with reset := true } else g) ++ fresh
      tables := s1.mem.tables.filter (·.slice != sl)
      winGesso := s1.mem.winGesso.filter fun w => w / 2 ^ 14 != sl || s1.mem.gesso.any fun g => g.window == some w }
    cnv := { s1.cnv with stored := s1.cnv.stored.filter fun c => !lost.contains c } }

/-- Checkpoint commands and restores of a slice (R401, R404). -/
def State.resetCkpt (s : State) (sl : Nat) (tenant : Bool) : State :=
  let s1 := if tenant then s.ckTenant sl else s.ckReset sl
  let tags := (tabGet s1.ck.now sl).toList ++ (s1.ck.restores.filter (·.slice == sl)).filterMap (·.tag)
  let s2 : State := { s1 with ck := { s1.ck with
    now := tabDel s1.ck.now sl, restores := s1.ck.restores.filter (·.slice != sl), ended := tabDel s1.ck.ended sl } }
  tags.foldl (fun (t : State) g => t.complete g eCkptAborted 0 []) s2

/-- Class L state of a slice that is neither session, job nor memory: registers, which then take the running image's values
(R55), content key slots and the consent record (R449), deficit counters (R287). -/
def State.resetClassL (s : State) (sl : Nat) : State :=
  let s1 := s.resetRegs fun r u f => r.row.block.ofSlice && r.row.grouped && u == sl && f.cls == .l
  let s2 := (s1.imageValues sl).eraseSlots fun k => k == sl
  let ports := ((s.sliceEnt sl).map fun e => setBits e.ports 48).getD []
  let s3 := ports.foldl (fun (t : State) p => t.setPort p { t.port p with deficit := [] }) s2
  s3.consentOff sl

/-- What a slice reset clears (R490); `tenant` for a tenant change (R318). A slice that is not defined has nothing to reset. -/
def State.sliceClear (s : State) (sl : Nat) (tenant : Bool) : State :=
  if ¬ s.defined sl then s
  else
    let s0 := match sliceFn sl with
      | some fn => s.dropQueues fn
      | none => s
    let s1 : State := { s0 with host := { s0.host with eqs := tabDel s0.host.eqs sl } }
    let s2 := ((s1.resetCkpt sl tenant).resetJob sl).resetSessions sl tenant
    (((s2.resetRetrieval sl).resetObjects sl).resetMemory sl tenant).resetClassL sl

/-- A slice reset (R490): the slice stays DEFINED, so a drain that the reset interrupted resumes (R404). -/
def State.sliceReset (s : State) (sl : Nat) (tenant : Bool) : State := (s.sliceClear sl tenant).ckResume sl

/-! ## Dies (R27, R490, R491) -/

/-- RST_CAUSE set (R491): KIND 1 cold, 2 package, 3 warm, 4 die. DIE stays but for a die reset. -/
def State.cause (s : State) (kind cause : Nat) : State :=
  (s.setFld .rstCause 0 0 4 4 kind).setFld .rstCause 0 0 0 4 cause

/-- A load that is under way ends with E_IMG_ABORTED (R50). The named slices are DEFINED again under their old entries: released
ports are brought up, drains resume (R404). What becomes of the staged image R50 and R51 do not say: the image of a MODE 0 load
is discarded with the load, one that MODE 1 staged stays staged (DESIGN CHOICE, log entry 79). -/
def State.abortLoad (s : State) (complete : Bool) : State :=
  match s.img.load with
  | none => s
  | some l =>
    let s1 : State := { s with img := { s.img with load := none, staged := if l.second then s.img.staged else none } }
    let s2 := (if l.second then s1 else (s1.setFld .imgStatus 0 0 20 1 0).remeasure 23 0).setFld .imgStatus 0 0 0 16 eImgAborted
    let s3 := (if complete then s2.completeOpt l.tag eImgAborted [] else s2).genUp
    l.named.foldl (fun (t : State) sl =>
      let ports := setBits ((t.sliceEnt sl).getD {}).ports 48
      (ports.foldl (fun (u : State) p => if (u.port p).state = 0 then u.bringup p else u) t).ckResume sl) s3

/-- The ports of a link die lose link, keys and credits (R387). -/
def State.portsDown (s : State) (n : Nat) : State :=
  let was := (List.range 16).any fun p => 3 ≤ (s.port (16 * n + p)).state && (s.port (16 * n + p)).state ≤ 5
  let s1 := (List.range 16).foldl (fun (t : State) p =>
    let k := 16 * n + p
    let x := t.port k
    let l := t.unackedOn x
    let u := t.setPort k { x.cleared with state := 0, step := 0, peerDev := 0xFFFF, peerPort := 0, peerKind := 0, meters := [] }
    l.foldl State.again u) s
  if was then s1.sendLinks else s1

/-- Class D state of a die other than its boot (R6): registers, core store remaps and corrected counts (R316), the translation
caches of its cores or walkers (R159), count records stay with HBM, engines idle. -/
def State.resetClassD (s : State) (d : Nat) : State :=
  let s1 := s.resetRegs fun r u f => f.cls == .d &&
    match r.row.block with
    | .mc | .ce => u + 8 == d
    | .cs => u == d
    | .port => u / 16 + 16 == d
    | _ => false
  let onDie (core : Nat) : Bool := core / 64 == d
  let s2 : State := { s1 with
    mem := { s1.mem with
      rowErrs := s1.mem.rowErrs.filter (fun x => !onDie (x.1 / 2 ^ 17)), spares := s1.mem.spares.filter (fun x => !onDie (x.1 / 32))
      degraded := s1.mem.degraded.filter (fun c => !onDie c), replaced := s1.mem.replaced.filter (fun x => !onDie (x / 2 ^ 17))
      coreTlb := s1.mem.coreTlb.filter (fun x => !onDie x.1), walkTlb := s1.mem.walkTlb.filter fun x => x.1 / 16 + 8 != d }
    cnv := { s1.cnv with engines := s1.cnv.engines.filter fun x => x.1 / 8 + 8 != d } }
  if 16 ≤ d ∧ d < 19 then s2.portsDown (d - 16) else s2

/-- A die is in die reset: not released, not measured, no certificate, watchdog disarmed (R430, R493). -/
def Die.held (x : Die) : Die :=
  { x with released := false, measured := false, meas := 0, certified := false, wdArmed := false, halted := false,
           pipeTested := false }

/-- Slices with resources on a die (R27). -/
def State.slicesOn (s : State) (d : Nat) : List Nat :=
  s.slices.filter fun sl => ((s.sliceEnt sl).getD {}).dies.contains d

/-- A die reset (R490, R491) with the cause to record: the load under way is given up, each slice with resources on the die is
reset, the die is held until it is released (R27). A die already in reset absorbs it. -/
def State.dieReset (s : State) (d cause : Nat) : State :=
  if ¬ (s.die d).released then s
  else
    let s1 := s.abortLoad true
    let s2 := (s1.slicesOn d).foldl (fun (t : State) sl => t.sliceReset sl false) s1
    let s3 := (s2.setDie d (s2.die d).held).resetClassD d
    ((s3.cause 4 cause).setFld .rstCause 0 0 8 8 d).diesChanged

end Sys2Proof.Machine
end

