-- ==== Sys2Proof/Machine/Package.lean ====
section
/-! DEFINITION. Warm, package and cold resets, the boot ROM's choice of a firmware slot, and the rails, pins and clocks that
cause them (R27..R29, R490..R494, R502..R505, R529..R533). -/

namespace Sys2Proof.Machine

/-! ## Boot flash (R502, R503) -/

/-- The boot record in use: the valid one with the higher SEQ. -/
def Flash.record (f : Flash) : BootRec :=
  if f.rec0.valid ∧ (¬ f.rec1.valid ∨ f.rec1.seq.toNat ≤ f.rec0.seq.toNat) then f.rec0
  else if f.rec1.valid then f.rec1 else {}

/-- A boot record written into the slot that is not in use, SEQ raised by one (R502). -/
def Flash.write (f : Flash) (r : BootRec) : Flash :=
  let old := f.record
  let n := { r with valid := true, seq := old.seq + 1 }
  if f.rec0.valid ∧ old = f.rec0 then { f with rec1 := n } else { f with rec0 := n }

/-- A firmware slot's bundle: 0 slot A, 1 slot B. -/
def Flash.slot (f : Flash) (k : Nat) : Bytes := if k = 0 then f.slotA else f.slotB

/-- The four STAGES of a firmware header lie in the bundle and have the hashes it gives (R503). -/
def stagesOk (b : Bytes) : Bool :=
  (List.range 4).all fun k =>
    let o := 0x10 + 40 * k
    le b o 4 + le b (o + 4) 4 ≤ b.length - 2420 && Config.sha3 (sub b (le b o 4) (le b (o + 4) 4)) == hashAt b (o + 8)

/-- The header of a firmware bundle is well formed (R503). -/
def fwHeaderOk (b : Bytes) : Bool :=
  le b 0 4 == 0x57465751 && le b 4 2 == 1 && decide (le b 6 2 < 2) && le b 8 4 == b.length && decide (b.length ≤ 48 * 2 ^ 20) &&
  decide (0x100 + 2420 ≤ b.length) && zeroAt b 0xE 2 && zeroAt b 0xB0 80

/-- The signature of a firmware bundle verifies (R503). -/
def fwSigned (b : Bytes) : Bool :=
  Config.mldsaVerify Config.firmwareKey (hashBytes (Config.sha3 (b.take (b.length - 2420)))) (b.drop (b.length - 2420))

/-- SVN of a firmware bundle. -/
def fwSvn (b : Bytes) : Nat := le b 0xC 2

/-- A slot verifies at boot (R504 step 5): header, signature, SVN not below FW_MIN_SVN. -/
def Flash.verifies (f : Flash) (k : Nat) : Bool :=
  fwHeaderOk (f.slot k) && fwSigned (f.slot k) && decide (f.record.fwMinSvn.toNat ≤ fwSvn (f.slot k))

/-- The boot ROM's choice (R504 steps 3 and 5, R505): slot ACTIVE, else the other one, else recovery, which `forced` asks for;
the ROM is measured. -/
def State.bootRom (s : State) (forced : Bool) : State :=
  let f := s.flash
  let a := f.record.active.toNat
  let pick := if forced then none else if f.verifies a then some a else if f.verifies (1 - a) then some (1 - a) else none
  let s1 : State := { s with sec := { s.sec with romMeasured := true } }
  match pick with
  | none =>
    ({ s1 with flash := { f with running := [] } }).setFld .fwStatus 0 0 7 1 1
  | some k =>
    let trial := f.record.trial && k == a
    let s2 : State := { s1 with flash := { f with running := (f.slot k).take 0x100, trialPkc := s.pkg.pkc } }
    ((s2.setFld .fwStatus 0 0 0 1 k).setFld .fwStatus 0 0 2 1 (boolBit trial)).setFld .fwStatus 0 0 16 16 (fwSvn (f.slot k))

/-! ## Warm and package resets (R490, R495) -/

/-- What a warm or wider reset clears: every slice, every function's queues, every port, the image, the map copy, state of
classes W, D, L and V (R54, R93, R387, R449, R495). -/
def State.clearWork (s : State) : State :=
  let s1 := s.slices.foldl (fun (t : State) sl => t.sliceClear sl false) s
  let s2 := (List.range 64).foldl State.dropQueues s1
  let s3 := (List.range 3).foldl State.portsDown s2
  let s4 := s3.resetRegs fun _ _ f => f.cls == .w || f.cls == .d || f.cls == .l || f.cls == .v
  { s4 with
    pkg := { s4.pkg with ready := false }
    img := { before := if s.img.running.isSome then s.img.running else s.img.before }
    comp := { vote := s4.comp.vote, voteLost := s4.comp.voteLost, nextTag := s4.comp.nextTag, windows := s4.comp.windows }
    net := { ports := s4.net.ports }
    srv := {}
    ret := {}
    cnv := { stored := s4.cnv.stored }
    sec := { s4.sec with
      slots := [], consents := [], jtag := []
      meas := s4.sec.meas.filter fun m => m.1 == 24 || 153 ≤ m.1 } }

/-- Dies powered again: each waits for its release (R27), its PKC copy started from the master (R28). -/
def State.powerDies (s : State) (ds : List Nat) : State :=
  ds.foldl (fun (t : State) d => t.setDie d
    { (t.die d).held with powered := true, locked := t.pkg.refclk, lockPkc := t.pkg.pkc, pkc := t.pkg.pkc }) s

/-- A warm reset (R490) with the cause to record; absorbed by a cold reset that waits (R491). It leaves Hibernate: the dies that
were unpowered are powered again. -/
def State.warmReset (s : State) (c : Nat) : State :=
  if ¬ s.pkg.conversion then s
  else
    let off := if s.pkg.shutdown then [] else (List.range 20).filter fun d => !(s.die d).powered
    let s1 := (s.clearWork.powerDies off).setFld .pwrState 0 0 0 2 0
    let s2 : State := { s1 with pkg := { s1.pkg with hib := .awake, hibTags := [] } }
    (s2.cause 3 c).measChanged.debugChanged

/-- A package reset (R490, R494) with the cause to record; absorbed by a cold reset that waits (R491). Every die is held, HBM
stays in self-refresh, the boot ROM runs, the self-tests start again (R411). A link whose PERST_N is deasserted trains again
to what it had. -/
def State.packageReset (s : State) (c : Nat) : State :=
  if ¬ s.pkg.conversion then s
  else
    let link := s.reg .pcieLink 0 0
    let s1 := (s.clearWork.resetRegs fun _ _ f => f.cls == .p).powerDies (List.range 20)
    let p := s1.pkg
    let s2 : State := { s1 with
      pkg := { p with
        pcieLocked := p.refclk, bridgesDown := [], hib := .awake, hibTags := [], thermDuty := 16, capDuty := 16
        beWithheld := false, capPeriods := 0, shutdown := false, ready := false, fatal := false, selfRefresh := true
        watts := 0, powerLog := [], tempLog := []
        dies := p.dies.map fun x => (x.1, { x.2 with tags := [] }) }
      flash := { s1.flash with staged := false, stagedHash := 0 }
      host := { s1.host with ide := [], bar4Log2 := [], spdm := {} }
      comp := { s1.comp with windows := [] }
      sec := { s1.sec with keysErased := false, armed := none, armedPldm := none, meas := tabDel s1.sec.meas 24 } }
    let s3 := if p.perst then s2 else s2.setReg .pcieLink 0 0 link
    ((s3.cause 2 c).bootRom false).diesChanged.debugChanged

/-! ## Cold reset (R490, R491) -/

/-- The lowest generation that is not retired (R416). -/
def lowestUnretired (retired : Nat) : Nat := ((List.range 16).find? fun g => !bitAt retired g).getD 0

/-- A cold reset: fuses, flash, pins and what lies outside the device stay; ZEROIZE_PENDING stays where VAUX12 did (R447). T2
canvases that lie wholly on other devices stay there (R93). The PKC starts at 0. -/
def State.coldReset (s : State) (keepPending : Bool) : State :=
  let p := s.pkg
  let own := s.ownNo.getD 0xFFFF
  { pending := s.pending, free := s.free
    flash := { s.flash with staged := false, stagedHash := 0, running := [], trialPkc := 0 }
    sec := { retired := s.sec.retired, zcount := s.sec.zcount, lifecycle := s.sec.lifecycle, authors := s.sec.authors
             current := lowestUnretired s.sec.retired, zeroizePending := keepPending && s.sec.zeroizePending }
    host := { mem := s.host.mem, holes := s.host.holes, out := s.host.out }
    pkg := { vaux12 := p.vaux12, vio18 := p.vio18, vin48 := p.vin48, pwrgood := p.pwrgood, perst := p.perst
             refclk := p.refclk, straps := p.straps }
    comp := { voteLost := true }
    cnv := { stored := s.cnv.stored.filter fun c => c.tier == 2 && !c.members.any (·.1 == own) } }

/-- PWRGOOD as the device reads it: deasserted while VIO18 is below 1.6 V (R530). -/
def State.goodPower (s : State) : Bool := s.pkg.vaux12 && s.pkg.vio18 && s.pkg.pwrgood && s.pkg.vin48

/-- Conversion stages off (R530): a cold reset, which waits for VIN48 to be present again. -/
def State.powerLost (s : State) : State := if s.pkg.conversion then s.coldReset true else s

/-- Generations that ZEROIZE retires (R447 step 3): the current one and every one in the in-use mask. -/
def State.zeroizeMask (s : State) : Nat := maskOf ((List.range 16).filter fun g => g == s.sec.current || bitAt s.inUse g)

/-- Steps 2 to 4 of *Zeroization* (R447): keys erased, ports with a cipher FAILED, generations retired, a ZCOUNT bit blown. With
no generation left the device is RETURNED (R416). -/
def State.zeroizeKeys (s : State) : State :=
  let s1 := (List.range 48).foldl (fun (t : State) p => if (t.port p).cipher then t.portFail p else t) s
  let r := s1.sec.retired ||| s1.zeroizeMask
  let s2 : State := { s1 with sec := { s1.sec with
    keysErased := true, slots := [], csk := none, cskReserve := none, retired := r
    zcount := if s1.sec.zcount < 16 then s1.sec.zcount + 1 else s1.sec.zcount, zeroizePending := false } }
  { s2 with sec := { s2.sec with
    current := lowestUnretired r, lifecycle := if r % 2 ^ 16 = 0xFFFF then 3 else s2.sec.lifecycle } }

/-- Conversion starts when VIN48 is present (R529, R530): the cold reset goes on, the dies are powered, the boot ROM runs; STRAP0
forces recovery (R505). A ZEROIZE that power cut short is completed first (R447). -/
def State.powerOn (s : State) : State :=
  if ¬ s.goodPower ∨ s.pkg.conversion then s
  else
    let s1 : State := { s with pkg := { s.pkg with conversion := true, coldPending := false, pcieLocked := s.pkg.refclk } }
    let s2 := (s1.powerDies (List.range 20)).bootRom (bitAt s.pkg.straps.toNat 0)
    if s2.sec.zeroizePending then s2.zeroizeKeys.packageReset 5 else s2

/-! ## Rails and pins (R529, R530, R532, R533) -/

/-- VAUX12_APPLIED (R529 step 1): with VIO18; the always-on island starts a cold reset. -/
def execVaux12Applied (s : State) : Host.Outcome State Fault Refusal :=
  if s.pkg.vaux12 then .next s
  else
    let s1 := s.coldReset false
    .next ({ s1 with pkg := { s1.pkg with vaux12 := true, vio18 := true } }).powerOn

/-- VIN48_APPLIED (R529 step 3): VIN48 lies between the limits of *Supply monitors*. -/
def execVin48Applied (s : State) : Host.Outcome State Fault Refusal :=
  .next ({ s with pkg := { s.pkg with vin48 := true } }).powerOn

/-- PWRGOOD_ASSERT (R529 step 4, R533): the straps are sampled when it begins a cold reset. -/
def execPwrgoodAssert (straps : U8) (s : State) : Host.Outcome State Fault Refusal :=
  if s.pkg.pwrgood then .next s
  else
    let begins := s.pkg.coldPending && s.pkg.vaux12 && s.pkg.vio18
    .next ({ s with pkg := { s.pkg with pwrgood := true, straps := if begins then straps else s.pkg.straps } }).powerOn

/-- PWRGOOD_DEASSERT (R530): conversion off. -/
def execPwrgoodDeassert (s : State) : Host.Outcome State Fault Refusal :=
  .next ({ s with pkg := { s.pkg with pwrgood := false } }).powerLost

/-- PERST_N_ASSERT (R490, R530): a package reset; none while PWRGOOD is deasserted. -/
def execPerstNAssert (s : State) : Host.Outcome State Fault Refusal :=
  if s.pkg.perst then .next s
  else
    let s1 : State := { s with pkg := { s.pkg with perst := true } }
    .next (if s.goodPower then s1.packageReset 1 else s1)

/-- PERST_N_DEASSERT (R529 step 5, R452): PCIe trains to a width and speed while its PLL is locked. -/
def execPerstNDeassert (width speed : BitVec 4) (flit l0p : Bool) (s : State) : Host.Outcome State Fault Refusal :=
  let s1 : State := { s with pkg := { s.pkg with perst := false } }
  if s.pkg.conversion ∧ s.pkg.pcieLocked ∧ s.pkg.vio18 then
    .next (s1.setReg .pcieLink 0 0 (width.toNat * 256 + speed.toNat * 16 + boolBit l0p * 2 + boolBit flit))
  else .next s1

/-- VIN48_OUT_OF_RANGE (R530): conversion off. -/
def execVin48OutOfRange (s : State) : Host.Outcome State Fault Refusal :=
  .next ({ s with pkg := { s.pkg with vin48 := false } }).powerLost

/-- VAUX12_REMOVED (R530): everything off; state of class K and ZEROIZE_PENDING are lost. -/
def execVaux12Removed (s : State) : Host.Outcome State Fault Refusal :=
  if ¬ s.pkg.vaux12 then .next s
  else
    let s1 := s.coldReset false
    .next { s1 with pkg := { s1.pkg with vaux12 := false, vio18 := false } }

/-- VIO18_LOW (R530): PERST_N reads as asserted and PWRGOOD as deasserted. -/
def execVio18Low (s : State) : Host.Outcome State Fault Refusal :=
  .next ({ s with pkg := { s.pkg with vio18 := false } }).powerLost

/-- VIO18_RESTORED (R530): the pins are read live again. -/
def execVio18Restored (s : State) : Host.Outcome State Fault Refusal :=
  if s.pkg.vaux12 then .next ({ s with pkg := { s.pkg with vio18 := true } }).powerOn else .next s

/-! ## Clocks (R27, R531) -/

/-- A PLL loses lock: CLK_LOSS and the error log (R27). PLL 20 is the PCIe PLL. -/
def State.lockLost (s : State) (pll : Nat) : State :=
  (s.setFld .clkLoss 0 0 pll 1 1).logErr 0x0009 (if pll < 20 then pll else 0xFF) 0xFF 0 pll none

/-- PLL_LOCK_LOSS (R27): a die reset of a die other than RT; a package reset for RT and the PCIe PLL. The PLL locks again, and
its 2^16 cycles count from now. -/
def execPllLockLoss (pll : BitVec 5) (s : State) : Host.Outcome State Fault Refusal :=
  let n := pll.toNat
  if ¬ s.pkg.conversion ∨ 20 < n then .next s
  else if n < 19 then
    let x := s.die n
    if ¬ (x.powered ∧ x.locked) then .next s
    else
      let s1 := (s.lockLost n).dieReset n 8
      .next (s1.setDie n { s1.die n with locked := s1.pkg.refclk, lockPkc := s1.pkg.pkc })
  else .next ((s.lockLost n).packageReset 4)

/-- REFCLK_STOP (R531): the root PLLs and the PCIe PLL lose lock. -/
def execRefclkStop (s : State) : Host.Outcome State Fault Refusal :=
  if ¬ s.pkg.refclk then .next s
  else
    let on := (List.range 20).filter fun d => (s.die d).powered && (s.die d).locked
    let s1 : State := { s with pkg := { s.pkg with refclk := false } }
    if ¬ s.pkg.conversion then .next s1
    else .next (((on ++ [20]).foldl State.lockLost s1).packageReset 4)

/-- REFCLK_RESTART (R531): the PLLs of powered dies lock again. -/
def execRefclkRestart (s : State) : Host.Outcome State Fault Refusal :=
  if s.pkg.refclk then .next s
  else
    let p := s.pkg
    .next { s with pkg := { p with
      refclk := true, pcieLocked := p.conversion
      dies := p.dies.map fun x => (x.1, if x.2.powered then { x.2 with locked := true, lockPkc := p.pkc } else x.2) } }

end Sys2Proof.Machine
end

