-- ==== Sys2Proof/Machine/Power.lean ====
section
/-! DEFINITION. Boot of the dies, self-tests, watchdogs, bridges, power states, throttling, capping and thermal shutdown (R16,
R27, R411, R412, R439, R493, R497..R501, R504, R513..R516), and the commands that reset. -/

namespace Sys2Proof.Machine

/-! ## Dies at boot (R27, R504) -/

/-- Dies below `d` that have power and are not released: boot releases each die in index order (R504 step 7). -/
def State.earlierHeld (s : State) (d : Nat) : Bool := (List.range d).any fun k => (s.die k).powered && !(s.die k).released

/-- DIE_RELEASE (R27): 2^16 REFCLK cycles after its PLL locked; RT first, the others by its firmware, in index order at boot.
Its PKC copy is reloaded from the master (R28). The ports of a link die are brought up (R366). -/
def execDieRelease (die : BitVec 5) (s : State) : Host.Outcome State Fault Refusal :=
  let d := die.toNat
  let x := s.die d
  let due := s.pkg.conversion && d < 20 && x.powered && x.locked && !x.released && decide (655360 ≤ s.pkc - x.lockPkc.toNat)
  let turn := d == 19 ||
    ((s.die 19).released && s.fld .fwStatus 0 0 7 1 == 0 && !s.pkg.shutdown && (s.pkg.ready || !s.earlierHeld d))
  if ¬ (due ∧ turn) then .next s
  else
    let s1 := s.setDie d { x with released := true, pkc := s.pkg.pkc }
    .next (if 16 ≤ d ∧ d < 19 then (List.range 16).foldl (fun (t : State) p => t.bringup (16 * (d - 16) + p)) s1 else s1)

/-- The firmware kind of a die in STAGES (R503): RT, CD, SD, LD. -/
def stageKind (d : Nat) : Nat := if d = 19 then 0 else if d < 8 then 1 else if d < 16 then 2 else 3

/-- DIE_FIRMWARE_MEASURED (R504 steps 6 and 7): a released die loads its stage. One whose hash is that of the running bundle is
measured, gets its die certificate and arms its watchdog (R415, R493); DEV_RESET commands that wait for it complete. Another
leaves the die UNMEASURED and is logged. -/
def execDieFirmwareMeasured (die : BitVec 5) (stage : Bytes) (s : State) : Host.Outcome State Fault Refusal :=
  let d := die.toNat
  let x := s.die d
  if 19 < d ∨ ¬ x.released ∨ x.measured ∨ s.flash.running.isEmpty then .next s
  else
    let h := hashAt s.flash.running (0x10 + 40 * stageKind d + 8)
    if Config.sha3 stage ≠ h then .next (s.logErr 0x000E d 0xFF 0 d none)
    else
      let s1 := s.setDie d { x with
        measured := true, meas := h, certified := true, wdArmed := true, wdPkc := x.pkc, tags := [] }
      .next (x.tags.foldl (fun (t : State) g => t.complete g eOk 0 []) s1.diesChanged)

/-! ## Self-tests (R411, R412) -/

/-- SELFTEST_DONE (R411): the tests of a released die have passed: those of the security root on die 19, those of the cipher pipe
on a state or link die. Once all of them have, MODULE becomes APPROVED. -/
def execSelftestDone (die : BitVec 5) (s : State) : Host.Outcome State Fault Refusal :=
  let d := die.toNat
  if d < 8 ∨ 19 < d ∨ ¬ (s.die d).released ∨ s.module = 2 then .next s
  else
    let s1 := s.setDie d { s.die d with pipeTested := true }
    .next (if s1.module = 0 ∧ ((List.range 12).all fun k => (s1.die (8 + k)).pipeTested) then s1.setFld .secStatus 0 0 12 2 1 else s1)

/-- MODULE becomes ERROR (R412): the test is recorded and logged, cipher pipes and key slots are erased, ports with a cipher go
FAILED. -/
def State.moduleError (s : State) (die test : Nat) : State :=
  let s1 := (s.setFld .secStatus 0 0 12 2 2).setReg .secSelftest 0 0 (die * 256 + test)
  let s2 : State := { s1 with sec := { s1.sec with keysErased := true, slots := [] } }
  let s3 := s2.logErr 0x000B die 0xFF 0 die none
  (List.range 48).foldl (fun (t : State) p => if (t.port p).cipher then t.portFail p else t) s3

/-- SELFTEST_FAILURE (R412). -/
def execSelftestFailure (die : BitVec 5) (test : U8) (s : State) : Host.Outcome State Fault Refusal :=
  if s.pkg.conversion ∧ s.module ≠ 2 then .next (s.moduleError die.toNat test.toNat) else .next s

/-! ## Watchdogs (R493) and bridges (R16, R17) -/

/-- WATCHDOG_EXPIRY (R493): an armed watchdog not restarted for 2^27 counts of the die's copy. -/
def execWatchdogExpiry (die : BitVec 5) (s : State) : Host.Outcome State Fault Refusal :=
  let d := die.toNat
  let x := s.die d
  if 19 < d ∨ ¬ x.wdArmed ∨ x.halted ∨ x.pkc.toNat - x.wdPkc.toNat < 2 ^ 27 then .next s
  else if d = 19 then .next ((s.setDie d { x with wdPkc := x.pkc }).logErr 0x0011 19 0xFF 0 19 none)
  else .next ((s.logErr 0x000F d 0xFF 0 d none).dieReset d 9)

/-- BRIDGE_DOWN (R16): sixteen replays of one flit have failed; the bridge stays down until a package reset, which is logged. From
now on `State.fabricPath` gives every pair whose path crossed it the shortest path that avoids it. Each transfer being one step,
no flit is unacknowledged and no order is disturbed (log entry 73). A die newly cut off from RT is logged at once under the source
of lost paths (DESIGN CHOICE, log entry 77: R17 speaks of a transfer that has no path). -/
def execBridgeDown (bridge : BitVec 6) (s : State) : Host.Outcome State Fault Refusal :=
  let b := bridge.toNat
  if 34 ≤ b ∨ s.pkg.bridgesDown.contains b ∨ ¬ s.pkg.conversion then .next s
  else
    let s1 : State := { s with pkg := { s.pkg with bridgesDown := setInsert s.pkg.bridgesDown b } }
    let cut := (List.range 20).filter fun d => s.pathOk d 19 && !s1.pathOk d 19
    let s2 := s1.logErr 0x0007 0xFF 0xFF 0 b none
    .next (cut.foldl (fun (t : State) d => t.logErr 0x0008 d 0xFF ePathDown d none) s2)

/-! ## Thermal (R513, R514, R516) -/

/-- A thermal shutdown begins (R516): THERMTRIP_N, self-refresh, every die but RT unpowered, TRIPPED, the log. -/
def State.thermalShutdown (s : State) (die : Nat) : State :=
  if s.pkg.shutdown ∨ ¬ s.pkg.conversion then s
  else
    let s1 := (List.range 19).foldl (fun (t : State) d => (t.setDie d
      { (t.die d).held with powered := false, locked := false, tags := [] }).resetClassD d) s
    let s2 : State := { s1 with pkg := { s1.pkg with
      shutdown := true, shutdownPkc := s.pkg.pkc, thermtrip := true, selfRefresh := true } }
    ((s2.setFld .thermStatus 0 0 0 1 1).logErr 0x000D die 0xFF 0 die none).diesChanged

/-- THERMAL_TRIP (R516): a junction sensor reaches 115 °C. -/
def execThermalTrip (die : BitVec 5) (s : State) : Host.Outcome State Fault Refusal :=
  let d := die.toNat
  if 19 < d then .next s
  else .next ((s.setDie d { s.die d with temp := max 115 (s.die d).temp }).thermalShutdown d)

/-- The threshold and the hottest sensor. -/
def State.throttleAt (s : State) : Nat := s.fld .thermCtrl 0 0 8 8
def State.hottest (s : State) : Nat := (List.range 20).foldl (fun m d => max m (s.die d).temp) 0

/-- Thermal DUTY set; an episode that begins is logged (R514). -/
def State.setThermDuty (s : State) (n : Nat) : State :=
  let s1 : State := { s with pkg := { s.pkg with thermDuty := n } }
  if s.pkg.thermDuty = 16 ∧ n < 16 then s1.logErr 0x000C 0xFF 0xFF 0 0 none else s1

/-- SENSOR_READ (R513): MAX_TEMP, throttling when a sensor reaches THROTTLE (R514), shutdown at 115 °C (R516). -/
def execSensorRead (die : BitVec 5) (celsius : U8) (s : State) : Host.Outcome State Fault Refusal :=
  let d := die.toNat
  let c := celsius.toNat
  if 19 < d ∨ ¬ s.pkg.vaux12 then .next s
  else
    let was := (s.die d).temp
    let s1 := s.setDie d { s.die d with temp := c }
    let s2 := s1.setFld .thermStatus 0 0 16 8 (max (s1.fld .thermStatus 0 0 16 8) c)
    let s3 := if s.throttleAt ≤ c ∧ was < s.throttleAt then s2.setThermDuty (min s.pkg.thermDuty 8) else s2
    .next (if 115 ≤ c then s3.thermalShutdown d else s3)

/-- THROTTLE_PERIOD (R514), once in 2^20 PKC counts: DUTY down by 1 to no less than 4 while a sensor stays at or above THROTTLE, up by 1 while every sensor
is below THROTTLE − 3 °C. -/
def execThrottlePeriod (s0 : State) : Host.Outcome State Fault Refusal :=
  if ¬ s0.pkg.thermPeriod < s0.period then .next s0
  else
    let s : State := { s0 with pkg := { s0.pkg with thermPeriod := s0.period } }
    let n := s.pkg.thermDuty
    if s.throttleAt ≤ s.hottest then .next (s.setThermDuty (if n ≤ 4 then n else min 8 (n - 1)))
    else if s.hottest + 3 < s.throttleAt then .next (s.setThermDuty (min 16 (n + 1)))
    else .next s

/-- POWER_CAP_PERIOD (R513, R515), once in 2^20 PKC counts: the 2^20-count average of input power, and capping while PWR_CAP.ENABLE is 1. -/
def execPowerCapPeriod (watts : BitVec 12) (s : State) : Host.Outcome State Fault Refusal :=
  let w := watts.toNat
  let p := s.pkg
  let s1 : State := { s with pkg := { p with
    capPeriod := s.period, watts := w, powerLog := (w :: p.powerLog).take 128, tempLog := (s.hottest :: p.tempLog).take 128 } }
  let cap := s.fld .pwrCap 0 0 0 12
  if ¬ p.capPeriod < s.period then .next s
  else if s.fld .pwrCap 0 0 31 1 = 0 then .next s1
  else if cap < w then
    if ¬ p.beWithheld then
      .next ({ s1 with pkg := { s1.pkg with beWithheld := true } }.logErr 0x000C 0xFF 0xFF 0 1 none)
    else
      let n := if p.capDuty = 4 then p.capPeriods + 1 else 0
      let s2 : State := { s1 with pkg := { s1.pkg with capDuty := max 4 (p.capDuty - 1), capPeriods := n } }
      if n = 128 then .next ((s2.setFld .thermStatus 0 0 3 1 1).logErr 0x000C 0xFF 0xFF 0 2 none) else .next s2
  else
    let up := if 100 * w < 95 * cap then min 16 (p.capDuty + 1) else p.capDuty
    .next { s1 with pkg := { s1.pkg with capDuty := up, capPeriods := 0, beWithheld := p.beWithheld && up != 16 } }

/-- THERMAL_RECOVERY (R516): 2^30 counts after the shutdown, RT at most 95 °C: THERMTRIP_N released; a package reset when
AUTO_RECOVER is 1. -/
def execThermalRecovery (s : State) : Host.Outcome State Fault Refusal :=
  if ¬ s.pkg.thermtrip ∨ s.pkc - s.pkg.shutdownPkc.toNat < 2 ^ 30 ∨ 95 < (s.die 19).temp then .next s
  else
    let s1 : State := { s with pkg := { s.pkg with thermtrip := false } }
    .next (if s.pkg.shutdown ∧ s.fld .thermCtrl 0 0 1 1 = 1 then s1.packageReset 3 else s1)

/-- THERM_SHUTDOWN (R516): wedge-proof. -/
def execThermShutdown (h : Hdr) (s : State) : Host.Outcome State Fault Refusal :=
  hostCmd { fns := .pf0, wedge := true, hibernate := true, noImage := true, recovery := true } h
    (fun s _ => .done (s.thermalShutdown 0xFF)) s

/-! ## Power states (R497..R500) -/

/-- IDLE_ENTRY (R497): nothing is busy, waits or is outstanding. -/
def execIdleEntry (s : State) : Host.Outcome State Fault Refusal :=
  if s.pkg.ready ∧ s.quiet ∧ s.power = 0 ∧ s.fld .pwrState 0 0 0 2 = 0 then
    .next ({ s with pkg := { s.pkg with idleSince := s.pkg.pkc } }.setFld .pwrState 0 0 0 2 1)
  else .next s

/-- DOZE_ENTRY (R497): Idle for 2^DOZE_LOG2 counts with ALLOW_DOZE set. -/
def execDozeEntry (s : State) : Host.Outcome State Fault Refusal :=
  if s.power = 1 ∧ s.fld .pwrState 0 0 4 1 = 1 ∧ 2 ^ s.fld .pwrState 0 0 8 5 ≤ s.pkc - s.pkg.idleSince.toNat then
    .next (s.setFld .pwrState 0 0 0 2 2)
  else .next s

/-- DOZE_EXIT (R497): some work needs a compute die. -/
def execDozeExit (s : State) : Host.Outcome State Fault Refusal :=
  if s.power = 2 then .next (s.setFld .pwrState 0 0 0 2 0) else .next s

/-- What the device holds of its composition that FORCE gives up (R498 check 3). -/
def State.heldInComp (s : State) : Bool :=
  s.desc.any (fun x => x.2.used && (x.2.ringSize > 1 || x.2.op == .migrateOut || x.2.op == .migrateIn ||
    (x.2.ownerState != .owned && x.2.season != .closing))) ||
  !s.mirrors.isEmpty || s.pool.any (fun r => s.devNo != some r.owner) || (s.devNo.isSome && s.inQuorum)

/-- POWER_STATE (R498, R500). -/
def execPowerState (h : Hdr) (target force : U1) (s : State) : Host.Outcome State Fault Refusal :=
  hostCmd { fns := .pf0, widths := [1, 1], hibernate := true, noImage := true } h (fun s t =>
    if target = 1 then
      checked
        [(s.pkg.hib != .awake || s.img.load.isSome || s.sec.zeroizePending, ePowerState),
         (s.pkg.shutdown, eThermal),
         (force = 0 && s.heldInComp, ePowerState)]
        (.later { s with pkg := { s.pkg with hib := .entering, hibTags := [t] } })
    else match s.pkg.hib with
    | .asleep =>
      let ds := (List.range 8) ++ [16, 17, 18]
      let s1 := s.powerDies ds
      .later { s1 with pkg := { s1.pkg with hib := .waking, hibTags := [t] } }
    | .waking => .later { s with pkg := { s.pkg with hibTags := s.pkg.hibTags ++ [t] } }
    | _ => .done s) s

/-- The work that entry into Hibernate waits for has ended (R498 steps 1 to 3): no step runs, no park, no thaw in T1, no staging. -/
def State.readyToSleep (s : State) : Bool :=
  s.srv.jobs.all (fun j => !j.2.inStep) &&
  s.cnv.ops.all (fun o => o.kind == 2 && o.tier == 2) &&
  s.ck.flight.all fun c => c.phase != .target && c.phase != .staging

/-- HIBERNATE_ENTRY (R498): jobs suspended, Summer sessions in Autumn, thaws over links abandoned, ports down, compute and link
dies unpowered, HBM in self-refresh, an AUTO report, the completion. -/
def execHibernateEntry (s : State) : Host.Outcome State Fault Refusal :=
  if s.pkg.hib ≠ .entering ∨ ¬ s.readyToSleep then .next s
  else
    let s1 : State := { s with srv := { s.srv with
      jobs := s.srv.jobs.map fun j => (j.1, if j.2.state = .running then { j.2 with state := .suspended } else j.2)
      cores := [] } }
    let s2 := s1.slices.foldl State.allToAutumn s1
    let links := (s2.cnv.ops.filter fun o => (s2.d o.index).season == .spring).map (·.index)
    let s3 := links.foldl (fun (t : State) i => t.stopThaw i eAborted) s2
    let ds := (List.range 8) ++ [16, 17, 18]
    let s4 := ds.foldl (fun (t : State) d => (t.setDie d
      { (t.die d).held with powered := false, locked := false }).resetClassD d) s3
    let tags := s4.pkg.hibTags
    let s5 : State := { s4 with
      pkg := { s4.pkg with hib := .asleep, hibTags := [], selfRefresh := true }
      net := { s4.net with buckets := [] } }
    let s6 := ((s5.setFld .pwrState 0 0 0 2 3).diesChanged.makeReport 0 true)
    .next (tags.foldl (fun (t : State) g => t.complete g eOk 0 []) s6)

/-- WAKE_DONE (R500): every die is MEASURED; jobs go on at their next step number with all written bits clear. -/
def execWakeDone (s : State) : Host.Outcome State Fault Refusal :=
  if s.pkg.hib ≠ .waking ∨ s.unmeasured then .next s
  else
    let tags := s.pkg.hibTags
    let s1 : State := { s with
      pkg := { s.pkg with hib := .awake, hibTags := [], selfRefresh := false }
      srv := { s.srv with jobs := s.srv.jobs.map fun j =>
        (j.1, if j.2.state = .suspended then { j.2 with state := .running } else j.2) } }
    .next (tags.foldl (fun (t : State) g => t.complete g eOk 0 []) (s1.setFld .pwrState 0 0 0 2 0))

/-! ## Commands that reset (R492, R494) -/

/-- DEV_RESET (R492): a warm reset destroys the queues, so nothing completes; a die reset completes once the die is released and
measured; a slice reset completes when the slice is DEFINED again, which it stays. -/
def execDevReset (h : Hdr) (scope : BitVec 2) (die : BitVec 5) (slice : BitVec 6) (s : State) :
    Host.Outcome State Fault Refusal :=
  hostCmd { fns := .pf0, widths := [2, 5, 6], hibernate := scope == 0, noImage := true } h (fun s t =>
    let d := die.toNat
    checked
      [(scope == 3, eReservedSet),
       (scope == 1 && 18 < d, eBadUnit),
       (scope == 1 && (!(s.die d).powered || s.hibernating || s.pkg.shutdown), ePowerState),
       (scope == 2 && !s.defined slice.toNat, eNoImage)]
      (if scope = 0 then .later (s.warmReset 7)
       else if scope = 1 then
         let s1 := s.dieReset d 7
         .later (s1.setDie d { s1.die d with tags := (s1.die d).tags ++ [t] })
       else .done (s.sliceReset slice.toNat false))) s

/-- PKG_RESET (R494): wedge-proof; nothing completes. -/
def execPkgReset (h : Hdr) (s : State) : Host.Outcome State Fault Refusal :=
  hostCmd { fns := .pf0, wedge := true, hibernate := true, noImage := true, recovery := true } h
    (fun s _ => .later (s.packageReset 2)) s

/-- FUNCTION_LEVEL_RESET (R472): warm for PF0, a function reset for PF1 and the VFs. -/
def execFunctionLevelReset (fn : BitVec 6) (s : State) : Host.Outcome State Fault Refusal :=
  if ¬ s.pkg.conversion then .next s
  else if fn = 0 then .next (s.warmReset 6) else .next (s.functionReset fn.toNat)

end Sys2Proof.Machine
end

