-- ==== Sys2Proof/Machine/Image.lean ====
section
/-! DEFINITION. Loading an image at run time and at boot (R45..R54), image authors (R44), and a trial boot (R504, R507). -/

namespace Sys2Proof.Machine

/-- SEC_STATUS.SPENT: no generation is left, and the device accepts no image (R448). -/
def State.spent (s : State) : Bool := s.sec.retired % 2 ^ 16 == 0xFFFF

/-! ## Acceptance (R46..R48) -/

/-- The image that runs once `i` is committed. -/
def State.amended (s : State) (i : Image) : Image :=
  match s.img.running with
  | some old => if i.partial_ then old.amend i else i
  | none => i

/-- The slices a load names (R47, R48): of a full image every slice that it or the running image defines. -/
def State.named (s : State) (i : Image) : List Nat :=
  if i.partial_ then i.slices.map (·.1) else (s.slices ++ i.slices.map (·.1)).foldl setInsert []

/-- A slice has a job, or a session in Summer, Autumn or Spring. -/
def State.sliceLive (s : State) (sl : Nat) : Bool :=
  (tabGet s.srv.jobs sl).isSome || s.desc.any fun x =>
    x.2.slice == sl && (x.2.season == .summer || x.2.season == .autumn || x.2.season == .spring)

/-- Winter sessions of a slice whose canvas lies in T1. -/
def State.winterT1 (s : State) (sl : Nat) : List Nat :=
  (s.desc.filter fun x => x.2.slice == sl && x.2.season == .winter && x.2.canvasTier == 1).map (·.1)

/-- PCGs that a load takes out of a slice. -/
def State.takenPcgs (s : State) (n : Image) (sl : Nat) : Nat :=
  let old := ((s.sliceEnt sl).getD {}).pcgs
  old - (old &&& ((tabGet n.slices sl).getD {}).pcgs)

/-- Ports that a load takes out of a slice. -/
def State.takenPorts (s : State) (n : Image) (sl : Nat) : List Nat :=
  let old := ((s.sliceEnt sl).getD {}).ports
  setBits (old - (old &&& ((tabGet n.slices sl).getD {}).ports)) 48

/-- The PCGs, as a mask, on which units of a T1 canvas lie: the Winter area in its shares on the slice's state dies (R296), each
unit of 4 KiB in one PCG of the die's interleave set, in turn (R294). -/
def State.winterPcgs (s : State) (sl addr len : Nat) : Nat :=
  let tm := s.tierMap sl
  let dies := s.dieList sl
  let e := (s.sliceEnt sl).getD {}
  let off := addr - winterBase
  (dies.zipIdx.foldl (fun (acc : Nat × Nat) x =>
    let (k, g0) := e.pcgsOn x.1
    let share := 2 ^ 21 * shareOf (le tm 4 4) dies.length x.2
    let lo := max acc.2 off
    let hi := min (acc.2 + share) (off + 4096 * len)
    let first := ((s.topShare sl x.1 0).1 - (2 ^ 37 * x.1 + pcgGeneral * g0) + (lo - acc.2)) / 4096
    ((List.range (min k ((hi - lo) / 4096))).foldl (fun m j => m ||| 2 ^ (8 * x.1 + g0 + (first + j) % k)) acc.1,
     acc.2 + share)) (0, 0)).1

/-- Winter sessions of a slice whose T1 canvas has a unit on one of the PCGs of a mask. -/
def State.winterOn (s : State) (sl mask : Nat) : List Nat :=
  (s.winterT1 sl).filter fun i =>
    let d := s.d i
    s.winterPcgs sl d.canvasAddr.toNat d.canvasLen &&& mask != 0

/-- A load takes a PCG that holds Winter canvases out of its slice (R48). -/
def State.takesWinter (s : State) (n : Image) (sl : Nat) : Bool := !(s.winterOn sl (s.takenPcgs n sl)).isEmpty

/-- The checks of R46, R47 and R48. With no image running, a full image is the boot load and meets none of them (R504). -/
def State.acceptChecks (s : State) (i : Image) : List (Bool × Nat) :=
  let n := s.amended i
  let ns := s.named i
  let winter := (!i.discard && ns.any (s.takesWinter n), eImgSliceBusy)
  match s.img.running with
  | none => [(i.partial_, eImgBase)]
  | some old =>
    if i.partial_ then
      [(i.baseId != old.imageId || i.slot != old.slot, eImgBase), (ns.any s.sliceLive, eImgSliceBusy), (n.overlapBad, eImgOverlap),
       (n.resourceBad n.tableLog2, eImgResource), (n.policiesBad, eImgPolicy), (n.kernelsBad, eImgKernel), winter]
    else
      [(!s.srv.jobs.isEmpty || (List.range 64).any s.sliceLive || i.tableLog2 != old.tableLog2, eImgSliceBusy), winter]

/-! ## The load (R48) -/

/-- UPDATE_PENDING and the staged hash (steps 2 and 5): none where nothing is staged. -/
def State.setStaged (s : State) (h : Option U256) : State :=
  (s.setFld .imgStatus 0 0 20 1 (boolBit h.isSome)).remeasure 23 (h.getD 0)

/-- LAST_ERR (R57). -/
def State.lastErr (s : State) (code : Nat) : State := s.setFld .imgStatus 0 0 0 16 code

/-- The load changes the slice's security policy section (R48, R318). -/
def State.policyChanges (s : State) (n : Image) (sl : Nat) : Bool := s.sect 8 sl 0 != n.sect 8 sl 0

/-- A port that no slice holds any longer goes down (R37). -/
def State.portDrop (s : State) (p : Nat) : State :=
  let was := (s.port p).state
  let s1 := s.setPort p { (s.port p).cleared with state := 0, step := 0, peerDev := 0xFFFF, peerPort := 0, peerKind := 0 }
  if 3 ≤ was ∧ was ≤ 5 then s1.sendLinks else s1

/-- Dirty units of PCGs that leave a slice, as gesso (step 7). -/
def State.pcgGesso (s : State) (sl mask : Nat) : State :=
  let ranges := (setBits mask 64).map fun j => (2 ^ 37 * (j / 8) + pcgGeneral * (j % 8), pcgGeneral)
  let fresh := (s.dirtyGesso sl ranges).filter fun g => !s.mem.gesso.any fun x => x.pa == g.pa && x.size == g.size
  { s with mem := { s.mem with gesso := s.mem.gesso ++ fresh } }

/-- Step 7 for one slice: its reset, a tenant change where its policy changes; released PCGs are gesso-filled, released ports
disabled. -/
def State.loadReset (s : State) (n : Image) (sl : Nat) : State :=
  let s1 := (s.sliceClear sl (s.policyChanges n sl)).pcgGesso sl (s.takenPcgs n sl)
  (s.takenPorts n sl).foldl State.portDrop s1

/-- Steps 6 and 7 (R48): the named slices are LOADING and are reset; `second`: of an image staged before, by MODE 2 (R51). -/
def State.startLoad (s : State) (i : Image) (t : Option Tag) (second : Bool := false) : State :=
  let n := s.amended i
  let ns := s.named i
  let s1 : State := { s with img := { s.img with load := some { image := i, named := ns, tag := t, second := second } } }
  ns.foldl (fun (u : State) sl => u.loadReset n sl) s1

/-- Steps 2 to 5 of a load with MODE 0 or 1, then steps 6 and 7 for MODE 0 (R48, R51). -/
def State.stage (s : State) (b : Option Bytes) (len mode : Nat) (t : Tag) : Reply :=
  let s1 := ({ s with img := { s.img with staged := none } }).setStaged none
  let s1 := if s.img.staged.isSome then s1.genUp else s1
  match b with
  | none => .done (s1.lastErr eHostRead) eHostRead
  | some b =>
    let i := imageOf b ((s.authorSlot b).getD 0)
    match firstFail (s.imageChecks b len ++ s.acceptChecks i) with
    | some code => .done (s1.lastErr code) code
    | none =>
      let s2 : State := { s1 with img := { s1.img with staged := some i } }
      let s3 := (s2.setStaged (some i.hash)).genUp
      if mode = 1 then .done (s3.lastErr eOk) else .later (s3.startLoad i (some t))

/-- IMAGE_LOAD (R45, R48, R51): waits while the security root's self-tests run (R411). -/
def execImageLoad (h : Hdr) (srcAddr : U64) (srcLen : U32) (mode : BitVec 2) (s : State) : Host.Outcome State Fault Refusal :=
  if s.module = 0 then .next s
  else hostCmd { fns := .pf0, priv := eImgPriv, widths := [64, 32, 2], noImage := true } h (fun s t =>
    checked
      [(s.fld .imgCtrl 0 0 0 1 == 1, eImgLocked), (s.img.load.isSome, eImgBusy), (mode == 3, eReservedSet), (s.spent, eGenExhausted),
       (mode == 2 && s.img.staged.isNone, eNoImage)]
      (match mode == 2, s.img.staged with
       | true, some i => .later (s.startLoad i (some t) true)
       | _, _ => s.stage (if srcLen.toNat ≤ 2 ^ 26 then s.hostRead srcAddr.toNat srcLen.toNat else some []) srcLen.toNat mode.toNat t)) s

/-! ## The commit (R48 steps 8 and 9, R53) -/

/-- Sessions whose canvases lie on PCGs that the load takes (R48) become Empty. -/
def State.discardWinter (s : State) (n : Image) (sl : Nat) : State :=
  (s.winterOn sl (s.takenPcgs n sl)).foldl (fun (t : State) i => t.loseSession i true) s

/-- The pool contribution under a new image: a range that lies where it lay is kept, another is lost and gesso-filled (R320);
`o` is the state under the old one. -/
def State.keepPool (s o : State) : State :=
  let a := o.poolPieces
  let b := s.poolPieces
  let at_ (l : List PoolPiece) (r : PoolRange) : List (Nat × Nat × Nat) := poolParts l (65536 * r.base) (65536 * r.units)
  let gone := s.pool.filter fun r => at_ a r != at_ b r
  let g := gone.flatMap fun r => (at_ a r).map fun p => ({ pa := p.2.1, size := p.2.2, slice := r.slice } : Gesso)
  { s with pool := s.pool.filter (fun r => !gone.contains r), mem := { s.mem with gesso := s.mem.gesso ++ g } }

/-- Measurements of an image that takes effect (R53): a slice's policy register, zero where it is not defined. -/
def State.measureImage (s : State) (n : Image) (ns : List Nat) : State :=
  ns.foldl (fun (t : State) sl =>
    t.remeasure (25 + sl) (match n.sect 8 sl 0 with
      | some b => Config.sha3 b
      | none => 0)) (s.remeasure 22 n.hash)

/-- The settings of the slices a load names return to hardware defaults and the new image's values (R55). -/
def State.newValues (s : State) (ns : List Nat) : State :=
  ns.foldl (fun (t : State) sl =>
    if t.defined sl then t.resetClassL sl
    else t.resetRegs fun r u f => r.row.block.ofSlice && r.row.grouped && u == sl && f.cls == .l) s

/-- What the device form of the Composition section gives while no map is held (R370), and the changes it asks for (R372). -/
def State.newComp (s : State) : State :=
  let b := s.compSect.getD []
  let s1 : State := if s.comp.epoch ≠ 0 then s
    else { s with comp := { s.comp with
      id := BitVec.ofNat 64 (le b 0 8), quorum := (List.range (byteAt b 0xA)).map fun k => le b (0xC + 2 * k) 2 } }
  s1.proposeSlices

/-- Ports under a new image: those that no slice holds go down, those that are down and held are brought up (R37, R366). -/
def State.newPorts (s : State) : State :=
  (List.range 48).foldl (fun (t : State) p =>
    if (t.portSlice p).isNone then (if (t.port p).state = 0 then t else t.portDrop p)
    else if (t.port p).state = 0 then t.bringup p else t) s

/-- The minimum SVN of a full image that carries RAISE_SVN (R43). -/
def State.raiseSvn (s : State) (i : Image) : State :=
  if i.partial_ ∨ ¬ i.raiseSvn then s
  else
    let a := s.author i.slot
    { s with sec := { s.sec with authors := tabPut s.sec.authors i.slot { a with minSvn := max a.minSvn i.svn } } }

/-- Step 8 (R48): the running image switched, and all that follows from it. `i` is the image as loaded, `ns` the slices it
names, `o` the state whose image laid out the memory. -/
def State.install (s : State) (i : Image) (ns : List Nat) (o : State) : State :=
  let n := s.amended i
  let s1 : State := { s with
    img := { running := some n }
    sec := { s.sec with sweep := { s.sec.sweep with base := s.sec.sweep.base.or (some s.sec.current) } } }
  let s2 := (((s1.keepPool o).setStaged none).measureImage n ns).newValues ns
  (ns.foldl State.ckResume ((s2.newComp.raiseSvn i).newPorts)).genUp

/-- Winter sessions at the boot load (R93): a canvas in T1 is kept when the image gives the PCGs it lies on to the same slice
number; all sessions end when TABLE_LOG2 changes. `old` is the image before. -/
def State.bootKeep (s : State) (n : Image) : State :=
  match s.img.before with
  | none => s
  | some old =>
    let o : State := { s with img := { s.img with running := some old } }
    let keeps (d : Desc) : Bool :=
      let a := o.winterPcgs d.slice d.canvasAddr.toNat d.canvasLen
      a &&& ((tabGet n.slices d.slice).getD {}).pcgs == a
    ((s.desc.filter fun x => x.2.season == .winter).map (·.1)).foldl (fun (t : State) i =>
      let d := t.d i
      if old.tableLog2 ≠ n.tableLog2 ∨ (d.canvasTier = 1 ∧ ¬ keeps d) then t.loseSession i false else t) s

/-- The boot load takes effect (R504 step 9), from flash or as the first IMAGE_LOAD. -/
def State.installFirst (s : State) (i : Image) : State :=
  let s1 := s.bootKeep i
  s1.install i (i.slices.map (·.1)) { s1 with img := { s1.img with running := s1.img.before } }

/-- IMAGE_COMMIT: steps 8 and 9 (R48, R53). -/
def execImageCommit (s : State) : Host.Outcome State Fault Refusal :=
  match s.img.load with
  | none => .next s
  | some l =>
    let s1 := if s.img.running.isNone then s.installFirst l.image
      else
        let n := s.amended l.image
        let s0 := l.named.foldl (fun (t : State) sl => t.discardWinter n sl) s
        s0.install l.image l.named s0
    .next ((s1.lastErr eOk).completeOpt l.tag eOk [])

/-! ## Boot (R504, R507) -/

/-- Every die that is powered has been released. -/
def State.diesReleased (s : State) : Bool := (List.range 20).all fun d => !(s.die d).powered || (s.die d).released

/-- A trial boot that reached READY in time with every powered die MEASURED (R507): a boot record with TRIAL clear and the GOOD
bit, FW_MIN_SVN raised where the bundle asks for it. -/
def State.trialDone (s : State) : State :=
  let f := s.flash
  let good := (List.range 20).all fun d => s.dieState d != 1
  if s.fld .fwStatus 0 0 2 1 ≠ 1 ∨ ¬ good ∨ 2 ^ 32 < s.pkc - f.trialPkc.toNat then s
  else
    let k := s.fld .fwStatus 0 0 0 1
    let r := f.record
    let svn := if bitAt (le f.running 6 2) 0 then max r.fwMinSvn.toNat (fwSvn f.running) else r.fwMinSvn.toNat
    ({ s with flash := f.write { r with
      active := BitVec.ofNat 1 k, trial := false, goodA := r.goodA || k == 0, goodB := r.goodB || k == 1
      fwMinSvn := BitVec.ofNat 16 svn } }).setFld .fwStatus 0 0 2 1 0

/-- BOOT_IMAGE_LOAD (R504 steps 8 to 10): HBM serves again; the default image of the flash takes effect unless BOOT_HOST is set
or a check fails; READY. -/
def execBootImageLoad (s : State) : Host.Outcome State Fault Refusal :=
  if ¬ s.pkg.conversion ∨ s.pkg.ready ∨ s.flash.running.isEmpty ∨ ¬ s.diesReleased ∨ s.module = 0 then .next s
  else
    let b := s.flash.image
    let i := imageOf b ((s.authorSlot b).getD 0)
    let s1 : State := { s with pkg := { s.pkg with hbmLost := false, selfRefresh := false, ready := true } }
    let take := s.fld .imgCtrl 0 0 1 1 = 0 ∧ ¬ s.spent ∧ s.img.running.isNone ∧
      firstFail (s.imageChecks b b.length ++ [(i.partial_, eImgBase)]) = none
    .next (if take then s1.installFirst i else s1).trialDone

/-- TRIAL_BOOT_TIMEOUT (R507): a package reset onto the previous slot, FALLBACK, the log. -/
def execTrialBootTimeout (s : State) : Host.Outcome State Fault Refusal :=
  if ¬ s.pkg.conversion ∨ s.fld .fwStatus 0 0 2 1 ≠ 1 ∨ s.pkc - s.flash.trialPkc.toNat < 2 ^ 32 then .next s
  else
    let k := s.fld .fwStatus 0 0 0 1
    let r := s.flash.record
    let s1 : State := { s with flash := s.flash.write { r with active := BitVec.ofNat 1 (1 - k), trial := false } }
    .next (((s1.setFld .fwStatus 0 0 3 1 1).logErr 0x000E 19 0xFF 0 k none).packageReset 10)

/-! ## Image authors (R44) -/

/-- An enrolment token (R44, log entry 10): key hash, DEVICE_ID, and the product CA's signature over both. -/
def tokenLen : Nat := 64 + 2420

/-- A token verifies and names this device. -/
def tokenOk (b : Bytes) : Bool :=
  Config.mldsaVerify Config.productCaKey (b.take 64) (b.drop 64) && hashAt b 32 == deviceId

/-- ENROL_AUTHOR (R44, R45). -/
def execEnrolAuthor (h : Hdr) (tokenAddr : U64) (s : State) : Host.Outcome State Fault Refusal :=
  if s.module = 0 then .next s
  else hostCmd { fns := .pf0, priv := eImgPriv, widths := [64], noImage := true } h (fun s _ =>
    checked [(s.fld .imgCtrl 0 0 0 1 == 1, eImgLocked)]
      (match s.hostRead tokenAddr.toNat tokenLen with
       | none => .reject eHostRead
       | some b =>
         if ¬ tokenOk b then .reject eImgEnrol
         else match (List.range 7).find? fun k => !(s.author (k + 1)).fused && !(s.author (k + 1)).revoked with
           | none => .reject eImgSlotsFull
           | some k => .done { s with sec := { s.sec with
               authors := tabPut s.sec.authors (k + 1) { s.author (k + 1) with fused := true, keyHash := hashAt b 0 } } })) s

/-- REVOKE_AUTHOR (R44, R45): a slot among 1 to 7. -/
def execRevokeAuthor (h : Hdr) (slot : U32) (s : State) : Host.Outcome State Fault Refusal :=
  hostCmd { fns := .pf0, priv := eImgPriv, widths := [32], noImage := true } h (fun s _ =>
    checked [(s.fld .imgCtrl 0 0 0 1 == 1, eImgLocked), (slot == 0 || decide (7 < slot.toNat), eBadUnit)]
      (.done { s with sec := { s.sec with
        authors := tabPut s.sec.authors slot.toNat { s.author slot.toNat with revoked := true } } })) s

end Sys2Proof.Machine
end

