-- ==== Sys2Proof/Machine/Firmware.lean ====
section
/-! DEFINITION. Firmware loads (R502..R506) and the commands that read the error log (R488, R508..R510, R517). -/

namespace Sys2Proof.Machine

/-! ## FW_LOAD (R506) -/

/-- FW_PENDING and STAGED_FW (R430, R503): the bundle staged in the slot that is not ACTIVE, or none. -/
def State.stageFw (s : State) (b : Option Bytes) : State :=
  let f := s.flash
  match b with
  | none => ({ s with flash := { f with staged := false, stagedHash := 0 } }).remeasure 24 0
  | some b =>
    let h := Config.sha3 b
    let k := 1 - f.record.active.toNat
    let f1 := if k = 0 then { f with slotA := b } else { f with slotB := b }
    ({ s with flash := { f1 with staged := true, stagedSlot := BitVec.ofNat 1 k, stagedHash := h } }).remeasure 24 h

/-- Check 4 of R506 of a bundle. -/
def State.fwChecks (s : State) (b : Bytes) (len : Nat) : List (Bool × Nat) :=
  [(le b 8 4 != len || !fwHeaderOk b || !stagesOk b || !fwSigned b, eFwImage),
   (decide (fwSvn b < s.flash.record.fwMinSvn.toNat), eFwRollback)]

/-- MODE 0 of R506: a firmware bundle or a default image is checked and written. -/
def State.fwStage (s : State) (b : Option Bytes) (len target : Nat) : Reply :=
  match b with
  | none => .reject eHostRead
  | some b =>
    if target = 0 then checked (s.fwChecks b len) (.done (s.stageFw (some b)))
    else checked (s.imageChecks b len) (.done { s with flash := { s.flash with image := b } })

/-- MODE 1 of R506: a boot record names the staged slot, with TRIAL. -/
def State.fwActivate (s : State) : State :=
  let f := s.flash
  { s with flash := f.write { f.record with active := f.stagedSlot, trial := true } }

/-- FW_LOAD (R505, R506): waits while the security root's self-tests run (R411). -/
def execFwLoad (h : Hdr) (srcAddr : U64) (srcLen : U32) (target : U1) (mode : BitVec 2) (s : State) :
    Host.Outcome State Fault Refusal :=
  if s.module = 0 then .next s
  else hostCmd { fns := .pf0, widths := [64, 32, 1, 2], noImage := true, recovery := true } h (fun s _ =>
    checked
      [(mode == 3, eReservedSet), (s.img.load.isSome, eFwBusy),
       (mode != 0 && !(target == 0 && s.flash.staged), eFwImage)]
      (if mode = 0 then
         (if target = 0 ∧ 48 * 2 ^ 20 < srcLen.toNat then .reject eFwImage
          else if 2 ^ 26 < srcLen.toNat then .reject eImgFormat
          else s.fwStage (s.hostRead srcAddr.toNat srcLen.toNat) srcLen.toNat target.toNat)
       else if mode = 1 then .done s.fwActivate
       else .done (s.stageFw none))) s

/-! ## The error log (R488, R508..R510) -/

/-- Entries with sequence numbers from `first` on, `n` of them, that the log holds. -/
def State.logFrom (s : State) (first n : Nat) : List LogEntry :=
  (List.range n).filterMap fun k => (tabGet s.log.slots ((first + k) % 1024)).filter fun e =>
    e.seq == first + k && decide (s.reg .errlogHead 0 0 ≤ e.seq)

/-- ERRLOG_READ (R505, R510): wedge-proof. -/
def execErrlogRead (h : Hdr) (first count : U32) (dstAddr : U64) (s : State) : Host.Outcome State Fault Refusal :=
  hostCmd { fns := .pf0, widths := [32, 32, 64], hibernate := true, wedge := true, noImage := true, recovery := true } h
    (fun s _ =>
      checked [(count == 0 || decide (1024 < count.toNat), eReservedSet)]
        (let l := s.logFrom first.toNat count.toNat
         let b := l.flatMap LogEntry.bytes
         if ¬ s.hostOk dstAddr.toNat b.length then .done s eHostWrite
         else .done (s.hostWrite dstAddr.toNat b) eOk [(l.length, 32)])) s

/-- ERRLOG_CTRL.CONSUME (R488, R508, R509): every entry up to the sequence number leaves the log and holds ALERT_N no
longer. -/
def State.consume (s : State) (n : Nat) : State :=
  let hi := min (n + 1) (s.reg .errlogTail 0 0)
  if hi ≤ s.reg .errlogHead 0 0 then s
  else
    let s1 := s.setReg .errlogHead 0 0 hi
    { s1 with log := { s1.log with alert := s1.log.alert.filter fun k => hi ≤ k } }

end Sys2Proof.Machine
end

