-- ==== Sys2Proof/Machine/Security.lean ====
section
/-! DEFINITION. Key generations and the re-key sweep (R416..R421), zeroization (R447, R448), content keys and weights
(R440..R446), consent records and JTAG (R436..R439). -/

namespace Sys2Proof.Machine

/-! ## Key generations (R416..R421) -/

/-- The lowest unretired generation above the current one. -/
def State.nextGen (s : State) : Option Nat :=
  (List.range 16).find? fun g => decide (s.sec.current < g) && !bitAt s.sec.retired g

/-- KEYGEN_ADVANCE (R417): waits while MODULE is SELFTEST (R411). -/
def execKeygenAdvance (h : Hdr) (s : State) : Host.Outcome State Fault Refusal :=
  if s.module = 0 then .next s
  else hostCmd { fns := .pf0, priv := eSecPriv, noImage := true } h (fun s _ =>
    checked
      [(s.module != 1, eCryptoError), (s.nextGen.isNone, eGenExhausted), (decide (4 ≤ countBits s.inUse 16), eKeygenBusy)]
      (.done ({ s with sec := { s.sec with
        current := s.nextGen.getD 0, sweep := { s.sec.sweep with active := true } } }).keygenChanged)) s

/-- GEN_RETIRE (R421). -/
def execGenRetire (h : Hdr) (gen : U32) (s : State) : Host.Outcome State Fault Refusal :=
  if s.module = 0 then .next s
  else hostCmd { fns := .pf0, priv := eSecPriv, widths := [32], noImage := true } h (fun s _ =>
    let g := gen.toNat
    checked
      [(s.module != 1, eCryptoError), (decide (15 < g), eSecParam), (bitAt s.sec.retired g, eGenRetired),
       (g == s.sec.current || bitAt s.inUse g, eGenInUse)]
      (.done ({ s with sec := { s.sec with retired := s.sec.retired ||| 2 ^ g } }).keygenChanged)) s

/-! ## The re-key sweep (R420) -/

/-- A region is part of a page or a granule with a count record other than 0, or holds a part of one (R146): the sweep leaves
it alone (R158). -/
def State.counted (s : State) (r : Region) : Bool :=
  let has (pa : Nat) : Bool := r.pa ≤ pa && pa < r.pa + r.size
  s.mem.kv.any fun x => (x.2.pages.any fun p => p.rcp != 0 && (has p.elem || has p.scale || has p.side)) ||
    x.2.granules.any fun gr => gr.rcp != 0 && has gr.pa

/-- A guarded page with a part in a region (R118): the address its writers ask a priority copy of. -/
def State.regionGuard (s : State) (r : Region) : Option Nat :=
  let has (pa : Nat) : Bool := r.pa ≤ pa && pa < r.pa + r.size
  s.mem.kv.findSome? fun x => (x.2.pages.find? fun p => p.guard && (has p.elem || has p.scale || has p.side)).map (·.elem)

/-- Protected regions that the sweep still has to re-key. -/
def State.oldRegions (s : State) : List Region :=
  s.mem.regions.filter fun r => r.prot && r.keygen != s.sec.current && !s.counted r

/-- The sweep's map entries under an older generation, and the reserve units of the laid-out reserve. -/
def State.oldUnits (s : State) : Bool :=
  s.sec.sweep.genMap.any (fun x => x.2 != s.sec.current) ||
  (match s.sec.sweep.base with
   | none => false
   | some g => g != s.sec.current && (List.range 64).any fun j => (s.reserveUnits j).any fun k => s.unitGen k != some s.sec.current)

/-- The sweep has nothing left under an older generation: it ends, and the whole reserve is under the current one. -/
def State.sweepEnd (s : State) : State :=
  let left := !s.oldRegions.isEmpty || s.mem.fetched.any (fun f => f.prot && f.keygen != s.sec.current) ||
    s.cnv.stored.any (fun c => c.tier == 1 && c.canvas.prot && c.keygen != s.sec.current) || s.oldUnits
  if left then s
  else { s with sec := { s.sec with sweep := { s.sec.sweep with
    active := false, base := s.sec.sweep.base.map fun _ => s.sec.current
    genMap := s.sec.sweep.genMap.filter fun x => 2 ^ 20 ≤ x.1 } } }

/-- One unit of the sweep's work: a protected region by its physical address, an evicted granule by its own, a T1 canvas by
`winterPa`, a 2 MiB unit of the pool contribution by its physical address, a unit of the reserve by 2^61 and its key in the
sweep's map. A region of a guarded page waits for that page's priority copy (R119). -/
def State.sweepUnit (s : State) (a : Nat) : State :=
  if 2 ^ 61 ≤ a then
    let k := a % 2 ^ 61
    if k < 2 ^ 20 ∧ (s.unitGen k).isSome ∧ (s.reserveUnits (k / 2 ^ 13)).contains k then
      { s with sec := { s.sec with sweep := { s.sec.sweep with genMap := tabPut s.sec.sweep.genMap k s.sec.current } } }
    else s
  else if 2 ^ 60 ≤ a then
    { s with cnv := { s.cnv with stored := s.cnv.stored.map fun (c : Stored) =>
      (if c.tier = 1 ∧ winterPa c.slice c.addr.toNat = a then { c with keygen := s.sec.current } else c) } }
  else match s.oldRegions.find? (·.pa == a) with
    | some r => match s.regionGuard r with
      | some pa => s.wantCopy pa
      | none => s.rekeyRegion r
    | none => match s.mem.fetched.find? fun f => f.pa == a && f.prot && f.keygen != s.sec.current && !f.inflight && f.writes == 0 with
      | some f => s.evict f
      | none =>
        let k := 2 ^ 20 + a / 2 ^ 21
        if (tabGet s.sec.sweep.genMap k).isNone then s
        else { s with sec := { s.sec with sweep := { s.sec.sweep with genMap := tabPut s.sec.sweep.genMap k s.sec.current } } }

/-- REKEY_SWEEP_REGION (R420): only while the sweep runs and PAUSE is clear. -/
def execRekeySweepRegion (region : U64) (s : State) : Host.Outcome State Fault Refusal :=
  if ¬ s.sec.sweep.active ∨ s.fld .secSweep 0 0 0 1 = 1 ∨ ¬ s.pkg.conversion ∨ s.hibernating then .next s
  else .next (s.sweepUnit region.toNat).sweepEnd

/-! ## Zeroization (R447, R448) -/

/-- After the package reset that ends ZEROIZE (R448): every session that is left is ended, all memory waits for gesso. -/
def State.zeroizeEnd (s : State) : State :=
  let ss := (s.desc.filter fun x => x.2.season != .empty).map (·.1)
  let s1 := ss.foldl (fun (t : State) i => t.loseSession i false) s
  let s2 := s1.pool.foldl State.poolDrop s1
  let units := s2.mem.dirty.filter fun u => !s2.mem.gesso.any fun g => g.pa ≤ 2 ^ 21 * u && 2 ^ 21 * u < g.pa + g.size
  { s2 with mem := { s2.mem with gesso := s2.mem.gesso ++ units.map fun u =>
    ({ pa := 2 ^ 21 * u, size := 2 ^ 21, slice := 0xFF } : Gesso) } }

/-- ZEROIZE (R447): step 1; steps 2 to 5 too when the package has power, else at the next power-up. -/
def State.zeroize (s : State) : State :=
  let s1 : State := { s with sec := { s.sec with zeroizePending := true, armed := none, armedPldm := none } }
  if ¬ s1.pkg.conversion then s1 else (s1.zeroizeKeys.packageReset 5).zeroizeEnd

/-- ZEROIZE as a command (R447): the package reset destroys the queue its completion would go to (R472). -/
def execZeroize (h : Hdr) (s : State) : Host.Outcome State Fault Refusal :=
  hostCmd { fns := .pf0, priv := eSecPriv, hibernate := true, wedge := true, noImage := true, recovery := true } h
    (fun s _ => .later s.zeroize) s

/-- A write to SEC_ZEROIZE of another function than PF0 is discarded and counted (R450, R480). -/
def State.zeroizeWrite (s : State) (fn : Nat) (t : State) : State :=
  if fn = 0 then t else s.accErr fn (Reg.secZeroize.addr 0 0)

/-- A FIRE that an ARM precedes within 2^20 counts. -/
def State.fires (s : State) (armed : Option U64) : Bool :=
  match armed with
  | some p => decide (s.pkc - p.toNat ≤ 2 ^ 20)
  | none => false

/-- ZEROIZE_ARM: a write of ARM to SEC_ZEROIZE. -/
def execZeroizeArm (fn : BitVec 6) (s : State) : Host.Outcome State Fault Refusal :=
  .next (s.zeroizeWrite fn.toNat { s with sec := { s.sec with armed := some s.pkg.pkc } })

/-- ZEROIZE_FIRE: a write of FIRE to SEC_ZEROIZE; ignored without an ARM. -/
def execZeroizeFire (fn : BitVec 6) (s : State) : Host.Outcome State Fault Refusal :=
  .next (s.zeroizeWrite fn.toNat (if s.fires s.sec.armed then s.zeroize else s))

/-- An ARM forgotten once 2^20 counts have passed. -/
def State.armLeft (s : State) (armed : Option U64) : Option U64 := if s.fires armed then armed else none

/-- ZEROIZE_ARM_EXPIRY (R447, R517). -/
def execZeroizeArmExpiry (s : State) : Host.Outcome State Fault Refusal :=
  .next { s with sec := { s.sec with armed := s.armLeft s.sec.armed, armedPldm := s.armLeft s.sec.armedPldm } }

/-! ## Content keys (R440..R446) -/

/-- A function's role does not reach a slice (R409): a VF names only its own. -/
def roleBad (fn sl : Nat) : Bool := decide (2 ≤ fn) && fn != sl + 2

/-- A wrapped key opened by a key-encapsulation ciphertext to the device KEM key: additional data of the wrap, data and
customisation string of the wrap key (R441, R443). -/
def unwrapKey (ct wrapped aad info : Bytes) (label : String) : Option Bytes :=
  (Config.kemDecap deviceKemSeed ct).bind fun ss =>
    Config.gcmOpen (Config.kmac ss info 256 (ascii label)) (zeros 12) aad (wrapped.take 32) (wrapped.drop 32)

/-- A key put into a slot (R440). -/
def State.putKey (s : State) (sl slot : Nat) (key : Bytes) (pkg : U256) : State :=
  { s with sec := { s.sec with slots := tabPut s.sec.slots (16 * sl + slot) { key := key, packageId := pkg } } }

/-- The service key conditions of a release blob (R442 check 9). -/
def State.serviceBad (s : State) (sl : Nat) (b : Bytes) : Bool :=
  let want := sub (s.policy sl) 0x28 32
  let signed := bitAt (le b 6 2) 0
  if zeroAt want 0 32 then
    signed && !Config.mldsaVerify (sub b 0x4E0 1312) (b.take 0xA00) (sub b 0xA00 2420)
  else
    !signed || hashBytes (Config.sha3 (sub b 0x4E0 1312)) != want ||
    !Config.mldsaVerify (sub b 0x4E0 1312) (b.take 0xA00) (sub b 0xA00 2420)

/-- The blob's report nonce is unknown or its report too old (R442 check 7). -/
def State.nonceStale (s : State) (b : Bytes) : Bool :=
  match s.sec.nonces.find? fun n => n.1 == hashAt b 0x30 with
  | some n => decide (2 ^ 34 < s.pkc - n.2.toNat)
  | none => true

/-- A release blob as it is read: its length is known from BFLAGS (R441). -/
def State.readBlob (s : State) (a : Nat) : Option Bytes :=
  (s.hostRead a 1248).bind fun b => if bitAt (le b 6 2) 0 then s.hostRead a 4980 else some b

/-- KEY_RELEASE (R441, R442). -/
def execKeyRelease (h : Hdr) (blobAddr : U64) (s : State) : Host.Outcome State Fault Refusal :=
  if s.module = 0 then .next s
  else hostCmd { fns := .any, priv := eSecPriv, widths := [64] } h (fun s _ =>
    match s.readBlob blobAddr.toNat with
    | none => .reject (if s.module ≠ 1 then eCryptoError else eSecHost)
    | some b =>
      let sl := byteAt b 8
      let info := sub b 0x30 32 ++ sub b 0x10 32 ++ sub b 0x50 32
      let key := unwrapKey (sub b 0x70 1088) (sub b 0x4B0 48) (b.take 0x70) info "QW5200 release"
      checked
        [(roleBad h.fn.toNat sl, eSecPriv), (s.module != 1, eCryptoError), (!s.defined sl, eNoImage),
         (le b 0 4 != 0x4C455251 || le b 4 2 != 1 || decide (2 ≤ le b 6 2) || !zeroAt b 0xA 6 || decide (15 < byteAt b 9), eSecParam),
         (s.unmeasured, eNotMeasured), (!bitAt (byteAt (s.policy sl) 0) 2, eKeyPolicy), (s.nonceStale b, eReleaseStale),
         (hashAt b 0x50 != s.sliceDigest sl, eMeasMismatch), (s.serviceBad sl b || key.isNone, eKeyUnwrap)]
        (.done (s.putKey sl (byteAt b 9) (key.getD []) (hashAt b 0x10)))) s

/-- The header of a weight package is malformed (R443). -/
def weightHeaderBad (b : Bytes) : Bool :=
  let n := byteAt b 0x3C
  le b 0 4 != 0x4B505751 || le b 4 2 != 1 || decide (2 ≤ le b 6 2) || !zeroAt b 0x3D 3 || !zeroAt b 0x50 176 ||
  decide (64 < n) || (n != 0 && le b 6 2 == 0) || le b 0x38 4 != divUp (le b 0x30 8) 65536 || le b 0x48 8 % 4096 != 0

/-- The bound entries of a package that name this device (R443). -/
def ownEntry (b : Bytes) : Option Bytes :=
  ((List.range (byteAt b 0x3C)).map fun k => sub b (256 + 1168 * k) 1168).find? fun e => hashAt e 0 == deviceId

/-- The content key of a bound entry. -/
def boundKey (hdr e : Bytes) : Option Bytes :=
  let aad := e.take 32 ++ sub hdr 8 32
  unwrapKey (sub e 32 1088) (sub e 1120 48) aad aad "QW5200 bound"

/-- BOUND_OPEN (R444). -/
def execBoundOpen (h : Hdr) (slice : BitVec 6) (slot : U32) (pkgAddr : U64) (s : State) : Host.Outcome State Fault Refusal :=
  if s.module = 0 then .next s
  else hostCmd { fns := .any, priv := eSecPriv, widths := [6, 32, 64] } h (fun s _ =>
    let sl := cmdSlice h.fn.toNat slice.toNat
    let read := (s.hostRead pkgAddr.toNat 256).bind fun b => s.hostRead pkgAddr.toNat (256 + 1168 * byteAt b 0x3C)
    let b := read.getD []
    let entry := ownEntry b
    let key := entry.bind (boundKey b)
    checked
      [(s.module != 1, eCryptoError), (!s.defined sl, eNoImage),
       (decide (15 < slot.toNat) || (read.isSome && weightHeaderBad b), eSecParam), (read.isNone, eSecHost),
       (s.unmeasured, eNotMeasured),
       (!bitAt (byteAt (s.policy sl) 0) 3 || (tabGet s.sec.consents sl).isSome, eKeyPolicy),
       (!bitAt (le b 6 2) 0 || entry.isNone, eNotBound), (key.isNone, eKeyUnwrap)]
      (.done (s.putKey sl slot.toNat (key.getD []) (hashAt b 8)))) s

/-- Plaintext bytes of a chunk of a package (R443). -/
def chunkLen (hdr : Bytes) (i : Nat) : Nat := min 65536 (le hdr 0x30 8 - 65536 * i)

/-- A chunk decrypted (R443, R445): the code that ends the command, or its plaintext. -/
def State.openChunk (s : State) (hdr key : Bytes) (src i : Nat) : Except Nat Bytes :=
  match s.hostRead (src + le hdr 0x40 8 + 16 * i) 16, s.hostRead (src + le hdr 0x48 8 + 65536 * i) (chunkLen hdr i) with
  | some tag, some ct =>
    (match Config.gcmOpen key (sub hdr 0x28 8 ++ bytesOf 4 i) (hashBytes (Config.sha3 hdr)) ct tag with
     | some p => .ok p
     | none => .error eWeightAuth)
  | _, _ => .error eSecHost

/-- Chunks decrypted one after another and written. -/
def State.decryptChunks (s : State) (hdr key : Bytes) (src sl : Nat) : List Nat → Nat → Except Nat State
  | [], _ => .ok s
  | i :: l, va =>
    match s.openChunk hdr key src i with
    | .error code => .error code
    | .ok p => (s.engineWrite sl va p false).decryptChunks hdr key src sl l (va + p.length)

/-- The range lies within one protected object of the slice. -/
def State.inProtected (s : State) (sl va n : Nat) : Bool :=
  match s.objAt sl va with
  | some o => o.prot && decide (va + n ≤ o.va + o.bytes)
  | none => false

/-- WEIGHT_DECRYPT (R445): a chunk that fails leaves the destination gesso-filled. -/
def execWeightDecrypt (h : Hdr) (slice : BitVec 6) (slot : U32) (src : U64) (first count : U32) (dstVa : U64) (s : State) :
    Host.Outcome State Fault Refusal :=
  if s.module = 0 then .next s
  else hostCmd { fns := .any, priv := eSecPriv, widths := [6, 32, 64, 32, 32, 64] } h (fun s _ =>
    let sl := cmdSlice h.fn.toNat slice.toNat
    let read := s.hostRead src.toNat 256
    let b := read.getD []
    let slot' := if slot.toNat < 16 then tabGet s.sec.slots (16 * sl + slot.toNat) else none
    let last := first.toNat + count.toNat
    let n := min (65536 * count.toNat) (le b 0x30 8 - 65536 * first.toNat)
    match firstFail
      [(s.module != 1, eCryptoError), (!s.defined sl, eNoImage), (read.isNone, eSecHost),
       (slot'.all fun k => k.packageId != hashAt b 8, eNoKey),
       (decide (le b 0x38 4 < last) || !s.inProtected sl dstVa.toNat n, eSecParam)] with
    | some code => .reject code
    | none =>
      match s.decryptChunks b ((slot'.map (·.key)).getD []) src.toNat sl ((List.range count.toNat).map (· + first.toNat)) dstVa.toNat with
      | .ok t => .done t
      | .error code => .done (s.gessoRange sl dstVa.toNat n) code) s

/-! ## Consent records (R436..R438) -/

/-- A consent record does not hold for a slice (R437 check 3). -/
def State.consentBad (s : State) (sl : Nat) (b : Bytes) : Bool :=
  le b 0 4 != 0x544E5343 || le b 4 2 != 1 || decide (8 ≤ le b 6 2) || !zeroAt b 0x29 7 || !zeroAt b 0x58 8 ||
  hashAt b 8 != deviceId || byteAt b 0x28 != sl || hashAt b 0x30 != s.meas (25 + sl) ||
  hashBytes (Config.sha3 (sub b 0x60 1312)) != sub (s.policy sl) 8 32 ||
  !Config.mldsaVerify (sub b 0x60 1312) (b.take 0x580) (sub b 0x580 2420) ||
  (le b 0x50 8 != 0 && decide (le b 0x50 8 ≤ s.pkc))

/-- CONSENT_INSTALL (R437). -/
def execConsentInstall (h : Hdr) (slice : BitVec 6) (recAddr : U64) (s : State) : Host.Outcome State Fault Refusal :=
  if s.module = 0 then .next s
  else hostCmd { fns := .any, priv := eSecPriv, widths := [6, 64] } h (fun s _ =>
    let sl := cmdSlice h.fn.toNat slice.toNat
    let read := s.hostRead recAddr.toNat 3828
    let b := read.getD []
    checked
      [(!s.defined sl, eNoImage), (!bitAt (byteAt (s.policy sl) 0) 1, eConsentDenied),
       (read.isSome && s.consentBad sl b, eConsentInvalid), (read.isNone, eSecHost)]
      (let s1 := s.consentOff sl
       let c : Consent := { cflags := le b 6 2, expiry := BitVec.ofNat 64 (le b 0x50 8), hash := Config.sha3 b }
       let s2 : State := { s1 with sec := { s1.sec with consents := tabPut s1.sec.consents sl c } }
       .done ((s2.remeasure (89 + sl) (Config.sha3 b)).eraseSlots (· == sl)).debugChanged)) s

/-- CONSENT_REMOVE (R438). -/
def execConsentRemove (h : Hdr) (slice : BitVec 6) (s : State) : Host.Outcome State Fault Refusal :=
  hostCmd { fns := .any, priv := eSecPriv, widths := [6] } h (fun s _ =>
    let sl := cmdSlice h.fn.toNat slice.toNat
    checked [(!s.defined sl, eNoImage)] (.done (s.consentOff sl))) s

/-- CONSENT_EXPIRY (R438): the PKC has reached EXPIRY. -/
def execConsentExpiry (slice : BitVec 6) (s : State) : Host.Outcome State Fault Refusal :=
  match tabGet s.sec.consents slice.toNat with
  | some c => .next (if c.expiry ≠ 0 ∧ c.expiry.toNat ≤ s.pkc then s.consentOff slice.toNat else s)
  | none => .next s

/-! ## JTAG (R439) -/

/-- A slice's record grants JTAG. -/
def State.grantsJtag (s : State) (sl : Nat) : Bool :=
  match tabGet s.sec.consents sl with
  | some c => bitAt c.cflags 0
  | none => false

/-- The slice of a unit, by a mask of its entry. -/
def State.unitSlice (s : State) (mask : SliceEnt → Nat) (i : Nat) : Option Nat :=
  s.slices.find? fun sl => bitAt (mask ((s.sliceEnt sl).getD {})) i

/-- The slices whose records a private instruction to a unit needs; none where no record opens it (R439, *Debug reach*). -/
def State.jtagSlices (s : State) (u : JtagUnit) : Option (List Nat) :=
  match u with
  | .core i => (s.unitSlice SliceEnt.clusters (i.toNat / 8)).map fun sl => [sl]
  | .cluster i => (s.unitSlice SliceEnt.clusters i.toNat).map fun sl => [sl]
  | .pcg i => (s.unitSlice SliceEnt.pcgs i.toNat).map fun sl => [sl]
  | .port i => (s.unitSlice SliceEnt.ports i.toNat).map fun sl => [sl]
  | .die i => if i.toNat < 19 then some (s.slicesOn i.toNat) else none
  | .rt => none
  | .cipherPipe _ => none

/-- A private instruction reaches a unit (R439). -/
def State.jtagReach (s : State) (u : JtagUnit) : Bool :=
  match u with
  | .rt => s.sec.lifecycle == 3
  | .cipherPipe _ => s.sec.lifecycle == 3
  | .die 19 => s.sec.lifecycle == 3
  | _ => match s.jtagSlices u with
    | some l => l.all s.grantsJtag
    | none => false

/-- JTAG_ACCESS (R439): a private instruction opens a session on the slices of its unit; it may halt a die's sequencer, whose
watchdog then does not run (R493). -/
def execJtagAccess (instr : JtagInstr) (unit : JtagUnit) (s : State) : Host.Outcome State Fault Refusal :=
  match instr with
  | .bypass => .next (s.emit (.jtag true))
  | .idcode => .next (s.emit (.jtag true))
  | .sample => .next (s.emit (.jtag s.img.running.isNone))
  | .extest => .next (s.emit (.jtag s.img.running.isNone))
  | _ =>
    if ¬ s.jtagReach unit then .next (s.emit (.jtag false))
    else
      let s1 : State := { s with sec := { s.sec with jtag := ((s.jtagSlices unit).getD []).foldl setInsert s.sec.jtag } }
      let s2 := match instr, unit with
        | .haltSequencer, .die d => s1.setDie d.toNat { s1.die d.toNat with halted := true }
        | _, _ => s1
      .next (s2.emit (.jtag true))

end Sys2Proof.Machine
end

