-- ==== Sys2Proof/Machine/Flags.lean ====
section
/-! DEFINITION. What the status registers, live counts and windows read as: fields that the register tables call read only
and that follow other state. Every other register reads as stored. -/

namespace Sys2Proof.Machine

/-- Fields put together: bit number and value. -/
def packFields (l : List (Nat × Nat)) : Nat := l.foldl (fun n x => n + 2 ^ x.1 * x.2) 0

/-- The 32-bit word at byte offset `4 i` of a byte string. -/
def wordOf (b : Bytes) (i : Nat) : Nat := le (sub b (4 * i) 4) 0 4

/-! ## Package and image -/

/-- CLK_LOCK: a die's PLL is locked and the die released (R27). -/
def State.clkLock (s : State) : Nat :=
  packFields [(20, boolBit s.pkg.pcieLocked), (0, maskOf ((List.range 20).filter fun d =>
    (s.die d).powered && (s.die d).locked && (s.die d).released))]

/-- IMG_STATUS.STATE (table *Image load states*). -/
def State.imgState (s : State) : Nat :=
  if s.img.load.isSome then 5 else if s.img.staged.isSome then 4 else if s.img.running.isSome then 1 else 0

/-- SLICE_DEF (R58 and its table): state, CONFIDENTIAL and DEBUG of the image's policy. -/
def State.sliceDef (s : State) (sl : Nat) : Nat :=
  let st := if s.loading sl then 3 else if ¬ s.defined sl then 0 else if (tabGet s.srv.jobs sl).isSome then 2 else 1
  packFields [(0, st), (2, bitsOf (byteAt (s.policy sl) 0) 0 2)]

/-- A word of the running or staged image's content hash. -/
def imgHashWord (i : Option Image) (k : Nat) : Nat := wordOf (hashBytes ((i.map (·.hash)).getD 0)) k

/-- A register of RT.IMG. -/
def State.imgValue (s : State) (r : Reg) (i : Nat) : Nat :=
  let img := s.img.running
  let id := ((img.map Image.imageId).getD 0).toNat
  match r with
  | .imgStatus => packFields [(0, s.fld .imgStatus 0 0 0 16), (16, s.imgState), (20, boolBit s.img.staged.isSome)]
  | .imgIdLo => id % 2 ^ 32
  | .imgIdHi => id / 2 ^ 32
  | .imgSvn => packFields [(0, (img.map (·.svn)).getD 0), (16, (img.map (·.slot)).getD 0)]
  | .imgHash => imgHashWord img i
  | .imgStaged => imgHashWord s.img.staged i
  | .sliceDef => s.sliceDef i
  | _ => s.reg r 0 i

/-! ## Sessions, pages, attention, jobs -/

/-- Sessions of a slice in one of some seasons (R95). -/
def State.sessCount (s : State) (sl : Nat) (l : List Season) : Nat :=
  (s.desc.filter fun x => x.2.slice == sl && l.contains x.2.season).length

/-- KV_CFG (R133). -/
def State.kvCfg (s : State) (sl : Nat) : Nat :=
  match s.curProg sl, s.geom sl with
  | some p, some g => packFields
      [(12, p.pageMax), (10, p.kvFormat), (9, boolBit p.sround), (8, boolBit (p.kvFormat == 0)), (0, Nat.log2 g.cap)]
  | _, _ => 0

/-- Memory that a slice's palette entries hold, in 4 KiB units (R182). -/
def State.palUnits (s : State) (sl : Nat) : Nat :=
  ((s.srv.pals.filter (·.2.slice == sl)).flatMap (·.2.parts)).foldl (fun n p => n + divUp p.2.2 4096) 0

/-- JOB_STATUS and PS_STATE. -/
def State.jobStatus (s : State) (sl : Nat) : Nat :=
  match tabGet s.srv.jobs sl with
  | none => 0
  | some j => packFields [(0, j.state.code), (4, j.program)]
def State.psState (s : State) (sl : Nat) : Nat :=
  packFields [(0, s.clusters sl), (8, ((tabGet s.srv.jobs sl).map (·.share)).getD 0)]

/-- JOB_CORES: cores of the slice with an engine powered, and cores that run nothing. -/
def State.jobCores (s : State) (sl : Nat) : Nat :=
  let l := ((s.sliceEnt sl).map SliceEnt.cores).getD []
  packFields [(0, (l.filter fun c => s.engines sl c != 0).length), (16, (l.filter fun c => (s.core c).inst.isNone).length)]

/-- CORE_BUSY of 32 cores. -/
def State.coreBusy (s : State) (i : Nat) : Nat :=
  maskOf ((List.range 32).filter fun j => (s.core (32 * i + j)).inst.isSome)

/-- A register of a slice's groups in RT.SESS, RT.KV, RT.ATT, RT.ARITH, RT.JOB and RT.SERVE. -/
def State.sliceValue (s : State) (r : Reg) (sl i : Nat) : Nat :=
  match r with
  | .sessCntSummer => s.sessCount sl [.summer]
  | .sessCntAutumn => s.sessCount sl [.autumn]
  | .sessCntWinter => s.sessCount sl [.winter]
  | .sessCntOther => s.sessCount sl [.spring, .closing]
  | .kvFreeLo => s.freeBytes sl / 4096 % 2 ^ 32
  | .kvFreeHi => s.freeBytes sl / 4096 / 2 ^ 32
  | .kvCfg => s.kvCfg sl
  | .kvWindows => (s.windowsUsed sl).length
  | .palEntries => (s.srv.pals.filter (·.2.slice == sl)).length
  | .palUnits => s.palUnits sl
  | .satCount => tabGetD (s.sat sl).last 0 (s.fld .satSel sl 0 0 8)
  | .satState => maskOf ((List.range 32).filter fun k => (s.sat sl).promoted.contains (32 * i + k))
  | .jobStatus => s.jobStatus sl
  | .jobCores => s.jobCores sl
  | .psState => s.psState sl
  | _ => s.reg r sl i

/-! ## Memory, retrieval, composition, checkpoints -/

/-- Free frames of a slice's fetch area, in 4 KiB units (R301). -/
def State.fetchFree (s : State) (sl : Nat) : Nat :=
  ((s.dieList sl).foldl (fun n d => n + (s.topShare sl d 1).2) 0 -
    (s.mem.fetched.filter (·.slice == sl)).foldl (fun n f => n + f.size) 0) / 4096

/-- Pool space of a slice's T2 objects, in 64 KiB units (R302). -/
def State.t2Used (s : State) (sl : Nat) : Nat :=
  (s.mem.objects.filter fun o => o.slice == sl && o.tier == 2).foldl
    (fun n o => n + o.members.length * stripeUnits (o.units * 4096) o.members.length) 0

/-- Units of 2 MiB of a state die that wait for gesso (R317). -/
def State.gessoPend (s : State) (n : Nat) : Nat :=
  min 0xFFFF ((s.mem.gesso.filter fun g => g.pa / 2 ^ 37 == n).foldl (fun k g => k + divUp g.size (2 ^ 21)) 0)

/-- Spare rows in use on a compute die (R316). -/
def State.spareRows (s : State) (d : Nat) : Nat :=
  (s.mem.spares.filter fun x => x.1 / 2048 == d).foldl (fun n x => n + x.2) 0

/-- COMP_DEV: this device's number and role (R370, R373). -/
def State.compDev (s : State) : Nat :=
  match s.ownNo with
  | none => 0xFFFF
  | some n =>
    let role := if s.comp.quorum.contains n then (if s.arbiter = some n then 3 else 2)
      else if (s.member n).isSome then 1 else 0
    packFields [(0, n), (16, role)]

/-- CKPT_STATUS. -/
def State.ckptStatus (s : State) (sl : Nat) : Nat :=
  let l := s.ck.flight.filter (·.slice == sl)
  packFields [(0, boolBit (tabGet s.ck.now sl).isSome), (1, boolBit (l.any fun c => c.phase == .staging)),
    (2, min 3 l.length), (16, s.fld .ckptStatus sl 0 16 16)]

/-- PORT_STATUS (R388). -/
def State.portStatus (s : State) (p : Nat) : Nat :=
  let x := s.port p
  packFields [(0, x.state), (4, x.width), (8, boolBit x.keyPhase), (9, boolBit x.cipher), (10, x.peerPort), (16, x.peerDev)]

/-- A register of RT.MEM, RT.RET, RT.COMP, RT.CKPT or a die's blocks. -/
def State.memValue (s : State) (r : Reg) (u i : Nat) : Nat :=
  match r with
  | .memTier => if s.defined u then packFields [(0, bitsOf (byteAt (s.tierMap u) 0) 0 1), (8, bitsOf (byteAt (s.tierMap u) 1) 0 2)] else 0
  | .memT1Free => s.freeBytes u / 4096
  | .memFetchFree => s.fetchFree u
  | .memT2Used => s.t2Used u
  | .mcGessoPend => s.gessoPend u
  | .csSpare => packFields [(0, s.spareRows u), (16, s.fld .csSpare u 0 16 8)]
  | .retCount => packFields
      [(0, (s.ret.indexes.filter fun x => x.slice == u && !x.destroyed).length),
       (16, (s.ret.tables.filter fun x => x.slice == u && !x.destroyed).length)]
  | .ceStatus => packFields
      [(0, maskOf ((List.range 8).filter fun e => (tabGet s.cnv.engines (8 * u + e)).isSome)),
       (8, maskOf ((List.range 8).filter fun e => (tabGet s.cnv.engines (8 * u + e)).any (·.2.2.2)))]
  | .compIdLo => s.comp.id.toNat % 2 ^ 32
  | .compIdHi => s.comp.id.toNat / 2 ^ 32
  | .compDev => s.compDev
  | .mapEpoch => s.comp.epoch
  | .ckptStatus => s.ckptStatus u
  | .portStatus => s.portStatus u
  | _ => s.reg r u i

/-! ## Security -/

/-- The 40 fuse bytes of an author slot (R414). -/
def State.authorFuse (s : State) (i : Nat) : Bytes :=
  let a := s.author i
  hashBytes a.keyHash ++ bytesOf 1 (boolBit a.fused + 2 * boolBit a.revoked) ++ zeros 3 ++ bytesOf 4 (2 ^ a.minSvn - 1)

/-- The readable RT fuses from offset 0x280 on (R414). -/
def State.fuseBytes (s : State) : Bytes :=
  Config.fuse 19 0x280 32 ++ Config.fuse 19 0x2A0 16 ++ bytesOf 1 s.sec.lifecycle ++ bytesOf 2 (2 ^ s.sec.zcount - 1) ++ zeros 13 ++
  (List.range 8).flatMap s.authorFuse

/-- SEC_SLICE (R450). -/
def State.secSlice (s : State) (sl : Nat) : Nat :=
  let c := tabGet s.sec.consents sl
  packFields [(0, bitsOf (byteAt (s.policy sl) 0) 0 2), (2, boolBit c.isSome), (3, ((c.map (·.cflags)).getD 0) % 8),
    (16, maskOf ((List.range 16).filter fun k => (tabGet s.sec.slots (16 * sl + k)).isSome))]

/-- 4 KiB frames under a generation, all state dies. -/
def State.genFrames (s : State) (g : Nat) : Nat := (List.range 8).foldl (fun t n => t + s.frames n g) 0

/-- A register of RT.SEC. -/
def State.secValue (s : State) (r : Reg) (i : Nat) : Nat :=
  match r with
  | .secStatus => packFields
      [(0, boolBit s.spent), (1, boolBit s.unmeasured), (2, boolBit s.sec.zeroizePending), (8, s.sec.lifecycle),
       (12, s.module), (16, s.sec.current)]
  | .secGen => packFields [(0, s.sec.retired % 2 ^ 16), (16, s.inUse)]
  | .secGenFramesLo => s.genFrames (s.fld .secGenSel 0 0 0 4) % 2 ^ 32
  | .secGenFramesHi => s.genFrames (s.fld .secGenSel 0 0 0 4) / 2 ^ 32
  | .secSweep => packFields [(0, s.fld .secSweep 0 0 0 1), (31, boolBit s.sec.sweep.active)]
  | .secSlice => s.secSlice i
  | .secFuseWindow => if i < 160 then 0 else wordOf s.fuseBytes (i - 160)
  | .secReport => wordOf s.sec.report i
  | _ => s.reg r 0 i

/-! ## Host, power, errors -/

/-- HOST_STATUS (R473). -/
def State.hostStatus (s : State) (fn : Nat) : Nat :=
  packFields [(0, boolBit (tabGet s.host.sqs fn).isSome), (1, boolBit s.pkg.ready), (2, boolBit s.pkg.fatal)]

/-- The bytes of a slot of the error log's window: empty slots and consumed entries read as zero. -/
def State.logSlot (s : State) (slot : Nat) : Bytes :=
  match tabGet s.log.slots slot with
  | some e => if s.reg .errlogHead 0 0 ≤ e.seq then e.bytes else zeros 64
  | none => zeros 64

/-- Power and temperature are coarsened: some defined slice is confidential without a record granting FINE (R435). -/
def State.grantsFine (s : State) (sl : Nat) : Bool :=
  match tabGet s.sec.consents sl with
  | some c => bitAt c.cflags 2
  | none => false
def State.coarseTelemetry (s : State) : Bool := s.slices.any fun sl => s.confidential sl && !s.grantsFine sl

/-- The average of samples, to the nearest `k`. -/
def nearest (l : List Nat) (k : Nat) : Nat :=
  let n := max 1 l.length
  (2 * l.foldl (· + ·) 0 + k * n) / (2 * k * n) * k

/-- Input power, hottest reading and its die as they are read. -/
def State.wattsRead (s : State) : Nat := if s.coarseTelemetry then nearest s.pkg.powerLog 5 else s.pkg.watts
def State.tempRead (s : State) (exact : Nat) : Nat := if s.coarseTelemetry then nearest s.pkg.tempLog 1 else exact
def State.hotDie (s : State) : Nat :=
  if s.coarseTelemetry then 0xFF else ((List.range 20).find? fun d => (s.die d).temp == s.hottest && s.hottest != 0).getD 0xFF

/-- A register of RT.GLB, RT.CLK, RT.HOST, RT.RST, RT.ERR or RT.THM. -/
def State.rootValue (s : State) (r : Reg) (u i : Nat) : Nat :=
  match r with
  | .pkcLo => s.pkc % 2 ^ 32
  | .pkcHi => s.pkc / 2 ^ 32
  | .clkLock => s.clkLock
  | .hostStatus => s.hostStatus u
  | .bar4Slice => match fnSlice u with
    | some sl => sl
    | none => s.reg r u i
  | .pwrState => packFields [(0, s.power), (4, s.fld .pwrState 0 0 4 1), (8, s.fld .pwrState 0 0 8 5)]
  | .fwStatus => putBits (s.reg .fwStatus 0 0) 1 1 (boolBit s.flash.staged)
  | .errlogWindow => wordOf (s.logSlot (64 * s.fld .errlogCtrl 0 0 0 4 + i / 16)) (i % 16)
  | .pkgPower => s.wattsRead
  | .pkgTemp => packFields [(0, s.tempRead s.hottest), (8, s.hotDie)]
  | .thermStatus => packFields
      [(0, s.fld .thermStatus 0 0 0 1), (1, boolBit (s.pkg.thermDuty < 16)), (2, boolBit (s.pkg.capDuty < 16 || s.pkg.beWithheld)),
       (3, s.fld .thermStatus 0 0 3 1), (8, min s.pkg.thermDuty s.pkg.capDuty), (16, s.tempRead (s.fld .thermStatus 0 0 16 8))]
  | _ => s.reg r u i

/-- What a register holds for a reader, before reach, latches and coarsened counters. -/
def State.regValue (s : State) (r : Reg) (u i : Nat) : Nat :=
  match r.row.block with
  | .img => s.imgValue r i
  | .sess | .kv | .att | .arith | .job | .serve => if r = .coreBusy then s.coreBusy i else s.sliceValue r u i
  | .mem | .ret | .comp | .ckpt | .mc | .ce | .cs | .port => s.memValue r u i
  | .sec => s.secValue r i
  | .glb | .clk | .host | .rst | .err | .thm => s.rootValue r u i
  | .cnv | .qos | .evc => s.reg r u i

end Sys2Proof.Machine
end

