-- ==== Sys2Proof/Machine/Host.lean ====
section
/-! DEFINITION. The queue commands, doorbells and interrupts of the host interface (R456..R468, R470, R471). -/

namespace Sys2Proof.Machine

/-- A created queue id (R463): 64..4,095. -/
def qidOk (q : Nat) : Bool := 64 ≤ q && q ≤ 4095

/-- LOG2_SIZE of a created SQ or CQ (R463): 4..16. -/
def qlogOk (n : Nat) : Bool := 4 ≤ n && n ≤ 16

/-- NOP: fetched, checked and completed (R460). -/
def execNop (h : Hdr) (s : State) : Host.Outcome State Fault Refusal :=
  hostCmd { fns := .any, hibernate := true, noImage := true, recovery := true } h (fun s _ => .done s) s

/-- SQ_CREATE (R463). -/
def execSqCreate (h : Hdr) (qid cqid : U16) (log2 : BitVec 5) (base : U64) (s : State) :
    Host.Outcome State Fault Refusal :=
  hostCmd { fns := .any, admin := true, widths := [16, 16, 5, 64], hibernate := true, noImage := true } h
    (fun s _ =>
      let fn := h.fn.toNat
      let cqOk := match tabGet s.host.cqs cqid.toNat with
        | some c => c.fn == fn
        | none => false
      checked
        [(!(qidOk qid.toNat && qlogOk log2.toNat && base.toNat % 4096 == 0 && cqOk), eQueueParam),
         ((tabGet s.host.sqs qid.toNat).isSome, eQueueExists)]
        (.done { s with host := { s.host with
          sqs := tabPut s.host.sqs qid.toNat ⟨fn, cqid.toNat, log2.toNat, base, 0, 0⟩ } })) s

/-- SQ_DELETE (R463): fetching stops at once; commands already fetched run on and complete to the CQ. -/
def execSqDelete (h : Hdr) (qid : U16) (s : State) : Host.Outcome State Fault Refusal :=
  hostCmd { fns := .any, admin := true, widths := [16], hibernate := true, noImage := true } h
    (fun s _ =>
      let owned := match tabGet s.host.sqs qid.toNat with
        | some q => q.fn == h.fn.toNat && qidOk qid.toNat
        | none => false
      checked [(!owned, eQueueParam)]
        (.done { s with host := { s.host with sqs := tabDel s.host.sqs qid.toNat } })) s

/-- CQ_CREATE (R463). -/
def execCqCreate (h : Hdr) (qid : U16) (log2 : BitVec 5) (vector : BitVec 11) (ien : U1) (base : U64)
    (s : State) : Host.Outcome State Fault Refusal :=
  hostCmd { fns := .any, admin := true, widths := [16, 5, 11, 1, 64], hibernate := true, noImage := true } h
    (fun s _ =>
      let fn := h.fn.toNat
      checked
        [(!(qidOk qid.toNat && qlogOk log2.toNat && base.toNat % 4096 == 0 && vector.toNat < msixSize fn),
          eQueueParam),
         ((tabGet s.host.cqs qid.toNat).isSome, eQueueExists)]
        (.done { s with host := { s.host with
          cqs := tabPut s.host.cqs qid.toNat
            ⟨fn, log2.toNat, base, vector.toNat, ien == 1, 0, true, 0, false, 0⟩ } })) s

/-- CQ_DELETE (R463): refused while an SQ is bound to the CQ or a command bound to it is outstanding. -/
def execCqDelete (h : Hdr) (qid : U16) (s : State) : Host.Outcome State Fault Refusal :=
  hostCmd { fns := .any, admin := true, widths := [16], hibernate := true, noImage := true } h
    (fun s _ =>
      match tabGet s.host.cqs qid.toNat with
      | none => .reject eQueueParam
      | some c =>
        checked
          [(!(c.fn == h.fn.toNat && qidOk qid.toNat), eQueueParam),
           (s.host.sqs.any (fun q => q.2.cq == qid.toNat) || c.outstanding != 0, eCqBusy)]
          (.done { s with host := { s.host with cqs := tabDel s.host.cqs qid.toNat } })) s

/-- The event queue a command names (R467): the device's from PF0 only, a slice's from PF1 or that slice's VF. -/
def eqNumber (fn slice device : Nat) : Option Nat :=
  if device = 1 then (if fn = 0 then some 64 else none)
  else if fn = 0 then none else some (cmdSlice fn slice)

/-- EQ_CREATE (R467). An event queue a function may not create gives E_PRIV (log entry 6). -/
def execEqCreate (h : Hdr) (slice : BitVec 6) (device : U1) (log2 : BitVec 5) (base : U64) (vector : BitVec 11)
    (s : State) : Host.Outcome State Fault Refusal :=
  hostCmd { fns := .any, admin := true, widths := [6, 1, 5, 64, 11], hibernate := true, noImage := true } h
    (fun s _ =>
      let fn := h.fn.toNat
      match eqNumber fn slice.toNat device.toNat with
      | none => .reject ePriv
      | some q =>
        checked
          [(device == 0 && !s.defined q, eNoImage), (!(6 ≤ log2.toNat && log2.toNat ≤ 16 && base.toNat % 4096 == 0 && vector.toNat < msixSize fn),
            eQueueParam),
           ((tabGet s.host.eqs q).isSome, eQueueExists)]
          (.done { s with host := { s.host with
            eqs := tabPut s.host.eqs q ⟨fn, log2.toNat, base, vector.toNat, 0, true, 0, false, false⟩ } })) s

/-- EQ_DELETE (R467): a queue that does not exist, or is not the function's, gives E_QUEUE_PARAM. -/
def execEqDelete (h : Hdr) (slice : BitVec 6) (device : U1) (s : State) : Host.Outcome State Fault Refusal :=
  hostCmd { fns := .any, admin := true, widths := [6, 1], hibernate := true, noImage := true } h
    (fun s _ =>
      match eqNumber h.fn.toNat slice.toNat device.toNat with
      | none => .reject ePriv
      | some q =>
        let owned := match tabGet s.host.eqs q with
          | some e => e.fn == h.fn.toNat
          | none => false
        checked [(device == 0 && !s.defined q, eNoImage), (!owned, eQueueParam)]
          (.done { s with host := { s.host with eqs := tabDel s.host.eqs q } })) s

/-! ## Doorbells (R464, R465) -/

/-- A doorbell ignored and counted (R465). -/
def State.dbIgnored (s : State) (fn : Nat) : State := s.bump .dbIgnored fn 1

/-- SQ tail doorbell (R464, R465): accepted when the index lies within the queue and does not pass the fetch position
by a whole queue; the device may then fetch up to it. -/
def execSqTailDoorbell (fn : BitVec 6) (q : BitVec 12) (value : U16) (s : State) :
    Host.Outcome State Fault Refusal :=
  match tabGet s.host.sqs q.toNat with
  | none => .next (s.dbIgnored fn.toNat)
  | some x =>
    if x.fn ≠ fn.toNat ∨ 2 ^ x.log2 ≤ value.toNat then .next (s.dbIgnored fn.toNat)
    else .next { s with host := { s.host with sqs := tabPut s.host.sqs q.toNat { x with tail := value.toNat } } }

/-- CQ head doorbell (R464..R466): a head that would release an entry not yet written is ignored; an accepted one
frees entries, and re-arms the CQ's message, which is sent at once when entries remain beyond it. -/
def execCqHeadDoorbell (fn : BitVec 6) (q : BitVec 12) (value : U16) (s : State) :
    Host.Outcome State Fault Refusal :=
  match tabGet s.host.cqs q.toNat with
  | none => .next (s.dbIgnored fn.toNat)
  | some c =>
    let n := 2 ^ c.log2
    if c.fn ≠ fn.toNat ∨ n ≤ value.toNat ∨
        (c.tail + n - c.head) % n < (value.toNat + n - c.head) % n then .next (s.dbIgnored fn.toNat)
    else
      let left := value.toNat != c.tail
      let c' := { c with head := value.toNat, msgSent := c.ien && left }
      let s1 := { s with host := { s.host with cqs := tabPut s.host.cqs q.toNat c' } }
      .next (if c.ien && left then s1.interrupt c.fn c.vector else s1)

/-- Event queue head doorbell (R464, R465): the index counts modulo the queue's size. -/
def execEqHeadDoorbell (fn : BitVec 6) (q : BitVec 7) (value : U16) (s : State) :
    Host.Outcome State Fault Refusal :=
  match tabGet s.host.eqs q.toNat with
  | none => .next (s.dbIgnored fn.toNat)
  | some e =>
    let n := 2 ^ e.log2
    let used := (e.tail + 2 * n - e.head) % (2 * n)
    let adv := (value.toNat + n - e.head % n) % n
    -- a full queue whose head comes back to its own index is emptied
    let adv' := if adv = 0 ∧ used = n then n else adv
    if e.fn ≠ fn.toNat ∨ n ≤ value.toNat ∨ used < adv' then .next (s.dbIgnored fn.toNat)
    else
      let left := adv' != used
      let e' := { e with head := (e.head + adv') % (2 * n), msgSent := left }
      let s1 := { s with host := { s.host with eqs := tabPut s.host.eqs q.toNat e' } }
      .next (if left then s1.interrupt e.fn e.vector else s1)

/-- Unmasking of an MSI-X vector (R466): a pending message is sent. -/
def execMsixUnmask (fn : BitVec 6) (vector : BitVec 11) (s : State) : Host.Outcome State Fault Refusal :=
  let k := 2048 * fn.toNat + vector.toNat
  if msixSize fn.toNat ≤ vector.toNat then .next s
  else
    let s1 := { s with host := { s.host with msixOn := setInsert s.host.msixOn k } }
    if s.host.msixPending.contains k then
      .next (({ s1 with host := { s1.host with msixPending := s1.host.msixPending.filter (· != k) } }).emit
        (.msix fn.toNat vector.toNat))
    else .next s1

/-- A poisoned TLP from the host is logged (R508, source 0x0012). -/
def execPoisonedTlpReceived (fn : BitVec 6) (addr : U64) (s : State) : Host.Outcome State Fault Refusal :=
  .next (s.logErr 0x0012 19 0xFF 0 fn.toNat (some addr.toNat))

/-! ## IDE and TDISP (R470, R471) -/

/-- The TDI of a function. -/
def State.tdi (s : State) (fn : Nat) : Tdi := tabGetD s.host.tdis .unlocked fn

/-- The TDI of a function set. -/
def State.setTdi (s : State) (fn : Nat) (t : Tdi) : State :=
  { s with host := { s.host with tdis := tabPut s.host.tdis fn t } }

/-- The TDI of a VF is CONFIG_LOCKED or RUN: its queue registers and BARs are read only (R471, R486). -/
def State.tdiLocked (s : State) (fn : Nat) : Bool := s.tdi fn == .locked || s.tdi fn == .run

/-- A selective stream is bound to the function. -/
def State.ideBound (s : State) (fn : Nat) : Bool := s.host.ide.any fun x => x.2 == fn

/-- A VF's TLP arrives outside its stream or fails IDE: its TDI goes to ERROR (R470), if it is LOCKED or RUN. -/
def execIdeFailure (fn : BitVec 6) (s : State) : Host.Outcome State Fault Refusal :=
  if 2 ≤ fn.toNat ∧ s.tdiLocked fn.toNat then .next (s.setTdi fn.toNat .error) else .next s

/-- IDE key management (R470), in a secured session only: message 0 QUERY, 2 KEY_PROG, 4 K_SET_GO binds the stream to
the function, 5 K_SET_STOP unbinds it (log entry 7). -/
def execIdeKm (message stream : BitVec 3) (fn : BitVec 6) (s : State) : Host.Outcome State Fault Refusal :=
  if s.host.spdm.secured.isNone then .next (s.emit (.spdm 0x7F [0x04]))
  else if message = 4 then
    .next (({ s with host := { s.host with ide := tabPut s.host.ide stream.toNat fn.toNat } }).emit
      (.spdm 0xFE (bytesOf 1 message.toNat ++ bytesOf 1 stream.toNat)))
  else if message = 5 then
    .next (({ s with host := { s.host with ide := tabDel s.host.ide stream.toNat } }).emit
      (.spdm 0xFE (bytesOf 1 message.toNat ++ bytesOf 1 stream.toNat)))
  else .next (s.emit (.spdm 0xFE (bytesOf 1 message.toNat ++ bytesOf 1 stream.toNat)))

end Sys2Proof.Machine
end

