-- ==== Sys2Proof/Machine/Registers.lean ====
section
/-! DEFINITION. BAR0 accesses: who reaches a register (R477, R478), which accesses are ignored and counted (R479..R481,
R486), latched reads and pending writes (R30, R483), coarsened counters (R435), and the rules of single registers. -/

namespace Sys2Proof.Machine

/-! ## Reach -/

/-- The die that holds a register's block. -/
def Reg.die (r : Reg) (u : Nat) : Nat :=
  match r.row.block with
  | .mc | .ce => 8 + u
  | .cs => u
  | .port => 16 + u / 16
  | _ => 19

/-- A function reaches a register (R477, R478). -/
def Reg.reach (r : Reg) (u i fn : Nat) (write : Bool) : Bool :=
  let pf0 := fn == 0
  match r.row.block with
  | .glb | .clk | .img | .cnv => pf0 || !write
  | .sess | .att | .arith | .job | .serve | .kv | .mem | .ret | .ckpt | .qos | .evc =>
    if r.row.grouped then decide (fn < 2) || fn == u + 2 else pf0
  | .sec => pf0 || (r == .secSlice && !write && fn == i + 2)
  | .host => pf0 || (r.row.grouped && fn == u)
  | .thm => pf0 || ((r == .pkgPower || r == .pkgTemp) && !write)
  | .comp | .rst | .err | .mc | .ce | .cs | .port => pf0

/-! ## Fields (R5, R486) -/

/-- The lock of a block is set (R486). -/
def State.lockSet (s : State) (b : Block) : Bool :=
  match b with
  | .img => s.fld .imgCtrl 0 0 0 1 == 1
  | .rst | .err | .thm => s.fld .glbLock 0 0 0 1 == 1
  | _ => false

/-- A value that a field does not take: it stays unchanged. -/
def fieldBad (r : Reg) (lo v : Nat) : Bool :=
  match r with
  | .satCtrl => decide (8 ≤ lo) && v == 0
  | .hotEvery => v == 0
  | .csSpare => v == 0
  | .mcEccCtrl => lo == 0 && decide (4 < v)
  | .pwrState => lo == 8 && (decide (v < 16) || decide (30 < v))
  | .pwrCap => lo == 0 && (decide (v < 500) || decide (3000 < v))
  | .thermCtrl => lo == 8 && (decide (v < 85) || decide (105 < v))
  | .aqCfg => decide (lo ≤ 8) && (decide (v < 4) || decide (12 < v))
  | _ => false

/-- A field after a write of `v` to it. -/
def Field.next (f : Field) (r : Reg) (locked : Bool) (cur v : Nat) : Nat :=
  if fieldBad r f.lo v then cur
  else match f.acc with
  | .ro | .wo => cur
  | .rw => v
  | .rw1c => cur &&& (2 ^ f.width - 1 - v)
  | .rwl => if locked then cur else v
  | .rws => if cur = 0 then v else cur

/-- A register written field by field. -/
def State.writeFields (s : State) (r : Reg) (u i v : Nat) : State :=
  let cur := s.reg r u i
  s.setReg r u i (r.row.fields.foldl (fun n f =>
    putBits n f.lo f.width (f.next r (s.lockSet r.row.block) (bitsOf cur f.lo f.width) (bitsOf v f.lo f.width))) cur)

/-- A write that is counted because of its fields (R480): all of them are read only, or one is locked or set already. -/
def State.fieldsRefuse (s : State) (r : Reg) (u i : Nat) : Bool :=
  r.row.fields.all (fun f => f.acc == .ro) || r.row.fields.any fun f =>
    (f.acc == .rwl && s.lockSet r.row.block) || (f.acc == .rws && bitsOf (s.reg r u i) f.lo f.width != 0)

/-- The bits of a register that a field covers. -/
def Reg.covered (r : Reg) (v : Nat) : Nat := r.row.fields.foldl (fun n f => n + 2 ^ f.lo * bitsOf v f.lo f.width) 0

/-! ## LO and HI pairs (R483) -/

/-- The LO register of a pair whose LO write waits for HI. -/
def Reg.loOf : Reg → Option Reg
  | .bar4BaseHi => some .bar4BaseLo
  | .ckptPkcIntervalHi => some .ckptPkcIntervalLo
  | .ckptStepIntervalHi => some .ckptStepIntervalLo
  | .handoffLimitHi => some .handoffLimitLo
  | .liveLimitHi => some .liveLimitLo
  | .mcPatrolHi => some .mcPatrolLo
  | .ringWaitLimitHi => some .ringWaitLimitLo
  | .sessIdleLimitHi => some .sessIdleLimitLo
  | .txnLimitHi => some .txnLimitLo
  | _ => none

/-- A LO register whose write waits for HI. -/
def Reg.waits (r : Reg) : Bool :=
  match r with
  | .bar4BaseLo | .ckptPkcIntervalLo | .ckptStepIntervalLo | .handoffLimitLo | .liveLimitLo | .mcPatrolLo | .ringWaitLimitLo
  | .sessIdleLimitLo | .txnLimitLo => true
  | _ => false

/-- The HI register that a read of a LO register latches. -/
def Reg.latches : Reg → Option Reg
  | .pkcLo => some .pkcHi
  | .ceBytesLo => some .ceBytesHi
  | .kvFreeLo => some .kvFreeHi
  | .jobStepLo => some .jobStepHi
  | .mcLastUeLo => some .mcLastUeHi
  | .ckptLastLo => some .ckptLastHi
  | .ckptTargetLo => some .ckptTargetHi
  | .secGenFramesLo => some .secGenFramesHi
  | _ => none

/-- Key of a latch or a pending value: function and BAR0 offset. -/
def latchKey (fn off : Nat) : Nat := 2 ^ 26 * fn + off

/-- An interval of the checkpoint policy that the image does not allow (R405): at `o` its minimum. -/
def State.intervalBad (s : State) (sl o v : Nat) : Bool :=
  let b := s.ckPolicy sl
  !b.isEmpty && if v = 0 then !bitAt (byteAt b 2) 1 else decide (v < le b o 8)

/-- An idle limit that the image does not allow (R95). -/
def State.idleLimitBad (s : State) (sl v : Nat) : Bool :=
  match s.sect 0x000B sl 0 with
  | none => false
  | some b => if v = 0 then !bitAt (byteAt b 0x18) 0 else decide (v < le b 0x10 8)

/-- BAR4 size of a function as log2 (R454). -/
def State.bar4Size (s : State) (fn : Nat) : Nat := tabGetD s.host.bar4Log2 36 fn

/-- A pair committed with a 64-bit value. -/
def State.commitPair (s : State) (lo hi : Reg) (u v : Nat) : State :=
  match lo with
  | .handoffLimitLo | .liveLimitLo | .txnLimitLo | .ringWaitLimitLo => if v = 0 then s else s.setReg64 lo hi u v
  | .ckptPkcIntervalLo =>
    if s.intervalBad u 0x10 v then s.setFld .ckptStatus u 0 16 16 eImgPolicy else s.setReg64 lo hi u v
  | .ckptStepIntervalLo =>
    if s.intervalBad u 0x20 v then s.setFld .ckptStatus u 0 16 16 eImgPolicy else s.setReg64 lo hi u v
  | .sessIdleLimitLo => if s.idleLimitBad u v then s else s.setReg64 lo hi u v
  | .bar4BaseLo =>
    let k := 2 ^ s.bar4Size u
    s.setReg64 lo hi u (v % 2 ^ 52 / k * k)
  | _ => s.setReg64 lo hi u v

/-- A write of a HI register commits it with the pending LO of the writing function, or with the LO that stands. -/
def State.writeHi (s : State) (lo hi : Reg) (u fn v : Nat) : State :=
  let k := latchKey fn (lo.addr u 0)
  let low := match tabGet s.host.pendLo k with
    | some x => x.toNat
    | none => s.reg lo u 0
  ({ s with host := { s.host with pendLo := tabDel s.host.pendLo k } }).commitPair lo hi u (2 ^ 32 * v + low)

/-! ## Single registers -/

/-- What is wrong with a write to RT.SERVE (R264 and its tables). -/
def State.serveCheck (s : State) (r : Reg) (sl v : Nat) : Option Nat :=
  let b := s.sect 0x000B sl 0
  let lo := bitsOf v 0 8
  let up := bitsOf v 8 8
  match r with
  | .psBounds => firstFail [(decide (up < lo) || decide (100 < up), eServeParam),
      (b.any fun x => decide (lo < byteAt x 2) || decide (byteAt x 3 < up), eImgPolicy)]
  | .heldLimit => firstFail [(bitsOf v 0 16 == 0, eServeParam), (b.any fun x => decide (le x 6 2 < bitsOf v 0 16), eImgPolicy)]
  | .serveChunk =>
    let bad (n top : Nat) : Bool := decide (n < 16) || decide (top < n)
    firstFail [(bad (bitsOf v 0 16) 16384 || bad (bitsOf v 16 16) 4096, eServeParam)]
  | .serveBatch => firstFail [(bitsOf v 0 13 == 0 || decide (4096 < bitsOf v 0 13), eServeParam)]
  | .serveSpec => firstFail [(decide (8 < bitsOf v 0 4), eServeParam)]
  | _ => none

/-- Admin queues of a function created as its registers say (R463, R473). -/
def State.adminOn (s : State) (f : Nat) : State :=
  let h := s.host
  let base (lo hi : Reg) : U64 := BitVec.ofNat 64 (s.reg64 lo hi f)
  { s with host := { h with
    sqs := tabPut h.sqs f ⟨f, f, s.fld .aqCfg f 0 0 4, base .aqSqBaseLo .aqSqBaseHi, 0, 0⟩
    cqs := tabPut h.cqs f ⟨f, s.fld .aqCfg f 0 8 4, base .aqCqBaseLo .aqCqBaseHi, s.fld .aqCfg f 0 16 11, true, 0, true, 0, false, 0⟩ } }

/-- Admin queues of a function destroyed: commands fetched from them run on without completions (R472, R473). -/
def State.adminOff (s : State) (f : Nat) : State :=
  let h := s.host
  { s with host := { h with
    sqs := tabDel h.sqs f, cqs := tabDel h.cqs f, epochs := tabPut h.epochs (64 + f) (tabGetD h.epochs 0 (64 + f) + 1) } }

/-- A write of AQ_CFG (R473): while ENABLE is set only a clear of it counts. -/
def State.aqWrite (s : State) (f v : Nat) : State :=
  if s.fld .aqCfg f 0 31 1 = 1 then (if bitAt v 31 then s else (s.setFld .aqCfg f 0 31 1 0).adminOff f)
  else
    let s1 := s.writeFields .aqCfg f 0 v
    if bitAt v 31 then s1.adminOn f else s1

/-- A write of EVC_SELk (R511). -/
def State.evcWrite (s : State) (sl k fn off v : Nat) : State :=
  let src := bitsOf v 0 8
  let filter := bitsOf v 8 8
  if counterBad src filter ∨ ((s.sliceEnt sl).getD {}).lacks src filter then s.accErr fn off
  else (s.setReg .evcSel sl k (v % 2 ^ 16)).setReg .evcCount sl k 0

/-- A write of ERRLOG_CTRL (R488, R509): PAGE and OVERFLOW, then CONSUME over the page selected. -/
def State.errlogWrite (s : State) (v : Nat) : State :=
  let s1 := s.writeFields .errlogCtrl 0 0 v
  let page := s1.fld .errlogCtrl 0 0 0 4
  let head := s1.reg .errlogHead 0 0
  let seqs := (s1.log.slots.filter fun x => x.1 / 64 == page && head ≤ x.2.seq).map (·.2.seq)
  if bitAt v 4 ∧ seqs ≠ [] then s1.consume (seqs.foldl max 0) else s1

/-- A write of PORT_CTRL (R368, R369, R388). With its die down only DISABLE acts. -/
def State.portWrite (s : State) (p fn off v : Nat) : State :=
  let off1 := if bitAt v 0 then s.portOff p else s
  if s.seqDown (16 + p / 16) then (if bitAt v 0 then off1 else s.accErr fn off)
  else
    let s1 := if bitAt v 0 then off1 else s.setFld .portCtrl p 0 0 1 0
    let s2 := if bitAt v 2 then s1.startRekey p else s1
    if ¬ bitAt v 1 ∨ bitAt v 0 ∨ (s2.portSlice p).isNone then s2 else s2.portFail p

/-- A write of THERM_CTRL (R516): its KEY lets it act. -/
def State.thermWrite (s : State) (v : Nat) : State :=
  if bitsOf v 16 16 ≠ 0x5448 then s
  else
    let s1 := s.writeFields .thermCtrl 0 0 v
    if bitAt v 0 then s1.thermalShutdown 0xFF else s1

/-- A write of SEC_ZEROIZE (R447). -/
def State.zeroizeCode (s : State) (v : Nat) : State :=
  if v = 0xA5A5 then { s with sec := { s.sec with armed := some s.pkg.pkc } }
  else if v = 0x5A5A ∧ s.fires s.sec.armed then s.zeroize else s

/-- A write that reach, dies and locks of a TDI let pass. -/
def State.writeAt (s : State) (r : Reg) (u i fn off v : Nat) : State :=
  match r with
  | .aqCfg => s.aqWrite u v
  | .aqSqBaseLo | .aqCqBaseLo => if s.fld .aqCfg u 0 31 1 = 1 then s else s.setReg r u 0 (v / 4096 * 4096)
  | .aqSqBaseHi | .aqCqBaseHi => if s.fld .aqCfg u 0 31 1 = 1 then s else s.setReg r u 0 v
  | .bar4Slice => if 2 ≤ u then s else s.writeFields r u i v
  | .evcSel => s.evcWrite u i fn off v
  | .errlogCtrl => s.errlogWrite v
  | .thermCtrl => s.thermWrite v
  | .rstCtrl => if bitsOf v 16 16 = 0x5053 ∧ bitAt v 0 then s.packageReset 2 else s
  | .secZeroize => s.zeroizeCode v
  | _ =>
    if r.waits then { s with host := { s.host with
      pendLo := tabPut s.host.pendLo (latchKey fn off) (BitVec.ofNat 32 v) } }
    else match r.loOf with
    | some lo => s.writeHi lo r u fn (r.covered v)
    | none => match s.serveCheck r u v with
      | some code => s.setReg .serveErr u 0 code
      | none => match s.qosWrite r u i (r.covered v) with
        | some t => t
        | none => s.writeFields r u i v

/-- A register that a locked TDI makes read only (R471, R486). -/
def Reg.ofTdi : Reg → Bool
  | .aqSqBaseLo | .aqSqBaseHi | .aqCqBaseLo | .aqCqBaseHi | .aqCfg | .bar4BaseLo | .bar4BaseHi | .bar4Slice => true
  | _ => false

/-- A 32-bit write at an aligned BAR0 offset (R480, R481, R471, R499). -/
def State.writeReg (s : State) (fn off v : Nat) : State :=
  match regAt off with
  | none => s.accErr fn off
  | some (r, u, i) =>
    if ¬ r.reach u i fn true then s.accErr fn off
    else if r = .portCtrl then s.portWrite u fn off v
    else if ¬ r.row.wedge ∧ s.seqDown (r.die u) then s.accErr fn off
    else if ¬ r.row.wedge ∧ s.hibernating then s
    else if r.ofTdi ∧ 2 ≤ u ∧ s.tdiLocked u then s.setTdi u .error
    else (if s.fieldsRefuse r u i then s.accErr fn off else s).writeAt r u i fn off v

/-- 32-bit writes at ascending offsets (R479). -/
def State.writeRegs (s : State) (fn off : Nat) : List Nat → State
  | [] => s
  | v :: l => (s.writeReg fn off v).writeRegs fn (off + 4) l

/-! ## Reads -/

/-- A counter that is read from the snapshot (R435). -/
def Reg.coarse (r : Reg) : Bool := r == .evcCount || r.row.fields.any (·.coarse)

/-- A 32-bit read at an aligned BAR0 offset: the state after it and the value (R30, R435, R480, R481, R483). -/
def State.regRead (s : State) (fn off : Nat) : State × Nat :=
  match regAt off with
  | none => (s.accErr fn off, 0)
  | some (r, u, i) =>
    if ¬ r.reach u i fn false ∨ r.row.fields.all (·.acc == .wo) then (s.accErr fn off, 0)
    else if ¬ r.row.wedge ∧ s.seqDown (r.die u) then (s, 0)
    else
      let coarse := r.coarse && s.confidential u && !s.grantsFine u
      let v := if coarse then 65536 * ((tabGetD s.host.snapshot 0 off).toNat / 65536)
        else match tabGet s.host.latches (latchKey fn off) with
          | some x => x.toNat
          | none => s.regValue r u i
      match r.latches with
      | some hi => ({ s with host := { s.host with
          latches := tabPut s.host.latches (latchKey fn (hi.addr u 0)) (BitVec.ofNat 32 (s.regValue hi u 0)) } }, v)
      | none => (s, v)

/-- A read of the register that holds an offset, its value given to the function. -/
def State.readOut (s : State) (fn off : Nat) : State :=
  let x := s.regRead fn (off / 4 * 4)
  x.1.emit (.readData fn (bytesOf 4 x.2))

/-- PKC_LO_READ (R30). -/
def execPkcLoRead (fn : BitVec 6) (s : State) : Host.Outcome State Fault Refusal :=
  .next (s.readOut fn.toNat (Reg.addr .pkcLo 0 0))

/-- LO_READ_LATCH (R483): a read at an offset; at a LO register marked so it latches HI. -/
def execLoReadLatch (fn : BitVec 6) (off : BitVec 26) (s : State) : Host.Outcome State Fault Refusal :=
  .next (s.readOut fn.toNat off.toNat)

/-- The coarsened counters as they stand, by BAR0 offset; zeros are not listed. -/
def State.coarseCounters (s : State) : Tab U32 :=
  ((allRegs.filter Reg.coarse).flatMap fun r => (List.range r.units).flatMap fun u => (List.range (max 1 r.row.count)).map fun i =>
    (r.addr u i, s.regValue r u i)).foldl (fun t x => if x.2 = 0 then t else tabPut t x.1 (BitVec.ofNat 32 x.2)) []

/-- COUNTER_SNAPSHOT (R435): due at every multiple of 2^20 counts. -/
def execCounterSnapshot (s : State) : Host.Outcome State Fault Refusal :=
  if s.pkc % 2 ^ 20 ≠ 0 then .next s
  else .next { s with host := { s.host with snapshot := s.coarseCounters } }

/-! ## Writes with a row of their own -/

/-- HI_WRITE_COMMIT (R483). -/
def execHiWriteCommit (fn : BitVec 6) (off : BitVec 26) (value : U32) (s : State) : Host.Outcome State Fault Refusal :=
  .next (s.writeReg fn.toNat off.toNat value.toNat)

/-- REG_CFG_WRITE (R277): regulator 0..7 HBM, 8 links, 9 canvas engines. -/
def execRegCfgWrite (fn slice : BitVec 6) (reg : BitVec 4) (value : U32) (s : State) : Host.Outcome State Fault Refusal :=
  let g := (regulRegs reg.toNat).2
  if 10 ≤ reg.toNat then .next s else .next (s.writeReg fn.toNat (g.1.addr slice.toNat g.2) value.toNat)

/-- MTR_SEL_WRITE (R288). -/
def execMtrSelWrite (fn slice entry : BitVec 6) (value : U32) (s : State) : Host.Outcome State Fault Refusal :=
  .next (s.writeReg fn.toNat (Reg.addr .mtrSel slice.toNat entry.toNat) value.toNat)

/-- EVC_SEL_WRITE (R511). -/
def execEvcSelWrite (fn slice : BitVec 6) (counter : BitVec 4) (value : U32) (s : State) : Host.Outcome State Fault Refusal :=
  .next (s.writeReg fn.toNat (Reg.addr .evcSel slice.toNat counter.toNat) value.toNat)

/-- AQ_CFG_WRITE (R473). -/
def execAqCfgWrite (fn target : BitVec 6) (value : U32) (s : State) : Host.Outcome State Fault Refusal :=
  .next (s.writeReg fn.toNat (Reg.addr .aqCfg target.toNat 0) value.toNat)

/-- ERRLOG_CTRL_CONSUME (R509, R518). -/
def execErrlogCtrlConsume (fn : BitVec 6) (value : U32) (s : State) : Host.Outcome State Fault Refusal :=
  .next (s.writeReg fn.toNat (Reg.addr .errlogCtrl 0 0) value.toNat)

/-- RST_CTRL_PKG_RESET (R494, R518). -/
def execRstCtrlPkgReset (fn : BitVec 6) (value : U32) (s : State) : Host.Outcome State Fault Refusal :=
  .next (s.writeReg fn.toNat (Reg.addr .rstCtrl 0 0) value.toNat)

/-- THERM_CTRL_SHUTDOWN (R516, R518). -/
def execThermCtrlShutdown (fn : BitVec 6) (value : U32) (s : State) : Host.Outcome State Fault Refusal :=
  .next (s.writeReg fn.toNat (Reg.addr .thermCtrl 0 0) value.toNat)

/-- A write of one bit of PORT_CTRL that leaves DISABLE as it stands. -/
def State.portBit (s : State) (fn p bit : Nat) : State :=
  if 48 ≤ p then s else s.writeReg fn (Reg.addr .portCtrl p 0) (bit ||| s.fld .portCtrl p 0 0 1)

/-- PORT_CTRL_DISABLE (R369). -/
def execPortCtrlDisable (fn port : BitVec 6) (s : State) : Host.Outcome State Fault Refusal :=
  .next (s.portBit fn.toNat port.toNat 1)

/-- PORT_CTRL_REKEY (R368, R388). -/
def execPortCtrlRekey (fn port : BitVec 6) (s : State) : Host.Outcome State Fault Refusal :=
  .next (s.portBit fn.toNat port.toNat 4)

/-- PORT_CTRL_RETRAIN (R388): the port enters FAILED and is brought up again, unless it is disabled or no slice holds it. -/
def execPortCtrlRetrain (fn port : BitVec 6) (s : State) : Host.Outcome State Fault Refusal :=
  .next (s.portBit fn.toNat port.toNat 2)

/-- REGISTER_WRITE (R479, R480). -/
def execRegisterWrite (fn : BitVec 6) (off : BitVec 26) (data : Bytes) (s : State) : Host.Outcome State Fault Refusal :=
  if off.toNat % 4 ≠ 0 ∨ data.length % 4 ≠ 0 then .next (s.accErr fn.toNat off.toNat)
  else .next (s.writeRegs fn.toNat off.toNat ((List.range (data.length / 4)).map (wordOf data)))

end Sys2Proof.Machine
end

