-- ==== Sys2Proof/Machine/Copy.lean ====
section
/-! DEFINITION. COPY (R469) and accesses through BAR4 (R455). -/

namespace Sys2Proof.Machine

/-- Some leaf of a range is protected. -/
def State.anyProt (s : State) (sl va n : Nat) : Bool :=
  (unitsOf va n).any fun a => match s.xlate sl a with
    | some x => x.prot
    | none => false

/-- A function may not reach protected memory of a slice: it is not the slice's VF, or the slice is confidential and the VF's
TDI is not in RUN (R455, R469). -/
def State.protClosed (s : State) (fn sl : Nat) : Bool :=
  fn != sl + 2 || (s.confidential sl && s.tdi fn != .run)

/-- Bytes of the longest prefix of a range that a test passes. -/
def prefixLen (ok : Nat → Bool) : Nat → Nat
  | 0 => 0
  | n + 1 => if prefixLen ok n = n ∧ ok n then n + 1 else prefixLen ok n

/-- The effect of a COPY to the device: what host memory gives is written. -/
def State.copyIn (s : State) (sl host va n : Nat) : Reply :=
  let k := prefixLen (fun i => s.hostOk (host + i) 1) n
  let t := s.engineWrite sl va (memRead s.host.mem host k) false
  .done t (if k = n then eOk else eHostRead) [(k, 32)]

/-- The effect of a COPY to the host: it ends at the first poisoned byte or where host memory cannot be written. -/
def State.copyOut (s : State) (sl host va n : Nat) : Reply :=
  let good := prefixLen (fun i => !s.vbad sl (va + i) 1) n
  let k := prefixLen (fun i => s.hostOk (host + i) 1) good
  let t := s.hostWrite host (s.vread sl va k)
  .done t (if k < good then eHostWrite else if k < n then eMemPoison else eOk) [(k, 32)]

/-- What a COPY or BAR4 access waits for before it can start: a fetch (R301), a page of a streaming thaw (R114), a guarded page
(R118). -/
def State.accessWait (s : State) (sl va n : Nat) (write : Bool) : Option State :=
  match s.access sl write va n with
  | .wait (some a) => match s.objAt sl a with
    | some o => some (s.fetchFault o a)
    | none => some s
  | .wait none => some s
  | .ok => if write then (s.guarded sl va n).map s.wantCopy else none
  | _ => none

/-- COPY (R469): checks, then the bytes in ascending order. A part whose home is lost ends it with E_POOL_LOST (R305), memory to which RT has no
path with E_PATH_DOWN (R17). A copy
that has to wait stays in its SQ and is served when the row comes again. -/
def execCopy (h : Hdr) (slice : BitVec 6) (dir : U1) (len : U32) (hostAddr va : U64) (s : State) :
    Host.Outcome State Fault Refusal :=
  let sl := cmdSlice h.fn.toNat slice.toNat
  let n := len.toNat
  let a := va.toNat
  let toDev := dir == 0
  let priv := s.anyProt sl a n && s.protClosed h.fn.toNat sl
  match (if s.defined sl ∧ ¬ priv then s.accessWait sl a n toDev else none) with
  | some t => .next t
  | none => hostCmd { fns := .any, widths := [6, 1, 32, 64, 64] } h (fun s _ =>
      if n = 0 then .reject eReservedSet
      else if ¬ s.defined sl then .reject eNoImage
      else match s.access sl toDev a n with
        | .fault _ code => .reject code
        | .lost _ => if priv then .reject ePriv else .done s ePoolLost [(0, 32)]
        | _ => if priv then .reject ePriv
          else if s.cutFrom 19 sl a n then .done s ePathDown [(0, 32)]
          else if toDev then s.copyIn sl hostAddr.toNat a n else s.copyOut sl hostAddr.toNat a n) s

/-- A BAR4 access refused as an unsupported request: counted (R455 rows 1..3). -/
def State.bar4Refuse (s : State) (fn : Nat) (write : Bool) : State :=
  let s1 := s.bump .cmdRejects fn 1
  if write then s1 else s1.emit (.unsupported fn)

/-- A BAR4 access that reaches a translated range (rows 2..7 of R455). -/
def State.bar4At (s : State) (fn sl va n : Nat) (write inIde : Bool) (data : Bytes) : State :=
  let leaf := (unitsOf va n).map (s.xlate sl)
  let xs := leaf.filterMap id
  if leaf.any (·.isNone) then s.bar4Refuse fn write
  else if xs.any (·.prot) ∧ (s.protClosed fn sl ∨ (s.confidential sl ∧ ¬ inIde)) then s.bar4Refuse fn write
  else if write ∧ xs.any (·.ro) then s.bump .cmdRejects fn 1
  else match s.accessWait sl va n write with
    | some t => t
    | none =>
      if write then s.writeFrom 19 sl va data false
      else
        let r := s.readFrom 19 sl va n
        if r.2 then (s.emit (.poisoned fn)).emit (.aer 0) else s.emit (.readData fn r.1)

/-- BAR4_ACCESS (R455): offset `off` of the function's window; a device that is not powered, is in Hibernate (R499) or holds no
such slice refuses it. -/
def execBar4Access (fn : BitVec 6) (write inIde : Bool) (off : BitVec 40) (len : BitVec 12) (data : Bytes) (s : State) :
    Host.Outcome State Fault Refusal :=
  let f := fn.toNat
  let n := if write then data.length else len.toNat
  let sl := (fnSlice f).getD (s.fld .bar4Slice f 0 0 6)
  if 2 ^ s.bar4Size f ≤ off.toNat then .next s
  else if s.hibernating ∨ s.pkg.shutdown ∨ ¬ s.pkg.conversion ∨ ¬ s.defined sl then .next (s.bar4Refuse f write)
  else .next (s.bar4At f sl (s.reg64 .bar4BaseLo .bar4BaseHi f + off.toNat) n write inIde data)

end Sys2Proof.Machine
end

