-- ==== Sys2Proof/Machine/Spdm.lean ====
section
/-! DEFINITION. The SPDM responder (R429, R431), TDISP (R471) and the PLDM endpoint (R517). Message codes are those of the
standards that R429 and R517 name (log entry 7). -/

namespace Sys2Proof.Machine

/-! ## SPDM (R429) -/

/-- An SPDM response. -/
def State.spdmSend (s : State) (code : Nat) (body : Bytes) : State := s.emit (.spdm code body)

/-- An SPDM ERROR with its code: 1 invalid request, 2 invalid session, 4 unexpected request, 0x30 decryption failed. -/
def State.spdmError (s : State) (code : Nat) : State := s.spdmSend 0x7F (bytesOf 1 code)

/-- The connection of the responder. -/
def State.spdm (s : State) : Spdm := s.host.spdm

/-- The connection written. -/
def State.setSpdm (s : State) (x : Spdm) : State := { s with host := { s.host with spdm := x } }

/-- A request and its answer enter the transcript. -/
def State.heard (s : State) (b : Bytes) : State := s.setSpdm { s.spdm with transcript := s.spdm.transcript ++ b }

/-- A request served: it waits while MODULE is SELFTEST (R411), ends with E_CRYPTO_ERROR while it is ERROR (R412), and is
answered with an ERROR where its secured session does not run or the connection is not far enough. -/
def spdmRequest (secured : Bool) (ready : Spdm → Bool) (s : State) (f : State → State) : Host.Outcome State Fault Refusal :=
  if s.module = 0 then .next s
  else if s.module = 2 then .next (s.spdmSend 0x7F (bytesOf 2 eCryptoError))
  else if secured ∧ s.spdm.secured.isNone then .next (s.spdmError 2)
  else if ¬ ready s.spdm then .next (s.spdmError 4)
  else .next (f s)

/-- A signature of the device attestation key over the transcript and more bytes. -/
def State.spdmSign (s : State) (b : Bytes) : Bytes := Config.mldsaSign attestSeed (s.spdm.transcript ++ b) s.free

/-- GET_VERSION (R429): version 1.3; it begins a connection. R412 does not stop it. -/
def execGetVersion (s : State) : Host.Outcome State Fault Refusal :=
  if s.module = 0 then .next s
  else
    let s1 := s.setSpdm { s.spdm with
      version := true, capabilities := false, algorithms := false, transcript := bytesOf 1 0x84 ++ bytesOf 2 0x1300 }
    .next (s1.spdmSend 0x04 (bytesOf 2 0x1300))

/-- GET_CAPABILITIES (R429): certificates, challenge, signed fresh measurements, chunks, key update and heartbeat. -/
def execGetCapabilities (secured : Bool) (s : State) : Host.Outcome State Fault Refusal :=
  spdmRequest secured (·.version) s fun s =>
    ((s.setSpdm { s.spdm with capabilities := true }).heard (bytesOf 1 0xE1)).spdmSend 0x61 []

/-- NEGOTIATE_ALGORITHMS (R429): SHA3-256 and ML-DSA-44, or no algorithm where one of them is not offered. -/
def execNegotiateAlgorithms (secured : Bool) (sha3 mldsa : Bool) (s : State) : Host.Outcome State Fault Refusal :=
  spdmRequest secured (·.capabilities) s fun s =>
    ((s.setSpdm { s.spdm with algorithms := sha3 && mldsa }).heard (bytesOf 1 0xE3)).spdmSend 0x63
      (bytesOf 1 (boolBit sha3) ++ bytesOf 1 (boolBit mldsa))

/-- GET_DIGESTS (R429): the digest of the certificate chain of slot 0. -/
def execGetDigests (secured : Bool) (s : State) : Host.Outcome State Fault Refusal :=
  spdmRequest secured (·.algorithms) s fun s =>
    (s.heard (bytesOf 1 0x81)).spdmSend 0x01 (hashBytes (Config.sha3 s.flash.certs))

/-- GET_CERTIFICATE (R415, R429): of slot 0; a chain that does not have CERT_HASH puts MODULE into ERROR. -/
def execGetCertificate (secured : Bool) (slot : U8) (off len : U16) (s : State) : Host.Outcome State Fault Refusal :=
  spdmRequest secured (·.algorithms) s fun s =>
    if slot ≠ 0 then s.spdmError 1
    else if hashBytes (Config.sha3 s.flash.certs) ≠ certHash then (s.moduleError 19 0).spdmError 1
    else (s.heard (bytesOf 1 0x82)).spdmSend 0x02 (sub s.flash.certs off.toNat len.toNat)

/-- CHALLENGE (R429): the nonce, the chain's digest and the signature. -/
def execChallenge (secured : Bool) (slot : U8) (nonce : U256) (s : State) : Host.Outcome State Fault Refusal :=
  spdmRequest secured (·.algorithms) s fun s =>
    if slot ≠ 0 then s.spdmError 1
    else
      let b := hashBytes (Config.sha3 s.flash.certs) ++ hashBytes nonce
      (s.drew.heard b).spdmSend 0x03 (b ++ s.spdmSign b)

/-- The value of a measurement register (R427). -/
def State.measValue (s : State) (i : Nat) : U256 :=
  if i = 1 then s.romMeas
  else if 2 ≤ i ∧ i ≤ 21 then s.dieMeas (i - 2)
  else if i = 153 then s.debugMeas
  else if i = 154 then s.keygenMeas
  else s.meas i

/-- GET_MEASUREMENTS (R427, R429, R431): the number of indices for 0, one register, all of them for 0xFF; index 0xF0 is among
what 0xFF asks for and is a new sealed report. -/
def execGetMeasurements (secured : Bool) (index : U8) (nonce : U256) (s : State) : Host.Outcome State Fault Refusal :=
  spdmRequest secured (·.algorithms) s fun s =>
    let i := index.toNat
    if i = 0 then (s.heard (bytesOf 1 0xE0)).spdmSend 0x60 (bytesOf 1 155)
    else if i = 0xF0 ∨ i = 0xFF then
      let s1 := s.makeReport nonce false
      let regs := if i = 0xFF then (List.range 154).flatMap fun k => hashBytes (s.measValue (k + 1)) else []
      let b := regs ++ s1.sec.report
      (s1.drew.heard b).spdmSend 0x60 (b ++ s1.spdmSign b)
    else if 154 < i then s.spdmError 1
    else
      let b := hashBytes (s.measValue i) ++ hashBytes nonce
      (s.drew.heard b).spdmSend 0x60 (b ++ s.spdmSign b)

/-- END_SESSION (R429). -/
def execEndSession (s : State) : Host.Outcome State Fault Refusal :=
  spdmRequest true (fun _ => true) s fun s => (s.setSpdm { s.spdm with secured := none, keyUpdates := 0 }).spdmSend 0x6C []

/-- HEARTBEAT (R429). -/
def execHeartbeat (s : State) : Host.Outcome State Fault Refusal :=
  spdmRequest true (fun _ => true) s fun s => s.spdmSend 0x68 []

/-- KEY_UPDATE (R429). -/
def execKeyUpdate (s : State) : Host.Outcome State Fault Refusal :=
  spdmRequest true (fun _ => true) s fun s =>
    (s.setSpdm { s.spdm with keyUpdates := s.spdm.keyUpdates + 1 }).spdmSend 0x69 []

/-- KEM_START (R429): the secret of the ciphertext is the session's handshake secret; the answer is the signed hash of the
transcript. -/
def execKemStart (ct : Bytes) (s : State) : Host.Outcome State Fault Refusal :=
  spdmRequest false (fun x => x.algorithms && x.secured.isNone) s fun s =>
    match Config.kemDecap deviceKemSeed ct with
    | none => s.spdmError 0x30
    | some ss =>
      let s1 := s.heard ct
      let th := hashBytes (Config.sha3 s1.spdm.transcript)
      (s1.drew.setSpdm { s1.spdm with secured := some ss, keyUpdates := 0 }).spdmSend 0xFE (th ++ Config.mldsaSign attestSeed th s1.free)

/-! ## TDISP (R471) -/

/-- A TDISP message: only in a secured session (R470); of a VF. -/
def tdispRequest (fn : Nat) (s : State) (f : State → State) : Host.Outcome State Fault Refusal :=
  if s.module = 0 then .next s
  else if s.module = 2 then .next (s.spdmSend 0x7F (bytesOf 2 eCryptoError))
  else if s.spdm.secured.isNone then .next (s.spdmError 4)
  else if fn < 2 then .next (s.emit (.tdisp 0x7F (bytesOf 4 0x101)))
  else .next (f s)

/-- The TDISP error INVALID_INTERFACE_STATE. -/
def State.tdispState (s : State) : State := s.emit (.tdisp 0x7F (bytesOf 4 4))

/-- The interface report (R471): the slice's policy hash, consent hash and digest. -/
def State.interfaceReport (s : State) (sl : Nat) : Bytes :=
  hashBytes (s.meas (25 + sl)) ++ hashBytes (s.meas (89 + sl)) ++ hashBytes (s.sliceDigest sl)

/-- LOCK_INTERFACE (R471): the slice is defined and an IDE stream is bound to the VF. -/
def execLockInterface (fn : BitVec 6) (s : State) : Host.Outcome State Fault Refusal :=
  let f := fn.toNat
  tdispRequest f s fun s =>
    if s.tdi f = .unlocked ∧ s.defined (f - 2) ∧ s.ideBound f then
      (s.setTdi f .locked).emit (.tdisp 0x03 (s.interfaceReport (f - 2)))
    else s.tdispState

/-- START_INTERFACE_REQUEST (R471): from CONFIG_LOCKED to RUN. -/
def execStartInterfaceRequest (fn : BitVec 6) (s : State) : Host.Outcome State Fault Refusal :=
  let f := fn.toNat
  tdispRequest f s fun s =>
    if s.tdi f = .locked then (s.setTdi f .run).emit (.tdisp 0x06 []) else s.tdispState

/-- STOP_INTERFACE (R471, R318): from LOCKED, RUN or ERROR a tenant change of the slice. -/
def execStopInterface (fn : BitVec 6) (s : State) : Host.Outcome State Fault Refusal :=
  let f := fn.toNat
  tdispRequest f s fun s =>
    let s1 := if s.tdi f = .unlocked then s else (s.sliceReset (f - 2) true).setTdi f .unlocked
    s1.emit (.tdisp 0x07 [])

/-! ## PLDM (R517) -/

/-- A PLDM effecter or service answers. -/
def State.pldmDone (s : State) : State := s.emit (.pldm [0])

/-- PKG_RESET by the PLDM effecter (R494). -/
def execPldmPkgReset (s : State) : Host.Outcome State Fault Refusal := .next (s.pldmDone.packageReset 2)

/-- Thermal shutdown by the PLDM effecter (R516). -/
def execPldmThermalShutdown (s : State) : Host.Outcome State Fault Refusal := .next (s.pldmDone.thermalShutdown 0xFF)

/-- A port disabled by the PLDM effecter (R369). -/
def execPldmPortDisable (port : BitVec 6) (s : State) : Host.Outcome State Fault Refusal :=
  if badPort port then .next (s.emit (.pldm [1])) else .next (s.portOff port.toNat).pldmDone

/-- The ARM setting of the ZEROIZE effecter (R447). -/
def execPldmZeroizeArm (s : State) : Host.Outcome State Fault Refusal :=
  .next ({ s with sec := { s.sec with armedPldm := some s.pkg.pkc } }).pldmDone

/-- The FIRE setting of the ZEROIZE effecter: ignored without an ARM within 2^20 counts. -/
def execPldmZeroizeFire (s : State) : Host.Outcome State Fault Refusal :=
  .next (if s.fires s.sec.armedPldm then s.pldmDone.zeroize else s.pldmDone)

/-- A PLDM read of log entries (R509, R517): the entries read hold ALERT_N no longer. -/
def execPldmErrlogRead (first count : U32) (s : State) : Host.Outcome State Fault Refusal :=
  let l := s.logFrom first.toNat (min count.toNat 1024)
  let read := l.map (·.seq)
  let s1 : State := { s with log := { s.log with alert := s.log.alert.filter fun k => !read.contains k } }
  .next (s1.emit (.pldm (0 :: l.flatMap LogEntry.bytes)))

end Sys2Proof.Machine
end

