-- ==== Sys2Proof/Machine/Dispatch.lean ====
section
/-! DEFINITION. One arm per command of the table, each a direct call of its meaning. -/

namespace Sys2Proof.Machine

/-- The effect of a command on everything but the queue. -/
def exec (i : Instr) (s : State) : Host.Outcome State Fault Refusal :=
  match i with
  | .nop h => Sys2Proof.Machine.execNop h s
  | .sqCreate h qid cqid log2 base => Sys2Proof.Machine.execSqCreate h qid cqid log2 base s
  | .sqDelete h qid => Sys2Proof.Machine.execSqDelete h qid s
  | .cqCreate h qid log2 vector ien base => Sys2Proof.Machine.execCqCreate h qid log2 vector ien base s
  | .cqDelete h qid => Sys2Proof.Machine.execCqDelete h qid s
  | .eqCreate h slice device log2 base vector => Sys2Proof.Machine.execEqCreate h slice device log2 base vector s
  | .eqDelete h slice device => Sys2Proof.Machine.execEqDelete h slice device s
  | .copy h slice dir len hostAddr va => Sys2Proof.Machine.execCopy h slice dir len hostAddr va s
  | .request h r => Sys2Proof.Machine.execRequest h r s
  | .openSession h o => Sys2Proof.Machine.execOpen h o s
  | .closeSession h handle => Sys2Proof.Machine.execClose h handle s
  | .park h handle tier deep compress hostAddr hostLen => Sys2Proof.Machine.execPark h handle tier deep compress hostAddr hostLen s
  | .thaw h handle stream => Sys2Proof.Machine.execThaw h handle stream s
  | .migrate h handle member targetDev targetSlice tier => Sys2Proof.Machine.execMigrate h handle member targetDev targetSlice tier s
  | .fork h handle count idsAddr outAddr => Sys2Proof.Machine.execFork h handle count idsAddr outAddr s
  | .setSession h o => Sys2Proof.Machine.execSetSession h o s
  | .sessionQuery h handle outAddr => Sys2Proof.Machine.execSessionQuery h handle outAddr s
  | .cancel h handle requestId => Sys2Proof.Machine.execCancel h handle requestId s
  | .ringExtend h handle targetDev targetSlice => Sys2Proof.Machine.execRingExtend h handle targetDev targetSlice s
  | .tringCreate h slice ring log2 base tailAddr vector ien => Sys2Proof.Machine.execTringCreate h slice ring log2 base tailAddr vector ien s
  | .tringDestroy h slice ring => Sys2Proof.Machine.execTringDestroy h slice ring s
  | .paletteLoad h slice program tokens srcAddr => Sys2Proof.Machine.execPaletteLoad h slice program tokens srcAddr s
  | .paletteUnload h slice index => Sys2Proof.Machine.execPaletteUnload h slice index s
  | .jobStart h slice program firstStep => Sys2Proof.Machine.execJobStart h slice program firstStep s
  | .jobEnd h slice => Sys2Proof.Machine.execJobEnd h slice s
  | .memAlloc h slice type tier protect die fetchLog2 stripe size va => Sys2Proof.Machine.execMemAlloc h slice type tier protect die fetchLog2 stripe size va s
  | .memFree h slice va => Sys2Proof.Machine.execMemFree h slice va s
  | .apertureMap h slice va member size => Sys2Proof.Machine.execApertureMap h slice va member size s
  | .apertureUnmap h slice va => Sys2Proof.Machine.execApertureUnmap h slice va s
  | .poolReclaim h locator => Sys2Proof.Machine.execPoolReclaim h locator s
  | .indexCreate h o => Sys2Proof.Machine.execIndexCreate h o s
  | .indexDestroy h slice index => Sys2Proof.Machine.execIndexDestroy h slice index s
  | .insertVec h slice index id srcAddr attrAddr => Sys2Proof.Machine.execInsertVec h slice index id srcAddr attrAddr s
  | .deleteVec h slice index id => Sys2Proof.Machine.execDeleteVec h slice index id s
  | .indexCompact h slice index => Sys2Proof.Machine.execIndexCompact h slice index s
  | .search h o => Sys2Proof.Machine.execSearch h o s
  | .searchNext h handle cursor resultAddr => Sys2Proof.Machine.execSearchNext h handle cursor resultAddr s
  | .cursorDrop h handle cursor => Sys2Proof.Machine.execCursorDrop h handle cursor s
  | .tableCreate h o => Sys2Proof.Machine.execTableCreate h o s
  | .tableDestroy h slice table => Sys2Proof.Machine.execTableDestroy h slice table s
  | .gather h o => Sys2Proof.Machine.execGather h o s
  | .scatterAdd h o => Sys2Proof.Machine.execScatterAdd h o s
  | .scatterSet h o => Sys2Proof.Machine.execScatterSet h o s
  | .tableStage h slice table => Sys2Proof.Machine.execTableStage h slice table s
  | .tableSwitch h slice table => Sys2Proof.Machine.execTableSwitch h slice table s
  | .hotPost h slice table listAddr count => Sys2Proof.Machine.execHotPost h slice table listAddr count s
  | .compChange h c => Sys2Proof.Machine.execCompChange h c s
  | .portEnable h port => Sys2Proof.Machine.execPortEnable h port s
  | .portDisable h port => Sys2Proof.Machine.execPortDisable h port s
  | .portRekey h port => Sys2Proof.Machine.execPortRekey h port s
  | .ckptNow h slice => Sys2Proof.Machine.execCkptNow h slice s
  | .ckptRestore h slice locator ckpt => Sys2Proof.Machine.execCkptRestore h slice locator ckpt s
  | .ckptRelease h slice => Sys2Proof.Machine.execCkptRelease h slice s
  | .imageLoad h srcAddr srcLen mode => Sys2Proof.Machine.execImageLoad h srcAddr srcLen mode s
  | .enrolAuthor h tokenAddr => Sys2Proof.Machine.execEnrolAuthor h tokenAddr s
  | .revokeAuthor h slot => Sys2Proof.Machine.execRevokeAuthor h slot s
  | .keygenAdvance h => Sys2Proof.Machine.execKeygenAdvance h s
  | .genRetire h gen => Sys2Proof.Machine.execGenRetire h gen s
  | .zeroize h => Sys2Proof.Machine.execZeroize h s
  | .keyRelease h blobAddr => Sys2Proof.Machine.execKeyRelease h blobAddr s
  | .boundOpen h slice slot pkgAddr => Sys2Proof.Machine.execBoundOpen h slice slot pkgAddr s
  | .weightDecrypt h slice slot src first count dstVa => Sys2Proof.Machine.execWeightDecrypt h slice slot src first count dstVa s
  | .consentInstall h slice recAddr => Sys2Proof.Machine.execConsentInstall h slice recAddr s
  | .consentRemove h slice => Sys2Proof.Machine.execConsentRemove h slice s
  | .devReset h scope die slice => Sys2Proof.Machine.execDevReset h scope die slice s
  | .pkgReset h => Sys2Proof.Machine.execPkgReset h s
  | .powerState h target force => Sys2Proof.Machine.execPowerState h target force s
  | .fwLoad h srcAddr srcLen target mode => Sys2Proof.Machine.execFwLoad h srcAddr srcLen target mode s
  | .errlogRead h first count dstAddr => Sys2Proof.Machine.execErrlogRead h first count dstAddr s
  | .thermShutdown h => Sys2Proof.Machine.execThermShutdown h s
  | .rstCtrlPkgReset fn value => Sys2Proof.Machine.execRstCtrlPkgReset fn value s
  | .thermCtrlShutdown fn value => Sys2Proof.Machine.execThermCtrlShutdown fn value s
  | .zeroizeArm fn => Sys2Proof.Machine.execZeroizeArm fn s
  | .zeroizeFire fn => Sys2Proof.Machine.execZeroizeFire fn s
  | .portCtrlDisable fn port => Sys2Proof.Machine.execPortCtrlDisable fn port s
  | .portCtrlRekey fn port => Sys2Proof.Machine.execPortCtrlRekey fn port s
  | .portCtrlRetrain fn port => Sys2Proof.Machine.execPortCtrlRetrain fn port s
  | .errlogCtrlConsume fn value => Sys2Proof.Machine.execErrlogCtrlConsume fn value s
  | .pkcLoRead fn => Sys2Proof.Machine.execPkcLoRead fn s
  | .loReadLatch fn off => Sys2Proof.Machine.execLoReadLatch fn off s
  | .hiWriteCommit fn off value => Sys2Proof.Machine.execHiWriteCommit fn off value s
  | .regCfgWrite fn slice reg value => Sys2Proof.Machine.execRegCfgWrite fn slice reg value s
  | .mtrSelWrite fn slice entry value => Sys2Proof.Machine.execMtrSelWrite fn slice entry value s
  | .evcSelWrite fn slice counter value => Sys2Proof.Machine.execEvcSelWrite fn slice counter value s
  | .aqCfgWrite fn target value => Sys2Proof.Machine.execAqCfgWrite fn target value s
  | .registerWrite fn off data => Sys2Proof.Machine.execRegisterWrite fn off data s
  | .sqTailDoorbell fn q value => Sys2Proof.Machine.execSqTailDoorbell fn q value s
  | .cqHeadDoorbell fn q value => Sys2Proof.Machine.execCqHeadDoorbell fn q value s
  | .eqHeadDoorbell fn q value => Sys2Proof.Machine.execEqHeadDoorbell fn q value s
  | .tringCreditDoorbell fn slice ring value => Sys2Proof.Machine.execTringCreditDoorbell fn slice ring value s
  | .bar4Access fn write inIde off len data => Sys2Proof.Machine.execBar4Access fn write inIde off len data s
  | .msixUnmask fn vector => Sys2Proof.Machine.execMsixUnmask fn vector s
  | .functionLevelReset fn => Sys2Proof.Machine.execFunctionLevelReset fn s
  | .poisonedTlpReceived fn addr => Sys2Proof.Machine.execPoisonedTlpReceived fn addr s
  | .ideFailure fn => Sys2Proof.Machine.execIdeFailure fn s
  | .getVersion => Sys2Proof.Machine.execGetVersion s
  | .getCapabilities secured => Sys2Proof.Machine.execGetCapabilities secured s
  | .negotiateAlgorithms secured sha3 mldsa => Sys2Proof.Machine.execNegotiateAlgorithms secured sha3 mldsa s
  | .getDigests secured => Sys2Proof.Machine.execGetDigests secured s
  | .getCertificate secured slot off len => Sys2Proof.Machine.execGetCertificate secured slot off len s
  | .challenge secured slot nonce => Sys2Proof.Machine.execChallenge secured slot nonce s
  | .getMeasurements secured index nonce => Sys2Proof.Machine.execGetMeasurements secured index nonce s
  | .endSession => Sys2Proof.Machine.execEndSession s
  | .heartbeat => Sys2Proof.Machine.execHeartbeat s
  | .keyUpdate => Sys2Proof.Machine.execKeyUpdate s
  | .kemStart ct => Sys2Proof.Machine.execKemStart ct s
  | .ideKm message stream fn => Sys2Proof.Machine.execIdeKm message stream fn s
  | .lockInterface fn => Sys2Proof.Machine.execLockInterface fn s
  | .startInterfaceRequest fn => Sys2Proof.Machine.execStartInterfaceRequest fn s
  | .stopInterface fn => Sys2Proof.Machine.execStopInterface fn s
  | .pldmPkgReset => Sys2Proof.Machine.execPldmPkgReset s
  | .pldmThermalShutdown => Sys2Proof.Machine.execPldmThermalShutdown s
  | .pldmPortDisable port => Sys2Proof.Machine.execPldmPortDisable port s
  | .pldmZeroizeArm => Sys2Proof.Machine.execPldmZeroizeArm s
  | .pldmZeroizeFire => Sys2Proof.Machine.execPldmZeroizeFire s
  | .pldmErrlogRead first count => Sys2Proof.Machine.execPldmErrlogRead first count s
  | .vaux12Applied => Sys2Proof.Machine.execVaux12Applied s
  | .vin48Applied => Sys2Proof.Machine.execVin48Applied s
  | .pwrgoodAssert straps => Sys2Proof.Machine.execPwrgoodAssert straps s
  | .pwrgoodDeassert => Sys2Proof.Machine.execPwrgoodDeassert s
  | .perstNAssert => Sys2Proof.Machine.execPerstNAssert s
  | .perstNDeassert width speed flit l0p => Sys2Proof.Machine.execPerstNDeassert width speed flit l0p s
  | .vin48OutOfRange => Sys2Proof.Machine.execVin48OutOfRange s
  | .vaux12Removed => Sys2Proof.Machine.execVaux12Removed s
  | .vio18Low => Sys2Proof.Machine.execVio18Low s
  | .refclkStop => Sys2Proof.Machine.execRefclkStop s
  | .refclkRestart => Sys2Proof.Machine.execRefclkRestart s
  | .pllLockLoss pll => Sys2Proof.Machine.execPllLockLoss pll s
  | .dieRelease die => Sys2Proof.Machine.execDieRelease die s
  | .thermalTrip die => Sys2Proof.Machine.execThermalTrip die s
  | .selftestDone die => Sys2Proof.Machine.execSelftestDone die s
  | .selftestFailure die test => Sys2Proof.Machine.execSelftestFailure die test s
  | .dieFirmwareMeasured die stage => Sys2Proof.Machine.execDieFirmwareMeasured die stage s
  | .bootImageLoad => Sys2Proof.Machine.execBootImageLoad s
  | .trialBootTimeout => Sys2Proof.Machine.execTrialBootTimeout s
  | .watchdogExpiry die => Sys2Proof.Machine.execWatchdogExpiry die s
  | .imageCommit => Sys2Proof.Machine.execImageCommit s
  | .stepStart slice => Sys2Proof.Machine.execStepStart slice s
  | .instancePlace slice => Sys2Proof.Machine.execInstancePlace slice s
  | .instanceEnd core => Sys2Proof.Machine.execInstanceEnd core s
  | .engineRecord core => Sys2Proof.Machine.execEngineRecord core s
  | .waitRecord core => Sys2Proof.Machine.execWaitRecord core s
  | .signalRecord core => Sys2Proof.Machine.execSignalRecord core s
  | .loopRecord core => Sys2Proof.Machine.execLoopRecord core s
  | .yieldRecord core => Sys2Proof.Machine.execYieldRecord core s
  | .endRecord core => Sys2Proof.Machine.execEndRecord core s
  | .engineCommandDone core engine => Sys2Proof.Machine.execEngineCommandDone core engine s
  | .mm core me o => Sys2Proof.Machine.execMm core me o s
  | .accOut core me bank dst bf16 => Sys2Proof.Machine.execAccOut core me bank dst bf16 s
  | .attn core o => Sys2Proof.Machine.execAttn core o s
  | .merge core list count rows heads out => Sys2Proof.Machine.execMerge core list count rows heads out s
  | .func core o => Sys2Proof.Machine.execFunc core o s
  | .append core index layer src first rows => Sys2Proof.Machine.execAppend core index layer src first rows s
  | .sample core logits index vocab => Sys2Proof.Machine.execSample core logits index vocab s
  | .verify core logits index drafts => Sys2Proof.Machine.execVerify core logits index drafts s
  | .mvCopy core src dst len broadcast => Sys2Proof.Machine.execMvCopy core src dst len broadcast s
  | .mvGather core list rowSize count dst => Sys2Proof.Machine.execMvGather core list rowSize count dst s
  | .priorityCopyDone pa => Sys2Proof.Machine.execPriorityCopyDone pa s
  | .stepEnd slice => Sys2Proof.Machine.execStepEnd slice s
  | .stagingDone slice pcg => Sys2Proof.Machine.execStagingDone slice pcg s
  | .ckptCommit slice => Sys2Proof.Machine.execCkptCommit slice s
  | .restoreDone slice => Sys2Proof.Machine.execRestoreDone slice s
  | .canvasWorkItem index item => Sys2Proof.Machine.execCanvasWorkItem index item s
  | .parkEnd index => Sys2Proof.Machine.execParkEnd index s
  | .idleParkCheck die => Sys2Proof.Machine.execIdleParkCheck die s
  | .runaheadThawStart index => Sys2Proof.Machine.execRunaheadThawStart index s
  | .thawEnd index => Sys2Proof.Machine.execThawEnd index s
  | .streamPageArrival index page => Sys2Proof.Machine.execStreamPageArrival index page s
  | .streamFault slice va => Sys2Proof.Machine.execStreamFault slice va s
  | .closeEnd index => Sys2Proof.Machine.execCloseEnd index s
  | .paletteCompileDone index => Sys2Proof.Machine.execPaletteCompileDone index s
  | .translationMiss core va write => Sys2Proof.Machine.execTranslationMiss core va write s
  | .fetchDone slice va => Sys2Proof.Machine.execFetchDone slice va s
  | .gessoFillDone pa => Sys2Proof.Machine.execGessoFillDone pa s
  | .patrolRead pa errs => Sys2Proof.Machine.execPatrolRead pa errs s
  | .coreStoreRowReplace core bank row => Sys2Proof.Machine.execCoreStoreRowReplace core bank row s
  | .rekeySweepRegion region => Sys2Proof.Machine.execRekeySweepRegion region s
  | .regulatorAdmit slice reg bytes lc idle => Sys2Proof.Machine.execRegulatorAdmit slice reg bytes lc idle s
  | .rowMigration slice table row => Sys2Proof.Machine.execRowMigration slice table row s
  | .tableSwitchApply slice table => Sys2Proof.Machine.execTableSwitchApply slice table s
  | .compactRelease slice index => Sys2Proof.Machine.execCompactRelease slice index s
  | .bridgeDown bridge => Sys2Proof.Machine.execBridgeDown bridge s
  | .laneFailure port good => Sys2Proof.Machine.execLaneFailure port good s
  | .flitReceive port f => Sys2Proof.Machine.execFlitReceive port f s
  | .portTrainingDone port good => Sys2Proof.Machine.execPortTrainingDone port good s
  | .hello port o => Sys2Proof.Machine.execHello port o s
  | .keyConfirm port identity sigOk => Sys2Proof.Machine.execKeyConfirm port identity sigOk s
  | .bringupRetry port => Sys2Proof.Machine.execBringupRetry port s
  | .frameCountRekey port => Sys2Proof.Machine.execFrameCountRekey port s
  | .rekeyDone port => Sys2Proof.Machine.execRekeyDone port s
  | .readTxn t => Sys2Proof.Machine.execReadTxn t s
  | .writeTxn t data => Sys2Proof.Machine.execWriteTxn t data s
  | .addF32 t data => Sys2Proof.Machine.execAddF32 t data s
  | .addBf16 t data => Sys2Proof.Machine.execAddBf16 t data s
  | .setRow t data => Sys2Proof.Machine.execSetRow t data s
  | .fadd64 t data => Sys2Proof.Machine.execFadd64 t data s
  | .cas64 t data => Sys2Proof.Machine.execCas64 t data s
  | .query t data => Sys2Proof.Machine.execQuery t data s
  | .result t data => Sys2Proof.Machine.execResult t data s
  | .canvasData t sid data => Sys2Proof.Machine.execCanvasData t sid data s
  | .desc t data locator len => Sys2Proof.Machine.execDesc t data locator len s
  | .mirrorRows t sid layer first data => Sys2Proof.Machine.execMirrorRows t sid layer first data s
  | .mirrorCommit t sid committed => Sys2Proof.Machine.execMirrorCommit t sid committed s
  | .mirrorState t sid sampler scratch cursors => Sys2Proof.Machine.execMirrorState t sid sampler scratch cursors s
  | .propose t c => Sys2Proof.Machine.execPropose t c s
  | .prepare t epoch c => Sys2Proof.Machine.execPrepare t epoch c s
  | .vote t epoch yes => Sys2Proof.Machine.execVote t epoch yes s
  | .commitMap t epoch c => Sys2Proof.Machine.execCommitMap t epoch c s
  | .mapUpdate t m => Sys2Proof.Machine.execMapUpdate t m s
  | .mapQuery t => Sys2Proof.Machine.execMapQuery t s
  | .mapState t m vote => Sys2Proof.Machine.execMapState t m vote s
  | .sealKey t blob => Sys2Proof.Machine.execSealKey t blob s
  | .offer t o => Sys2Proof.Machine.execOffer t o s
  | .accept t sid epoch handle => Sys2Proof.Machine.execAccept t sid epoch handle s
  | .refuse t sid epoch code => Sys2Proof.Machine.execRefuse t sid epoch code s
  | .ack t sid epoch => Sys2Proof.Machine.execAck t sid epoch s
  | .commitHandoff t sid epoch => Sys2Proof.Machine.execCommitHandoff t sid epoch s
  | .committed t sid epoch handle => Sys2Proof.Machine.execCommitted t sid epoch handle s
  | .released t sid epoch => Sys2Proof.Machine.execReleased t sid epoch s
  | .resolve t sid epoch receiver handle => Sys2Proof.Machine.execResolve t sid epoch receiver handle s
  | .recordQuery t sid => Sys2Proof.Machine.execRecordQuery t sid s
  | .ringCmd t o => Sys2Proof.Machine.execRingCmd t o s
  | .poolAlloc t units => Sys2Proof.Machine.execPoolAlloc t units s
  | .poolFree t base => Sys2Proof.Machine.execPoolFree t base s
  | .poolInfo t => Sys2Proof.Machine.execPoolInfo t s
  | .linkState t ports appliances => Sys2Proof.Machine.execLinkState t ports appliances s
  | .identify t => Sys2Proof.Machine.execIdentify t s
  | .resp t status data => Sys2Proof.Machine.execResp t status data s
  | .drop t => Sys2Proof.Machine.execDrop t s
  | .unsupportedTransaction t type op => Sys2Proof.Machine.execUnsupportedTransaction t type op s
  | .transitForward t dst type op data => Sys2Proof.Machine.execTransitForward t dst type op data s
  | .canvasRepairDone index => Sys2Proof.Machine.execCanvasRepairDone index s
  | .handoffLimitExpiry index => Sys2Proof.Machine.execHandoffLimitExpiry index s
  | .arbiterRetry sid => Sys2Proof.Machine.execArbiterRetry sid s
  | .ringWaitLimitExpiry index layer part => Sys2Proof.Machine.execRingWaitLimitExpiry index layer part s
  | .txnResend dev tag => Sys2Proof.Machine.execTxnResend dev tag s
  | .txnLimitExpiry dev tag => Sys2Proof.Machine.execTxnLimitExpiry dev tag s
  | .epochHoldExpiry src tag => Sys2Proof.Machine.execEpochHoldExpiry src tag s
  | .mapVoteTimeout => Sys2Proof.Machine.execMapVoteTimeout s
  | .linkStateSend => Sys2Proof.Machine.execLinkStateSend s
  | .liveLimitExpiry dev => Sys2Proof.Machine.execLiveLimitExpiry dev s
  | .qosHoldoffExpiry dev tag => Sys2Proof.Machine.execQosHoldoffExpiry dev tag s
  | .deadlineCheck => Sys2Proof.Machine.execDeadlineCheck s
  | .consentExpiry slice => Sys2Proof.Machine.execConsentExpiry slice s
  | .zeroizeArmExpiry => Sys2Proof.Machine.execZeroizeArmExpiry s
  | .autoReport => Sys2Proof.Machine.execAutoReport s
  | .counterSnapshot => Sys2Proof.Machine.execCounterSnapshot s
  | .sensorRead die celsius => Sys2Proof.Machine.execSensorRead die celsius s
  | .throttlePeriod => Sys2Proof.Machine.execThrottlePeriod s
  | .powerCapPeriod watts => Sys2Proof.Machine.execPowerCapPeriod watts s
  | .idleEntry => Sys2Proof.Machine.execIdleEntry s
  | .dozeEntry => Sys2Proof.Machine.execDozeEntry s
  | .dozeExit => Sys2Proof.Machine.execDozeExit s
  | .hibernateEntry => Sys2Proof.Machine.execHibernateEntry s
  | .wakeDone => Sys2Proof.Machine.execWakeDone s
  | .thermalRecovery => Sys2Proof.Machine.execThermalRecovery s
  | .vio18Restored => Sys2Proof.Machine.execVio18Restored s
  | .ackIntervalExpiry port => Sys2Proof.Machine.execAckIntervalExpiry port s
  | .jtagAccess instr unit => Sys2Proof.Machine.execJtagAccess instr unit s
  | .retrievalOperationDone die gather engine => Sys2Proof.Machine.execRetrievalOperationDone die gather engine s

end Sys2Proof.Machine
end

