-- ==== Sys2Proof/Safety.lean ====
section
/-! DEFINITION. The words claims are stated in: a command that the device takes, the state it acts on, how it ends, what holds
of every state that a run can reach, and what is burnt into fuses. -/

namespace Sys2Proof

open Machine

/-- The device fetches the command of header `h` (R464, R473) and all its general checks pass (R459, R460), and no die it enters at
keeps it waiting (R22, R94). -/
abbrev Accepts (c : CmdSpec) (h : Hdr) (s : State) : Prop :=
  s.fetchable h = true ∧ (s.fetch h).1.generalCheck c h = none ∧ s.entryWaits c.entry = false

/-- The device fetches the command and a general check of R459 fails, with the code and INFO given. -/
abbrev Fails (c : CmdSpec) (h : Hdr) (s : State) (code info : Nat) : Prop :=
  s.fetchable h = true ∧ (s.fetch h).1.generalCheck c h = some (code, info)

/-- The state a fetched command acts on: its submission queue advanced, the command outstanding in its completion queue. -/
def Fetched (h : Hdr) (s : State) : State := (s.fetch h).1

/-- Who the completion of a fetched command goes to. -/
def TagOf (h : Hdr) (s : State) : Tag := (s.fetch h).2

/-- The state in which a command has had its effect `u` and its completion, with a STATUS and a RESULT, has been written. -/
def Ended (u : State) (t : Tag) (status : Nat) (result : List (Nat × Nat)) : State :=
  u.complete t status 0 (packBytes result)

/-- The state in which a fetched command has been rejected: no effect but CMD_REJECTS and its completion (R459, R473). -/
def Rejected (h : Hdr) (s : State) (code : Nat) : State := (Fetched h s).reject (TagOf h s) code 0

/-- A BAR0 write of function `fn` that reaches a register and that nothing turns away (R477, R478, R481, R486, R499). -/
abbrev Writable (s : State) (r : Reg) (u i fn : Nat) : Prop :=
  regAt (r.addr u i) = some (r, u, i) ∧ r.reach u i fn true = true ∧ r ≠ .portCtrl ∧
  (r.row.wedge = true ∨ s.seqDown (r.die u) = false ∧ s.hibernating = false) ∧
  ¬ (r.ofTdi = true ∧ 2 ≤ u ∧ s.tdiLocked u = true) ∧ s.fieldsRefuse r u i = false

/-- What the fuses of `s` hold, those of `t` hold too: a retired generation stays retired (R416, R421), ZCOUNT never falls
(R414, R447), RETURNED is for good (R439), an enrolled author keeps its key, a revoked author stays revoked and a minimum SVN
never falls (R41, R44). -/
structure Burnt (s t : State) : Prop where
  retired : ∀ g, bitAt s.sec.retired g = true → bitAt t.sec.retired g = true
  zcount : s.sec.zcount ≤ t.sec.zcount
  returned : s.sec.lifecycle = 3 → t.sec.lifecycle = 3
  fused : ∀ k, (s.author k).fused = true → (t.author k).fused = true ∧ (t.author k).keyHash = (s.author k).keyHash
  revoked : ∀ k, (s.author k).revoked = true → (t.author k).revoked = true
  minSvn : ∀ k, (s.author k).minSvn ≤ (t.author k).minSvn

/-- The current generation is not retired, unless every generation is (R416, R421). -/
def GenerationLive (s : State) : Prop :=
  bitAt s.sec.retired s.sec.current = false ∨ ∀ g < 16, bitAt s.sec.retired g = true

/-- What the general checks ask of a host command (R453..R460), with its header; none for a row that is no host command. -/
def hostSpec : Instr → Option (CmdSpec × Hdr)
  | .nop h => some ({ fns := .any, hibernate := true, noImage := true, recovery := true }, h)
  | .sqCreate h _ _ _ _ => some ({ fns := .any, admin := true, widths := [16, 16, 5, 64], hibernate := true, noImage := true }, h)
  | .sqDelete h _ => some ({ fns := .any, admin := true, widths := [16], hibernate := true, noImage := true }, h)
  | .cqCreate h _ _ _ _ _ => some ({ fns := .any, admin := true, widths := [16, 5, 11, 1, 64], hibernate := true, noImage := true }, h)
  | .cqDelete h _ => some ({ fns := .any, admin := true, widths := [16], hibernate := true, noImage := true }, h)
  | .eqCreate h _ _ _ _ _ => some ({ fns := .any, admin := true, widths := [6, 1, 5, 64, 11], hibernate := true, noImage := true }, h)
  | .eqDelete h _ _ => some ({ fns := .any, admin := true, widths := [6, 1], hibernate := true, noImage := true }, h)
  | .copy h _ _ _ _ _ => some ({ fns := .any, widths := [6, 1, 32, 64, 64] }, h)
  | .request h _ => some ({}, h)
  | .openSession h _ => some ({ widths := [6, 1, 64, 16, 16, 32, 16, 64, 32, 8] }, h)
  | .closeSession h _ => some ({ widths := [64] }, h)
  | .park h _ _ _ _ _ _ => some ({ widths := [64, 2, 1, 1, 64, 32] }, h)
  | .thaw h _ _ => some ({ widths := [64, 1] }, h)
  | .migrate h _ _ _ _ _ => some ({ widths := [64, 6, 16, 6, 2] }, h)
  | .fork h _ _ _ _ => some ({ widths := [64, 32, 64, 64] }, h)
  | .setSession h _ => some ({ widths := [64, 16, 32, 16] }, h)
  | .sessionQuery h _ _ => some ({ widths := [64, 64] }, h)
  | .cancel h _ _ => some ({ widths := [64, 64] }, h)
  | .ringExtend h _ _ _ => some ({ widths := [64, 16, 6] }, h)
  | .tringCreate h _ _ _ _ _ _ _ => some ({ widths := [6, 16, 5, 64, 64, 11, 1] }, h)
  | .tringDestroy h _ _ => some ({ widths := [6, 16] }, h)
  | .paletteLoad h _ _ _ _ => some ({ widths := [6, 4, 16, 64] }, h)
  | .paletteUnload h _ _ => some ({ widths := [6, 16] }, h)
  | .jobStart h _ _ _ => some ({ widths := [6, 4, 64] }, h)
  | .jobEnd h _ => some ({ widths := [6] }, h)
  | .memAlloc h _ _ _ _ _ _ _ _ _ => some ({ widths := [6, 3, 2, 1, 4, 4, 5, 32, 64] }, h)
  | .memFree h _ _ => some ({ widths := [6, 64] }, h)
  | .apertureMap h _ _ _ _ => some ({ widths := [6, 64, 16, 32] }, h)
  | .apertureUnmap h _ _ => some ({ widths := [6, 64] }, h)
  | .poolReclaim h _ => some ({ fns := .pf0, priv := eCompPriv, widths := [64], noImage := true }, h)
  | .indexCreate h _ => some ({ widths := indexWidths }, h)
  | .indexDestroy h _ _ => some ({ widths := [6, 8] }, h)
  | .insertVec h _ _ _ _ _ => some ({ widths := [6, 8, 32, 64, 64] }, h)
  | .deleteVec h _ _ _ => some ({ widths := [6, 8, 32] }, h)
  | .indexCompact h _ _ => some ({ widths := [6, 8] }, h)
  | .search h _ => some ({ widths := [8, 8, 16, 16, 16, 16, 16, 64, 64, 64, 64, 6, 20] }, h)
  | .searchNext h _ _ _ => some ({ widths := [64, 6, 64] }, h)
  | .cursorDrop h _ _ => some ({ widths := [64, 6] }, h)
  | .tableCreate h _ => some ({ widths := [6, 8, 4, 32, 32, 2, 1, 2, 1, 64, 32, 64] }, h)
  | .tableDestroy h _ _ => some ({ widths := [6, 8] }, h)
  | .gather h _ => some ({ widths := batchWidths }, h)
  | .scatterAdd h _ => some ({ widths := batchWidths }, h)
  | .scatterSet h _ => some ({ widths := batchWidths }, h)
  | .tableStage h _ _ => some ({ widths := [6, 8] }, h)
  | .tableSwitch h _ _ => some ({ widths := [6, 8] }, h)
  | .hotPost h _ _ _ _ => some ({ widths := [6, 8, 64, 32] }, h)
  | .compChange h _ => some ({ fns := .pf0, priv := eCompPriv, widths := [3, 16, 6, 2, 256, 64, 1, 112], noImage := true }, h)
  | .portEnable h _ => some ({ fns := .pf0, priv := eCompPriv, widths := [6], noImage := true }, h)
  | .portDisable h _ => some ({ fns := .pf0, priv := eCompPriv, widths := [6], wedge := true, noImage := true }, h)
  | .portRekey h _ => some ({ fns := .pf0, priv := eCompPriv, widths := [6], noImage := true }, h)
  | .ckptNow h _ => some ({ widths := [6] }, h)
  | .ckptRestore h _ _ _ => some ({ widths := [6, 64, 64] }, h)
  | .ckptRelease h _ => some ({ widths := [6] }, h)
  | .imageLoad h _ _ _ => some ({ fns := .pf0, priv := eImgPriv, widths := [64, 32, 2], noImage := true }, h)
  | .enrolAuthor h _ => some ({ fns := .pf0, priv := eImgPriv, widths := [64], noImage := true }, h)
  | .revokeAuthor h _ => some ({ fns := .pf0, priv := eImgPriv, widths := [32], noImage := true }, h)
  | .keygenAdvance h => some ({ fns := .pf0, priv := eSecPriv, noImage := true }, h)
  | .genRetire h _ => some ({ fns := .pf0, priv := eSecPriv, widths := [32], noImage := true }, h)
  | .zeroize h => some ({ fns := .pf0, priv := eSecPriv, hibernate := true, wedge := true, noImage := true, recovery := true }, h)
  | .keyRelease h _ => some ({ fns := .any, priv := eSecPriv, widths := [64] }, h)
  | .boundOpen h _ _ _ => some ({ fns := .any, priv := eSecPriv, widths := [6, 32, 64] }, h)
  | .weightDecrypt h _ _ _ _ _ _ => some ({ fns := .any, priv := eSecPriv, widths := [6, 32, 64, 32, 32, 64] }, h)
  | .consentInstall h _ _ => some ({ fns := .any, priv := eSecPriv, widths := [6, 64] }, h)
  | .consentRemove h _ => some ({ fns := .any, priv := eSecPriv, widths := [6] }, h)
  | .devReset h scope _ _ => some ({ fns := .pf0, widths := [2, 5, 6], hibernate := scope == 0, noImage := true }, h)
  | .pkgReset h => some ({ fns := .pf0, wedge := true, hibernate := true, noImage := true, recovery := true }, h)
  | .powerState h _ _ => some ({ fns := .pf0, widths := [1, 1], hibernate := true, noImage := true }, h)
  | .fwLoad h _ _ _ _ => some ({ fns := .pf0, widths := [64, 32, 1, 2], noImage := true, recovery := true }, h)
  | .errlogRead h _ _ _ => some ({ fns := .pf0, widths := [32, 32, 64], hibernate := true, wedge := true, noImage := true, recovery := true }, h)
  | .thermShutdown h => some ({ fns := .pf0, wedge := true, hibernate := true, noImage := true, recovery := true }, h)
  | _ => none

/-- The state in which a request that arrived on a port is executed: its flits left the buffer, its tag is recorded (R357, R374). -/
def Requested (t : TxHdr) (type op len : Nat) (s : State) : State :=
  (s.arrive t type op len (laneOf (queueOf t type) false) true).1.tagSeen t.src.toNat t.tag.toNat

/-- A request of the link protocol arrives and is executed: the port carries it, its tag is new, and unless it is exempt its
sender is a member, its slice has joined and the device holds what it names (R361, R372, R377). -/
abbrev Admits (t : TxHdr) (type op len : Nat) (exempt holds : Bool) (s : State) : Prop :=
  s.net.redo = false ∧ (s.arrive t type op len (laneOf (queueOf t type) false) true).2 = true ∧
  (s.arrive t type op len (laneOf (queueOf t type) false) true).1.tagAt t.src.toNat t.tag.toNat = .fresh ∧
  (exempt = true ∨ (Requested t type op len s).member t.src.toNat ≠ none ∧
    (64 ≤ t.slice.toNat ∨ (Requested t type op len s).joined t.slice.toNat = true) ∧ holds = true)

/-- The state in which an executed request has had its effect `u` and its response has been sent, with its tag's outcome kept (R361). -/
def Replied (t : TxHdr) (type : Nat) (u : State) (x : Ans) : State :=
  (u.tagDone t.src.toNat t.tag.toNat x.status x.result).answer t type 8 x.status x.result x.data x.poison

end Sys2Proof
end

