-- ==== Sys2Proof/Certificates/Slice0/Obligations.lean ====
section
/-! DEFINITION. What is claimed of the model: for every row of the table when it completes and in what state, then the rules that hold
over many rows. Each docstring names the rules of the spec it comes from, and the log entries of the model's own choices. -/

open Sys2Proof Sys2Proof.Machine

/-- NOP and the queue commands, accepted and with their own checks met, change the queue they name and complete (R460, R463,
R467). -/
def Obligations.QueueCommandsComplete : Prop :=
  (∀ (h : Hdr) (s : State),
    Accepts { fns := .any, hibernate := true, noImage := true, recovery := true } h s →
    exec (.nop h) s = .next (Ended (Fetched h s) (TagOf h s) 0 [])) ∧
  (∀ (h : Hdr) (qid cqid : U16) (log2 : BitVec 5) (base : U64) (s : State) (c : Cq),
    Accepts { fns := .any, admin := true, widths := [16, 16, 5, 64], hibernate := true, noImage := true } h s →
    64 ≤ qid.toNat → qid.toNat ≤ 4095 → 4 ≤ log2.toNat → log2.toNat ≤ 16 → base.toNat % 4096 = 0 →
    tabGet (Fetched h s).host.cqs cqid.toNat = some c → c.fn = h.fn.toNat →
    tabGet (Fetched h s).host.sqs qid.toNat = none →
    ∃ u, exec (.sqCreate h qid cqid log2 base) s = .next (Ended u (TagOf h s) 0 []) ∧
      u = { Fetched h s with host := { (Fetched h s).host with sqs := u.host.sqs } } ∧
      tabGet u.host.sqs qid.toNat = some ⟨h.fn.toNat, cqid.toNat, log2.toNat, base, 0, 0⟩ ∧
      ∀ k, k ≠ qid.toNat → tabGet u.host.sqs k = tabGet (Fetched h s).host.sqs k) ∧
  (∀ (h : Hdr) (qid : U16) (s : State) (q : Sq),
    Accepts { fns := .any, admin := true, widths := [16], hibernate := true, noImage := true } h s →
    64 ≤ qid.toNat → qid.toNat ≤ 4095 → tabGet (Fetched h s).host.sqs qid.toNat = some q → q.fn = h.fn.toNat →
    exec (.sqDelete h qid) s = .next (Ended { Fetched h s with host := { (Fetched h s).host with
      sqs := tabDel (Fetched h s).host.sqs qid.toNat } } (TagOf h s) 0 [])) ∧
  (∀ (h : Hdr) (qid : U16) (log2 : BitVec 5) (vector : BitVec 11) (ien : U1) (base : U64) (s : State),
    Accepts { fns := .any, admin := true, widths := [16, 5, 11, 1, 64], hibernate := true, noImage := true } h s →
    64 ≤ qid.toNat → qid.toNat ≤ 4095 → 4 ≤ log2.toNat → log2.toNat ≤ 16 → base.toNat % 4096 = 0 →
    vector.toNat < (if h.fn.toNat < 2 then 2048 else 256) → tabGet (Fetched h s).host.cqs qid.toNat = none →
    ∃ u, exec (.cqCreate h qid log2 vector ien base) s = .next (Ended u (TagOf h s) 0 []) ∧
      u = { Fetched h s with host := { (Fetched h s).host with cqs := u.host.cqs } } ∧
      tabGet u.host.cqs qid.toNat = some ⟨h.fn.toNat, log2.toNat, base, vector.toNat, ien == 1, 0, true, 0, false, 0⟩ ∧
      ∀ k, k ≠ qid.toNat → tabGet u.host.cqs k = tabGet (Fetched h s).host.cqs k) ∧
  (∀ (h : Hdr) (qid : U16) (s : State) (c : Cq),
    Accepts { fns := .any, admin := true, widths := [16], hibernate := true, noImage := true } h s →
    64 ≤ qid.toNat → qid.toNat ≤ 4095 → tabGet (Fetched h s).host.cqs qid.toNat = some c → c.fn = h.fn.toNat →
    c.outstanding = 0 → (∀ x ∈ (Fetched h s).host.sqs, x.2.cq ≠ qid.toNat) →
    exec (.cqDelete h qid) s = .next (Ended { Fetched h s with host := { (Fetched h s).host with
      cqs := tabDel (Fetched h s).host.cqs qid.toNat } } (TagOf h s) 0 [])) ∧
  (∀ (h : Hdr) (slice : BitVec 6) (device : U1) (log2 : BitVec 5) (base : U64) (vector : BitVec 11) (s : State) (q : Nat),
    Accepts { fns := .any, admin := true, widths := [6, 1, 5, 64, 11], hibernate := true, noImage := true } h s →
    eqNumber h.fn.toNat slice.toNat device.toNat = some q →
    (device = 0 → (Fetched h s).defined q = true) → 6 ≤ log2.toNat → log2.toNat ≤ 16 → base.toNat % 4096 = 0 → vector.toNat < (if h.fn.toNat < 2 then 2048 else 256) →
    tabGet (Fetched h s).host.eqs q = none →
    ∃ u, exec (.eqCreate h slice device log2 base vector) s = .next (Ended u (TagOf h s) 0 []) ∧
      u = { Fetched h s with host := { (Fetched h s).host with eqs := u.host.eqs } } ∧
      tabGet u.host.eqs q = some ⟨h.fn.toNat, log2.toNat, base, vector.toNat, 0, true, 0, false, false⟩ ∧
      ∀ k, k ≠ q → tabGet u.host.eqs k = tabGet (Fetched h s).host.eqs k) ∧
  (∀ (h : Hdr) (slice : BitVec 6) (device : U1) (s : State) (q : Nat) (e : Evq),
    Accepts { fns := .any, admin := true, widths := [6, 1], hibernate := true, noImage := true } h s →
    eqNumber h.fn.toNat slice.toNat device.toNat = some q → (device = 0 → (Fetched h s).defined q = true) → tabGet (Fetched h s).host.eqs q = some e → e.fn = h.fn.toNat →
    exec (.eqDelete h slice device) s = .next (Ended { Fetched h s with host := { (Fetched h s).host with
      eqs := tabDel (Fetched h s).host.eqs q } } (TagOf h s) 0 []))

/-- REQUEST, OPEN, CLOSE, PARK and THAW, accepted and with the checks of their chapter met: the request becomes ACTIVE or PENDING,
the session is opened in Spring or Autumn and its handle returned, closing, parking or thawing begins in the season that
allows it and its completion is kept for its end (R69, R71, R76, R107, R112). -/
def Obligations.SessionCommandsComplete : Prop :=
  (∀ (h : Hdr) (r : ReqOps) (s : State) (i : Nat) (q : TRing), let u := Fetched h s; let d := u.d i
    Accepts { entry := handleNode r.handle } h s → u.tailHandle h.fn.toNat r.handle = .ok i → u.closing i = false →
    ¬ (d.active.requestId = r.requestId ∧ d.active ≠ {}) →
    ¬ (d.pending.live = true ∧ d.pending.requestId = r.requestId ∧ d.pending ≠ {}) →
    ¬ (d.active.live = true ∧ d.pending.live = true) → r.rflags.toNat < 8 → kindBad r = false →
    u.tring d.slice r.tokenRing.toNat = some q → u.ringOfOther d.slice i r.tokenRing.toNat = false →
    (d.active.names r.tokenRing.toNat = true → 2 ≤ q.credit) →
    samplerBad r.temp r.topP r.topK.toNat = false → (r.deadline = 0 ∨ u.pkc < r.deadline.toNat) →
    ∃ t, exec (.request h r) s = .next t ∧
      (¬ (d.season = .autumn ∧ d.op = .parkOwn) → t = u.storeReq i (reqEntry r (TagOf h s))) ∧
      (d.season = .autumn ∧ d.op = .parkOwn → t = (u.storeReq i (reqEntry r (TagOf h s))).stopPark i 0)) ∧
  (∀ (u : State) (i : Nat) (r : Request),
    ((u.d i).active.live = true → ((u.storeReq i r).d i) = { u.d i with pending := { r with order := u.srv.acceptCtr + 1 } }) ∧
    ((u.d i).active.live = false → ((u.storeReq i r).d i) = { u.d i with active := { r with order := u.srv.acceptCtr + 1 } })) ∧
  (∀ (h : Hdr) (o : OpenOps) (s : State) (i : Nat), let u := Fetched h s; let sl := cmdSlice h.fn.toNat o.slice.toNat
    s.gessoWaits sl = false → Accepts { widths := [6, 1, 64, 16, 16, 32, 16, 64, 32, 8], entry := s.openNode } h s →
    u.defined sl = true → u.loading sl = false → firstFail (u.openChecks sl o) = none → u.emptyIndex = some i →
    exec (.openSession h o) s = .next (Ended (u.opened sl i o) (TagOf h s) 0
      [(64, (handleOf i ((u.opened sl i o).d i)).toNat)])) ∧
  (∀ (h : Hdr) (handle : U64) (s : State) (i : Nat), let u := Fetched h s; let d := u.d i
    Accepts { widths := [64], entry := handleNode handle } h s → u.closeHandle h.fn.toNat handle = .ok i → u.closing i = false →
    ((d.season = .autumn ∧ (d.op = .none ∨ d.op = .parkHost ∨ d.op = .parkOwn)) ∨ d.season = .summer ∨
      (d.season = .spring ∧ d.op = .thaw) ∨ (d.season = .winter ∧ d.op = .none)) →
    ∃ t, exec (.closeSession h handle) s = .next t ∧
      (d.season = .autumn → d.op = .none → t = u.toClosing i (some (TagOf h s))) ∧
      (d.season = .autumn → d.op = .parkHost → t = (u.stopPark i 0x0211).toClosing i (some (TagOf h s))) ∧
      (d.season = .autumn → d.op = .parkOwn → t = (u.stopPark i 0).toClosing i (some (TagOf h s))) ∧
      (d.season = .summer → (t.ax i).closeAtEnd = true ∧ (t.ax i).closeTag = some (TagOf h s) ∧ t.d i = d) ∧
      (d.season = .spring → t = (u.stopThaw i 0x0211).toClosing i (some (TagOf h s))) ∧
      (d.season = .winter → t = u.toClosing i (some (TagOf h s)))) ∧
  (∀ (h : Hdr) (handle : U64) (tier : BitVec 2) (deep compress : U1) (hostAddr : U64) (hostLen : U32) (s : State) (i : Nat)
    (x : U64 × List Nat), let u := Fetched h s; let d := u.d i
    let tr := if tier = 0 then u.winterTier d.slice else tier.toNat
    Accepts { widths := [64, 2, 1, 1, 64, 32], entry := handleNode handle } h s → u.tailHandle h.fn.toNat handle = .ok i → u.closing i = false →
    d.season = .autumn → d.op = .none → d.liveReq = false →
    (tr = 3 → hostAddr.toNat % 4096 = 0 ∧ u.rawUnits i (deep == 1) ≤ hostLen.toNat) →
    u.parkTarget i tr (deep == 1) hostAddr = .ok x →
    let v := u.startPark i .parkHost tr x.1 x.2 (deep == 1) (compress == 1) true
    exec (.park h handle tier deep compress hostAddr hostLen) s = .next
      ((v.setAx i { v.ax i with parkTag := some (TagOf h s) }).carry i { ringOps 7 d.sessionId.toNat d.ownerEpoch with
        tier := BitVec.ofNat 2 tr, flags := BitVec.ofNat 16 (deep.toNat + 2 * compress.toNat) }
        fun u k => u.memberPark k tr (deep == 1) (compress == 1))) ∧
  (∀ (u : State) (i : Nat) (o : RingOps) (f : State → Nat → State), (u.d i).ringPos = 0 → u.carry i o f = u) ∧
  (∀ (h : Hdr) (handle : U64) (stream : U1) (s : State) (i : Nat), let u := Fetched h s; let d := u.d i
    Accepts { widths := [64, 1], entry := handleNode handle } h s → u.tailHandle h.fn.toNat handle = .ok i → u.closing i = false →
    u.loading d.slice = false →
    (d.season = .autumn → d.op = .parkHost →
      exec (.thaw h handle stream) s = .next (Ended ((u.stopPark i 0x020F).carryThaw i (stream == 1) true) (TagOf h s) 0 [])) ∧
    (d.season = .autumn → d.op = .parkOwn →
      exec (.thaw h handle stream) s = .next (Ended ((u.stopPark i 0).carryThaw i (stream == 1) true) (TagOf h s) 0 [])) ∧
    (d.season = .spring → d.op = .thaw → d.runahead = true → ∃ t : State,
      exec (.thaw h handle stream) s = .next (t.carryThaw i (stream == 1) true) ∧
      (t.ax i).thawTags = (u.ax i).thawTags ++ [TagOf h s] ∧ t.d i = d) ∧
    (∀ c, d.season = .winter → d.op = .none → u.thawChecks i = .ok c → 
      exec (.thaw h handle stream) s = .next (((u.startThaw i c (stream == 1) false).setAx i
        { (u.startThaw i c (stream == 1) false).ax i with thawTags := [TagOf h s] }).carryThaw i (stream == 1) true)))

/-- SET_SESSION, SESSION_QUERY, CANCEL, MIGRATE, FORK and RING_EXTEND, accepted and with their checks met: the descriptor takes
the new values, its 256-byte copy reaches host memory, the request is cancelled (at once, or at the end of the step of a
Summer session), and the ownership message, the fork or the extension begins with its completion kept for its end (R62, R79,
R86, R112, R120, R169, R264). -/
def Obligations.SessionControlCompletes : Prop :=
  (∀ (h : Hdr) (o : SetOps) (s : State) (i : Nat), let u := Fetched h s; let d := u.d i; let f := o.flags.toNat
    let dc := f / 4 % 4; let mir := if dc = 1 then o.mirrorDev.toNat else 0xFFFF
    let t := u.setPolicy i f o.pageBudget.toNat dc mir
    Accepts { widths := [64, 16, 32, 16], entry := handleNode o.handle } h s → u.handle h.fn.toNat o.handle = .ok i →
    d.used = true → d.season ≠ .closing → d.tail = true → (u.ax i).closeAtEnd = false →
    flagsReserved f = false → dc ≠ 3 → ¬ (11 ≤ f / 4096 ∧ f / 4096 ≤ 14) →
    (dc = d.dclass ∧ mir = d.mirrorDev ∨
      d.season = .autumn ∧ d.op = .none ∧ (dc = 1 → u.reachable d.slice mir = true)) →
    exec (.setSession h o) s = .next (Ended (t.carry i { ringOps 9 d.sessionId.toNat d.ownerEpoch with
      flags := o.flags, budget := o.pageBudget, dclass := BitVec.ofNat 2 dc } fun v k =>
        v.setPolicy k f o.pageBudget.toNat dc (if dc = 1 then (v.d k).ringNext else 0xFFFF)) (TagOf h s) 0 []) ∧
    t.d i = { d with pinned := f % 2 == 1, deepOk := f / 32 % 2 == 1, pageBudget := o.pageBudget.toNat, dclass := dc, mirrorDev := mir } ∧
    (∀ j, j ≠ i → t.d j = u.d j) ∧ t = { u with desc := t.desc }) ∧
  (∀ (h : Hdr) (handle outAddr : U64) (s : State) (i : Nat), let u := Fetched h s
    Accepts { widths := [64, 64], entry := handleNode handle } h s → u.handle h.fn.toNat handle = .ok i → (u.d i).used = true →
    u.hostOk outAddr.toNat 256 = true →
    exec (.sessionQuery h handle outAddr) s = .next (Ended (u.hostWrite outAddr.toNat (u.queryCopy i).bytes) (TagOf h s) 0 [])) ∧
  (∀ (h : Hdr) (handle requestId : U64) (s : State) (i : Nat), let u := Fetched h s; let d := u.d i
    Accepts { widths := [64, 64], entry := handleNode handle } h s → u.tailHandle h.fn.toNat handle = .ok i → (u.ax i).closeAtEnd = false →
    (d.pending.live = true → d.pending.requestId = requestId →
      exec (.cancel h handle requestId) s = .next (Ended (u.endPending i 0x0406 3) (TagOf h s) 0 [])) ∧
    (¬ (d.pending.live = true ∧ d.pending.requestId = requestId) → d.active.requestId = requestId → d.active ≠ {} →
      (d.active.live = false → exec (.cancel h handle requestId) s = .next (Ended u (TagOf h s) 0x0407 [])) ∧
      (d.active.live = true → d.season ≠ .summer → exec (.cancel h handle requestId) s =
        .next (Ended ((u.endActive i 0x0406 3 true).afterEnd i) (TagOf h s) 0 [])) ∧
      (d.active.live = true → d.season = .summer → ∃ t, exec (.cancel h handle requestId) s = .next t ∧
        (t.kvOf i).sampler.cancel = true ∧ t.srv.cancels = u.srv.cancels ++ [(i, TagOf h s)] ∧ t.desc = u.desc))) ∧
  (∀ (h : Hdr) (handle : U64) (member : BitVec 6) (dev : U16) (slice : BitVec 6) (tier : BitVec 2) (s : State) (i : Nat)
    (n : Nat), let u := Fetched h s; let d := u.d i
    Accepts { widths := [64, 6, 16, 6, 2], entry := handleNode handle } h s → u.tailHandle h.fn.toNat handle = .ok i → u.closing i = false →
    (d.season = .autumn ∧ d.op = .none ∧ d.liveReq = false ∨ d.season = .winter ∧ d.op = .none ∨
      d.season = .spring ∧ d.op = .thaw ∧ d.runahead = true) →
    member.toNat = d.ringPos → d.ringPos < d.ringSize → u.devNo = some n →
    u.inRing i dev.toNat = false → tier ≠ 3 → u.reachable d.slice dev.toNat = true →
    ¬ (d.prot = true ∧ u.sec.csk = none) →
    (d.season = .winter ∨ d.season = .spring → ∃ c, u.canvasFor d = some c ∧ c.complete = true ∧ c.sealMode ≠ 1) →
    d.ownerEpoch < 0xFFFFFFFF →
    exec (.migrate h handle member dev slice tier) s =
      .next (u.migrateOwn i dev.toNat slice.toNat tier.toNat (some (TagOf h s)) none)) ∧
  (∀ (h : Hdr) (handle : U64) (count : U32) (ids out : U64) (s : State) (i : Nat), let u := Fetched h s; let d := u.d i
    Accepts { widths := [64, 32, 64, 64], entry := handleNode handle } h s → u.tailHandle h.fn.toNat handle = .ok i → u.closing i = false →
    1 ≤ count.toNat → count.toNat ≤ 64 →
    (d.season = .summer → ∃ t, exec (.fork h handle count ids out) s = .next t ∧ t = { u with srv := t.srv } ∧
      t.srv.forks = u.srv.forks ++ [(i, [count.toNat, ids.toNat, out.toNat], TagOf h s)]) ∧
    (∀ t st r, d.season = .autumn → d.op = .none →
      u.forkCore i count.toNat ids.toNat out.toNat (TagOf h s) = .done t st r →
      exec (.fork h handle count ids out) s = .next (Ended t (TagOf h s) st r)) ∧
    (∀ t, d.season = .autumn → d.op = .none → u.forkCore i count.toNat ids.toNat out.toNat (TagOf h s) = .later t →
      exec (.fork h handle count ids out) s = .next t)) ∧
  (∀ (h : Hdr) (handle : U64) (dev : U16) (slice : BitVec 6) (s : State) (i n : Nat), let u := Fetched h s; let d := u.d i
    Accepts { widths := [64, 16, 6], entry := handleNode handle } h s → u.tailHandle h.fn.toNat handle = .ok i → u.closing i = false →
    d.ringNext = 0xFFFF → (∀ r ∈ u.comp.relays, ¬ (r.kind = 3 ∧ r.index = i)) → d.ringSize ≠ 64 → u.devNo = some n →
    u.inRing i dev.toNat = false → u.reachable d.slice dev.toNat = true →
    (d.season = .summer → ∃ t, exec (.ringExtend h handle dev slice) s = .next t ∧ t = { u with srv := t.srv } ∧
      t.srv.extends_ = u.srv.extends_ ++ [(i, dev.toNat, slice.toNat, TagOf h s)]) ∧
    (d.season = .autumn → d.op = .none →
      exec (.ringExtend h handle dev slice) s = .next (u.extendNow i dev.toNat slice.toNat (TagOf h s))))

/-- TRING_CREATE, TRING_DESTROY, PALETTE_LOAD, PALETTE_UNLOAD, JOB_START and JOB_END, accepted and with their checks met: the ring
appears empty or is gone, the palette's blocks are allocated or freed, and the slice's job starts or begins to end (R178,
R181, R239, R240, R257, R469).
Where a choice of index is open the model's is taken (log entry 69). -/
def Obligations.RingPaletteAndJobCommandsComplete : Prop :=
  (∀ (h : Hdr) (slice : BitVec 6) (ring : U16) (log2 : BitVec 5) (base tailAddr : U64) (vector : BitVec 11) (ien : U1) (s : State),
    let u := Fetched h s; let sl := cmdSlice h.fn.toNat slice.toNat
    Accepts { widths := [6, 16, 5, 64, 64, 11, 1] } h s → u.defined sl = true → ring.toNat < 16384 →
    6 ≤ log2.toNat → log2.toNat ≤ 16 → base.toNat % max 4096 (16 * 2 ^ log2.toNat) = 0 → tailAddr.toNat % 8 = 0 →
    vector.toNat < (if h.fn.toNat < 2 then 2048 else 256) → u.tring sl ring.toNat = none → u.srv.rings.length < 65536 →
    ∃ t, exec (.tringCreate h slice ring log2 base tailAddr vector ien) s = .next (Ended t (TagOf h s) 0 []) ∧
      t.tring sl ring.toNat = some ⟨h.fn.toNat, log2.toNat, base, tailAddr, vector.toNat, ien == 1, 0, 0, false⟩ ∧
      t = { u with srv := { u.srv with rings := t.srv.rings } }) ∧
  (∀ (h : Hdr) (slice : BitVec 6) (ring : U16) (s : State) (q : TRing), let u := Fetched h s; let sl := cmdSlice h.fn.toNat slice.toNat
    Accepts { widths := [6, 16] } h s → u.defined sl = true → u.tring sl ring.toNat = some q → q.fn = h.fn.toNat → u.ringReserve sl ring.toNat = 0 →
    ∃ t, exec (.tringDestroy h slice ring) s = .next (Ended t (TagOf h s) 0 []) ∧ t.tring sl ring.toNat = none ∧
      t = { u with srv := { u.srv with rings := t.srv.rings } }) ∧
  (∀ (h : Hdr) (slice : BitVec 6) (program : BitVec 4) (tokens : U16) (src : U64) (s t : State) (b : Bytes) (e : Nat) (bytes : Bytes)
    (x : State × List (Nat × Nat × Nat)) (q : Pal),
    let u := Fetched h s; let sl := cmdSlice h.fn.toNat slice.toNat; let n := tokens.toNat
    Accepts { widths := [6, 4, 16, 64] } h s → u.defined sl = true → n ≠ 0 → n ≤ 8192 → u.sect 7 sl program.toNat = some b →
    palSize (progOf b).geom n ≤ 2 ^ 32 → src.toNat % 4096 = 0 → u.hostRead src.toNat (palSource (progOf b) n) = some bytes →
    u.palDup sl (Config.sha3 b) (Config.sha3 bytes) = none → u.freePalIndex = some e →
    u.takeParts sl (u.confidential sl) (palParts (progOf b).geom n) [] = some x →
    q = { slice := sl, program := Config.sha3 b, index := program.toNat, content := Config.sha3 bytes, src := src, tokens := n, prot := u.confidential sl, parts := x.2, tag := some (TagOf h s) } →
    { x.1 with srv := { x.1.srv with pals := tabPut x.1.srv.pals e q } }.remap sl = some t →
    exec (.paletteLoad h slice program tokens src) s = .next t ∧ tabGet t.srv.pals e = some q ∧
      t = { x.1 with mem := t.mem, srv := { x.1.srv with pals := tabPut x.1.srv.pals e q } }) ∧
  (∀ (h : Hdr) (slice : BitVec 6) (index : U16) (s : State) (q : Pal), let u := Fetched h s
    Accepts { widths := [6, 16] } h s → tabGet u.srv.pals index.toNat = some q → q.slice = cmdSlice h.fn.toNat slice.toNat →
    u.defined q.slice = true → q.ready = true → q.refs = 0 →
    exec (.paletteUnload h slice index) s = .next (Ended (u.freePal index.toNat) (TagOf h s) 0 [])) ∧
  (∀ (h : Hdr) (slice : BitVec 6) (program : BitVec 4) (first : U64) (s : State),
    let u := Fetched h s; let sl := cmdSlice h.fn.toNat slice.toNat
    s.gessoWaits sl = false → (∀ c ∈ s.ck.flight, ¬ (c.slice = sl ∧ c.resumed = true)) →
    Accepts { widths := [6, 4, 64], entry := s.computeNodes sl } h s → firstFail (u.jobChecks sl program.toNat) = none →
    exec (.jobStart h slice program first) s = .next (Ended (u.jobStarted sl program.toNat first.toNat) (TagOf h s) 0 []) ∧
    tabGet (u.jobStarted sl program.toNat first.toNat).srv.jobs sl =
      some { program := program.toNat, next := first.toNat, share := u.shareMin sl, nextShare := u.shareMin sl }) ∧
  (∀ (h : Hdr) (slice : BitVec 6) (s : State) (j : Job), let u := Fetched h s; let sl := cmdSlice h.fn.toNat slice.toNat
    Accepts { widths := [6], entry := s.computeNodes sl } h s → u.defined sl = true → tabGet u.srv.jobs sl = some j → j.state ≠ .ending →
    exec (.jobEnd h slice) s = .next (u.jobEnding sl j (TagOf h s))) ∧
  (∀ (h : Hdr) (slice : BitVec 6) (dir : U1) (len : U32) (hostAddr va : U64) (s : State),
    let u := Fetched h s; let sl := cmdSlice h.fn.toNat slice.toNat; let n := len.toNat; let a := va.toNat
    Accepts { fns := .any, widths := [6, 1, 32, 64, 64] } h s → 0 < n → u.defined sl = true → u.access sl (dir == 0) a n = .ok →
    s.accessWait sl a n (dir == 0) = none → u.cutFrom 19 sl a n = false → ¬ (s.anyProt sl a n = true ∧ s.protClosed h.fn.toNat sl = true) →
    (dir = 0 → u.hostOk hostAddr.toNat n = true → exec (.copy h slice dir len hostAddr va) s =
      .next (Ended (u.engineWrite sl a (memRead u.host.mem hostAddr.toNat n) false) (TagOf h s) 0 [(n, 32)])) ∧
    (dir = 1 → u.hostOk hostAddr.toNat n = true → u.vbad sl a n = false → exec (.copy h slice dir len hostAddr va) s =
      .next (Ended (u.hostWrite hostAddr.toNat (u.vread sl a n)) (TagOf h s) 0 [(n, 32)])))

/-- MEM_ALLOC, MEM_FREE, APERTURE_MAP, APERTURE_UNMAP and POOL_RECLAIM, accepted and with their checks met: the object takes its
place in its tier (a T2 object once its members answer), the object or mapping is dropped and its memory freed, the kept pool
range ends (R298, R300, R379, R380). -/
def Obligations.MemoryObjectCommandsComplete : Prop :=
  (∀ (h : Hdr) (slice : BitVec 6) (type : BitVec 3) (tier : BitVec 2) (protect : U1) (die fetchLog2 : BitVec 4) (stripe : BitVec 5)
    (size : U32) (va : U64) (s : State) (a : Nat),
    let u := Fetched h s; let sl := cmdSlice h.fn.toNat slice.toNat; let n := size.toNat * 4096
    let ti := u.tierFor sl type.toNat tier.toNat; let prot := u.protFor sl (protect == 1)
    let w0 := if stripe = 0 then max 1 (le (u.tierMap sl) 2 2) else stripe.toNat
    s.gessoWaits sl = false → Accepts { widths := [6, 3, 2, 1, 4, 4, 5, 32, 64] } h s → u.defined sl = true →
    type.toNat < 2 → tier ≠ 3 → size ≠ 0 → fetchLog2.toNat ≤ 9 → stripe.toNat ≤ 16 →
    (die = 15 ∨ die.toNat < (u.dieList sl).length) → (tier = 0 ∨ u.objectMode sl = false) →
    (va = 0 → u.lowestRange sl ti n 4096 = some a) → (va ≠ 0 → a = va.toNat ∧ va.toNat % 4096 = 0 ∧ inTier ti a n = true) →
    (u.objRanges sl).any (overlaps a n) = false → (ti = 2 → prot = true → u.stripeFormable sl w0 = true) →
    (∀ t, ti = 1 → u.allocT1 sl type.toNat a size.toNat (if die = 15 then none else some die.toNat) prot = some t →
      exec (.memAlloc h slice type tier protect die fetchLog2 stripe size va) s = .next (Ended t (TagOf h s) 0 [(64, a)])) ∧
    (∀ t, ti ≠ 1 → u.allocT2 sl type.toNat a size.toNat fetchLog2.toNat w0 prot (some (TagOf h s)) = some t →
      exec (.memAlloc h slice type tier protect die fetchLog2 stripe size va) s = .next t)) ∧
  (∀ (h : Hdr) (slice : BitVec 6) (va : U64) (s : State) (o : Obj), let u := Fetched h s
    Accepts { widths := [6, 64] } h s → u.defined (cmdSlice h.fn.toNat slice.toNat) = true →
    u.objStart (cmdSlice h.fn.toNat slice.toNat) va.toNat = some o →
    u.objInUse o = false → o.type < 2 →
    exec (.memFree h slice va) s = .next (Ended (u.freeObj o) (TagOf h s) 0 []) ∧
      (o.members = [] → o ∉ (u.freeObj o).mem.objects)) ∧
  (∀ (h : Hdr) (slice : BitVec 6) (va : U64) (member : U16) (size : U32) (s : State) (m : Member),
    let u := Fetched h s; let sl := cmdSlice h.fn.toNat slice.toNat; let a := va.toNat; let n := size.toNat
    Accepts { widths := [6, 64, 16, 32] } h s → u.defined sl = true → apertureRange a n = true →
    (u.objRanges sl).any (overlaps a (65536 * n)) = false →
    (∀ x ∈ u.apertures, x.slice = sl → overlaps a (65536 * n) (x.va, 65536 * x.units) = false) →
    u.member member.toNat = some m → m.pool ≠ 0 → n ≤ m.pool → ¬ (u.confidential sl = true ∧ m.kind = 2) →
    exec (.apertureMap h slice va member size) s = .next (u.aperturePut ⟨sl, a, n, member.toNat, none, some (TagOf h s)⟩)) ∧
  (∀ (h : Hdr) (slice : BitVec 6) (va : U64) (s : State) (x : Aperture) (b : Nat),
    let u := Fetched h s; let sl := cmdSlice h.fn.toNat slice.toNat
    Accepts { widths := [6, 64] } h s → u.defined sl = true →
    u.apertures.find? (fun x => x.slice == sl && x.va == va.toNat && x.base.isSome) = some x → x.base = some b →
    let v := { u with apertures := u.apertures.filter (· != x) }
    (u.member x.member = none → exec (.apertureUnmap h slice va) s = .next (Ended v (TagOf h s) 0 [])) ∧
    (u.member x.member ≠ none →
      exec (.apertureUnmap h slice va) s = .next (Ended (v.send x.member 7 0x21 sl [b] [] .none) (TagOf h s) 0 []))) ∧
  (∀ (h : Hdr) (locator : U64) (s : State) (r : PoolRange), let u := Fetched h s
    Accepts { fns := .pf0, priv := 0x070D, widths := [64], noImage := true } h s →
    u.pool.find? (fun r => r.kept && 65536 * r.base == locator.toNat % 2 ^ 48) = some r →
    u.devNo = some (locator.toNat / 2 ^ 48) →
    exec (.poolReclaim h locator) s = .next (Ended (u.poolDrop r) (TagOf h s) 0 []) ∧ r ∉ (u.poolDrop r).pool)

/-- INDEX_CREATE, INDEX_DESTROY, INSERT, DELETE, INDEX_COMPACT, SEARCH, SEARCH_NEXT and CURSOR_DROP, accepted and with their
checks met: the index exists with its objects or is marked destroyed, each operation joins the retrieval queue with its tag,
and CURSOR_DROP clears the slot's VALID bit (R325, R330, R337, R339, R340, R342, R349). -/
def Obligations.IndexAndSearchCommandsComplete : Prop :=
  (∀ (h : Hdr) (o : IndexOps) (s : State) (a b : State × Nat), let u := Fetched h s; let sl := cmdSlice h.fn.toNat o.slice.toNat
    let x := indexOf o sl ((u.dieList sl).getD o.die.toNat 0) 0; let prot := u.protFor sl (o.protect == 1)
    let ti := u.tierFor sl 2 o.tier.toNat
    Accepts { widths := indexWidths } h s → u.defined sl = true → o.die.toNat < (u.dieList sl).length → indexBad o = false →
    (o.va = 0 ∨ o.va.toNat % 2 ^ 21 = 0 ∧ inTier ti o.va.toNat x.bytes = true) → u.index sl o.index.toNat = none →
    u.ret.indexes.length < 256 → (o.tier = 0 ∧ o.rtier = 0 ∨ u.objectMode sl = false) →
    u.takeObj sl 2 ti o.va.toNat (x.bytes / 4096) none prot (some (TagOf h s)) = .ok a →
    a.1.takeObj sl 2 (u.tierFor sl 2 o.rtier.toNat) 0 (if x.rformat = 0xFF then 0 else x.rbytes / 4096) none prot
      (some (TagOf h s)) = .ok b →
    let v := { b.1 with ret := { b.1.ret with indexes := b.1.ret.indexes ++ [{ x with va := a.2, rva := b.2 }] } }
    ((v.createdBy (some (TagOf h s))).all (·.awaited.isEmpty) = true →
      exec (.indexCreate h o) s = .next (Ended (v.created (some (TagOf h s))) (TagOf h s) 0 [(64, a.2)])) ∧
    ((v.createdBy (some (TagOf h s))).all (·.awaited.isEmpty) = false → exec (.indexCreate h o) s = .next v)) ∧
  (∀ (h : Hdr) (slice : BitVec 6) (index : U8) (s : State) (x : Index),
    let u := Fetched h s; let sl := cmdSlice h.fn.toNat slice.toNat
    Accepts { widths := [6, 8], entry := s.indexNode h slice index } h s → u.defined sl = true → u.openIndex sl index.toNat = some x →
    exec (.indexDestroy h slice index) s =
      .next ((u.setIndex { x with destroyed := true, dtag := some (TagOf h s) }).indexGone sl index.toNat) ∧
    exec (.indexCompact h slice index) s = .next (u.retAccept
      { id := 0, kind := .compact, slice := sl, num := x.num, die := x.die, tag := some (TagOf h s) })) ∧
  (∀ (h : Hdr) (slice : BitVec 6) (index : U8) (id : U32) (src attr : U64) (s : State) (x : Index) (e a : Bytes),
    let u := Fetched h s; let sl := cmdSlice h.fn.toNat slice.toNat
    Accepts { widths := [6, 8, 32, 64, 64], entry := s.indexNode h slice index } h s → u.defined sl = true → u.openIndex sl index.toNat = some x → id.toNat < x.capacity →
    (u.node x id.toNat).used = false → x.freeUpper (x.levelOf id.toNat) ≠ none →
    u.hostRead src.toNat (2 * x.dims) = some e → u.hostRead attr.toNat x.attrBytes = some a →
    exec (.insertVec h slice index id src attr) s = .next (u.retAccept
      { id := 0, kind := .insert, slice := sl, num := x.num, die := x.die,
        tag := some (TagOf h s), vec := id.toNat, elems := e, attrs := a })) ∧
  (∀ (h : Hdr) (slice : BitVec 6) (index : U8) (id : U32) (s : State) (x : Index),
    let u := Fetched h s; let sl := cmdSlice h.fn.toNat slice.toNat
    Accepts { widths := [6, 8, 32], entry := s.indexNode h slice index } h s → u.defined sl = true → u.openIndex sl index.toNat = some x → id.toNat < x.capacity →
    (u.node x id.toNat).used = true → (u.node x id.toNat).tomb = false →
    exec (.deleteVec h slice index id) s = .next (u.retAccept
      { id := 0, kind := .delete, slice := sl, num := x.num, die := x.die, tag := some (TagOf h s), vec := id.toNat })) ∧
  (∀ (h : Hdr) (o : SearchOps) (s : State) (sl : Nat) (x : Index) (save : Option (Nat × Nat × Nat)) (q f : Bytes),
    let u := Fetched h s
    Accepts { widths := [8, 8, 16, 16, 16, 16, 16, 64, 64, 64, 64, 6, 20], entry := s.searchNode h o } h s →
    fnSlice h.fn.toNat = some sl → u.defined sl = true →
    u.openIndex sl o.index.toNat = some x → searchBad o x = false →
    (if o.filterAddr = 0 then some [] else u.hostRead o.filterAddr.toNat 64) = some f → filterBad f x.attrBytes = false →
    u.saveCheck h.fn.toNat o x = .ok save → u.hostRead o.queryAddr.toNat (2 * x.dims) = some q →
    exec (.search h o) s = .next (u.retAccept
      { id := 0, kind := .search, slice := x.slice, num := x.num, die := x.die,
        lc := o.sflags.toNat % 2 == 1, tag := some (TagOf h s), sflags := o.sflags.toNat, k := o.k.toNat, beam := o.beam.toNat,
        cand := o.cand.toNat, hops := o.hops.toNat, fillHops := o.fillHops.toNat, query := q, filter := f,
        addr := o.resultAddr.toNat, save := save })) ∧
  (∀ (h : Hdr) (handle : U64) (cursor : BitVec 6) (addr : U64) (s : State) (i : Nat) (x : Index),
    let u := Fetched h s; let b := u.cursorSlot i cursor.toNat
    Accepts { widths := [64, 6, 64], entry := handleNode handle } h s → u.cursorSession 0x0207 h.fn.toNat handle = .ok i → byteAt b 1 % 2 = 1 →
    u.openIndex (u.d i).slice (byteAt b 0) = some x → x.serial.toNat = le b 0x10 8 →
    exec (.searchNext h handle cursor addr) s = .next (u.retAccept (u.nextOp i cursor.toNat x b addr.toNat (TagOf h s)))) ∧
  (∀ (h : Hdr) (handle : U64) (cursor : BitVec 6) (s : State) (i : Nat),
    let u := Fetched h s; let b := u.cursorSlot i cursor.toNat
    Accepts { widths := [64, 6], entry := handleNode handle } h s → u.cursorSession 0x0207 h.fn.toNat handle = .ok i → byteAt b 1 % 2 = 1 →
    exec (.cursorDrop h handle cursor) s = .next (Ended (u.putCursor i cursor.toNat (notValid b)) (TagOf h s) 0 []))

/-- TABLE_CREATE, TABLE_DESTROY, GATHER, SCATTER_ADD, SCATTER_SET, TABLE_STAGE, TABLE_SWITCH and HOT_POST, accepted and with their
checks met: the table exists with its objects or is marked destroyed, the row batches join the retrieval queue, a version is
staged or waits to be switched in, and a hot list is posted (R343, R344, R345, R348, R349, R350). -/
def Obligations.TableCommandsComplete : Prop :=
  (∀ (h : Hdr) (o : TableOps) (s : State) (d : Bytes) (r : Reply), let u := Fetched h s; let sl := cmdSlice h.fn.toNat o.slice.toNat
    let rb := o.rowBytes.toNat; let rows := if o.rows = 0 then 2 ^ 32 else o.rows.toNat
    Accepts { widths := [6, 8, 4, 32, 32, 2, 1, 2, 1, 64, 32, 64] } h s → u.defined sl = true →
    64 ≤ rb → rb ≤ 65536 → rb % 64 = 0 → o.rformat ≠ 3 → o.hotMax.toNat ≤ 1048576 → o.tier ≠ 3 → o.die.toNat < (u.dieList sl).length →
    (o.va = 0 ∨ o.va.toNat % 4096 = 0 ∧ inTier (u.tierFor sl 3 o.tier.toNat) o.va.toNat (rows * rb) = true) →
    u.table sl o.table.toNat = none → u.ret.tables.length < 256 → (o.tier = 0 ∨ u.objectMode sl = false) →
    (if o.defaultAddr = 0 then some (zeros rb) else u.hostRead o.defaultAddr.toNat rb) = some d →
    u.makeTable o sl o.die.toNat d (TagOf h s) = r →
    (∀ t st l, r = .done t st l → exec (.tableCreate h o) s = .next (Ended t (TagOf h s) st l)) ∧
    (∀ t, r = .later t → exec (.tableCreate h o) s = .next t)) ∧
  (∀ (h : Hdr) (slice : BitVec 6) (table : U8) (s : State) (x : Table),
    let u := Fetched h s; let sl := cmdSlice h.fn.toNat slice.toNat
    Accepts { widths := [6, 8], entry := s.tableNode h slice table } h s → u.defined sl = true → u.openTable sl table.toNat = some x →
    exec (.tableDestroy h slice table) s =
      .next ((u.setTable { x with destroyed := true, dtag := some (TagOf h s) }).tableGone sl table.toNat) ∧
    (x.staged ≠ none → x.switching = none →
      exec (.tableSwitch h slice table) s = .next (u.setTable { x with switching := some (some (TagOf h s)) })) ∧
    (∀ t va, x.staged = none →
      u.takeObj sl 3 x.tier 0 (units4 (x.rows * x.rowBytes)) none x.prot (some (TagOf h s)) = .ok (t, va) →
      let v := t.setTable { x with staged := some va }
      ((v.createdBy (some (TagOf h s))).all (·.awaited.isEmpty) = true →
        exec (.tableStage h slice table) s = .next (Ended (v.created (some (TagOf h s))) (TagOf h s) 0 [(64, va)])) ∧
      ((v.createdBy (some (TagOf h s))).all (·.awaited.isEmpty) = false → exec (.tableStage h slice table) s = .next v))) ∧
  (∀ (h : Hdr) (o : BatchOps) (s : State) (x : Table) (b : Bytes) (rows : List Bytes),
    let u := Fetched h s; let sl := cmdSlice h.fn.toNat o.slice.toNat; let n := o.count.toNat
    let op := fun (kind : RetKind) (rs : List Bytes) =>
      ({ id := 0, kind := kind, slice := sl, num := o.table.toNat, die := x.die, lc := o.lc == 1, tag := some (TagOf h s), addr := o.addr.toNat, isVa := o.isVa == 1, list := listEntries n b, owner := 0xFFFF, rows := rs } : RetOp)
    Accepts { widths := batchWidths, entry := s.batchNode h o } h s → o.owner = 0xFFFF → u.defined sl = true → u.openTable sl o.table.toNat = some x →
    u.table sl o.table.toNat = some x → 0 < n → n ≤ 65536 → u.hostRead o.listAddr.toNat (8 * n) = some b →
    exec (.gather h o) s = .next (u.retAccept (op .gather [])) ∧
    (u.batchRows o x.rowBytes = some rows →
      exec (.scatterSet h o) s = .next (u.retAccept (op .scatterSet rows)) ∧
      (x.rformat ≠ 0 → exec (.scatterAdd h o) s = .next (u.retAccept (op .scatterAdd rows))))) ∧
  (∀ (h : Hdr) (slice : BitVec 6) (table : U8) (addr : U64) (count : U32) (s : State) (x : Table) (b : Bytes),
    let u := Fetched h s; let sl := cmdSlice h.fn.toNat slice.toNat; let n := count.toNat; let l := listEntries n b
    let x1 := { x with pendingHot := some ((l.filter fun e => !x.badRow e).eraseDups) }
    Accepts { widths := [6, 8, 64, 32], entry := s.tableNode h slice table } h s → u.defined sl = true → u.openTable sl table.toNat = some x → n ≤ x.hotMax →
    u.hostRead addr.toNat (8 * n) = some b → badEntries x.rows l = 0 →
    exec (.hotPost h slice table addr count) s = .next (Ended (u.setTable
      (if tabGet u.srv.jobs sl = none ∧ x.discarded = none then x1.install else x1)) (TagOf h s) 0 []))

/-- COMP_CHANGE, PORT_ENABLE, PORT_DISABLE, PORT_REKEY, CKPT_NOW, CKPT_RESTORE and CKPT_RELEASE, accepted and with their checks
met: the proposal reaches the arbiter, the port comes up, goes down or rekeys, and the slice's checkpoint begins or, behind
one in its way, is deferred and counted, its restore begins or its target is released (R368, R369, R373, R375, R402, R405). -/
def Obligations.CompositionPortAndCheckpointCommandsComplete : Prop :=
  (∀ (h : Hdr) (c : ChangeOps) (s : State) (n a : Nat), let u := Fetched h s; let x := { changeOf c with proposer := n }
    let id := tabFresh u.comp.waiting 0
    let v := { u with comp := { u.comp with waiting := tabPut u.comp.waiting id (TagOf h s) } }
    Accepts { fns := .pf0, priv := 0x070D, widths := [3, 16, 6, 2, 256, 64, 1, 112], noImage := true } h s →
    u.devNo = some n → u.changeBad x = false → u.changeBusy x = false → u.arbiter = some a →
    (u.ownNo = some a → exec (.compChange h c) s = .next (v.enqueueChange { change := x, own := some id })) ∧
    (u.ownNo ≠ some a → exec (.compChange h c) s = .next (v.send a 6 1 0xFF x.args [] (.propose id)))) ∧
  (∀ (h : Hdr) (port : BitVec 6) (s : State), let u := Fetched h s; let v := u.setFld .portCtrl port.toNat 0 0 1 0
    Accepts { fns := .pf0, priv := 0x070D, widths := [6], noImage := true, entry := portNode port } h s → badPort port = false →
    ((v.port port.toNat).state = 0 ∨ (v.port port.toNat).state = 6 →
      exec (.portEnable h port) s = .next (Ended (v.bringup port.toNat) (TagOf h s) 0 [])) ∧
    ((v.port port.toNat).state ≠ 0 → (v.port port.toNat).state ≠ 6 →
      exec (.portEnable h port) s = .next (Ended v (TagOf h s) 0 []))) ∧
  (∀ (h : Hdr) (port : BitVec 6) (s : State), badPort port = false →
    (Accepts { fns := .pf0, priv := 0x070D, widths := [6], wedge := true, noImage := true } h s →
      exec (.portDisable h port) s = .next (Ended ((Fetched h s).portOff port.toNat) (TagOf h s) 0 [])) ∧
    (Accepts { fns := .pf0, priv := 0x070D, widths := [6], noImage := true, entry := portNode port } h s →
      exec (.portRekey h port) s = .next (Ended ((Fetched h s).startRekey port.toNat) (TagOf h s) 0 []))) ∧
  (∀ (h : Hdr) (slice : BitVec 6) (s : State), let u := Fetched h s; let sl := cmdSlice h.fn.toNat slice.toNat
    Accepts { widths := [6], entry := s.stateNodes sl } h s → u.defined sl = true →
    (byteAt (u.ckPolicy sl) 0 = 1 → tabGet u.ck.now sl = none →
      let v : State := { u with ck := { u.ck with now := tabPut u.ck.now sl (TagOf h s) } }
      (¬ (tabGet u.srv.jobs sl = none ∧ u.ckDefers sl = true) → exec (.ckptNow h slice) s = .next (v.ckIdle sl)) ∧
      (tabGet u.srv.jobs sl = none → u.ckDefers sl = true →
        exec (.ckptNow h slice) s = .next ((v.bump .ckptDeferred sl 1).ckIdle sl))) ∧
    ((∀ c ∈ u.ck.flight, c.slice ≠ sl) →
      exec (.ckptRelease h slice) s = .next (Ended (u.releaseTarget sl) (TagOf h s) 0 []))) ∧
  (∀ (h : Hdr) (slice : BitVec 6) (locator ckpt : U64) (s : State) (x : CkTarget) (i : CkImage),
    let u := Fetched h s; let sl := cmdSlice h.fn.toNat slice.toNat
    Accepts { widths := [6, 64, 64], entry := s.stateNodes sl } h s → firstFail (u.restoreChecks sl locator.toNat ckpt.toNat) = none →
    u.targetAt locator.toNat = some x → x.pick ckpt.toNat = some i →
    let v := ((u.ckGesso sl).setTarget { x with slice := sl }).ckLocator sl locator.toNat
    exec (.ckptRestore h slice locator ckpt) s = .next { v with ck := { v.ck with
      restores := v.ck.restores ++ [{ slice := sl, image := i, tag := some (TagOf h s) }] } })

/-- IMAGE_LOAD, ENROL_AUTHOR, REVOKE_AUTHOR, KEYGEN_ADVANCE, GEN_RETIRE and ZEROIZE, accepted and with their checks met: the image
is staged or its load begins, an author fuse is written or revoked, the next generation becomes current and its sweep starts,
a generation is retired, the keys go (R44, R45, R417, R421, R447). -/
def Obligations.ImageAndGenerationCommandsComplete : Prop :=
  (∀ (h : Hdr) (src : U64) (len : U32) (mode : BitVec 2) (s : State), let u := Fetched h s
    s.module ≠ 0 → Accepts { fns := .pf0, priv := 0x0A0F, widths := [64, 32, 2], noImage := true } h s →
    u.fld .imgCtrl 0 0 0 1 = 0 → u.img.load = none → u.spent = false →
    (∀ b, mode.toNat < 2 → u.hostRead src.toNat len.toNat = some b → len.toNat ≤ 2 ^ 26 →
      firstFail (u.imageChecks b len.toNat ++ u.acceptChecks (imageOf b ((u.authorSlot b).getD 0))) = none →
      ∃ v : State, (mode = 1 → exec (.imageLoad h src len mode) s = .next (Ended (v.lastErr 0) (TagOf h s) 0 [])) ∧
        (mode = 0 → exec (.imageLoad h src len mode) s =
          .next (v.startLoad (imageOf b ((u.authorSlot b).getD 0)) (some (TagOf h s)))) ∧
        v.img.staged = some (imageOf b ((u.authorSlot b).getD 0))) ∧
    (∀ i, mode = 2 → u.img.staged = some i → firstFail (u.acceptChecks i) = none →
      exec (.imageLoad h src len mode) s = .next (u.startLoad i (some (TagOf h s)) true))) ∧
  (∀ (h : Hdr) (tokenAddr : U64) (s : State) (b : Bytes) (k : Nat), let u := Fetched h s
    s.module ≠ 0 → Accepts { fns := .pf0, priv := 0x0A0F, widths := [64], noImage := true } h s →
    u.fld .imgCtrl 0 0 0 1 = 0 → u.hostRead tokenAddr.toNat tokenLen = some b → tokenOk b = true →
    (List.range 7).find? (fun k => !(u.author (k + 1)).fused && !(u.author (k + 1)).revoked) = some k →
    exec (.enrolAuthor h tokenAddr) s = .next (Ended { u with sec := { u.sec with authors := tabPut u.sec.authors (k + 1) { u.author (k + 1) with fused := true, keyHash := hashAt b 0 } } } (TagOf h s) 0 [])) ∧
  (∀ (h : Hdr) (slot : U32) (s : State), let u := Fetched h s
    Accepts { fns := .pf0, priv := 0x0A0F, widths := [32], noImage := true } h s → u.fld .imgCtrl 0 0 0 1 = 0 →
    1 ≤ slot.toNat → slot.toNat ≤ 7 →
    exec (.revokeAuthor h slot) s = .next (Ended { u with sec := { u.sec with authors := tabPut u.sec.authors slot.toNat { u.author slot.toNat with revoked := true } } } (TagOf h s) 0 [])) ∧
  (∀ (h : Hdr) (s : State) (g : Nat), let u := Fetched h s
    s.module ≠ 0 → u.module = 1 → Accepts { fns := .pf0, priv := 0x0910, noImage := true } h s →
    u.nextGen = some g → countBits u.inUse 16 < 4 →
    exec (.keygenAdvance h) s = .next (Ended ({ u with sec := { u.sec with current := g, sweep := { u.sec.sweep with active := true } } } : State).keygenChanged (TagOf h s) 0 [])) ∧
  (∀ (h : Hdr) (gen : U32) (s : State), let u := Fetched h s; let g := gen.toNat
    s.module ≠ 0 → u.module = 1 → Accepts { fns := .pf0, priv := 0x0910, widths := [32], noImage := true } h s →
    g ≤ 15 → bitAt u.sec.retired g = false → g ≠ u.sec.current → bitAt u.inUse g = false →
    exec (.genRetire h gen) s = .next (Ended ({ u with sec := { u.sec with retired := u.sec.retired ||| 2 ^ g } } : State).keygenChanged (TagOf h s) 0 [])) ∧
  (∀ (h : Hdr) (s : State),
    Accepts { fns := .pf0, priv := 0x0910, hibernate := true, wedge := true, noImage := true, recovery := true } h s →
    exec (.zeroize h) s = .next (Fetched h s).zeroize)

/-- KEY_RELEASE, BOUND_OPEN, WEIGHT_DECRYPT, CONSENT_INSTALL and CONSENT_REMOVE, accepted and with their checks met: the unwrapped
key takes its slot, the decrypted chunks take their place, the consent is installed and measured or removed (R437, R438, R441,
R444, R445). -/
def Obligations.KeyAndConsentCommandsComplete : Prop :=
  (∀ (h : Hdr) (addr : U64) (s : State) (b key : Bytes), let u := Fetched h s; let sl := byteAt b 8
    s.module ≠ 0 → u.module = 1 → Accepts { fns := .any, priv := 0x0910, widths := [64] } h s → u.readBlob addr.toNat = some b →
    roleBad h.fn.toNat sl = false → u.defined sl = true →
    le b 0 4 = 0x4C455251 → le b 4 2 = 1 → le b 6 2 < 2 → zeroAt b 0xA 6 = true → byteAt b 9 ≤ 15 →
    u.unmeasured = false → bitAt (byteAt (u.policy sl) 0) 2 = true → u.nonceStale b = false → hashAt b 0x50 = u.sliceDigest sl →
    u.serviceBad sl b = false →
    unwrapKey (sub b 0x70 1088) (sub b 0x4B0 48) (b.take 0x70) (sub b 0x30 32 ++ sub b 0x10 32 ++ sub b 0x50 32) "QW5200 release" =
      some key →
    exec (.keyRelease h addr) s = .next (Ended (u.putKey sl (byteAt b 9) key (hashAt b 0x10)) (TagOf h s) 0 [])) ∧
  (∀ (h : Hdr) (slice : BitVec 6) (slot : U32) (addr : U64) (s : State) (b0 b e key : Bytes),
    let u := Fetched h s; let sl := cmdSlice h.fn.toNat slice.toNat
    s.module ≠ 0 → u.module = 1 → Accepts { fns := .any, priv := 0x0910, widths := [6, 32, 64] } h s → u.defined sl = true →
    u.hostRead addr.toNat 256 = some b0 → u.hostRead addr.toNat (256 + 1168 * byteAt b0 0x3C) = some b →
    slot.toNat ≤ 15 → weightHeaderBad b = false → u.unmeasured = false → bitAt (byteAt (u.policy sl) 0) 3 = true →
    tabGet u.sec.consents sl = none → bitAt (le b 6 2) 0 = true → ownEntry b = some e → boundKey b e = some key →
    exec (.boundOpen h slice slot addr) s = .next (Ended (u.putKey sl slot.toNat key (hashAt b 8)) (TagOf h s) 0 [])) ∧
  (∀ (h : Hdr) (slice : BitVec 6) (slot : U32) (src : U64) (first count : U32) (dst : U64) (s t : State) (b : Bytes) (k : KeySlot),
    let u := Fetched h s; let sl := cmdSlice h.fn.toNat slice.toNat
    let n := min (65536 * count.toNat) (le b 0x30 8 - 65536 * first.toNat)
    s.module ≠ 0 → u.module = 1 → Accepts { fns := .any, priv := 0x0910, widths := [6, 32, 64, 32, 32, 64] } h s → u.defined sl = true →
    u.hostRead src.toNat 256 = some b → slot.toNat < 16 → tabGet u.sec.slots (16 * sl + slot.toNat) = some k → k.packageId = hashAt b 8 →
    first.toNat + count.toNat ≤ le b 0x38 4 → u.inProtected sl dst.toNat n = true →
    u.decryptChunks b k.key src.toNat sl ((List.range count.toNat).map (· + first.toNat)) dst.toNat = .ok t →
    exec (.weightDecrypt h slice slot src first count dst) s = .next (Ended t (TagOf h s) 0 [])) ∧
  (∀ (h : Hdr) (slice : BitVec 6) (addr : U64) (s : State) (b : Bytes), let u := Fetched h s; let sl := cmdSlice h.fn.toNat slice.toNat
    let v := u.consentOff sl
    let c : Consent := { cflags := le b 6 2, expiry := BitVec.ofNat 64 (le b 0x50 8), hash := Config.sha3 b }
    let w := ({ v with sec := { v.sec with consents := tabPut v.sec.consents sl c } } : State)
    s.module ≠ 0 → Accepts { fns := .any, priv := 0x0910, widths := [6, 64] } h s → u.defined sl = true →
    bitAt (byteAt (u.policy sl) 0) 1 = true → u.hostRead addr.toNat 3828 = some b → u.consentBad sl b = false →
    exec (.consentInstall h slice addr) s = .next (Ended
      ((w.remeasure (89 + sl) (Config.sha3 b)).eraseSlots (· == sl)).debugChanged (TagOf h s) 0 [])) ∧
  (∀ (h : Hdr) (slice : BitVec 6) (s : State), let u := Fetched h s; let sl := cmdSlice h.fn.toNat slice.toNat
    Accepts { fns := .any, priv := 0x0910, widths := [6] } h s → u.defined sl = true →
    exec (.consentRemove h slice) s = .next (Ended (u.consentOff sl) (TagOf h s) 0 []) ∧
      tabGet (u.consentOff sl).sec.consents sl = none)

/-- DEV_RESET, PKG_RESET, POWER_STATE, FW_LOAD, ERRLOG_READ and THERM_SHUTDOWN, accepted and with their checks met: the reset or
the shutdown happens, Hibernate is entered or left with the completion kept for its end, firmware is staged, activated or
dropped, and the logged records reach host memory (R492, R494, R498, R506, R510, R516). -/
def Obligations.ResetPowerAndFirmwareCommandsComplete : Prop :=
  (∀ (h : Hdr) (scope : BitVec 2) (die : BitVec 5) (slice : BitVec 6) (s : State), let u := Fetched h s; let d := die.toNat
    Accepts { fns := .pf0, widths := [2, 5, 6], hibernate := scope == 0, noImage := true } h s →
    (scope = 0 → exec (.devReset h scope die slice) s = .next (u.warmReset 7)) ∧
    (scope = 1 → d ≤ 18 → (u.die d).powered = true → u.hibernating = false → u.pkg.shutdown = false →
      exec (.devReset h scope die slice) s = .next ((u.dieReset d 7).setDie d
        { (u.dieReset d 7).die d with tags := ((u.dieReset d 7).die d).tags ++ [TagOf h s] })) ∧
    (scope = 2 → u.defined slice.toNat = true →
      exec (.devReset h scope die slice) s = .next (Ended (u.sliceReset slice.toNat false) (TagOf h s) 0 []))) ∧
  (∀ (h : Hdr) (s : State), Accepts { fns := .pf0, wedge := true, hibernate := true, noImage := true, recovery := true } h s →
    exec (.pkgReset h) s = .next ((Fetched h s).packageReset 2) ∧
    exec (.thermShutdown h) s = .next (Ended ((Fetched h s).thermalShutdown 0xFF) (TagOf h s) 0 [])) ∧
  (∀ (h : Hdr) (target force : U1) (s : State), let u := Fetched h s
    Accepts { fns := .pf0, widths := [1, 1], hibernate := true, noImage := true } h s →
    (target = 1 → u.pkg.hib = .awake → u.img.load = none → u.sec.zeroizePending = false → u.pkg.shutdown = false →
      (force = 1 ∨ u.heldInComp = false) →
      exec (.powerState h target force) s = .next { u with pkg := { u.pkg with hib := .entering, hibTags := [TagOf h s] } }) ∧
    (target = 0 → u.pkg.hib = .asleep → ∃ t, exec (.powerState h target force) s = .next t ∧
      t.pkg.hib = .waking ∧ t.pkg.hibTags = [TagOf h s]) ∧
    (target = 0 → u.pkg.hib = .waking → exec (.powerState h target force) s =
      .next { u with pkg := { u.pkg with hibTags := u.pkg.hibTags ++ [TagOf h s] } }) ∧
    (target = 0 → u.pkg.hib = .awake → exec (.powerState h target force) s = .next (Ended u (TagOf h s) 0 []))) ∧
  (∀ (h : Hdr) (src : U64) (len : U32) (target : U1) (mode : BitVec 2) (s : State) (b : Bytes), let u := Fetched h s
    s.module ≠ 0 → Accepts { fns := .pf0, widths := [64, 32, 1, 2], noImage := true, recovery := true } h s → u.img.load = none →
    (mode = 0 → target = 0 → len.toNat ≤ 48 * 2 ^ 20 → u.hostRead src.toNat len.toNat = some b → firstFail (u.fwChecks b len.toNat) = none →
      exec (.fwLoad h src len target mode) s = .next (Ended (u.stageFw (some b)) (TagOf h s) 0 [])) ∧
    (mode = 0 → target = 1 → len.toNat ≤ 2 ^ 26 → u.hostRead src.toNat len.toNat = some b → firstFail (u.imageChecks b len.toNat) = none →
      exec (.fwLoad h src len target mode) s = .next (Ended { u with flash := { u.flash with image := b } } (TagOf h s) 0 [])) ∧
    (mode = 1 → target = 0 → u.flash.staged = true →
      exec (.fwLoad h src len target mode) s = .next (Ended u.fwActivate (TagOf h s) 0 [])) ∧
    (mode = 2 → target = 0 → u.flash.staged = true →
      exec (.fwLoad h src len target mode) s = .next (Ended (u.stageFw none) (TagOf h s) 0 []))) ∧
  (∀ (h : Hdr) (first count : U32) (dst : U64) (s : State), let u := Fetched h s; let l := u.logFrom first.toNat count.toNat
    Accepts { fns := .pf0, widths := [32, 32, 64], hibernate := true, wedge := true, noImage := true, recovery := true } h s →
    1 ≤ count.toNat → count.toNat ≤ 1024 → u.hostOk dst.toNat (l.flatMap LogEntry.bytes).length = true →
    exec (.errlogRead h first count dst) s =
      .next (Ended (u.hostWrite dst.toNat (l.flatMap LogEntry.bytes)) (TagOf h s) 0 [(l.length, 32)]))

/-- The register rows on reset, thermal shutdown, ZEROIZE, ports, the error log and the latched reads, each with its key and its
register reached: PKG_RESET's key 0x5053, THERM_CTRL's key 0x5448, ARM and FIRE within 2^20 cycles, DISABLE, REKEY and
RETRAIN, CONSUME, PKC_LO with PKC_HI latched (R30, R368, R369, R388, R447, R483, R518). -/
def Obligations.ControlRegisterRowsComplete : Prop :=
  (∀ (v : U32) (s : State), s.fieldsRefuse .rstCtrl 0 0 = false → v.toNat / 2 ^ 16 = 0x5053 → v.toNat % 2 = 1 →
    exec (.rstCtrlPkgReset 0 v) s = .next (s.packageReset 2)) ∧
  (∀ (v : U32) (s : State), s.fieldsRefuse .thermCtrl 0 0 = false → v.toNat / 2 ^ 16 = 0x5448 → v.toNat % 2 = 1 →
    exec (.thermCtrlShutdown 0 v) s = .next ((s.writeFields .thermCtrl 0 0 v.toNat).thermalShutdown 0xFF)) ∧
  (∀ s : State, exec (.zeroizeArm 0) s = .next { s with sec := { s.sec with armed := some s.pkg.pkc } }) ∧
  (∀ (s : State) (p : U64), s.sec.armed = some p → s.pkc - p.toNat ≤ 2 ^ 20 → exec (.zeroizeFire 0) s = .next s.zeroize) ∧
  (∀ (port : BitVec 6) (s : State), port.toNat < 48 →
    exec (.portCtrlDisable 0 port) s = .next (s.portOff port.toNat) ∧
    (s.seqDown (16 + port.toNat / 16) = false → s.fld .portCtrl port.toNat 0 0 1 = 0 →
      let v := s.setFld .portCtrl port.toNat 0 0 1 0
      exec (.portCtrlRekey 0 port) s = .next (v.startRekey port.toNat) ∧
      (v.portSlice port.toNat ≠ none → exec (.portCtrlRetrain 0 port) s = .next (v.portFail port.toNat)))) ∧
  (∀ (v : U32) (s : State), s.fieldsRefuse .errlogCtrl 0 0 = false →
    let t := s.writeFields .errlogCtrl 0 0 v.toNat
    let seqs := (t.log.slots.filter fun x => x.1 / 64 == t.fld .errlogCtrl 0 0 0 4 && t.reg .errlogHead 0 0 ≤ x.2.seq).map (·.2.seq)
    (v.toNat / 16 % 2 = 1 → seqs ≠ [] → exec (.errlogCtrlConsume 0 v) s = .next (t.consume (seqs.foldl max 0))) ∧
    (v.toNat / 16 % 2 = 0 → exec (.errlogCtrlConsume 0 v) s = .next t)) ∧
  (∀ (fn : BitVec 6) (s : State), tabGet s.host.latches (latchKey fn.toNat (Reg.pkcLo.addr 0 0)) = none →
    ∃ t : State, exec (.pkcLoRead fn) s = .next (t.emit (.readData fn.toNat (bytesOf 4 (s.pkc % 2 ^ 32)))) ∧
      t = { s with host := { s.host with latches := t.host.latches } } ∧
      tabGet t.host.latches (latchKey fn.toNat (Reg.pkcHi.addr 0 0)) = some (BitVec.ofNat 32 (s.pkc / 2 ^ 32))) ∧
  (∀ (fn : BitVec 6) (off : BitVec 26) (s : State) (r hi : Reg) (u i : Nat),
    regAt (off.toNat / 4 * 4) = some (r, u, i) → r.reach u i fn.toNat false = true → r.row.fields.all (·.acc == .wo) = false →
    (r.row.wedge = true ∨ s.seqDown (r.die u) = false) → r.coarse = false →
    tabGet s.host.latches (latchKey fn.toNat (off.toNat / 4 * 4)) = none →
    (r.latches = none → exec (.loReadLatch fn off) s = .next (s.emit (.readData fn.toNat (bytesOf 4 (s.regValue r u i))))) ∧
    (r.latches = some hi → ∃ t : State, exec (.loReadLatch fn off) s = .next (t.emit (.readData fn.toNat (bytesOf 4 (s.regValue r u i)))) ∧
      t = { s with host := { s.host with latches := t.host.latches } } ∧
      tabGet t.host.latches (latchKey fn.toNat (hi.addr u 0)) = some (BitVec.ofNat 32 (s.regValue hi u 0))))

/-- REG_CFG_WRITE, MTR_SEL_WRITE, EVC_SEL_WRITE, AQ_CFG_WRITE, HI_WRITE_COMMIT and REGISTER_WRITE, each at a register that the
function reaches and that nothing turns away: a regulator's or a meter's values commit together, an event counter is chosen
and zeroed, the admin queues come up or go down, a LO/HI pair commits, a field map's fields take the word (R277, R288, R473,
R480, R483, R511). -/
def Obligations.ConfigurationRegisterRowsComplete : Prop :=
  (∀ (fn slice : BitVec 6) (reg : BitVec 4) (v : U32) (s : State) (k : Nat), let sl := slice.toNat
    let g := (regulRegs reg.toNat).2; let rate := s.reg (regulRegs reg.toNat).1.1 sl (regulRegs reg.toNat).1.2
    reg.toNat < 10 → Writable s g.1 sl g.2 fn.toNat → regulOf g.1 g.2 = some k → k = reg.toNat → s.regulCheck sl k rate (g.1.covered v.toNat) = none →
    exec (.regCfgWrite fn slice reg v) s =
      .next ((s.setReg g.1 sl g.2 (g.1.covered v.toNat)).commitRegul sl k rate (g.1.covered v.toNat))) ∧
  (∀ (fn slice entry : BitVec 6) (v : U32) (s : State), let sl := slice.toNat; let i := entry.toNat; let w := Reg.mtrSel.covered v.toNat
    Writable s .mtrSel sl i fn.toNat → s.meterCheck sl i w = none →
    exec (.mtrSelWrite fn slice entry v) s = .next ((s.setReg .mtrSel sl i w).commitMeter sl i w
      (s.reg .mtrCir sl i) (s.reg .mtrPir sl i) (s.reg .mtrBurst sl i))) ∧
  (∀ (fn slice : BitVec 6) (c : BitVec 4) (v : U32) (s : State), let sl := slice.toNat; let k := c.toNat
    Writable s .evcSel sl k fn.toNat → counterBad (v.toNat % 256) (v.toNat / 256 % 256) = false →
    ((s.sliceEnt sl).getD {}).lacks (v.toNat % 256) (v.toNat / 256 % 256) = false →
    exec (.evcSelWrite fn slice c v) s = .next ((s.setReg .evcSel sl k (v.toNat % 2 ^ 16)).setReg .evcCount sl k 0)) ∧
  (∀ (fn target : BitVec 6) (v : U32) (s : State), let f := target.toNat
    Writable s .aqCfg f 0 fn.toNat →
    (s.fld .aqCfg f 0 31 1 = 0 → v.toNat / 2 ^ 31 % 2 = 1 →
      exec (.aqCfgWrite fn target v) s = .next ((s.writeFields .aqCfg f 0 v.toNat).adminOn f)) ∧
    (s.fld .aqCfg f 0 31 1 = 0 → v.toNat / 2 ^ 31 % 2 = 0 →
      exec (.aqCfgWrite fn target v) s = .next (s.writeFields .aqCfg f 0 v.toNat)) ∧
    (s.fld .aqCfg f 0 31 1 = 1 → v.toNat / 2 ^ 31 % 2 = 0 →
      exec (.aqCfgWrite fn target v) s = .next ((s.setFld .aqCfg f 0 31 1 0).adminOff f))) ∧
  (∀ (fn : BitVec 6) (off : BitVec 26) (v : U32) (s : State) (hi lo : Reg) (u : Nat),
    off.toNat = hi.addr u 0 → Writable s hi u 0 fn.toNat → hi.loOf = some lo →
    exec (.hiWriteCommit fn off v) s = .next (s.writeHi lo hi u fn.toNat (hi.covered v.toNat))) ∧
  (∀ (fn : BitVec 6) (off : BitVec 26) (data : Bytes) (s : State) (r : Reg) (u i : Nat),
    off.toNat % 4 = 0 → data.length = 4 → off.toNat = r.addr u i → Writable s r u i fn.toNat →
    exec (.registerWrite fn off data) s = .next (s.writeAt r u i fn.toNat off.toNat (wordOf data 0)))

/-- Doorbells, BAR4 and MSI-X: a doorbell of the queue's own function with a value in range moves the queue's index; BAR4 reads
and writes the slice's memory; an unmasked vector sends its pending message (R260, R455, R464, R466). -/
def Obligations.DoorbellWindowAndVectorRowsComplete : Prop :=
  (∀ (fn : BitVec 6) (q : BitVec 12) (v : U16) (s : State) (x : Sq), tabGet s.host.sqs q.toNat = some x → x.fn = fn.toNat →
    v.toNat < 2 ^ x.log2 → exec (.sqTailDoorbell fn q v) s =
      .next { s with host := { s.host with sqs := tabPut s.host.sqs q.toNat { x with tail := v.toNat } } }) ∧
  (∀ (fn : BitVec 6) (q : BitVec 12) (v : U16) (s : State) (c : Cq), let n := 2 ^ c.log2
    let c' := { c with head := v.toNat, msgSent := c.ien && v.toNat != c.tail }
    let t := { s with host := { s.host with cqs := tabPut s.host.cqs q.toNat c' } }
    tabGet s.host.cqs q.toNat = some c → c.fn = fn.toNat → v.toNat < n → (v.toNat + n - c.head) % n ≤ (c.tail + n - c.head) % n →
    (c.ien = true → v.toNat ≠ c.tail → exec (.cqHeadDoorbell fn q v) s = .next (t.interrupt c.fn c.vector)) ∧
    (c.ien = false ∨ v.toNat = c.tail → exec (.cqHeadDoorbell fn q v) s = .next t)) ∧
  (∀ (fn : BitVec 6) (q : BitVec 7) (v : U16) (s : State) (e : Evq), let n := 2 ^ e.log2
    let used := (e.tail + 2 * n - e.head) % (2 * n); let adv := (v.toNat + n - e.head % n) % n
    let t := fun left => { s with host := { s.host with eqs := tabPut s.host.eqs q.toNat { e with head := (e.head + adv) % (2 * n), msgSent := left } } }
    tabGet s.host.eqs q.toNat = some e → e.fn = fn.toNat → v.toNat < n → adv ≤ used → ¬ (adv = 0 ∧ used = n) →
    (adv ≠ used → exec (.eqHeadDoorbell fn q v) s = .next ((t true).interrupt e.fn e.vector)) ∧
    (adv = used → exec (.eqHeadDoorbell fn q v) s = .next (t false))) ∧
  (∀ (fn slice : BitVec 6) (ring : BitVec 14) (v : U32) (s : State) (q : TRing), s.tring slice.toNat ring.toNat = some q → q.fn = fn.toNat →
    (2 ^ 32 + v.toNat - q.c) % 2 ^ 32 ≤ (2 ^ 32 + q.p - q.c) % 2 ^ 32 →
    exec (.tringCreditDoorbell fn slice ring v) s =
      .next ((s.setRing (ringKey slice.toNat ring.toNat) { q with c := v.toNat }).passCredit slice.toNat ring.toNat)) ∧
  (∀ (fn : BitVec 6) (write inIde : Bool) (off : BitVec 40) (len : BitVec 12) (data : Bytes) (s : State),
    let f := fn.toNat; let n := if write = true then data.length else len.toNat
    let sl := (fnSlice f).getD (s.fld .bar4Slice f 0 0 6); let va := s.reg64 .bar4BaseLo .bar4BaseHi f + off.toNat
    let xs := (unitsOf va n).map (s.xlate sl)
    off.toNat < 2 ^ s.bar4Size f → s.hibernating = false → s.pkg.shutdown = false → s.pkg.conversion = true → s.defined sl = true →
    (∀ x ∈ xs, x ≠ none) → (∀ x ∈ xs, ∀ y, x = some y → y.prot = false ∧ y.ro = false) → s.accessWait sl va n write = none →
    (write = true → s.cutTo 19 sl va n = false → exec (.bar4Access fn write inIde off len data) s = .next (s.engineWrite sl va data false)) ∧
    (write = false → s.cutFrom 19 sl va n = false → s.vbad sl va n = false → exec (.bar4Access fn write inIde off len data) s =
      .next (s.emit (.readData f (s.vread sl va n))))) ∧
  (∀ (fn : BitVec 6) (vector : BitVec 11) (s : State), let k := 2048 * fn.toNat + vector.toNat
    let t := { s with host := { s.host with msixOn := setInsert s.host.msixOn k } }
    vector.toNat < (if fn.toNat < 2 then 2048 else 256) →
    (s.host.msixPending.contains k = true → exec (.msixUnmask fn vector) s =
      .next (({ t with host := { t.host with msixPending := t.host.msixPending.filter (· != k) } } : State).emit
        (.msix fn.toNat vector.toNat))) ∧
    (s.host.msixPending.contains k = false → exec (.msixUnmask fn vector) s = .next t))

/-- FUNCTION_LEVEL_RESET, POISONED_TLP, IDE_FAILURE, the SPDM, IDE_KM and TDISP requests and the PLDM commands: with the module
approved and the session or the state the request needs, each is answered with its own effect (R415, R429, R431, R470, R471,
R472, R508, R509, R517).
The codes of messages that other standards define are the model's presumption (log entry 7). -/
def Obligations.SecureSessionAndManagementRowsComplete : Prop :=
  (∀ (fn : BitVec 6) (s : State), s.pkg.conversion = true →
    exec (.functionLevelReset fn) s = .next (if fn = 0 then s.warmReset 6 else s.functionReset fn.toNat)) ∧
  (∀ (fn : BitVec 6) (a : U64) (s : State),
    exec (.poisonedTlpReceived fn a) s = .next (s.logErr 0x0012 19 0xFF 0 fn.toNat (some a.toNat))) ∧
  (∀ (fn : BitVec 6) (s : State), 2 ≤ fn.toNat → s.tdiLocked fn.toNat = true →
    exec (.ideFailure fn) s = .next (s.setTdi fn.toNat .error)) ∧
  (∀ s : State, s.module = 1 → ∃ t : State, exec .getVersion s = .next (t.emit (.spdm 0x04 [0, 0x13])) ∧
    t.spdm = { s.spdm with version := true, capabilities := false, algorithms := false, transcript := [0x84, 0, 0x13] }) ∧
  (∀ (sec : Bool) (s : State), s.module = 1 → (sec = true → s.spdm.secured ≠ none) → s.spdm.version = true →
    exec (.getCapabilities sec) s = .next (((s.setSpdm { s.spdm with capabilities := true }).heard [0xE1]).emit (.spdm 0x61 []))) ∧
  (∀ (sec sha mldsa : Bool) (s : State), s.module = 1 → (sec = true → s.spdm.secured ≠ none) → s.spdm.capabilities = true →
    exec (.negotiateAlgorithms sec sha mldsa) s = .next (((s.setSpdm { s.spdm with algorithms := sha && mldsa }).heard [0xE3]).emit
      (.spdm 0x63 [BitVec.ofBool sha |>.zeroExtend 8, BitVec.ofBool mldsa |>.zeroExtend 8]))) ∧
  (∀ (sec : Bool) (s : State), s.module = 1 → (sec = true → s.spdm.secured ≠ none) → s.spdm.algorithms = true →
    exec (.getDigests sec) s = .next ((s.heard [0x81]).emit (.spdm 0x01 (hashBytes (Config.sha3 s.flash.certs)))) ∧
    (∀ off len : U16, hashBytes (Config.sha3 s.flash.certs) = certHash → exec (.getCertificate sec 0 off len) s =
      .next ((s.heard [0x82]).emit (.spdm 0x02 (sub s.flash.certs off.toNat len.toNat)))) ∧
    (∀ nonce : U256, let b := hashBytes (Config.sha3 s.flash.certs) ++ hashBytes nonce
      exec (.challenge sec 0 nonce) s = .next ((s.drew.heard b).emit (.spdm 0x03 (b ++ s.spdmSign b)))) ∧
    (∀ (i : U8) (nonce : U256), let b := hashBytes (s.measValue i.toNat) ++ hashBytes nonce
      1 ≤ i.toNat → i.toNat ≤ 154 →
      exec (.getMeasurements sec i nonce) s = .next ((s.drew.heard b).emit (.spdm 0x60 (b ++ s.spdmSign b))))) ∧
  (∀ s : State, s.module = 1 → s.spdm.secured ≠ none →
    exec .endSession s = .next ((s.setSpdm { s.spdm with secured := none, keyUpdates := 0 }).emit (.spdm 0x6C [])) ∧
    exec .heartbeat s = .next (s.emit (.spdm 0x68 [])) ∧
    exec .keyUpdate s = .next ((s.setSpdm { s.spdm with keyUpdates := s.spdm.keyUpdates + 1 }).emit (.spdm 0x69 []))) ∧
  (∀ (ct ss : Bytes) (s : State), s.module = 1 → s.spdm.algorithms = true → s.spdm.secured = none →
    Config.kemDecap deviceKemSeed ct = some ss →
    ∃ (t : State) (body : Bytes), exec (.kemStart ct) s = .next (t.emit (.spdm 0xFE body)) ∧ t.spdm.secured = some ss) ∧
  (∀ (m stream : BitVec 3) (fn : BitVec 6) (s : State), s.host.spdm.secured ≠ none →
    let t := fun ide => ({ s with host := { s.host with ide := ide } } : State).emit
      (.spdm 0xFE (bytesOf 1 m.toNat ++ bytesOf 1 stream.toNat))
    (m = 4 → exec (.ideKm m stream fn) s = .next (t (tabPut s.host.ide stream.toNat fn.toNat))) ∧
    (m = 5 → exec (.ideKm m stream fn) s = .next (t (tabDel s.host.ide stream.toNat))) ∧
    (m ≠ 4 → m ≠ 5 → exec (.ideKm m stream fn) s = .next (t s.host.ide))) ∧
  (∀ (fn : BitVec 6) (s : State), let f := fn.toNat
    s.module = 1 → s.spdm.secured ≠ none → 2 ≤ f →
    (s.tdi f = .unlocked → s.defined (f - 2) = true → s.ideBound f = true → exec (.lockInterface fn) s =
      .next ((s.setTdi f .locked).emit (.tdisp 0x03 (s.interfaceReport (f - 2))))) ∧
    (s.tdi f = .locked → exec (.startInterfaceRequest fn) s = .next ((s.setTdi f .run).emit (.tdisp 0x06 []))) ∧
    (s.tdi f ≠ .unlocked → exec (.stopInterface fn) s =
      .next (((s.sliceReset (f - 2) true).setTdi f .unlocked).emit (.tdisp 0x07 [])))) ∧
  (∀ s : State, exec .pldmPkgReset s = .next ((s.emit (.pldm [0])).packageReset 2) ∧
    exec .pldmThermalShutdown s = .next ((s.emit (.pldm [0])).thermalShutdown 0xFF) ∧
    exec .pldmZeroizeArm s = .next (({ s with sec := { s.sec with armedPldm := some s.pkg.pkc } } : State).emit (.pldm [0])) ∧
    (∀ p, s.sec.armedPldm = some p → s.pkc - p.toNat ≤ 2 ^ 20 → exec .pldmZeroizeFire s = .next (s.emit (.pldm [0])).zeroize) ∧
    (∀ port : BitVec 6, port.toNat < 48 → exec (.pldmPortDisable port) s = .next ((s.portOff port.toNat).emit (.pldm [0]))) ∧
    (∀ first count : U32, let l := s.logFrom first.toNat (min count.toNat 1024)
      exec (.pldmErrlogRead first count) s = .next (({ s with log := { s.log with
        alert := s.log.alert.filter fun k => !(l.map (·.seq)).contains k } } : State).emit (.pldm (0 :: l.flatMap LogEntry.bytes)))))

/-- The supplies, PWRGOOD, PERST#, the reference clock and the PLLs: VAUX12 and VIN48 applied and PWRGOOD asserted bring the
package on when all supplies are good, a lost supply is a cold reset, PERST# asserted a package reset, a lost PLL a die or a
package reset with its CLK_LOSS bit (R27, R490, R529, R530, R531, R533). -/
def Obligations.SupplyResetAndClockRowsComplete : Prop :=
  (∀ s : State, s.pkg.vaux12 = false → let t := s.coldReset false
    exec .vaux12Applied s = .next ({ t with pkg := { t.pkg with vaux12 := true, vio18 := true } } : State).powerOn) ∧
  (∀ s : State, exec .vin48Applied s = .next ({ s with pkg := { s.pkg with vin48 := true } } : State).powerOn) ∧
  (∀ (straps : U8) (s : State), s.pkg.pwrgood = false → s.pkg.coldPending = true → s.pkg.vaux12 = true → s.pkg.vio18 = true →
    exec (.pwrgoodAssert straps) s = .next ({ s with pkg := { s.pkg with pwrgood := true, straps := straps } } : State).powerOn) ∧
  (∀ s : State, s.pkg.conversion = true →
    exec .pwrgoodDeassert s = .next (({ s with pkg := { s.pkg with pwrgood := false } } : State).coldReset true) ∧
    exec .vin48OutOfRange s = .next (({ s with pkg := { s.pkg with vin48 := false } } : State).coldReset true) ∧
    exec .vio18Low s = .next (({ s with pkg := { s.pkg with vio18 := false } } : State).coldReset true)) ∧
  (∀ s : State, s.pkg.vaux12 = true → let t := s.coldReset false
    exec .vaux12Removed s = .next { t with pkg := { t.pkg with vaux12 := false, vio18 := false } }) ∧
  (∀ s : State, s.pkg.perst = false → s.goodPower = true →
    exec .perstNAssert s = .next (({ s with pkg := { s.pkg with perst := true } } : State).packageReset 1)) ∧
  (∀ (width speed : BitVec 4) (flit l0p : Bool) (s : State), s.pkg.conversion = true → s.pkg.pcieLocked = true → s.pkg.vio18 = true →
    exec (.perstNDeassert width speed flit l0p) s = .next (({ s with pkg := { s.pkg with perst := false } } : State).setReg .pcieLink 0 0
      (width.toNat * 256 + speed.toNat * 16 + boolBit l0p * 2 + boolBit flit))) ∧
  (∀ s : State, s.pkg.refclk = true → s.pkg.conversion = true →
    let on := (List.range 20).filter fun d => (s.die d).powered && (s.die d).locked
    exec .refclkStop s = .next (((on ++ [20]).foldl State.lockLost { s with pkg := { s.pkg with refclk := false } }).packageReset 4)) ∧
  (∀ s : State, s.pkg.refclk = false → ∃ t, exec .refclkRestart s = .next t ∧ t.pkg.refclk = true ∧ t.pkg.pcieLocked = s.pkg.conversion ∧
    t.pkg.dies = s.pkg.dies.map fun x => (x.1, if x.2.powered then { x.2 with locked := true, lockPkc := s.pkg.pkc } else x.2)) ∧
  (∀ (pll : BitVec 5) (s : State), let n := pll.toNat; s.pkg.conversion = true → n ≤ 20 →
    (19 ≤ n → exec (.pllLockLoss pll) s = .next ((s.lockLost n).packageReset 4)) ∧
    (n < 19 → (s.die n).powered = true → (s.die n).locked = true → let t := (s.lockLost n).dieReset n 8
      exec (.pllLockLoss pll) s = .next (t.setDie n { t.die n with locked := t.pkg.refclk, lockPkc := t.pkg.pkc }))) ∧
  (∀ s : State, s.pkg.vaux12 = true →
    exec .vio18Restored s = .next ({ s with pkg := { s.pkg with vio18 := true } } : State).powerOn)

/-- Die release, the thermal trip, self-tests, the boot ROM's measurements, the boot image, the trial boot's and the watchdogs'
limits and the image commit (R27, R48, R411, R412, R493, R504, R507, R516). -/
def Obligations.BootAndHealthRowsComplete : Prop :=
  (∀ (die : BitVec 5) (s : State), let d := die.toNat; let x := s.die d; let t := s.setDie d { x with released := true, pkc := s.pkg.pkc }
    s.pkg.conversion = true → d < 20 → x.powered = true → x.locked = true → x.released = false → 655360 ≤ s.pkc - x.lockPkc.toNat →
    (d = 19 ∨ (s.die 19).released = true ∧ s.fld .fwStatus 0 0 7 1 = 0 ∧ s.pkg.shutdown = false ∧
      (s.pkg.ready = true ∨ s.earlierHeld d = false)) →
    exec (.dieRelease die) s = .next (if 16 ≤ d ∧ d < 19 then
      (List.range 16).foldl (fun (t : State) p => t.bringup (16 * (d - 16) + p)) t else t)) ∧
  (∀ (die : BitVec 5) (s : State), let d := die.toNat; d ≤ 19 →
    exec (.thermalTrip die) s = .next ((s.setDie d { s.die d with temp := max 115 (s.die d).temp }).thermalShutdown d)) ∧
  (∀ (die : BitVec 5) (s : State), let d := die.toNat; let t := s.setDie d { s.die d with pipeTested := true }
    8 ≤ d → d ≤ 19 → (s.die d).released = true → s.module ≠ 2 →
    (t.module = 0 → (∀ k < 12, (t.die (8 + k)).pipeTested = true) → exec (.selftestDone die) s = .next (t.setFld .secStatus 0 0 12 2 1)) ∧
    (t.module ≠ 0 ∨ (∃ k < 12, (t.die (8 + k)).pipeTested = false) → exec (.selftestDone die) s = .next t)) ∧
  (∀ (die : BitVec 5) (test : U8) (s : State), s.pkg.conversion = true → s.module ≠ 2 →
    exec (.selftestFailure die test) s = .next (s.moduleError die.toNat test.toNat)) ∧
  (∀ (die : BitVec 5) (stage : Bytes) (s : State), let d := die.toNat; let x := s.die d
    let h := hashAt s.flash.running (0x10 + 40 * stageKind d + 8)
    d ≤ 19 → x.released = true → x.measured = false → s.flash.running ≠ [] → Config.sha3 stage = h →
    exec (.dieFirmwareMeasured die stage) s = .next (x.tags.foldl (fun (t : State) g => t.complete g 0 0 [])
      (s.setDie d { x with measured := true, meas := h, certified := true, wdArmed := true, wdPkc := x.pkc, tags := [] }).diesChanged)) ∧
  (∀ s : State, s.pkg.conversion = true → s.pkg.ready = false → s.flash.running ≠ [] → s.diesReleased = true → s.module ≠ 0 →
    let i := imageOf s.flash.image ((s.authorSlot s.flash.image).getD 0)
    let t : State := { s with pkg := { s.pkg with hbmLost := false, selfRefresh := false, ready := true } }
    let take := s.fld .imgCtrl 0 0 1 1 = 0 ∧ s.spent = false ∧ s.img.running = none ∧
      firstFail (s.imageChecks s.flash.image s.flash.image.length ++ [(i.partial_, 0x0A0B)]) = none
    (take → exec .bootImageLoad s = .next (t.installFirst i).trialDone) ∧ (¬ take → exec .bootImageLoad s = .next t.trialDone)) ∧
  (∀ s : State, s.pkg.conversion = true → s.fld .fwStatus 0 0 2 1 = 1 → 2 ^ 32 ≤ s.pkc - s.flash.trialPkc.toNat →
    let k := s.fld .fwStatus 0 0 0 1
    let t : State := { s with flash := s.flash.write { s.flash.record with active := BitVec.ofNat 1 (1 - k), trial := false } }
    exec .trialBootTimeout s = .next (((t.setFld .fwStatus 0 0 3 1 1).logErr 0x000E 19 0xFF 0 k none).packageReset 10)) ∧
  (∀ (die : BitVec 5) (s : State), let d := die.toNat; let x := s.die d
    d ≤ 19 → x.wdArmed = true → x.halted = false → 2 ^ 27 ≤ x.pkc.toNat - x.wdPkc.toNat →
    (d = 19 → exec (.watchdogExpiry die) s = .next ((s.setDie d { x with wdPkc := x.pkc }).logErr 0x0011 19 0xFF 0 19 none)) ∧
    (d ≠ 19 → exec (.watchdogExpiry die) s = .next ((s.logErr 0x000F d 0xFF 0 d none).dieReset d 9))) ∧
  (∀ (s : State) (l : Load), s.img.load = some l →
    (s.img.running = none → exec .imageCommit s = .next (((s.installFirst l.image).lastErr 0).completeOpt l.tag 0 [])) ∧
    (s.img.running ≠ none → let t := l.named.foldl (fun (t : State) sl => t.discardWinter (s.amended l.image) sl) s
      exec .imageCommit s = .next (((t.install l.image l.named t).lastErr 0).completeOpt l.tag 0 [])))

/-- The step of a job and the instances of its kernels: a step begins over its batch and ends when both phases and all mirrors are
over, the next instance is placed, a drained one leaves its core, and a record is issued, waited for, signalled, looped,
yielded or ends its instance (R222, R226, R227, R236, R237, R245, R249). -/
def Obligations.StepInstanceAndRecordRowsComplete : Prop :=
  (∀ (slice : BitVec 6) (s : State) (j : Job) (p : Prog), let sl := slice.toNat
    tabGet s.srv.jobs sl = some j → s.curProg sl = some p →
    (j.state = .running → j.inStep = false → s.loading sl = false → s.pkg.hib = .awake → s.clocksOff = false → s.batchOf sl ≠ [] →
      exec (.stepStart slice) s = .next (s.stepBegin sl j p)) ∧
    (s.stepOver j = true → exec (.stepEnd slice) s = .next (s.stepEnds sl j p)) ∧
    (∀ i c j', s.nextPlace j = some (i, c, j') → exec (.instancePlace slice) s = .next (s.placed sl i c j'))) ∧
  (∀ (core : BitVec 9) (s : State) (i : Inst), let c := core.toNat
    (s.core c).inst = some i → (i.ending = true ∨ i.faulted = true) → (s.core c).drained = true →
    exec (.instanceEnd core) s = .next (s.instGone c)) ∧
  (∀ (core : BitVec 9) (s : State) (i : Inst) (r : Rec), let c := core.toNat; let k := kernelOf (s.klib i.slice) i.kernel
    s.nextRec c = some (i, r) →
    (¬ (2 ≤ r.kind ∧ r.kind ≤ 6) → 32 * i.pos < k.len → r.kind ≠ 0 → r.kind < 7 → opcodeKnown r.engine r.op = true →
      bitAt (s.engines i.slice c) r.engine = true → ((s.core c).queue r.engine).length < queueDepth r.engine →
      exec (.engineRecord core) s = .next (s.setCore c { s.core c with inst := some { i with pos := i.pos + 1 }, queues := tabPut (s.core c).queues r.engine ((s.core c).queue r.engine ++ [{ op := r.op, setMask := r.setMask, waitMask := r.waitMask, clear := r.clear, operands := r.operands }]) })) ∧
    (flagsSet i.flags r.waitMask = true →
      (r.kind = 2 → exec (.waitRecord core) s = .next (s.issued c i r (i.pos + 1))) ∧
      (r.kind = 3 → exec (.signalRecord core) s = .next (s.issued c i r (i.pos + 1))) ∧
      (let v := (2 ^ 32 + i.loops.getD r.op 0 - 1) % 2 ^ 32; let back := le r.operands 0 2
        r.kind = 4 → r.op < 8 → (v = 0 ∨ back ≤ i.pos) → exec (.loopRecord core) s = .next (s.issued c
          { i with loops := ((i.loops ++ List.replicate 8 0).take 8).set r.op v } r (if v = 0 then i.pos + 1 else i.pos - back))) ∧
      (r.kind = 5 → i.cls ≠ .be → exec (.yieldRecord core) s = .next (s.issued c i r (i.pos + 1))) ∧
      (r.kind = 6 → exec (.endRecord core) s = .next (s.issued c { i with ending := true } r (i.pos + 1))))) ∧
  (∀ (core : BitVec 9) (e : BitVec 3) (s : State) (q : EngCmd) (rest : List EngCmd), let x := s.core core.toNat
    x.queue e.toNat = q :: rest → q.done = true →
    exec (.engineCommandDone core e) s = .next (s.setCore core.toNat { x with
      queues := tabPut x.queues e.toNat rest, inst := x.inst.map fun i => { i with flags := i.flags ||| q.setMask } }))

/-- The engines' commands, each at the head of its engine's queue with its wait mask set, its operands inside the store and
unpoisoned and, where it names slice memory, that memory present: the matrix tile and its output, the attention over blocks
and the merge, the vector functions, appended key and value rows, the sampled or verified tokens, and the movers; the command
is done with it (R118, R147, R166, R167, R199, R223, R225, R227, R252, R256). -/
def Obligations.EngineCommandRowsComplete : Prop :=
  (∀ (core : BitVec 9) (me : U1) (o : MmOps) (s : State) (i : Inst) (q : EngCmd),
    let c := core.toNat; let x := s.core c; let fa := s.promotedFormat i.slice i.layer o.fa.toNat (o.monitored == 1); let fb := o.fb.toNat
    let rs := (o.a.flatten.flatMap fun r => blkRanges r fa (o.aSide == 1) false x) ++
      (o.b.flatten.flatMap fun r => blkRanges r fb (o.bSide == 1) (o.bPacked == 1) x)
    s.engHead c me.toNat 1 = some (i, q) → pairSupported fa fb = true →
    (∀ r ∈ rs, s.inStore i r.1 r.2 = true ∧ x.bad r.1 r.2 = false) →
    let va := x.operand o.a fa (o.aSide == 1) false; let vb := x.operand o.b fb (o.bSide == 1) (o.bPacked == 1)
    illegalIn va = 0 → illegalIn vb = 0 →
    let r := mmTile x.acc me.toNat o.bank.toNat (o.clear == 1) (va.map fun r => r.filterMap id) (vb.map fun r => r.filterMap id)
    exec (.mm core me o) s = .next ((((s.setCore c { x with acc := r.1 }).countResults 0 r.2).evc i.slice 0x41 (c / 64)
      (if o.a.length * o.b.length = 0 then 0 else 1)).engDone c me.toNat)) ∧
  (∀ (core : BitVec 9) (me : U1) (bank : BitVec 2) (dst : BitVec 23) (s : State) (i : Inst) (q : EngCmd),
    let c := core.toNat; let x := s.core c; let w := x.bank me.toNat bank.toNat
    s.engHead c me.toNat 2 = some (i, q) →
    (s.inStore i dst.toNat 16384 = true → exec (.accOut core me bank dst 0) s =
      .next (((s.setCore c (x.write dst.toNat (wordBytes w))).countResults (nansOf w) 0).engDone c me.toNat)) ∧
    (s.inStore i dst.toNat 8192 = true → ∃ t : State, exec (.accOut core me bank dst 1) s = .next (t.engDone c me.toNat) ∧
      t.core c = x.write dst.toNat (halfBytes w))) ∧
  (∀ (core : BitVec 9) (o : AttnOps) (s : State) (i : Inst) (q : EngCmd) (p : Prog), let c := core.toNat
    s.engHead c 2 1 = some (i, q) → s.curProg i.slice = some p → s.geom i.slice = some p.geom → s.attnWaits o p.geom = false →
    s.inStore i o.query.toNat (o.rows.toNat * o.heads.toNat * p.headDim * 2) = true →
    s.inStore i o.out.toNat (o.rows.toNat * o.heads.toNat * (8 + 4 * p.headDim)) = true →
    (s.core c).bad o.query.toNat (o.rows.toNat * o.heads.toNat * p.headDim * 2) = false →
    (∀ qb ∈ queryBlocks o.rows.toNat, ∀ b ∈ s.attnBlocks o p.geom qb, ∀ x ∈ b, ∃ r die, x.2 = .row r false die ∧
      s.pathOk (c / 64) die = true) →
    exec (.attn core o) s = .next ((s.attn c o i).engDone c 2)) ∧
  (∀ (core : BitVec 9) (list : BitVec 23) (count rows heads : U16) (out : BitVec 23) (s : State) (i : Inst) (q : EngCmd) (p : Prog),
    let c := core.toNat; let n := rows.toNat * heads.toNat; let d := p.headDim; let sz := 8 + 4 * d
    s.engHead c 2 2 = some (i, q) → s.curProg i.slice = some p → s.ringMissing i = false →
    s.inStore i list.toNat (count.toNat * n * sz) = true → (s.core c).bad list.toNat (count.toNat * n * sz) = false →
    s.inStore i out.toNat (n * (outputBytes (s.attnFormat i.slice i.layer) (List.replicate d 0)).length) = true →
    exec (.merge core list count rows heads out) s =
      .next ((s.merge c list.toNat count.toNat rows.toNat heads.toNat out.toNat i).engDone c 2)) ∧
  (∀ (core : BitVec 9) (o : FuncOps) (s : State) (i : Inst) (q : EngCmd), let c := core.toNat; let code := o.code.toNat
    s.engHead c 3 1 = some (i, q) → code ≠ 0 → code < 0x10 →
    exec (.func core o) s = .next ((if code = 0x0D then s.funcQuantise c o i else if code = 0x0E then s.funcDequantise c o i
      else s.funcPlain c o i).engDone c 3)) ∧
  (∀ (core : BitVec 9) (index : BitVec 24) (layer : U8) (src : BitVec 23) (first rows : U16) (s : State) (i : Inst) (q : EngCmd)
    (p : Prog) (t : State), let c := core.toNat; let n := index.toNat; let f := s.appendFrom n first.toNat
    s.engHead c 4 1 = some (i, q) → s.curProg i.slice = some p → s.appendMeets n layer.toNat f rows.toNat = .ok →
    s.inStore i src.toNat (rows.toNat * 4 * p.kvHeads * p.headDim) = true →
    (s.core c).bad src.toNat (rows.toNat * 4 * p.kvHeads * p.headDim) = false →
    (∀ k < rows.toNat, ∀ pg, (s.kvOf n).pageOf layer.toNat (f + k) = some pg → s.cutAt (c / 64) pg.elem = false) →
    s.appendAll (c / 64) (s.core c) n layer.toNat src.toNat f p rows.toNat = some t →
    exec (.append core index layer src first rows) s = .next (t.engDone c 4)) ∧
  (∀ (core : BitVec 9) (logits : MvAddr) (index : BitVec 24) (vocab : U32) (drafts : BitVec 4) (s : State) (i : Inst) (q : EngCmd) (r : BatchRow),
    let c := core.toNat; let n := index.toNat
    s.mirrorWaits n = false → s.openRow i.slice n = some r → i.sessions.contains n = true →
    (s.engHead c 5 1 = some (i, q) → exec (.sample core logits index vocab) s =
      .next ((s.sample c logits n vocab.toNat i).engDone c 5)) ∧
    (s.engHead c 5 2 = some (i, q) → exec (.verify core logits index drafts) s =
      .next ((s.verify c logits n drafts.toNat i).engDone c 5))) ∧
  (∀ (core : BitVec 9) (src dst : MvAddr) (len : U32) (bc : U1) (s : State) (i : Inst) (q : EngCmd),
    let c := core.toNat; let sl := i.slice; let a := s.mvReach sl src; let b := s.mvReach sl dst; let n := len.toNat
    s.engHead c 6 1 = some (i, q) → s.moving c = false → (bc = 1 → (s.broadcast c).any s.moving = false) → (∀ r ∈ mvStore a n ++ mvStore b n, s.inStore i r.1 r.2 = true) →
    s.mvGuard sl b n = none → s.mvAccess sl a false n = .ok → s.mvAccess sl b true n = .ok →
    exec (.mvCopy core src dst len bc) s = .next ((s.move c a b n (bc == 1) i).mvFinish c sl n (bc == 1))) ∧
  (∀ (core : BitVec 9) (list : BitVec 23) (size count : U32) (dst : MvAddr) (s : State) (i : Inst) (q : EngCmd),
    let c := core.toNat; let sl := i.slice
    let rows := (List.range count.toNat).map fun k =>
      (s.mvReach sl (.slice (BitVec.ofNat 52 (le ((s.core c).read (list.toNat + 8 * k) 8) 0 8))), s.mvReach sl (MvPlus dst (size.toNat * k)))
    s.engHead c 6 2 = some (i, q) → s.moving c = false →
    (∀ r ∈ (list.toNat, 8 * count.toNat) :: mvStore dst (size.toNat * count.toNat), s.inStore i r.1 r.2 = true) →
    (s.core c).bad list.toNat (8 * count.toNat) = false →
    (∀ r ∈ rows, s.mvGuard sl r.2 size.toNat = none ∧ s.mvAccess sl r.1 false size.toNat = .ok ∧ s.mvAccess sl r.2 true size.toNat = .ok) →
    exec (.mvGather core list size count dst) s = .next
      ((rows.foldl (fun t r => t.move c r.1 r.2 size.toNat false i) s).mvFinish c sl (size.toNat * count.toNat) false)) ∧
  (∀ (pa : U64) (s : State), s.cnv.prio.contains pa.toNat = true → let v := s.ceFill
    let t := ((v.copySets pa.toNat).filter fun x => v.ceHolds x.1 (x.2 + 1)).foldl (fun v x => v.prioCopied pa.toNat x) v
    (t.copySets pa.toNat = [] → exec (.priorityCopyDone pa) s = .next (t.clearGuard pa.toNat).ceFill) ∧
    (t.copySets pa.toNat ≠ [] → exec (.priorityCopyDone pa) s = .next t.ceFill))

/-- Canvas work, the ends of parks, thaws, streams and closings, palette compiles and the end rows of checkpoints and restores:
each, when what it waits for is there, has its effect (R72, R81, R97, R107, R113, R114, R116, R179, R395, R400, R403). -/
def Obligations.CanvasStreamAndCheckpointRowsComplete : Prop :=
  (∀ (index : BitVec 24) (item : BitVec 20) (s : State) (o : CanvasOp), let n := item.toNat
    s.opOf index.toNat = some o → s.ceFill.ceHolds o n = true → s.ceFill.itemCut o n = false → s.ceFill.itemBad o n = false →
    exec (.canvasWorkItem index item) s = .next (s.ceFill.doItem o n).ceFill) ∧
  (∀ (index : BitVec 24) (s : State) (o : CanvasOp), s.opOf index.toNat = some o → o.waiting = false → o.placed = true →
    s.dieUp (homeDie o.index) = true → o.items = [] →
    (o.kind = 3 → exec (.parkEnd index) s = .next (s.sendMigration o)) ∧
    (o.kind = 1 → o.tier ≠ 2 → exec (.parkEnd index) s = .next (s.finishPark o)) ∧
    (o.kind = 1 → o.tier = 2 → o.sent = false → exec (.parkEnd index) s = .next (s.sendPark o)) ∧
    (o.kind = 1 → o.tier = 2 → o.sent = true → s.canvasOut o.index = false → o.status = 0 →
      exec (.parkEnd index) s = .next (s.finishPark o)) ∧
    (∀ h, o.kind = 5 → s.hoOf o.canvas.sessionId false = some h → o.tier ≠ 2 →
      exec (.parkEnd index) s = .next (s.finishWinterIn h o))) ∧
  (∀ (die : BitVec 3) (s : State), s.dieUp die.toNat = true → tabGetD s.cnv.idleChecked 0 die.toNat < s.pkc / 2 ^ 26 →
    let t := { s with cnv := { s.cnv with idleChecked := tabPut s.cnv.idleChecked die.toNat (s.pkc / 2 ^ 26) } }
    let due := fun i => homeDie i == die.toNat && s.reg64 .sessIdleLimitLo .sessIdleLimitHi (s.d i).slice != 0 &&
      decide (s.reg64 .sessIdleLimitLo .sessIdleLimitHi (s.d i).slice < s.idleFor i)
    exec (.idleParkCheck die) s = .next ((t.victims due).foldl (fun u i => u.ownPark 1 i false) t)) ∧
  (∀ (index : BitVec 24) (s : State) (c : Canvas), let i := index.toNat; let d := s.d i
    d.season = .winter → d.op = .none → d.active.live = true → s.loading d.slice = false → s.dieUp (homeDie i) = true →
    s.locked (homeDie i) < 65536 → s.ceFree (homeDie i) = true → s.lcWaits (homeDie i) = false → s.thawChecks i = .ok c →
    exec (.runaheadThawStart index) s = .next (((s.startThaw i c false true).carryThaw i false false).sessEvent i .winter .spring 3)) ∧
  (∀ (index : BitVec 24) (s : State) (o : CanvasOp), let i := index.toNat
    s.opOf i = some o → o.small = false → o.todo = [] →
    (o.kind = 2 → (s.d i).season = .spring → exec (.thawEnd index) s = .next (s.finishThaw o)) ∧
    (∀ h, o.kind = 4 → o.waiting = false → o.status = 0 → s.hoOf o.canvas.sessionId false = some h →
      exec (.thawEnd index) s = .next (s.finishMigrateIn h o))) ∧
  (∀ (index : BitVec 24) (page : BitVec 20) (s : State) (o : CanvasOp) (q : CanvasPage), let i := index.toNat; let n := page.toNat
    s.streamOf i = some o → o.todo.head? = some n → o.canvas.pages[n]? = some q → (s.ax i).streamFailed = false →
    s.dieUp (s.itemDie o (n + 1)) = true → s.itemCut o (n + 1) = false → q.bad = false →
    let t := (s.ceBytes (s.d i).slice (s.itemDie o (n + 1)) q.data.length).rebuildPage o n
    exec (.streamPageArrival index page) s = .next (t.streamDone i)) ∧
  (∀ (slice : BitVec 6) (va : BitVec 52) (s : State) (w i k : Nat) (d : Desc) (g : Geom) (o : CanvasOp),
    windowOf va.toNat = some w → s.windowOwner slice.toNat w = some (i, d) → s.geom slice.toNat = some g → s.streamOf i = some o →
    streamPageAt g d o (va.toNat - windowBase w) = some k →
    exec (.streamFault slice va) s = .next { s with cnv := { s.cnv with ops := s.cnv.ops.map fun x => if x == o then { x with todo := k :: x.todo.filter (· != k) } else x } }) ∧
  (∀ (index : BitVec 24) (s : State), (s.d index.toNat).season = .closing →
    exec (.closeEnd index) s = .next (s.closeEnd index.toNat)) ∧
  (∀ (index : BitVec 12) (s : State) (q : Pal) (b : Bytes), let sect := (s.sect 0x0007 q.slice q.index).getD []
    let t := s.palWrite q sect b
    tabGet s.srv.pals index.toNat = some q → q.ready = false → s.hostRead q.src.toNat (palSource (progOf sect) q.tokens) = some b →
    exec (.paletteCompileDone index) s = .next ((({ t with srv := { t.srv with pals := tabPut t.srv.pals index.toNat { q with ready := true, tag := none } } } : State).invalidate q.slice).completeOpt q.tag 0 (packBytes [(16, index.toNat)]))) ∧
  (∀ (slice pcg : BitVec 6) (s : State) (c : Ckpt),
    s.ck.flight.find? (fun c => c.slice == slice.toNat && c.phase == .staging && c.pcgs.contains pcg.toNat) = some c →
    exec (.stagingDone slice pcg) s = .next ((s.ckStaged c pcg.toNat).ckIdle slice.toNat)) ∧
  (∀ (slice : BitVec 6) (s : State) (c : Ckpt) (x : CkTarget), let sl := slice.toNat
    s.ck.flight.find? (fun c => c.slice == sl && c.phase != .target && c.phase != .staging && !s.ckOut sl c.num) = some c →
    s.ckTarget sl = some x →
    (c.phase = .zeroing → (∀ d ∈ s.dieList sl, s.netCut (8 + d) sl = false) → exec (.ckptCommit slice) s = .next (s.ckDrain c x)) ∧
    (c.phase = .draining → exec (.ckptCommit slice) s = .next (s.ckSeal c x)) ∧
    (c.phase = .committing → exec (.ckptCommit slice) s = .next (s.ckCommitted c x))) ∧
  (∀ (slice : BitVec 6) (s : State) (r : CkRestore), let sl := slice.toNat
    let t := { s with ck := { s.ck with restores := s.ck.restores.filter (· != r) } }
    let v := ((t.ckRebuild r.image).ckFill sl 3).ckRaise sl
    s.ck.restores.find? (·.slice == sl) = some r → r.image.hashOk = true →
    exec (.restoreDone slice) s = .next (({ v with ck := { v.ck with next := tabPut v.ck.next sl (r.image.ckpt + 1), ended := tabPut v.ck.ended sl r.image.step } } : State).completeOpt
      r.tag 0 (packBytes [(64, r.image.ckpt), (64, r.image.step)])))

/-- Translation misses, fetches, gesso, patrol, sparing, the sweep, regulators and the retrieval engines' ends: each, when what it
waits for is there, has its effect; a patrol read above the eight memory controllers names no address and stops (R137, R275,
R301, R314, R316, R317, R323, R340, R348, R350, R420). -/
def Obligations.MemoryAndRetrievalBackgroundRowsComplete : Prop :=
  (∀ (core : BitVec 9) (va : BitVec 52) (write : U1) (s : State) (sl : Nat), s.coreSlice core.toNat = some sl →
    (s.apertureAt sl va.toNat ≠ none → exec (.translationMiss core va write) s = .next (s.engineFault sl va.toNat 0x0303)) ∧
    (s.apertureAt sl va.toNat = none → exec (.translationMiss core va write) s = .next (s.miss core.toNat sl va.toNat (write == 1)))) ∧
  (∀ (slice : BitVec 6) (va : BitVec 52) (s : State) (f : FetchGran), let sl := slice.toNat
    s.mem.fetched.find? (fun f => f.slice == sl && f.va == va.toNat && f.inflight) = some f → s.fetching sl f.va = false →
    exec (.fetchDone slice va) s = .next ((({ s with mem := { s.mem with fetched := s.mem.fetched.map fun x =>
      if x = f then { x with inflight := false } else x } } : State).invalidate sl).bump .memFetches sl 1)) ∧
  (∀ (pa : U64) (s : State) (g : Gesso), s.mem.gesso.find? (fun g => g.pa == pa.toNat) = some g →
    ∃ t, exec (.gessoFillDone pa) s = .next t ∧ t.mem.gesso = (s.gessoFill g.pa g.size).mem.gesso.filter (· != g) ∧
      t.mem.data = (s.gessoFill g.pa g.size).mem.data) ∧
  (∀ (pa : U64) (errs : List (U8 × U8)) (s : State), let n := pa.toNat / 2 ^ 37
    (8 ≤ n → exec (.patrolRead pa errs) s = .fault (.noSuchAddress pa.toNat)) ∧
    (n < 8 → s.fld .mcEccCtrl n 0 3 1 ≠ 0 → s.reg64 .mcPatrolLo .mcPatrolHi n ≠ 0 →
      exec (.patrolRead pa errs) s = .next (({ s with mem := { s.mem with
        patrolAt := tabPut s.mem.patrolAt n (pa.toNat / 128 * 128) } } : State).sectorRead pa.toNat
          (errs.map fun e => (e.1.toNat, e.2.toNat))))) ∧
  (∀ (core : BitVec 9) (bank : BitVec 5) (row : BitVec 12) (s : State), let c := core.toNat; let d := c / 64
    let key := 2 ^ 17 * c + 2 ^ 12 * bank.toNat + row.toNat; let n := tabGetD s.mem.rowErrs 0 key + 1
    let t := { s.bump .csCe d 1 with mem := { s.mem with rowErrs := tabPut s.mem.rowErrs key n } }
    row.toNat < 3072 →
    exec (.coreStoreRowReplace core bank row) s = .next (if n < s.fld .csSpare d 0 16 8 then t else t.rowReplace c bank.toNat key)) ∧
  (∀ (region : U64) (s : State), s.sec.sweep.active = true → s.fld .secSweep 0 0 0 1 = 0 → s.pkg.conversion = true → s.hibernating = false →
    exec (.rekeySweepRegion region) s = .next (s.sweepUnit region.toNat).sweepEnd) ∧
  (∀ (slice : BitVec 6) (reg : BitVec 4) (bytes : U32) (lc idle : U1) (s : State), reg.toNat < 10 → s.defined slice.toNat = true →
    exec (.regulatorAdmit slice reg bytes lc idle) s = .next (s.admitted slice.toNat reg.toNat bytes.toNat (lc == 1) (idle == 1))) ∧
  (∀ (slice : BitVec 6) (table : U8) (row : U32) (s : State) (t : Table) (m : Migration) (k : Nat),
    s.table slice.toNat table.toNat = some t → t.migrations.find? (fun m => m.row == row.toNat) = some m →
    s.freeEngine t.die false ≠ none → t.discarded = none → (if m.into then s.freeSlot t else some m.slot) = some k →
    exec (.rowMigration slice table row) s = .next (s.migrateRow t m k)) ∧
  (∀ (slice : BitVec 6) (table : U8) (s : State) (t : Table), s.table slice.toNat table.toNat = some t →
    (t.discarded ≠ none → exec (.tableSwitchApply slice table) s = .next (s.switchEnd t.slice t.num)) ∧
    (t.discarded = none → t.switching ≠ none → s.switchDue t = true → exec (.tableSwitchApply slice table) s = .next (s.switchNow t))) ∧
  (∀ (slice : BitVec 6) (index : U8) (s : State) (x : Index) (o : RetOp), let sl := slice.toNat
    s.index sl index.toNat = some x → s.ret.ops.find? (fun o => o.kind == .compact && o.slice == sl && o.num == index.toNat && o.released.isSome) = some o →
    (∀ q ∈ s.ret.ops, (o.released.getD []).contains q.id = false) →
    let gone := o.list.map fun id => (id, s.node x id)
    let ups := (gone.filter fun g => g.2.level != 0).map fun g => (g.2.upper, g.2.level)
    let clear : Plan := { writes := gone.flatMap fun g => (x.at_ 2 16 g.1, zeros 16) :: (List.range g.2.level).map fun k =>
      ((x.listAt g.1 (k + 1) g.2.upper).1, zeros (4 * (x.listAt g.1 (k + 1) g.2.upper).2)) }
    let t := (s.runPlan x.die sl clear).setIndex { x with uppers := x.uppers.filter fun u => !ups.contains u }
    o.status = 0 → s.pathCode x [] clear.writes = 0 →
    exec (.compactRelease slice index) s = .next ((t.retEnd o 0 []).indexGone sl x.num)) ∧
  (∀ (die : BitVec 3) (g : U1) (e : BitVec 2) (s : State) (o : RetOp), s.engineOp die.toNat e.toNat (g == 0) = some o →
    exec (.retrievalOperationDone die g e) s = .next (s.retDone o))

/-- Bridges and ports: a bridge down is logged with the dies it cuts off, a lane failure retrains or fails the port, flits are
received, the bring-up steps of training, HELLO and KEY_CONFIRM lead to an up port, a failed port retries, a port rekeys at
its frame limit and takes its new key, and an ACK is due (R16, R354, R357, R366, R368).
The ring and control messages' layouts are the model's choice (log entries 27, 60). -/
def Obligations.BridgeAndPortRowsComplete : Prop :=
  (∀ (bridge : BitVec 6) (s : State), let b := bridge.toNat
    let t : State := { s with pkg := { s.pkg with bridgesDown := setInsert s.pkg.bridgesDown b } }
    b < 34 → s.pkg.bridgesDown.contains b = false → s.pkg.conversion = true →
    exec (.bridgeDown bridge) s = .next (((List.range 20).filter fun d => s.pathOk d 19 && !t.pathOk d 19).foldl
      (fun (t : State) d => t.logErr 0x0008 d 0xFF 0x0007 d none) (t.logErr 0x0007 0xFF 0xFF 0 b none))) ∧
  (∀ (port : BitVec 6) (good : U8) (s : State), let p := port.toNat; let x := s.port p
    3 ≤ x.state → x.state ≤ 5 → good ≠ 0xFF →
    (lanesOf good.toNat = 0 → exec (.laneFailure port good) s = .next ((s.portFail p).bringupFail p)) ∧
    (lanesOf good.toNat ≠ 0 → exec (.laneFailure port good) s =
      .next (s.setPort p { x with width := 4, half := laneHalf good.toNat, state := if x.state = 5 then 5 else 4 }).sendLinks)) ∧
  (∀ (port : BitVec 6) (f : Flit) (s : State), (s.port port.toNat).state ≠ 0 →
    exec (.flitReceive port f) s = .next (s.flitReceive port.toNat f)) ∧
  (∀ (port : BitVec 6) (good : U8) (s : State), let p := port.toNat; let x := s.port p
    x.step = 1 → (x.state = 1 ∨ x.state = 6) → lanesOf good.toNat ≠ 0 →
    exec (.portTrainingDone port good) s = .next ((s.setPort p { x with
      state := 1, step := 2, width := lanesOf good.toNat, half := if good = 0xFF then 0 else laneHalf good.toNat }).emit
      (.control p 1 (s.helloArgs p)))) ∧
  (∀ (port : BitVec 6) (o : HelloOps) (s : State), let p := port.toNat; let x := s.port p
    x.step = 2 → x.state = 1 → o.compId = s.comp.id → o.cipher = 1 → s.module ≠ 2 →
    ∃ t : State, exec (.hello port o) s = .next (t.emit (.control p 2 [])) ∧ (t.port p).state = 2 ∧ (t.port p).step = 3 ∧
      (t.port p).peerDev = o.device.toNat ∧ (t.port p).peerPort = o.peerPort.toNat ∧ (t.port p).cipher = true ∧
      (∀ v < 16, tabGet (t.port p).credits v = some (((o.buffers[v]?).map BitVec.toNat).getD (laneBuffer v)))) ∧
  (∀ (port : BitVec 6) (identity : U256) (sig : U1) (s : State), let p := port.toNat; let x := s.port p; let m := s.member x.peerDev
    x.state = 2 → (x.step = 4 ∨ x.step = 3 ∧ sig = 1 ∧ ∀ y, m = some y → y.identity = identity) →
    exec (.keyConfirm port identity sig) s = .next ((s.setPort p { x with
      state := if m = none then 5 else if x.width = 8 then 3 else 4, step := 0, keys := x.keys + boolBit x.cipher, lastAck := s.pkg.pkc }).emit
        (.control p 3 [])).sendLinks) ∧
  (∀ (port : BitVec 6) (s : State), let x := s.port port.toNat
    (x.state = 6 → x.step = 0 → 2 ^ 20 ≤ s.pkc - x.failedAt.toNat → exec (.bringupRetry port) s = .next (s.bringup port.toNat)) ∧
    (2 ^ 32 - 2 ^ 24 ≤ x.txFrames → exec (.frameCountRekey port) s = .next (s.startRekey port.toNat)) ∧
    (x.rekeying = true → exec (.rekeyDone port) s = .next (((s.setPort port.toNat { x with
      rekeying := false, keyPhase := !x.keyPhase, txFrames := 0, keys := x.keys + 1 }).bump .rekeys port.toNat 1).pump port.toNat 512)) ∧
    (3 ≤ x.state → x.state ≤ 5 → 128 ≤ s.pkc - x.lastAck.toNat → exec (.ackIntervalExpiry port) s = .next (s.sendAck port.toNat false)))

/-- Memory transactions: a READ and a WRITE of a pool range the device gives, or of a row of a shared table, the row atomics and
the 64-bit atomics are executed and answered once their port carries them, their tag is new, their sender is a member and the
device holds the target (R345, R359, R360). -/
def Obligations.MemoryTransactionsComplete : Prop :=
  (∀ (t : TxHdr) (s : State) (r : PoolRange), s.poolAt t.addr.toNat = some r → Admits t 1 0 0 false true s → 64 ≤ t.slice.toNat →
    let u := Requested t 1 0 0 s; let x := u.poolRead t.addr.toNat (t.aux.toNat % 65536)
    exec (.readTxn t) s = .next (Replied t 1 u { data := x.1, poison := x.2 })) ∧
  (∀ (t : TxHdr) (s : State) (tb : Table), Admits t 1 0 0 false true s → t.slice.toNat < 64 → s.rowMiss t = none →
    let u := Requested t 1 0 0 s; let row := t.addr.toNat % 2 ^ 32
    u.sharedTable t.slice.toNat (t.addr.toNat / 2 ^ 56) = some tb → tb.badRow row = false →
    let x := u.rowRead tb tb.version row; let y := { data := sub x.bytes (16384 * (t.aux.toNat / 65536)) (t.aux.toNat % 65536) }
    (x.lost = false → x.cut = false → x.bad = false → exec (.readTxn t) s = .next (Replied t 1 (u.evc tb.slice 0x52 0xFF 1) y)) ∧
    (x.lost = false → x.cut = false → x.bad = true → exec (.readTxn t) s = .next (Replied t 1
      ((u.bump .retPoison tb.slice 1).evc tb.slice 0x52 0xFF 1) { y with status := 0x0508, poison := true }))) ∧
  (∀ (t : TxHdr) (data : Bytes) (s : State), 64 ≤ t.slice.toNat → Admits t 2 0 data.length false true s →
    (∃ r, s.poolAt t.addr.toNat = some r ∧ t.addr.toNat + data.length ≤ 0x1_0000 * (r.base + r.units)) →
    exec (.writeTxn t data) s =
      .next (Replied t 2 ((Requested t 2 0 data.length s).poolWrite t.addr.toNat data (t.poison == 1)) {})) ∧
  (∀ (t : TxHdr) (data : Bytes) (s : State), t.slice.toNat < 64 → Admits t 2 0 data.length false true s →
    let u := Requested t 2 0 data.length s; let a := t.addr.toNat; let src := t.src.toNat
    (u.handedSid t data).bind (fun sid => u.staleOwner sid t.aux.toNat) = none →
    exec (.writeTxn t data) s = .next (Replied t 2 (if a < 2 ^ 32 then u.handedEntry src t.slice.toNat a data
      else if a < 2 ^ 33 then u.handedCredit src (a % 2 ^ 32) data else u.handedDone src data) {})) ∧
  (∀ (c : Instr) (op : Nat) (t : TxHdr) (data : Bytes) (s : State) (tb : Table),
    (c = .addF32 t data ∧ op = 1 ∨ c = .addBf16 t data ∧ op = 2 ∨ c = .setRow t data ∧ op = 3) →
    Admits t 3 op data.length false true s → t.slice.toNat < 64 → s.rowMiss t = none → t.aux.toNat % 65536 ≤ 1 →
    let u := Requested t 3 op data.length s; let row := t.addr.toNat % 2 ^ 32; let va := tb.rowVa tb.version row
    u.sharedTable t.slice.toNat (t.addr.toNat / 2 ^ 56) = some tb → (op = 1 → tb.rformat = 2) → (op = 2 → tb.rformat = 1) →
    tb.badRow row = false → (u.rowRead tb tb.version row).lost = false → (u.rowRead tb tb.version row).cut = false →
    let v := u.rowUpdate tb.slice tb.num tb.version row t.src.toNat (op != 3) false (padTo tb.rowBytes data)
    (t.poison = 0 → exec c s = .next (Replied t 3 (v.evc tb.slice 0x53 0xFF 1) {})) ∧
    (t.poison = 1 → exec c s = .next (Replied t 3 ((v.poisonRange tb.slice va tb.rowBytes).evc tb.slice 0x53 0xFF 1) {}))) ∧
  (∀ (t : TxHdr) (data : Bytes) (s : State) (r r' : PoolRange), s.poolAt t.addr.toNat = some r →
    s.poolAt (t.addr.toNat + 7) = some r' →
    (Admits t 3 4 data.length false true s →
      let u := Requested t 3 4 data.length s; let x := u.poolRead t.addr.toNat 8; let old := le x.1 0 8
      exec (.fadd64 t data) s = .next (Replied t 3 (u.poolWrite t.addr.toNat (bytesOf 8 ((old + le data 0 8) % 2 ^ 64)) false)
        { result := old, poison := x.2 })) ∧
    (Admits t 3 5 data.length false true s →
      let u := Requested t 3 5 data.length s; let x := u.poolRead t.addr.toNat 8; let old := le x.1 0 8
      let v := if old = le data 0 8 then le data 8 8 else old
      exec (.cas64 t data) s = .next (Replied t 3 (u.poolWrite t.addr.toNat (bytesOf 8 (v % 2 ^ 64)) false)
        { result := old, poison := x.2 })))

/-- Pool transactions and IDENTIFY: a range of the contributed capacity is given to the sender or refused for want of room, freed
by its owner only, the free and total units told; IDENTIFY answers any device with its version, its pool and its serial level
(R360, R379). -/
def Obligations.PoolTransactionsComplete : Prop :=
  (∀ (t : TxHdr) (units : U64) (s : State), Admits t 7 0x20 8 false true s →
    let u := Requested t 7 0x20 8 s; let n := units.toNat
    (∀ a, n ≠ 0 → u.poolFit n = some a → ∃ sl : Nat, exec (.poolAlloc t units) s = .next (Replied t 7
      { u with pool := u.pool ++ [⟨a, n, t.src.toNat, t.slice.toNat, sl, false⟩] } { result := 0x1_0000 * a })) ∧
    (u.poolFit n = none → exec (.poolAlloc t units) s = .next (Replied t 7 u { status := 0x0503 }))) ∧
  (∀ (t : TxHdr) (base : U64) (s : State) (r : PoolRange), Admits t 7 0x21 8 false true s → s.poolAt base.toNat ≠ none →
    let u := Requested t 7 0x21 8 s
    u.pool.find? (fun r => 0x1_0000 * r.base == base.toNat) = some r →
    exec (.poolFree t base) s = .next (if r.owner = t.src.toNat then Replied t 7 (u.poolDrop r) {}
      else Replied t 7 u { status := 0x0704 })) ∧
  (∀ (t : TxHdr) (s : State), Admits t 7 0x22 0 false true s → let u := Requested t 7 0x22 0 s
    exec (.poolInfo t) s = .next (Replied t 7 u { data := bytesOf 8 u.poolFree ++ bytesOf 8 u.poolTotal })) ∧
  (∀ (t : TxHdr) (s : State), Admits t 7 0x38 0 true true s → let u := Requested t 7 0x38 0 s
    exec (.identify t) s = .next (Replied t 7 { u with free := u.free + 1 }
      { data := bytesOf 1 1 ++ zeros 7 ++ bytesOf 8 u.poolTotal ++ bytesOf 8 u.freeVal.toNat }))

/-- Queries, results, responses and transit: a QUERY of a member goes on along the ring and starts its partial instances, a RESULT
joins the part that waits for it, a RESP ends its request or has it sent again, a DROP holds its request back, a transaction
of no known target is refused, and a transaction for another device is sent on with one hop less (R170, R172, R284, R360,
R361, R364).
What requests that were handed over send is laid out by the model (log entry 26). -/
def Obligations.QueryResponseAndTransitComplete : Prop :=
  (∀ (t : TxHdr) (data : Bytes) (s : State), let a := s.arrive t 4 1 data.length 2 true
    a.2 = true → a.1.member t.src.toNat ≠ none → exec (.query t data) s = .next (a.1.takeQuery t.src.toNat data)) ∧
  (∀ (t : TxHdr) (data : Bytes) (s : State), let a := s.arrive t 4 2 data.length 2 true
    a.2 = true → a.1.member t.src.toNat ≠ none → exec (.result t data) s = .next (a.1.resultIn data)) ∧
  (∀ (t : TxHdr) (status : U16) (data : Bytes) (s : State) (x : Txn), let a := s.arriveResp t 8 data.length
    a.2 = true → a.1.respTo t = some x →
    (status.toNat ≠ 0x0703 ∨ x.type = 6 → exec (.resp t status data) s =
      .next ((a.1.endTxn x.dev x.tag).respond x status.toNat data (t.poison == 1))) ∧
    (status.toNat = 0x0703 → x.type ≠ 6 → t.epoch.toNat ≤ a.1.comp.epoch → exec (.resp t status data) s = .next (a.1.again x)) ∧
    (status.toNat = 0x0703 → x.type ≠ 6 → a.1.comp.epoch < t.epoch.toNat → exec (.resp t status data) s =
      .next ((a.1.setTxn { x with stale := true }).send t.src.toNat 6 6 0xFF [] [] .map))) ∧
  (∀ (t : TxHdr) (s : State) (x : Txn), let a := s.arriveResp t 9 0
    a.2 = true → a.1.txn t.src.toNat t.tag.toNat = some x →
    exec (.drop t) s = .next (a.1.setTxn { x with dropped := some a.1.pkg.pkc })) ∧
  (∀ (t : TxHdr) (type op : U8) (s : State), let a := s.arrive t type.toNat op.toNat 0 (laneOf (queueOf t type.toNat) false) true
    a.2 = true → exec (.unsupportedTransaction t type op) s = .next (a.1.answer t type.toNat 8 0x0709 0 [] false)) ∧
  (∀ (t : TxHdr) (dst : U16) (type op : U8) (data : Bytes) (s : State) (o : Nat), let ty := type.toNat; let q := queueOf t ty
    let p := t.port.toNat; let n := flitsOf data.length; let req := ty ≠ 8 ∧ ty ≠ 9; let vl := laneOf q (!decide req)
    let m := if req ∧ 4 ≤ q then s.metered p vl t.src.toNat n (t.lc == 1) t.colour.toNat else (s, t.colour.toNat, true)
    let v := m.1.leaveBuffer p vl n
    3 ≤ (s.port p).state → (s.port p).state ≤ 4 → (t.tagOk = 1 ∨ (s.port p).cipher = false) → m.2.2 = true →
    (t.hops.toNat ≤ 1 → req → ty ≠ 4 → exec (.transitForward t dst type op data) s = .next (v.answer t ty 8 0x070A 0 [] false)) ∧
    (2 ≤ t.hops.toNat → v.route 0xFF dst.toNat ty op.toNat = some o →
      let hdr := [t.lc.toNat, t.queue.toNat, t.hops.toNat - 1, t.fwd.toNat, t.src.toNat, t.epoch.toNat, t.slice.toNat, m.2.1]
      let w : State := { v with net := { v.net with next := v.net.next + 1 } }
      let out := Output.link o dst.toNat ty op.toNat t.tag.toNat hdr [t.addr.toNat, t.aux.toNat] data
      exec (.transitForward t dst type op data) s = .next ((w.emit out).enqueue o vl q data.length)))

/-- Session and ownership transactions, each under no older owner epoch than the device's own: canvas data, a descriptor, mirror
rows, commits and state are taken, and the handoff goes from offer to released side by side (R121, R123, R126, R152, R360,
R383, R384).
The appeal's and the ring command's layouts and where a mirror is made are the model's choices (log entries 27, 28, 29). -/
def Obligations.SessionTransactionsComplete : Prop :=
  (∀ (t : TxHdr) (sid : U64) (data : Bytes) (s : State), t.slice.toNat < 64 → Admits t 5 1 data.length false (s.holdsSession sid) s →
    let u := Requested t 5 1 data.length s
    u.staleOwner sid t.aux.toNat = none →
    (∀ h, u.hoOf sid false = some h → h.peer = t.src.toNat → h.epoch = t.aux.toNat → h.step ≤ 4 →
      exec (.canvasData t sid data) s = .next (Replied t 5 (u.streamIn h t.addr.toNat data) {})) ∧
    (∀ v h, u.hoOf sid false = none → u.standbyRecord t sid = some (v, h) →
      exec (.canvasData t sid data) s = .next (Replied t 5 (v.streamIn h t.addr.toNat data) {}))) ∧
  (∀ (t : TxHdr) (sid : U64) (data : Bytes) (s : State) (r : PoolRange), 64 ≤ t.slice.toNat → Admits t 5 1 data.length false true s →
    let u := Requested t 5 1 data.length s
    s.poolAt t.addr.toNat = some r → t.addr.toNat + data.length ≤ 0x1_0000 * (r.base + r.units) → u.staleOwner sid t.aux.toNat = none →
    exec (.canvasData t sid data) s = .next (Replied t 5 (u.poolWrite t.addr.toNat data (t.poison == 1)) {})) ∧
  (∀ (t : TxHdr) (data : Bytes) (loc : U64) (len : U32) (s : State) (h : Handoff), let x := descOfBytes data
    let u := Requested t 5 2 data.length s
    Admits t 5 2 data.length false (s.holdsSession x.sessionId) s → u.staleOwner x.sessionId t.aux.toNat = none →
    u.hoOf x.sessionId false = some h → h.descOnly = true → h.peer = t.src.toNat →
    exec (.desc t data loc len) s = .next (Replied t 5 (u.takeDesc h x loc len.toNat) {})) ∧
  (∀ (t : TxHdr) (sid : U64) (layer : U8) (first : U32) (data : Bytes) (s : State), Admits t 5 3 data.length false true s →
    let u := Requested t 5 3 data.length s; let x := u.takeRows t sid layer.toNat first.toNat data
    u.staleOwner sid t.aux.toNat = none → exec (.mirrorRows t sid layer first data) s = .next (Replied t 5 x.1 x.2)) ∧
  (∀ (t : TxHdr) (sid : U64) (n : U32) (s : State), Admits t 5 4 0 false true s →
    let u := Requested t 5 4 0 s; let x := u.commitMirror t sid n.toNat
    u.staleOwner sid t.aux.toNat = none → exec (.mirrorCommit t sid n) s = .next (Replied t 5 x.1 x.2)) ∧
  (∀ (t : TxHdr) (sid : U64) (sampler scratch cursors : Bytes) (s : State) (m : Mirror),
    let u := Requested t 5 5 (sampler ++ scratch ++ cursors).length s
    Admits t 5 5 (sampler ++ scratch ++ cursors).length false true s → u.staleOwner sid t.aux.toNat = none →
    u.mirrorFrom sid t.src.toNat = some m → m.epoch ≤ t.aux.toNat →
    exec (.mirrorState t sid sampler scratch cursors) s = .next (Replied t 5 (u.setMirror { m with
      epoch := t.aux.toNat, sampler := if sampler = [] then m.sampler else samplerOf sampler
      scratch := if scratch = [] then m.scratch else padTo t.addr.toNat (m.scratch.take t.addr.toNat) ++ scratch
      cursors := if cursors = [] then m.cursors
        else (pieces 64 (cursors.length / 64) cursors).map fun x => ⟨true, byteAt x 0, x⟩ }) {})) ∧
  (∀ (t : TxHdr) (o : OfferOps) (s : State), Admits t 7 1 0 false true s → let u := Requested t 7 1 0 s
    u.staleOwner o.sid o.epoch.toNat = none → exec (.offer t o) s = .next (Replied t 7 (u.takeOffer t o) {})) ∧
  (∀ (i : Instr) (op : Nat) (giver : Bool) (t : TxHdr) (sid : U64) (epoch : U32) (x : U64) (code : U16) (s : State) (h : Handoff),
    (i = .accept t sid epoch x ∧ op = 2 ∧ giver = true ∨ i = .refuse t sid epoch code ∧ op = 3 ∧ giver = true ∨
      i = .ack t sid epoch ∧ op = 4 ∧ giver = true ∨ i = .commitHandoff t sid epoch ∧ op = 5 ∧ giver = false ∨
      i = .committed t sid epoch x ∧ op = 6 ∧ giver = true ∨ i = .released t sid epoch ∧ op = 7 ∧ giver = false) →
    Admits t 7 op 0 false (s.holdsSession sid) s → let u := Requested t 7 op 0 s; let d := u.d h.index
    u.staleOwner sid epoch.toNat = none → u.hoOf sid giver = some h → h.peer = t.src.toNat → h.epoch = epoch.toNat →
    (op = 5 → d.ownerState = .prepared ∨ d.ownerState = .committed) → (op = 7 → d.ownerState = .committed) →
    exec i s = .next (Replied t 7
      (if op = 2 then u.accepted h x
       else if op = 3 then u.giverBack h (if code = 0x0212 ∧ 1 < d.ringSize then 0x0205 else code.toNat)
       else if op = 4 then (u.setHo { h with step := 6, since := u.pkg.pkc }).hoSend h 5 []
       else if op = 5 then ((u.setD h.index { d with ownerState := .committed }).setHo { h with step := 7, since := u.pkg.pkc }).hoSend h 6
          [(handleOf h.index d).toNat]
       else if op = 6 then u.releaseSide h x
       else u.ownSide h) {})) ∧
  (∀ (t : TxHdr) (sid : U64) (epoch : U32) (receiver : U1) (x : U64) (s : State), Admits t 7 8 24 false true s →
    let a := (Requested t 7 8 24 s).resolveHere sid (receiver == 1) x
    exec (.resolve t sid epoch receiver x) s = .next (Replied t 7 a.2 { status := if a.1 then 0 else 0x020D })) ∧
  (∀ (t : TxHdr) (sid : U64) (s : State), Admits t 7 9 8 false true s → let u := Requested t 7 9 8 s; let a := t.addr.toNat
    (a = 0 → exec (.recordQuery t sid) s = .next (Replied t 7 u { result := u.ownerRecord sid })) ∧
    (a ≠ 0 → exec (.recordQuery t sid) s = .next (Replied t 7 (if a.testBit 17 then u.openCase sid t.src.toNat (a % 65536)
      else u.openCase sid (a % 65536) t.src.toNat) {}))) ∧
  (∀ (t : TxHdr) (o : RingOps) (s : State), Admits t 7 0x10 0 false (o.kind == 3 || o.kind == 5 || s.holdsSession o.sid) s →
    let u := Requested t 7 0x10 0 s; let x := u.takeRing t o
    u.staleOwner o.sid o.epoch.toNat = none →
    (x.2.reply = true → exec (.ringCmd t o) s = .next (Replied t 7 x.1 x.2)) ∧
    (x.2.reply = false → exec (.ringCmd t o) s = .next (x.1.tagRuns t.src.toNat t.tag.toNat)) ∧
    (o.kind = 2 → exec (.ringCmd t o) s = .next (Replied t 7 (u.closeRing o.sid 0xFFFFFFFF t.src.toNat) {}))) ∧
  (∀ (index : BitVec 24) (s : State) (c : Stored) (r : Repair), let i := index.toNat; let d := s.d i; let ms := r.members c.members
    let addr : U64 := match ms.find? fun m => (s.member m.1).isSome with
      | some m => BitVec.ofNat 64 (0x1_0000_0000_0000 * m.1 + m.2)
      | none => c.addr
    s.storedAt d = some c → c.repair = some r → r.step = 2 → s.repairOut c.key = false →
    exec (.canvasRepairDone index) s =
      .next (((s.setStored c { c with members := ms, rgen := c.rgen + 1, repair := none, addr := addr }).setD i
        { d with canvasAddr := addr }).bump .repairs 0 1))

/-- Composition transactions: a proposal is queued until its epoch commits, a PREPARE is voted on, votes are counted, a committed
change and a map are applied, a query answered with the map, a sealing key opened, a link table taken (R372, R373, R374, R378,
R423).
The serial level that IDENTIFY answers is a free value (log entry 1). -/
def Obligations.CompositionTransactionsComplete : Prop :=
  (∀ (t : TxHdr) (c : ChangeOps) (s : State), Admits t 6 1 0 true true s → let u := Requested t 6 1 0 s
    let x : MapChange := { changeOf c with proposer := t.src.toNat }
    (u.inQuorum = true → u.changeCheck x = none →
      exec (.propose t c) s = .next ((u.enqueueChange { change := x, hdr := some t }).tagRuns t.src.toNat t.tag.toNat)) ∧
    (∀ code, u.inQuorum = true → u.changeCheck x = some code → exec (.propose t c) s = .next (Replied t 6 u { status := code }))) ∧
  (∀ (t : TxHdr) (epoch : U32) (c : ChangeOps) (s : State), Admits t 6 2 0 true true s → let u := Requested t 6 2 0 s
    let x := changeOf c; let e := epoch.toNat
    (u.votes e x = true → let v : State := { u with comp := { u.comp with vote := some (e, x) } }
      exec (.prepare t epoch c) s = .next (Replied t 6 (v.send t.src.toNat 6 3 0xFF [e, 1] [] .map) {})) ∧
    (u.votes e x = false → exec (.prepare t epoch c) s = .next (Replied t 6 (u.send t.src.toNat 6 3 0xFF [e, 0] [] .map) {}))) ∧
  (∀ (t : TxHdr) (epoch : U32) (s : State), Admits t 6 3 0 true true s → let u := Requested t 6 3 0 s; let src := t.src.toNat
    (∀ since, u.comp.prepared = some since → epoch.toNat = u.comp.epoch + 1 → src ∈ u.comp.quorum → src ∉ u.comp.votes →
      exec (.vote t epoch 1) s = .next (Replied t 6
        ({ u with comp := { u.comp with votes := u.comp.votes ++ [src] } } : State).countVotes {})) ∧
    exec (.vote t epoch 0) s = .next (Replied t 6 u {})) ∧
  (∀ (t : TxHdr) (epoch : U32) (c : ChangeOps) (s : State), Admits t 6 4 0 true true s → let u := Requested t 6 4 0 s
    let v : State := { u with comp := { u.comp with voteLost := false } }; let x := v.changed (changeOf c) epoch.toNat
    (epoch.toNat = u.comp.epoch + 1 → u.comp.epoch ≠ 0 →
      exec (.commitMap t epoch c) s = .next (Replied t 6 (v.applyMap epoch.toNat u.comp.id x.1 x.2) {})) ∧
    (epoch.toNat ≤ u.comp.epoch → exec (.commitMap t epoch c) s = .next (Replied t 6 v {}))) ∧
  (∀ (t : TxHdr) (m : MapOps) (s : State), Admits t 6 5 0 true true s → let u := Requested t 6 5 0 s
    (m.compId = u.comp.id → u.compSect ≠ none → u.comp.epoch < m.epoch.toNat → exec (.mapUpdate t m) s = .next (Replied t 6
      (u.applyMap m.epoch.toNat m.compId (m.qmembers.map BitVec.toNat) (membersOf m)).proposeSlices {})) ∧
    (m.epoch.toNat ≤ u.comp.epoch → exec (.mapUpdate t m) s = .next (Replied t 6 u {}))) ∧
  (∀ (t : TxHdr) (s : State), Admits t 6 6 0 true true s → let u := Requested t 6 6 0 s
    (u.comp.vote = none → exec (.mapQuery t) s = .next (Replied t 6 (u.send t.src.toNat 6 7 0xFF (u.mapArgs ++ [0]) [] .map) {})) ∧
    (∀ v, u.comp.vote = some v → exec (.mapQuery t) s =
      .next (Replied t 6 (u.send t.src.toNat 6 7 0xFF (u.mapArgs ++ 1 :: v.1 :: v.2.args) [] .map) {}))) ∧
  (∀ (t : TxHdr) (m : MapOps) (vote : Option (U32 × ChangeOps)) (s : State), Admits t 6 7 0 true true s →
    let u := (Requested t 6 7 0 s).takeMap m; let src := t.src.toNat
    (u.comp.leads = false → exec (.mapState t m vote) s = .next (Replied t 6 u.checkArbiter {})) ∧
    (vote = none → u.comp.leads = true → src ∈ u.comp.quorum → src ∉ u.comp.heard → exec (.mapState t m vote) s = .next (Replied t 6
      ({ u with comp := { u.comp with heard := u.comp.heard ++ [src] } } : State).checkArbiter {}))) ∧
  (∀ (t : TxHdr) (blob ss k : Bytes) (s : State), Admits t 6 8 blob.length true true s → let u := Requested t 6 8 blob.length s
    t.src.toNat ∈ u.comp.quorum → u.module ≠ 2 → Config.kemDecap deviceKemSeed (sub blob 0 1088) = some ss →
    Config.gcmOpen (u.wrapKey ss (u.ownNo.getD 0xFFFF)) (zeros 12) [] (sub blob 1088 32) (sub blob 1120 16) = some k →
    exec (.sealKey t blob) s = .next (Replied t 6 (u.setCsk (hashAt k 0)) {})) ∧
  (∀ (t : TxHdr) (ports : List (BitVec 6 × U16 × BitVec 6)) (apps : List U16) (s : State), Admits t 7 0x30 (8 * ports.length) true true s →
    let u := Requested t 7 0x30 (8 * ports.length) s; let src := t.src.toNat
    let r : LinkRec := ⟨u.pkg.pkc, ports.map fun p => (p.1.toNat, p.2.1.toNat, p.2.2.toNat), apps.map BitVec.toNat⟩
    (u.member src ≠ none ∨ src ∈ u.comp.quorum) → exec (.linkState t ports apps) s = .next (Replied t 7
      (({ u with comp := { u.comp with links := tabPut u.comp.links src r } } : State).noteCuts).checkArbiter {}))

/-- The handoff, arbiter, ring and transaction timers, each due: the appeal, the question, the lost ring, the resend, the end of
the transaction, the held request decided again, the map vote given up, the links told, the silent device's record dropped and
the removal of a member proposed that this device has found unreachable for LIVE_LIMIT, the dropped request sent again (R123,
R124, R172, R284, R362, R373, R377, R378). -/
def Obligations.LinkTimerRowsComplete : Prop :=
  (∀ (index : BitVec 24) (s : State) (h : Handoff), s.handoffs.find? (·.index == index.toNat) = some h →
    s.handoffLimit < s.pkc - h.since.toNat →
    exec (.handoffLimitExpiry index) s = .next ((s.setHo { h with since := s.pkg.pkc }).appeal h)) ∧
  (∀ (sid : U64) (s : State) (c : ArbCase), s.comp.arbCases.find? (·.sid == sid) = some c → s.handoffLimit ≤ s.pkc - c.asked.toNat →
    exec (.arbiterRetry sid) s = .next (s.askCase c)) ∧
  (∀ (index : BitVec 24) (layer : U8) (part : U16) (s : State) (w : RingWait), let i := index.toNat
    let t := s.rowCause (s.d i).slice i 0x0224
    s.ringWait i layer.toNat part.toNat = some w → s.reg64 .ringWaitLimitLo .ringWaitLimitHi 0 < s.pkc - w.sent.toNat →
    exec (.ringWaitLimitExpiry index layer part) s =
      .next { t with srv := { t.srv with waits := t.srv.waits.filter fun x => !(x.index == i) } }) ∧
  (∀ (dev : U16) (tag : U32) (s : State) (x : Txn), s.txn dev.toNat tag.toNat = some x → x.held = false →
    (x.dropped = none → x.tries < 3 → s.txnLimit / 4 ≤ s.pkc - x.last.toNat → exec (.txnResend dev tag) s =
      .next ((s.setTxn { x with tries := x.tries + 1 }).again { x with tries := x.tries + 1 })) ∧
    (¬ (x.port = 48 ∧ s.route x.slice x.dev x.type x.op = none) → s.txnLimit ≤ s.pkc - x.first.toNat →
      exec (.txnLimitExpiry dev tag) s = .next (s.answered x 0x0708 [] false)) ∧
    (∀ d, x.dropped = some d → s.reg .qosHoldoff 0 0 ≤ s.pkc - d.toNat →
      let x' := { x with dropped := none, last := s.pkg.pkc }; let t := s.setTxn x'
      exec (.qosHoldoffExpiry dev tag) s = .next ((if x.slice < 64 then t.bump .dropRetries x.slice 1 else t).transmit x'))) ∧
  (∀ (src : U16) (tag : U32) (s : State) (h : HeldTx), s.net.held.find? (fun h => h.hdr.src == src && h.hdr.tag == tag) = some h →
    (h.hdr.epoch.toNat ≤ s.comp.epoch ∨ s.txnLimit / 4 ≤ s.pkc - h.since.toNat) →
    exec (.epochHoldExpiry src tag) s =
      State.rerun { s with net := { s.net with held := s.net.held.filter (· != h), redo := true } } h.cmd) ∧
  (∀ (s : State) (since : U64) (p : Proposal) (l : List Proposal), s.comp.prepared = some since → s.comp.queue = p :: l →
    s.txnLimit ≤ s.pkc - since.toNat →
    exec .mapVoteTimeout s = .next (((s.tellProposer p 0x0705).popProposal).prepareFront 64)) ∧
  (∀ (s : State) (n : Nat), s.ownNo = some n → (∀ r, tabGet s.comp.links n = some r → 2 ^ 20 ≤ s.pkc - r.seen.toNat) →
    s.sendLinks.comp.epoch ≠ 0 → exec .linkStateSend s = .next s.sendLinks.checkArbiter) ∧
  (∀ (dev : U16) (s : State), let d := dev.toNat; let t := s.dropStale d
    s.ownNo ≠ some d →
    (t.inQuorum = true → t.member d ≠ none → t.cutLong d = true → exec (.liveLimitExpiry dev) s =
      .next (t.proposeSelf { op := 2, device := d, force := true, proposer := t.ownNo.getD 0xFFFF })) ∧
    (t.inQuorum = false ∨ t.member d = none ∨ t.cutLong d = false → exec (.liveLimitExpiry dev) s = .next t) ∧
    (∀ r, tabGet s.comp.links d = some r → s.liveLimit ≤ s.pkc - r.seen.toNat →
      t = (({ s with comp := { s.comp with links := tabDel s.comp.links d } } : State).noteCuts).checkArbiter) ∧
    ((∀ r, tabGet s.comp.links d = some r → s.pkc - r.seen.toNat < s.liveLimit) → t = s))

/-- The session, security, power and thermal timers and the JTAG port, each due: late requests end, a consent expires, an ARM runs
out, a report is made, counters are coarsened, sensors, throttling and capping act, and the power states change (R265, R431,
R435, R438, R439, R447, R497, R498, R500, R513, R514, R515, R516). -/
def Obligations.TimerPowerAndTestRowsComplete : Prop :=
  (∀ s : State, s.pkg.latePeriod < s.period → exec .deadlineCheck s = .next ((s.desc.map (·.1)).foldl (fun t i =>
    if (t.d i).season == .summer then t
    else
      let v := if (t.d i).pending.live && t.late (t.d i).pending then t.endPending i 0x0405 5 else t
      if (t.d i).active.live && v.late (t.d i).active then (v.endActive i 0x0405 5 true).afterEnd i else v)
    { s with pkg := { s.pkg with latePeriod := s.period } })) ∧
  (∀ (slice : BitVec 6) (s : State) (c : Consent), tabGet s.sec.consents slice.toNat = some c → c.expiry ≠ 0 → c.expiry.toNat ≤ s.pkc →
    exec (.consentExpiry slice) s = .next (s.consentOff slice.toNat)) ∧
  (∀ s : State, exec .zeroizeArmExpiry s =
    .next { s with sec := { s.sec with armed := s.armLeft s.sec.armed, armedPldm := s.armLeft s.sec.armedPldm } }) ∧
  (∀ s : State, s.sec.reportDue ≠ none → exec .autoReport s = .next (s.makeReport 0 true)) ∧
  (∀ s : State, s.pkc % 2 ^ 20 = 0 → exec .counterSnapshot s = .next { s with host := { s.host with snapshot := s.coarseCounters } }) ∧
  (∀ (die : BitVec 5) (c : U8) (s : State), let d := die.toNat
    let t := s.setDie d { s.die d with temp := c.toNat }
    let v := t.setFld .thermStatus 0 0 16 8 (max (t.fld .thermStatus 0 0 16 8) c.toNat)
    d ≤ 19 → s.pkg.vaux12 = true → c.toNat < 115 → exec (.sensorRead die c) s =
      .next (if s.throttleAt ≤ c.toNat ∧ (s.die d).temp < s.throttleAt then v.setThermDuty (min s.pkg.thermDuty 8) else v)) ∧
  (∀ s : State, let n := s.pkg.thermDuty; let t : State := { s with pkg := { s.pkg with thermPeriod := s.period } }
    s.pkg.thermPeriod < s.period →
    (s.throttleAt ≤ s.hottest → exec .throttlePeriod s = .next (t.setThermDuty (if n ≤ 4 then n else min 8 (n - 1)))) ∧
    (s.hottest + 3 < s.throttleAt → exec .throttlePeriod s = .next (t.setThermDuty (min 16 (n + 1))))) ∧
  (∀ (w : BitVec 12) (s : State), let cap := s.fld .pwrCap 0 0 0 12
    s.pkg.capPeriod < s.period → s.fld .pwrCap 0 0 31 1 = 1 →
    (cap < w.toNat → s.pkg.beWithheld = false → ∃ t : State, exec (.powerCapPeriod w) s = .next (t.logErr 0x000C 0xFF 0xFF 0 1 none) ∧
      t.pkg.beWithheld = true ∧ t.pkg.watts = w.toNat) ∧
    (cap < w.toNat → s.pkg.beWithheld = true → s.pkg.capDuty ≠ 4 → ∃ t, exec (.powerCapPeriod w) s = .next t ∧
      t.pkg.capDuty = max 4 (s.pkg.capDuty - 1) ∧ t.pkg.watts = w.toNat) ∧
    (w.toNat ≤ cap → ∃ t, exec (.powerCapPeriod w) s = .next t ∧ t.pkg.watts = w.toNat ∧
      t.pkg.capDuty = if 100 * w.toNat < 95 * cap then min 16 (s.pkg.capDuty + 1) else s.pkg.capDuty)) ∧
  (∀ s : State,
    (s.pkg.ready = true → s.quiet = true → s.power = 0 → s.fld .pwrState 0 0 0 2 = 0 → exec .idleEntry s =
      .next (({ s with pkg := { s.pkg with idleSince := s.pkg.pkc } } : State).setFld .pwrState 0 0 0 2 1)) ∧
    (s.power = 1 → s.fld .pwrState 0 0 4 1 = 1 → 2 ^ s.fld .pwrState 0 0 8 5 ≤ s.pkc - s.pkg.idleSince.toNat →
      exec .dozeEntry s = .next (s.setFld .pwrState 0 0 0 2 2)) ∧
    (s.power = 2 → exec .dozeExit s = .next (s.setFld .pwrState 0 0 0 2 0))) ∧
  (∀ s : State, s.pkg.hib = .entering → s.readyToSleep = true →
    let a : State := { s with srv := { s.srv with
      jobs := s.srv.jobs.map fun j => (j.1, if j.2.state = .running then { j.2 with state := .suspended } else j.2)
      cores := [] } }
    let b := a.slices.foldl State.allToAutumn a
    let c := ((b.cnv.ops.filter fun o => (b.d o.index).season == .spring).map (·.index)).foldl (fun (t : State) i => t.stopThaw i eAborted) b
    let d := (List.range 8 ++ [16, 17, 18]).foldl (fun (t : State) d =>
      (t.setDie d { (t.die d).held with powered := false, locked := false }).resetClassD d) c
    let e : State := { d with
      pkg := { d.pkg with hib := .asleep, hibTags := [], selfRefresh := true }
      net := { d.net with buckets := [] } }
    exec .hibernateEntry s = .next (d.pkg.hibTags.foldl (fun (t : State) g => t.complete g eOk 0 [])
      ((e.setFld .pwrState 0 0 0 2 3).diesChanged.makeReport 0 true))) ∧
  (∀ s : State, s.pkg.hib = .waking → s.unmeasured = false → ∃ t : State,
    exec .wakeDone s = .next (s.pkg.hibTags.foldl (fun (t : State) g => t.complete g 0 0 []) (t.setFld .pwrState 0 0 0 2 0)) ∧
    t.pkg.hib = .awake ∧ t.srv.jobs = s.srv.jobs.map fun j => (j.1, if j.2.state = .suspended then { j.2 with state := .running } else j.2)) ∧
  (∀ s : State, let t : State := { s with pkg := { s.pkg with thermtrip := false } }
    s.pkg.thermtrip = true → 2 ^ 30 ≤ s.pkc - s.pkg.shutdownPkc.toNat → (s.die 19).temp ≤ 95 →
    exec .thermalRecovery s = .next (if s.pkg.shutdown = true ∧ s.fld .thermCtrl 0 0 1 1 = 1 then t.packageReset 3 else t)) ∧
  (∀ (unit : JtagUnit) (s : State),
    exec (.jtagAccess .bypass unit) s = .next (s.emit (.jtag true)) ∧ exec (.jtagAccess .idcode unit) s = .next (s.emit (.jtag true)) ∧
    (∀ d, unit = .die d → s.jtagReach unit = true → ∃ t : State, exec (.jtagAccess .haltSequencer unit) s = .next (t.emit (.jtag true)) ∧
      (t.die d.toNat).halted = true))

/-- MEM_ALLOC and MEM_FREE of a T1 object complete at once, with status 0. The allocated object stands in the object list as the
command asked for it, at the address that the completion returns, beside every object that was there (R298); the freed object is
off the list, every other object stays, and no region of memory is left at its pieces (R300). -/
def Obligations.MemAllocAndMemFreeComplete : Prop :=
  (∀ (h : Hdr) (slice : BitVec 6) (type : BitVec 3) (tier : BitVec 2) (protect : U1) (die fetchLog2 : BitVec 4) (stripe : BitVec 5)
    (size : U32) (va : U64) (s : State) (a : Nat),
    let u := Fetched h s; let sl := cmdSlice h.fn.toNat slice.toNat; let n := size.toNat * 4096; let prot := u.protFor sl (protect == 1)
    s.gessoWaits sl = false → Accepts { widths := [6, 3, 2, 1, 4, 4, 5, 32, 64] } h s → u.defined sl = true →
    type.toNat < 2 → tier ≠ 3 → size ≠ 0 → fetchLog2.toNat ≤ 9 → stripe.toNat ≤ 16 →
    (die = 15 ∨ die.toNat < (u.dieList sl).length) → (tier = 0 ∨ u.objectMode sl = false) →
    u.tierFor sl type.toNat tier.toNat = 1 → (va = 0 → u.lowestRange sl 1 n 4096 = some a) →
    (va ≠ 0 → a = va.toNat ∧ va.toNat % 4096 = 0 ∧ inTier 1 a n = true) → (u.objRanges sl).any (overlaps a n) = false →
    u.allocT1 sl type.toNat a size.toNat (if die = 15 then none else some die.toNat) prot ≠ none →
    ∃ t o, exec (.memAlloc h slice type tier protect die fetchLog2 stripe size va) s = .next (Ended t (TagOf h s) 0 [(64, a)]) ∧
      t.mem.objects = u.mem.objects ++ [o] ∧ o.type = type.toNat ∧ o.slice = sl ∧ o.va = a ∧ o.units = size.toNat ∧ o.tier = 1 ∧
      o.prot = prot) ∧
  (∀ (h : Hdr) (slice : BitVec 6) (va : U64) (s : State) (o : Obj), let u := Fetched h s
    Accepts { widths := [6, 64] } h s → u.defined (cmdSlice h.fn.toNat slice.toNat) = true →
    u.objStart (cmdSlice h.fn.toNat slice.toNat) va.toNat = some o → u.objInUse o = false → o.type < 2 → o.members = [] →
    ∃ t, exec (.memFree h slice va) s = .next (Ended t (TagOf h s) 0 []) ∧ t.mem.objects = u.mem.objects.filter (· != o) ∧
      ∀ p ∈ o.pieces, ∀ r ∈ t.mem.regions, r.pa ≠ p.2.1)

/-- APERTURE_MAP, APERTURE_UNMAP and POOL_RECLAIM complete: the mapping waits in the aperture list for the member's range, the
mapping of that address is off the list whether or not its member still is one, and the kept range is off the pool's list with its
bytes given to gesso; every other mapping and range stays (R379, R380). -/
def Obligations.ApertureAndPoolRangeCommandsComplete : Prop :=
  (∀ (h : Hdr) (slice : BitVec 6) (va : U64) (member : U16) (size : U32) (s : State) (m : Member),
    let u := Fetched h s; let sl := cmdSlice h.fn.toNat slice.toNat; let a := va.toNat; let n := size.toNat
    let x : Aperture := ⟨sl, a, n, member.toNat, none, some (TagOf h s)⟩
    Accepts { widths := [6, 64, 16, 32] } h s → u.defined sl = true → apertureRange a n = true →
    (u.objRanges sl).any (overlaps a (65536 * n)) = false →
    (∀ x ∈ u.apertures, x.slice = sl → overlaps a (65536 * n) (x.va, 65536 * x.units) = false) →
    u.member member.toNat = some m → m.pool ≠ 0 → n ≤ m.pool → ¬ (u.confidential sl = true ∧ m.kind = 2) →
    ∃ v : State, exec (.apertureMap h slice va member size) s =
      .next (v.send member.toNat 7 0x20 sl [n] [] (.aperture sl a)) ∧ v = { u with apertures := u.apertures ++ [x] }) ∧
  (∀ (h : Hdr) (slice : BitVec 6) (va : U64) (s : State) (x : Aperture),
    let u := Fetched h s; let sl := cmdSlice h.fn.toNat slice.toNat
    Accepts { widths := [6, 64] } h s → u.defined sl = true →
    u.apertures.find? (fun x => x.slice == sl && x.va == va.toNat && x.base.isSome) = some x →
    ∃ t v : State, exec (.apertureUnmap h slice va) s = .next (Ended t (TagOf h s) 0 []) ∧
      v = { u with apertures := u.apertures.filter (· != x) } ∧
      (t = v ∨ ∃ b, x.base = some b ∧ t = v.send x.member 7 0x21 sl [b] [] .none)) ∧
  (∀ (h : Hdr) (locator : U64) (s : State) (r : PoolRange), let u := Fetched h s
    Accepts { fns := .pf0, priv := 0x070D, widths := [64], noImage := true } h s →
    u.pool.find? (fun r => r.kept && 65536 * r.base == locator.toNat % 2 ^ 48) = some r →
    u.devNo = some (locator.toNat / 2 ^ 48) →
    ∃ t, exec (.poolReclaim h locator) s = .next (Ended t (TagOf h s) 0 []) ∧ t.pool = u.pool.filter (· != r) ∧
      ∃ g, t.mem.gesso = u.mem.gesso ++ g ∧ t = { u with pool := t.pool, mem := { u.mem with gesso := t.mem.gesso } })

/-- A request that is held for a newer map epoch is decided once more when that epoch has come or a quarter of the transaction limit
has passed (EPOCH_HOLD_EXPIRY): it is off the list and runs once again, and now, for no longer a time, under the epoch the device has.
A POOL_INFO and a READ of a pool range of a member are then answered with their effect, and a POOL_FREE of a range that the device
does not hold with E_STALE_MAP, each only once (R377). -/
def Obligations.HeldRequestIsDecidedAgain : Prop :=
  ∀ (src : U16) (tag : U32) (s : State) (h : HeldTx), s.net.redo = false →
    s.net.held.find? (fun h => h.hdr.src == src && h.hdr.tag == tag) = some h →
    (h.hdr.epoch.toNat ≤ s.comp.epoch ∨ s.txnLimit / 4 ≤ s.pkc - h.since.toNat) →
    let w : State := { s with net := { s.net with held := s.net.held.filter (· != h) } }
    (∃ t, exec (.epochHoldExpiry src tag) s = .next t ∧ State.rerun { w with net := { w.net with redo := true } } h.cmd = .next t) ∧
    (∀ t : TxHdr, w.member t.src.toNat ≠ none → 64 ≤ t.slice.toNat →
      (h.cmd = .poolInfo t → exec (.epochHoldExpiry src tag) s =
        .next (Replied t 7 w { data := bytesOf 8 w.poolFree ++ bytesOf 8 w.poolTotal })) ∧
      (∀ r, h.cmd = .readTxn t → w.poolAt t.addr.toNat = some r → exec (.epochHoldExpiry src tag) s =
        .next (Replied t 1 w { data := (w.poolRead t.addr.toNat (t.aux.toNat % 65536)).1, poison := (w.poolRead t.addr.toNat (t.aux.toNat % 65536)).2 })) ∧
      (∀ base, h.cmd = .poolFree t base → w.poolAt base.toNat = none → exec (.epochHoldExpiry src tag) s =
        .next ((w.respCode t 7 0x0703).bump .staleMapSent 0 1)))

/-- The device takes the commands of its queue in order: a step runs the command at the front on the state with the queue's rest. The
queue is the model's form of whoever drives the block (log entry 11). -/
def Obligations.StepRunsFrontCommand : Prop :=
  ∀ (c : Instr) (rest : List Instr) (s : State), step { s with pending := c :: rest } = exec c { s with pending := rest }

/-- With no command waiting the step lets the package counts advance and nothing else: the master by 1 under RT's locked root PLL, by
10 while that PLL is unlocked or unpowered and VAUX12 is present, not at all without VAUX12; the copy of a powered die with a locked
PLL by as much, other copies not (R7, R28, R29). That time passes on an empty queue is the model's choice.
That the count advances here is the model's choice (log entry 11). -/
def Obligations.EmptyQueueAdvancesPackageCount : Prop :=
  ∀ s : State, s.pending = [] → ∃ t : State, step s = .next t ∧ t = { s with pkg := { s.pkg with pkc := t.pkg.pkc, dies := t.pkg.dies } } ∧
    (∀ d, t.die d = { s.die d with pkc := (s.die d).pkc +
      if (s.die d).powered = true ∧ (s.die d).locked = true then t.pkg.pkc - s.pkg.pkc else 0 }) ∧
    (s.pkg.vaux12 = false → t.pkg.pkc = s.pkg.pkc) ∧
    (s.pkg.vaux12 = true → (s.die 19).powered = true → (s.die 19).locked = true → t.pkg.pkc = s.pkg.pkc + 1) ∧
    (s.pkg.vaux12 = true → ((s.die 19).powered = false ∨ (s.die 19).locked = false) → t.pkg.pkc = s.pkg.pkc + 10)

/-- Every command of the table answers a next state in every state, whatever its operands; the one stop is a patrol read of an
address no state die has (R293, R314). -/
def Obligations.OnlyPatrolReadOfNoDieStops : Prop :=
  ∀ (c : Instr) (s : State), (∃ t, exec c s = .next t) ∨
    ∃ (pa : U64) (errs : List (U8 × U8)), c = .patrolRead pa errs ∧ 8 * 2 ^ 37 ≤ pa.toNat ∧ exec c s = .fault (.noSuchAddress pa.toNat)

/-- No command touches the queue of waiting commands. -/
def Obligations.CommandsLeaveQueueAlone : Prop :=
  ∀ (c : Instr) (s t : State), exec c s = .next t → t.pending = s.pending

/-- No command moves the package count but the five events that make a cold reset, which return it to zero (R7, R29). -/
def Obligations.CountReturnsToZeroOnlyAtColdReset : Prop :=
  ∀ (c : Instr) (s t : State), exec c s = .next t → t.pkg.pkc = s.pkg.pkc ∨
    t.pkg.pkc = 0 ∧ (c = .vaux12Applied ∨ c = .vaux12Removed ∨ c = .pwrgoodDeassert ∨ c = .vin48OutOfRange ∨ c = .vio18Low)

/-- What is burnt into fuses stays burnt over every step: retired generations, ZCOUNT, RETURNED, enrolled authors and their keys,
revoked authors, minimum SVNs (R41, R43, R44, R414, R421, R447). -/
def Obligations.FusesOnlyBurn : Prop := ∀ s t : State, step s = .next t → Burnt s t

/-- Every step keeps the current generation one that is not retired, unless all sixteen are (R416, R421). -/
def Obligations.CurrentGenerationStaysLive : Prop := ∀ s t : State, GenerationLive s → step s = .next t → GenerationLive t

/-- The current generation is live in the state after reset (R416). -/
def Obligations.CurrentGenerationLiveAtReset : Prop := GenerationLive State.reset

/-- A host command that fails a general check has no effect but CMD_REJECTS and its completion, which carries the code (R4, R459). -/
def Obligations.FailedGeneralCheckHasNoEffect : Prop :=
  ∀ (i : Instr) (c : CmdSpec) (h : Hdr) (s : State) (code info : Nat), hostSpec i = some (c, h) → Fails c h s code info →
    s.module ≠ 0 → (∀ sl, s.gessoWaits sl = false) → (∀ f ∈ s.ck.flight, f.resumed = false) →
    (∀ sl a n d, s.accessWait sl a n d = none) → exec i s = .next ((Fetched h s).reject (TagOf h s) code info)

/-- INDIRECT must be set exactly when the packed operands exceed 56 bytes, with the packed length rounded up to 8 bytes and at most
4,096; otherwise E_BAD_LENGTH. An indirect buffer that cannot be read is found before any reserved bit (R458). -/
def Obligations.IndirectLengthChecksComeFirst : Prop :=
  ∀ (c : CmdSpec) (h : Hdr) (s : State), let need := packLen c.widths; let n := h.indLen.toNat
    let good : Prop := (h.indirect = true ↔ 56 < need) ∧ (h.indirect = true → n % 8 = 0 ∧ need ≤ n ∧ n < need + 8 ∧ n ≤ 4096)
    (¬ good → s.generalCheck c h = some (0x0105, 0)) ∧
    (good → h.indirect = true → h.indOk = false → s.generalCheck c h = some (0x0002, 0)) ∧
    (good → (h.indirect = true → h.indOk = true) → ∀ o, h.rsvd = some o → s.generalCheck c h = some (0x0103, o.toNat))

/-- The checks that follow, in order: a function outside the command's set, a queue command on another queue than the admin SQ, the
thermal shutdown, Hibernate, and no image at all; wedge-proof commands pass the last three (R52, R459, R460, R499, R516). -/
def Obligations.FunctionAndPowerChecks : Prop :=
  ∀ (c : CmdSpec) (h : Hdr) (s : State), let need := packLen c.widths; let n := h.indLen.toNat; let fn := h.fn.toNat
    (h.indirect = true ↔ 56 < need) → (h.indirect = true → n % 8 = 0 ∧ need ≤ n ∧ n < need + 8 ∧ n ≤ 4096 ∧ h.indOk = true) →
    h.rsvd = none →
    (c.fns.has fn = false → s.generalCheck c h = some (c.priv, 0)) ∧
    (c.fns.has fn = true → c.admin = true → h.sq.toNat ≠ fn → s.generalCheck c h = some (0x0102, 0)) ∧
    (c.fns.has fn = true → (c.admin = true → h.sq.toNat = fn) →
      (c.wedge = true → s.generalCheck c h = none) ∧
      (c.wedge = false → s.pkg.shutdown = true → s.generalCheck c h = some (0x0B05, 0)) ∧
      (c.wedge = false → s.pkg.shutdown = false → s.hibernating = true → c.hibernate = false →
        s.generalCheck c h = some (0x0B01, 0)) ∧
      (c.wedge = false → s.pkg.shutdown = false → (s.hibernating = false ∨ c.hibernate = true) → s.fld .fwStatus 0 0 7 1 = 0 →
        s.img.running = none → (c.noImage = false ∨ fn ≠ 0) → s.generalCheck c h = some (0x0A11, 0)))

/-- A completion is 32 bytes at the CQ's tail, laid out as R461 gives; the tail moves on and PHASE toggles at the wrap; every other
host byte stays (R461). -/
def Obligations.CompletionIsWrittenAtTail : Prop :=
  ∀ (s : State) (t : Tag) (status info : Nat) (result : Bytes) (c : Cq), s.epoch t.fn t.cq = t.epoch → s.pkg.fatal = false →
    tabGet s.host.cqs t.cq = some c → c.tail < 2 ^ c.log2 → s.hostOk (c.base.toNat + 32 * c.tail) 32 = true →
    let u := s.complete t status info result; let a := c.base.toNat + 32 * c.tail
    let head := ((tabGet s.host.sqs t.sq).map (·.head)).getD 0
    memRead u.host.mem a 32 = (result ++ zeros 16).take 16 ++ bytesOf 2 t.sq ++ bytesOf 2 head ++ bytesOf 2 t.cid.toNat ++
      bytesOf 2 status ++ bytesOf 4 info ++ bytesOf 2 (boolBit c.phase) ++ zeros 2 ∧
    (∀ b, b < a ∨ a + 32 ≤ b → memGet u.host.mem b = memGet s.host.mem b) ∧
    ∃ c', tabGet u.host.cqs t.cq = some c' ∧ c'.tail = (c.tail + 1) % 2 ^ c.log2 ∧ c'.head = c.head ∧
      c'.phase = (if c.tail + 1 = 2 ^ c.log2 then !c.phase else c.phase)

/-- The register map finds every register at its own offset: its first place, and the last place its units and its number allow
(R476, R477, R489). -/
def Obligations.RegisterMapFindsEachRegister : Prop :=
  ∀ r : Reg, let u := r.units - 1; let i := r.row.count - 1
    regAt (r.addr 0 0) = some (r, 0, 0) ∧ regAt (r.addr u i) = some (r, u, i)

/-- A read of PKC_LO returns the low word of the count and latches the high word for the reading function; that function's next
read of PKC_HI returns the latched word, other functions' latches stay, and PKC_HI with nothing latched is the live word (R30). -/
def Obligations.PkcLoReadLatchesHi : Prop :=
  ∀ (fn : BitVec 6) (s : State), let hi := Reg.addr .pkcHi 0 0
    (∃ t : State, exec (.pkcLoRead fn) s = .next (t.emit (.readData fn.toNat (bytesOf 4 (s.pkc % 2 ^ 32)))) ∧
      (∀ v : State, v.host.latches = t.host.latches → (v.regRead fn.toNat hi).2 = s.pkc / 2 ^ 32) ∧
      (∀ g, g < 64 → g ≠ fn.toNat → tabGet t.host.latches (2 ^ 26 * g + hi) = tabGet s.host.latches (2 ^ 26 * g + hi))) ∧
    (tabGet s.host.latches (2 ^ 26 * fn.toNat + hi) = none → (s.regRead fn.toNat hi).2 = s.pkc / 2 ^ 32)

/-- A LO write of a pair is held for the writing function and takes effect with its HI write, as one 64-bit value; a HI write with no
LO pending keeps the current LO (R483), as the patrol period of a memory controller shows. -/
def Obligations.LoHiPairCommitsWhole : Prop :=
  ∀ (n v w : Nat) (s : State), n < 8 → v < 2 ^ 32 → w < 2 ^ 32 → s.hibernating = false → s.seqDown (8 + n) = false →
    let lo := Reg.addr .mcPatrolLo n 0; let hi := Reg.addr .mcPatrolHi n 0
    let t := s.writeReg 0 lo v
    t.reg64 .mcPatrolLo .mcPatrolHi n = s.reg64 .mcPatrolLo .mcPatrolHi n ∧
    (t.writeReg 0 hi w).reg64 .mcPatrolLo .mcPatrolHi n = w * 2 ^ 32 + v ∧
    (tabGet s.host.pendLo lo = none →
      (s.writeReg 0 hi w).reg64 .mcPatrolLo .mcPatrolHi n = w * 2 ^ 32 + s.reg .mcPatrolLo n 0)

/-- A write to a register keeps every bit of it that no field covers (R4). -/
def Obligations.ReservedBitsKeepTheirValue : Prop :=
  ∀ (s : State) (r : Reg) (u i v k : Nat), k < 32 → (∀ f ∈ r.row.fields, k < f.lo ∨ f.lo + f.width ≤ k) →
    ((s.writeFields r u i v).reg r u i).testBit k = (s.reg r u i).testBit k

/-- A counter stops at 0xFFFF_FFFF and no other register moves with it (R484). -/
def Obligations.CountersStopAtTheTop : Prop :=
  ∀ (s : State) (r : Reg) (u n : Nat), (s.bump r u n).reg r u 0 = min 0xFFFF_FFFF (s.reg r u 0 + n) ∧
    (∀ (q : Reg) (v j : Nat), q.addr v j ≠ r.addr u 0 → (s.bump r u n).reg q v j = s.reg q v j) ∧
    s.bump r u n = { s with regs := (s.bump r u n).regs }

/-- A reset of registers puts every field it names to its reset value and leaves every other field as it was (R5, R6). -/
def Obligations.ResetRestoresNamedFields : Prop :=
  ∀ (s : State) (hit : Reg → Nat → Field → Bool) (r : Reg) (u i : Nat) (f : Field), (s.regs.map (·.1)).Nodup →
    regAt (r.addr u i) = some (r, u, i) → f ∈ r.row.fields →
    bitsOf ((s.resetRegs hit).reg r u i) f.lo f.width = if hit r u f then f.rst else bitsOf (s.reg r u i) f.lo f.width

/-- The level of a vector: t is the number of trailing zero bits of the 24-bit draw of its id (24 for 0), and the level is
min(LEVELS − 1, ⌊t ÷ 4⌋); so one draw in 16 reaches level 1 or above (R328). -/
def Obligations.VectorLevelFollowsDraw : Prop :=
  ∀ (x : Index) (id : Nat), let v := draw24 x.serial.toNat id
    (∃ t, x.levelOf id = min (x.levels - 1) (t / 4) ∧ (v = 0 → t = 24) ∧ (v ≠ 0 → 2 ^ t ∣ v ∧ ¬ 2 ^ (t + 1) ∣ v)) ∧
    v < 2 ^ 24 ∧ (2 ≤ x.levels → (1 ≤ x.levelOf id ↔ v % 16 = 0))

/-- Stretch-local token t of a layer occupies slot t + 16 of each of the layer's areas: the address of that slot translates to the
page's region at (t − first) units, wherever no granule stands in for the region; no address of slots 0..15 lies in a page (R141). -/
def Obligations.TokenOccupiesItsSlot : Prop :=
  ∀ (s : State) (g : Geom) (prot : Bool) (k : SessKv) (base a l t b : Nat) (p : KvPage), let u := g.unit a; let n := 16384 + g.cap
    let at_ := fun slot b => g.areaAt a 0 + l * (u * n) + slot * u + b
    b < u → t + 16 < n → p.areaPa a ≠ 0 →
    (∀ gr ∈ k.granules, ¬ (gr.area = a ∧ gr.layer = l ∧ gr.m = ((t + 16) * u + b) / 4096)) →
    k.pages.find? (fun q => q.layer == l && q.first + 16 ≤ t + 16 && t + 16 < q.first + 16 + 16 * 2 ^ q.log2) = some p →
    (∃ x, s.xlateKv g prot k base a (at_ (t + 16) b) = some x ∧ x.pa = some (p.areaPa a + (t - p.first) * u + b) ∧ x.prot = prot ∧
      x.cow = (p.rcp != 0)) ∧
    (∀ slot x, slot < 16 → s.xlateKv g prot k base a (at_ slot b) = some x → ∃ gr ∈ k.granules, gr.area = a ∧ gr.layer = l)

/-- A FIRE with no ARM within 2^20 counts has no effect; with one, ZEROIZE retires the current generation,
blows one ZCOUNT bit and erases the key slots and the sealing key (R447). -/
def Obligations.ZeroizeNeedsArm : Prop :=
  ∀ (s : State), (s.sec.armed = none → exec (.zeroizeFire 0) s = .next s) ∧
    (∀ p : U64, s.sec.armed = some p → 2 ^ 20 < s.pkc - p.toNat → exec (.zeroizeFire 0) s = .next s) ∧
    (∀ p : U64, s.sec.armed = some p → s.pkc - p.toNat ≤ 2 ^ 20 → s.pkg.conversion = true → s.sec.current < 16 → s.sec.zcount < 16 →
      ∃ t, exec (.zeroizeFire 0) s = .next t ∧ t.sec.retired.testBit s.sec.current = true ∧ t.sec.zcount = s.sec.zcount + 1 ∧
        t.sec.slots = [] ∧ t.sec.csk = none ∧ t.pkg.pkc = s.pkg.pkc)

/-- A sector stays poisoned until a write replaces all 128 of its bytes; a write of fewer bytes merges and keeps the marker, and a
write makes no sector poisoned (R312). -/
def Obligations.PoisonStaysUntilWholeWrite : Prop :=
  ∀ (s : State) (pa : Nat) (b : Bytes) (x : Nat), x ∈ (s.pwrite pa b).mem.poison ↔
    x ∈ s.mem.poison ∧ ¬ (pa ≤ x ∧ x + 128 ≤ pa + b.length)

/-- A request whose TAG was already served is answered again with the outcome kept, and has no second effect (R361). -/
def Obligations.DuplicateRequestIsOnlyAnswered : Prop :=
  ∀ (i : Instr) (t : TxHdr) (type op len : Nat) (s : State) (st res : Nat) (units base : U64) (data : Bytes) (c : ChangeOps),
    (i = .poolAlloc t units ∧ type = 7 ∧ op = 0x20 ∧ len = 8 ∨ i = .poolFree t base ∧ type = 7 ∧ op = 0x21 ∧ len = 8 ∨
      i = .fadd64 t data ∧ type = 3 ∧ op = 4 ∧ len = data.length ∨ i = .cas64 t data ∧ type = 3 ∧ op = 5 ∧ len = data.length ∨
      i = .writeTxn t data ∧ type = 2 ∧ op = 0 ∧ len = data.length ∨ i = .propose t c ∧ type = 6 ∧ op = 1 ∧ len = 0) →
    let a := s.arrive t type op len (laneOf (queueOf t type) false) true
    s.net.redo = false → a.2 = true → a.1.tagAt t.src.toNat t.tag.toNat = .duplicate st res →
    exec i s = .next ((a.1.bump .dedupHits 0 1).answer t type 8 st res [] false)

/-- A request from a device that is no member, and that no exemption covers, is answered E_NOT_MEMBER and has no effect (R372). -/
def Obligations.StrangersRequestIsRefused : Prop :=
  ∀ (i : Instr) (t : TxHdr) (type op len : Nat) (s : State) (units base : U64) (data : Bytes) (o : OfferOps),
    (i = .poolAlloc t units ∧ type = 7 ∧ op = 0x20 ∧ len = 8 ∨ i = .poolFree t base ∧ type = 7 ∧ op = 0x21 ∧ len = 8 ∨
      i = .fadd64 t data ∧ type = 3 ∧ op = 4 ∧ len = data.length ∨ i = .cas64 t data ∧ type = 3 ∧ op = 5 ∧ len = data.length ∨
      i = .writeTxn t data ∧ type = 2 ∧ op = 0 ∧ len = data.length ∨ i = .offer t o ∧ type = 7 ∧ op = 1 ∧ len = 0) →
    let a := s.arrive t type op len (laneOf (queueOf t type) false) true
    let u := Requested t type op len s
    s.net.redo = false → a.2 = true → a.1.tagAt t.src.toNat t.tag.toNat = .fresh → u.member t.src.toNat = none →
    exec i s = .next (u.answer t type 8 0x0704 0 [] false)

/-- Thermal DUTY falls to min(DUTY, 8) when a sensor reaches THROTTLE, then by 1 a period to no less than 4, and rises by 1 a period
to 16: the sensor and throttle rows keep it between 4 and 16 (R514). -/
def Obligations.ThermalDutyStaysInRange : Prop :=
  ∀ (c : Instr) (die : BitVec 5) (x : U8) (s t : State), (c = .sensorRead die x ∨ c = .throttlePeriod) →
    4 ≤ s.pkg.thermDuty → s.pkg.thermDuty ≤ 16 → exec c s = .next t → 4 ≤ t.pkg.thermDuty ∧ t.pkg.thermDuty ≤ 16 ∧
      (s.throttleAt ≤ s.hottest → c = .throttlePeriod → t.pkg.thermDuty = max 4 (min 8 (s.pkg.thermDuty - 1)))

/-- A register read changes nothing but what it answers, its latch and the access error counter (R30, R480, R483). -/
def Obligations.ReadsLeaveTheRestAlone : Prop :=
  ∀ (c : Instr) (fn : BitVec 6) (off : BitVec 26) (s t : State), (c = .pkcLoRead fn ∨ c = .loReadLatch fn off) → exec c s = .next t →
    t = { s with regs := t.regs, host := { s.host with latches := t.host.latches, out := t.host.out } } ∧
    (∀ (r : Reg) (u i : Nat), r.addr u i ≠ Reg.addr .regAccErr 0 0 → r.addr u i ≠ Reg.addr .regAccLast 0 0 → t.reg r u i = s.reg r u i)

/-- An event finds no queue and is discarded; finds it full, is discarded, counted in EQ_LOST and marks the next record; or else is
written as the next record, its OVERFLOW bit telling of events lost before it (R467, R468). -/
def Obligations.EventIsPostedOrCountedLost : Prop :=
  ∀ (s : State) (q type slice status : Nat) (data : Bytes),
    (tabGet s.host.eqs q = none → s.post q type slice status data = s) ∧
    (∀ e : Evq, tabGet s.host.eqs q = some e → let n := 2 ^ e.log2; let used := (e.tail + 2 * n - e.head) % (2 * n)
      let t := s.post q type slice status data
      (n ≤ used → t.host.mem = s.host.mem ∧ tabGet t.host.eqs q = some { e with lost := true } ∧
        t.reg .eqLost e.fn 0 = min 0xFFFF_FFFF (s.reg .eqLost e.fn 0 + 1)) ∧
      (used < n → s.hostOk (e.base.toNat + 32 * (e.tail % n)) 32 = true →
        memRead t.host.mem (e.base.toNat + 32 * (e.tail % n)) 32 =
          eventBytes type slice status s.pkc data (decide (e.tail < n)) e.lost ∧
        tabGet t.host.eqs q = some { e with tail := (e.tail + 1) % (2 * n), lost := false, msgSent := true }))
end

