-- ==== Sys2Proof/Laws/State.lean ====
section
/-! SUPPORT. What the named operations leave alone: one lemma per field that an operation does not write. -/

namespace Sys2Proof.Machine

theorem foldl_pending {α : Type} (f : State → α → State) (h : ∀ t x, (f t x).pending = t.pending) (l : List α) : ∀ s : State,
    (l.foldl f s).pending = s.pending := by
  induction l with
  | nil => intro s; rfl
  | cons x l ih => intro s; simp [ih, h]
theorem foldl_free {α : Type} (f : State → α → State) (h : ∀ t x, (f t x).free = t.free) (l : List α) : ∀ s : State,
    (l.foldl f s).free = s.free := by
  induction l with
  | nil => intro s; rfl
  | cons x l ih => intro s; simp [ih, h]
theorem foldl_regs {α : Type} (f : State → α → State) (h : ∀ t x, (f t x).regs = t.regs) (l : List α) : ∀ s : State,
    (l.foldl f s).regs = s.regs := by
  induction l with
  | nil => intro s; rfl
  | cons x l ih => intro s; simp [ih, h]
theorem foldl_pkg {α : Type} (f : State → α → State) (h : ∀ t x, (f t x).pkg = t.pkg) (l : List α) : ∀ s : State,
    (l.foldl f s).pkg = s.pkg := by
  induction l with
  | nil => intro s; rfl
  | cons x l ih => intro s; simp [ih, h]
theorem foldl_flash {α : Type} (f : State → α → State) (h : ∀ t x, (f t x).flash = t.flash) (l : List α) : ∀ s : State,
    (l.foldl f s).flash = s.flash := by
  induction l with
  | nil => intro s; rfl
  | cons x l ih => intro s; simp [ih, h]
theorem foldl_log {α : Type} (f : State → α → State) (h : ∀ t x, (f t x).log = t.log) (l : List α) : ∀ s : State,
    (l.foldl f s).log = s.log := by
  induction l with
  | nil => intro s; rfl
  | cons x l ih => intro s; simp [ih, h]
theorem foldl_host {α : Type} (f : State → α → State) (h : ∀ t x, (f t x).host = t.host) (l : List α) : ∀ s : State,
    (l.foldl f s).host = s.host := by
  induction l with
  | nil => intro s; rfl
  | cons x l ih => intro s; simp [ih, h]
theorem foldl_sec {α : Type} (f : State → α → State) (h : ∀ t x, (f t x).sec = t.sec) (l : List α) : ∀ s : State,
    (l.foldl f s).sec = s.sec := by
  induction l with
  | nil => intro s; rfl
  | cons x l ih => intro s; simp [ih, h]
theorem foldl_img {α : Type} (f : State → α → State) (h : ∀ t x, (f t x).img = t.img) (l : List α) : ∀ s : State,
    (l.foldl f s).img = s.img := by
  induction l with
  | nil => intro s; rfl
  | cons x l ih => intro s; simp [ih, h]
theorem foldl_desc {α : Type} (f : State → α → State) (h : ∀ t x, (f t x).desc = t.desc) (l : List α) : ∀ s : State,
    (l.foldl f s).desc = s.desc := by
  induction l with
  | nil => intro s; rfl
  | cons x l ih => intro s; simp [ih, h]
theorem foldl_aux {α : Type} (f : State → α → State) (h : ∀ t x, (f t x).aux = t.aux) (l : List α) : ∀ s : State,
    (l.foldl f s).aux = s.aux := by
  induction l with
  | nil => intro s; rfl
  | cons x l ih => intro s; simp [ih, h]
theorem foldl_emptyCtr {α : Type} (f : State → α → State) (h : ∀ t x, (f t x).emptyCtr = t.emptyCtr) (l : List α) : ∀ s : State,
    (l.foldl f s).emptyCtr = s.emptyCtr := by
  induction l with
  | nil => intro s; rfl
  | cons x l ih => intro s; simp [ih, h]
theorem foldl_mem {α : Type} (f : State → α → State) (h : ∀ t x, (f t x).mem = t.mem) (l : List α) : ∀ s : State,
    (l.foldl f s).mem = s.mem := by
  induction l with
  | nil => intro s; rfl
  | cons x l ih => intro s; simp [ih, h]
theorem foldl_cnv {α : Type} (f : State → α → State) (h : ∀ t x, (f t x).cnv = t.cnv) (l : List α) : ∀ s : State,
    (l.foldl f s).cnv = s.cnv := by
  induction l with
  | nil => intro s; rfl
  | cons x l ih => intro s; simp [ih, h]
theorem foldl_srv {α : Type} (f : State → α → State) (h : ∀ t x, (f t x).srv = t.srv) (l : List α) : ∀ s : State,
    (l.foldl f s).srv = s.srv := by
  induction l with
  | nil => intro s; rfl
  | cons x l ih => intro s; simp [ih, h]
theorem foldl_comp {α : Type} (f : State → α → State) (h : ∀ t x, (f t x).comp = t.comp) (l : List α) : ∀ s : State,
    (l.foldl f s).comp = s.comp := by
  induction l with
  | nil => intro s; rfl
  | cons x l ih => intro s; simp [ih, h]
theorem foldl_pool {α : Type} (f : State → α → State) (h : ∀ t x, (f t x).pool = t.pool) (l : List α) : ∀ s : State,
    (l.foldl f s).pool = s.pool := by
  induction l with
  | nil => intro s; rfl
  | cons x l ih => intro s; simp [ih, h]
theorem foldl_apertures {α : Type} (f : State → α → State) (h : ∀ t x, (f t x).apertures = t.apertures) (l : List α) : ∀ s : State,
    (l.foldl f s).apertures = s.apertures := by
  induction l with
  | nil => intro s; rfl
  | cons x l ih => intro s; simp [ih, h]
theorem foldl_mirrors {α : Type} (f : State → α → State) (h : ∀ t x, (f t x).mirrors = t.mirrors) (l : List α) : ∀ s : State,
    (l.foldl f s).mirrors = s.mirrors := by
  induction l with
  | nil => intro s; rfl
  | cons x l ih => intro s; simp [ih, h]
theorem foldl_handoffs {α : Type} (f : State → α → State) (h : ∀ t x, (f t x).handoffs = t.handoffs) (l : List α) : ∀ s : State,
    (l.foldl f s).handoffs = s.handoffs := by
  induction l with
  | nil => intro s; rfl
  | cons x l ih => intro s; simp [ih, h]
theorem foldl_net {α : Type} (f : State → α → State) (h : ∀ t x, (f t x).net = t.net) (l : List α) : ∀ s : State,
    (l.foldl f s).net = s.net := by
  induction l with
  | nil => intro s; rfl
  | cons x l ih => intro s; simp [ih, h]
theorem foldl_ret {α : Type} (f : State → α → State) (h : ∀ t x, (f t x).ret = t.ret) (l : List α) : ∀ s : State,
    (l.foldl f s).ret = s.ret := by
  induction l with
  | nil => intro s; rfl
  | cons x l ih => intro s; simp [ih, h]
theorem foldl_ck {α : Type} (f : State → α → State) (h : ∀ t x, (f t x).ck = t.ck) (l : List α) : ∀ s : State,
    (l.foldl f s).ck = s.ck := by
  induction l with
  | nil => intro s; rfl
  | cons x l ih => intro s; simp [ih, h]
/-! ### State.drew -/

@[simp] theorem State.drew_pending (s : State) :
    (State.drew s).pending = s.pending := by
  simp [State.drew]
@[simp] theorem State.drew_regs (s : State) :
    (State.drew s).regs = s.regs := by
  simp [State.drew]
@[simp] theorem State.drew_pkg (s : State) :
    (State.drew s).pkg = s.pkg := by
  simp [State.drew]
@[simp] theorem State.drew_flash (s : State) :
    (State.drew s).flash = s.flash := by
  simp [State.drew]
@[simp] theorem State.drew_log (s : State) :
    (State.drew s).log = s.log := by
  simp [State.drew]
@[simp] theorem State.drew_host (s : State) :
    (State.drew s).host = s.host := by
  simp [State.drew]
@[simp] theorem State.drew_sec (s : State) :
    (State.drew s).sec = s.sec := by
  simp [State.drew]
@[simp] theorem State.drew_img (s : State) :
    (State.drew s).img = s.img := by
  simp [State.drew]
@[simp] theorem State.drew_desc (s : State) :
    (State.drew s).desc = s.desc := by
  simp [State.drew]
@[simp] theorem State.drew_aux (s : State) :
    (State.drew s).aux = s.aux := by
  simp [State.drew]
@[simp] theorem State.drew_emptyCtr (s : State) :
    (State.drew s).emptyCtr = s.emptyCtr := by
  simp [State.drew]
@[simp] theorem State.drew_mem (s : State) :
    (State.drew s).mem = s.mem := by
  simp [State.drew]
@[simp] theorem State.drew_cnv (s : State) :
    (State.drew s).cnv = s.cnv := by
  simp [State.drew]
@[simp] theorem State.drew_srv (s : State) :
    (State.drew s).srv = s.srv := by
  simp [State.drew]
@[simp] theorem State.drew_comp (s : State) :
    (State.drew s).comp = s.comp := by
  simp [State.drew]
@[simp] theorem State.drew_pool (s : State) :
    (State.drew s).pool = s.pool := by
  simp [State.drew]
@[simp] theorem State.drew_apertures (s : State) :
    (State.drew s).apertures = s.apertures := by
  simp [State.drew]
@[simp] theorem State.drew_mirrors (s : State) :
    (State.drew s).mirrors = s.mirrors := by
  simp [State.drew]
@[simp] theorem State.drew_handoffs (s : State) :
    (State.drew s).handoffs = s.handoffs := by
  simp [State.drew]
@[simp] theorem State.drew_net (s : State) :
    (State.drew s).net = s.net := by
  simp [State.drew]
@[simp] theorem State.drew_ret (s : State) :
    (State.drew s).ret = s.ret := by
  simp [State.drew]
@[simp] theorem State.drew_ck (s : State) :
    (State.drew s).ck = s.ck := by
  simp [State.drew]

/-! ### State.setReg -/

@[simp] theorem State.setReg_pending (s : State) (r : Reg) (u i v : Nat) :
    (State.setReg s r u i v).pending = s.pending := by
  simp [State.setReg]
@[simp] theorem State.setReg_free (s : State) (r : Reg) (u i v : Nat) :
    (State.setReg s r u i v).free = s.free := by
  simp [State.setReg]
@[simp] theorem State.setReg_pkg (s : State) (r : Reg) (u i v : Nat) :
    (State.setReg s r u i v).pkg = s.pkg := by
  simp [State.setReg]
@[simp] theorem State.setReg_flash (s : State) (r : Reg) (u i v : Nat) :
    (State.setReg s r u i v).flash = s.flash := by
  simp [State.setReg]
@[simp] theorem State.setReg_log (s : State) (r : Reg) (u i v : Nat) :
    (State.setReg s r u i v).log = s.log := by
  simp [State.setReg]
@[simp] theorem State.setReg_host (s : State) (r : Reg) (u i v : Nat) :
    (State.setReg s r u i v).host = s.host := by
  simp [State.setReg]
@[simp] theorem State.setReg_sec (s : State) (r : Reg) (u i v : Nat) :
    (State.setReg s r u i v).sec = s.sec := by
  simp [State.setReg]
@[simp] theorem State.setReg_img (s : State) (r : Reg) (u i v : Nat) :
    (State.setReg s r u i v).img = s.img := by
  simp [State.setReg]
@[simp] theorem State.setReg_desc (s : State) (r : Reg) (u i v : Nat) :
    (State.setReg s r u i v).desc = s.desc := by
  simp [State.setReg]
@[simp] theorem State.setReg_aux (s : State) (r : Reg) (u i v : Nat) :
    (State.setReg s r u i v).aux = s.aux := by
  simp [State.setReg]
@[simp] theorem State.setReg_emptyCtr (s : State) (r : Reg) (u i v : Nat) :
    (State.setReg s r u i v).emptyCtr = s.emptyCtr := by
  simp [State.setReg]
@[simp] theorem State.setReg_mem (s : State) (r : Reg) (u i v : Nat) :
    (State.setReg s r u i v).mem = s.mem := by
  simp [State.setReg]
@[simp] theorem State.setReg_cnv (s : State) (r : Reg) (u i v : Nat) :
    (State.setReg s r u i v).cnv = s.cnv := by
  simp [State.setReg]
@[simp] theorem State.setReg_srv (s : State) (r : Reg) (u i v : Nat) :
    (State.setReg s r u i v).srv = s.srv := by
  simp [State.setReg]
@[simp] theorem State.setReg_comp (s : State) (r : Reg) (u i v : Nat) :
    (State.setReg s r u i v).comp = s.comp := by
  simp [State.setReg]
@[simp] theorem State.setReg_pool (s : State) (r : Reg) (u i v : Nat) :
    (State.setReg s r u i v).pool = s.pool := by
  simp [State.setReg]
@[simp] theorem State.setReg_apertures (s : State) (r : Reg) (u i v : Nat) :
    (State.setReg s r u i v).apertures = s.apertures := by
  simp [State.setReg]
@[simp] theorem State.setReg_mirrors (s : State) (r : Reg) (u i v : Nat) :
    (State.setReg s r u i v).mirrors = s.mirrors := by
  simp [State.setReg]
@[simp] theorem State.setReg_handoffs (s : State) (r : Reg) (u i v : Nat) :
    (State.setReg s r u i v).handoffs = s.handoffs := by
  simp [State.setReg]
@[simp] theorem State.setReg_net (s : State) (r : Reg) (u i v : Nat) :
    (State.setReg s r u i v).net = s.net := by
  simp [State.setReg]
@[simp] theorem State.setReg_ret (s : State) (r : Reg) (u i v : Nat) :
    (State.setReg s r u i v).ret = s.ret := by
  simp [State.setReg]
@[simp] theorem State.setReg_ck (s : State) (r : Reg) (u i v : Nat) :
    (State.setReg s r u i v).ck = s.ck := by
  simp [State.setReg]

/-! ### State.setFld -/

@[simp] theorem State.setFld_pending (s : State) (r : Reg) (u i lo w v : Nat) :
    (State.setFld s r u i lo w v).pending = s.pending := by
  simp [State.setFld]
@[simp] theorem State.setFld_free (s : State) (r : Reg) (u i lo w v : Nat) :
    (State.setFld s r u i lo w v).free = s.free := by
  simp [State.setFld]
@[simp] theorem State.setFld_pkg (s : State) (r : Reg) (u i lo w v : Nat) :
    (State.setFld s r u i lo w v).pkg = s.pkg := by
  simp [State.setFld]
@[simp] theorem State.setFld_flash (s : State) (r : Reg) (u i lo w v : Nat) :
    (State.setFld s r u i lo w v).flash = s.flash := by
  simp [State.setFld]
@[simp] theorem State.setFld_log (s : State) (r : Reg) (u i lo w v : Nat) :
    (State.setFld s r u i lo w v).log = s.log := by
  simp [State.setFld]
@[simp] theorem State.setFld_host (s : State) (r : Reg) (u i lo w v : Nat) :
    (State.setFld s r u i lo w v).host = s.host := by
  simp [State.setFld]
@[simp] theorem State.setFld_sec (s : State) (r : Reg) (u i lo w v : Nat) :
    (State.setFld s r u i lo w v).sec = s.sec := by
  simp [State.setFld]
@[simp] theorem State.setFld_img (s : State) (r : Reg) (u i lo w v : Nat) :
    (State.setFld s r u i lo w v).img = s.img := by
  simp [State.setFld]
@[simp] theorem State.setFld_desc (s : State) (r : Reg) (u i lo w v : Nat) :
    (State.setFld s r u i lo w v).desc = s.desc := by
  simp [State.setFld]
@[simp] theorem State.setFld_aux (s : State) (r : Reg) (u i lo w v : Nat) :
    (State.setFld s r u i lo w v).aux = s.aux := by
  simp [State.setFld]
@[simp] theorem State.setFld_emptyCtr (s : State) (r : Reg) (u i lo w v : Nat) :
    (State.setFld s r u i lo w v).emptyCtr = s.emptyCtr := by
  simp [State.setFld]
@[simp] theorem State.setFld_mem (s : State) (r : Reg) (u i lo w v : Nat) :
    (State.setFld s r u i lo w v).mem = s.mem := by
  simp [State.setFld]
@[simp] theorem State.setFld_cnv (s : State) (r : Reg) (u i lo w v : Nat) :
    (State.setFld s r u i lo w v).cnv = s.cnv := by
  simp [State.setFld]
@[simp] theorem State.setFld_srv (s : State) (r : Reg) (u i lo w v : Nat) :
    (State.setFld s r u i lo w v).srv = s.srv := by
  simp [State.setFld]
@[simp] theorem State.setFld_comp (s : State) (r : Reg) (u i lo w v : Nat) :
    (State.setFld s r u i lo w v).comp = s.comp := by
  simp [State.setFld]
@[simp] theorem State.setFld_pool (s : State) (r : Reg) (u i lo w v : Nat) :
    (State.setFld s r u i lo w v).pool = s.pool := by
  simp [State.setFld]
@[simp] theorem State.setFld_apertures (s : State) (r : Reg) (u i lo w v : Nat) :
    (State.setFld s r u i lo w v).apertures = s.apertures := by
  simp [State.setFld]
@[simp] theorem State.setFld_mirrors (s : State) (r : Reg) (u i lo w v : Nat) :
    (State.setFld s r u i lo w v).mirrors = s.mirrors := by
  simp [State.setFld]
@[simp] theorem State.setFld_handoffs (s : State) (r : Reg) (u i lo w v : Nat) :
    (State.setFld s r u i lo w v).handoffs = s.handoffs := by
  simp [State.setFld]
@[simp] theorem State.setFld_net (s : State) (r : Reg) (u i lo w v : Nat) :
    (State.setFld s r u i lo w v).net = s.net := by
  simp [State.setFld]
@[simp] theorem State.setFld_ret (s : State) (r : Reg) (u i lo w v : Nat) :
    (State.setFld s r u i lo w v).ret = s.ret := by
  simp [State.setFld]
@[simp] theorem State.setFld_ck (s : State) (r : Reg) (u i lo w v : Nat) :
    (State.setFld s r u i lo w v).ck = s.ck := by
  simp [State.setFld]

/-! ### State.bump -/

@[simp] theorem State.bump_pending (s : State) (r : Reg) (u n : Nat) :
    (State.bump s r u n).pending = s.pending := by
  simp [State.bump]
@[simp] theorem State.bump_free (s : State) (r : Reg) (u n : Nat) :
    (State.bump s r u n).free = s.free := by
  simp [State.bump]
@[simp] theorem State.bump_pkg (s : State) (r : Reg) (u n : Nat) :
    (State.bump s r u n).pkg = s.pkg := by
  simp [State.bump]
@[simp] theorem State.bump_flash (s : State) (r : Reg) (u n : Nat) :
    (State.bump s r u n).flash = s.flash := by
  simp [State.bump]
@[simp] theorem State.bump_log (s : State) (r : Reg) (u n : Nat) :
    (State.bump s r u n).log = s.log := by
  simp [State.bump]
@[simp] theorem State.bump_host (s : State) (r : Reg) (u n : Nat) :
    (State.bump s r u n).host = s.host := by
  simp [State.bump]
@[simp] theorem State.bump_sec (s : State) (r : Reg) (u n : Nat) :
    (State.bump s r u n).sec = s.sec := by
  simp [State.bump]
@[simp] theorem State.bump_img (s : State) (r : Reg) (u n : Nat) :
    (State.bump s r u n).img = s.img := by
  simp [State.bump]
@[simp] theorem State.bump_desc (s : State) (r : Reg) (u n : Nat) :
    (State.bump s r u n).desc = s.desc := by
  simp [State.bump]
@[simp] theorem State.bump_aux (s : State) (r : Reg) (u n : Nat) :
    (State.bump s r u n).aux = s.aux := by
  simp [State.bump]
@[simp] theorem State.bump_emptyCtr (s : State) (r : Reg) (u n : Nat) :
    (State.bump s r u n).emptyCtr = s.emptyCtr := by
  simp [State.bump]
@[simp] theorem State.bump_mem (s : State) (r : Reg) (u n : Nat) :
    (State.bump s r u n).mem = s.mem := by
  simp [State.bump]
@[simp] theorem State.bump_cnv (s : State) (r : Reg) (u n : Nat) :
    (State.bump s r u n).cnv = s.cnv := by
  simp [State.bump]
@[simp] theorem State.bump_srv (s : State) (r : Reg) (u n : Nat) :
    (State.bump s r u n).srv = s.srv := by
  simp [State.bump]
@[simp] theorem State.bump_comp (s : State) (r : Reg) (u n : Nat) :
    (State.bump s r u n).comp = s.comp := by
  simp [State.bump]
@[simp] theorem State.bump_pool (s : State) (r : Reg) (u n : Nat) :
    (State.bump s r u n).pool = s.pool := by
  simp [State.bump]
@[simp] theorem State.bump_apertures (s : State) (r : Reg) (u n : Nat) :
    (State.bump s r u n).apertures = s.apertures := by
  simp [State.bump]
@[simp] theorem State.bump_mirrors (s : State) (r : Reg) (u n : Nat) :
    (State.bump s r u n).mirrors = s.mirrors := by
  simp [State.bump]
@[simp] theorem State.bump_handoffs (s : State) (r : Reg) (u n : Nat) :
    (State.bump s r u n).handoffs = s.handoffs := by
  simp [State.bump]
@[simp] theorem State.bump_net (s : State) (r : Reg) (u n : Nat) :
    (State.bump s r u n).net = s.net := by
  simp [State.bump]
@[simp] theorem State.bump_ret (s : State) (r : Reg) (u n : Nat) :
    (State.bump s r u n).ret = s.ret := by
  simp [State.bump]
@[simp] theorem State.bump_ck (s : State) (r : Reg) (u n : Nat) :
    (State.bump s r u n).ck = s.ck := by
  simp [State.bump]

/-! ### State.setReg64 -/

@[simp] theorem State.setReg64_pending (s : State) (lo hi : Reg) (u v : Nat) :
    (State.setReg64 s lo hi u v).pending = s.pending := by
  simp [State.setReg64]
@[simp] theorem State.setReg64_free (s : State) (lo hi : Reg) (u v : Nat) :
    (State.setReg64 s lo hi u v).free = s.free := by
  simp [State.setReg64]
@[simp] theorem State.setReg64_pkg (s : State) (lo hi : Reg) (u v : Nat) :
    (State.setReg64 s lo hi u v).pkg = s.pkg := by
  simp [State.setReg64]
@[simp] theorem State.setReg64_flash (s : State) (lo hi : Reg) (u v : Nat) :
    (State.setReg64 s lo hi u v).flash = s.flash := by
  simp [State.setReg64]
@[simp] theorem State.setReg64_log (s : State) (lo hi : Reg) (u v : Nat) :
    (State.setReg64 s lo hi u v).log = s.log := by
  simp [State.setReg64]
@[simp] theorem State.setReg64_host (s : State) (lo hi : Reg) (u v : Nat) :
    (State.setReg64 s lo hi u v).host = s.host := by
  simp [State.setReg64]
@[simp] theorem State.setReg64_sec (s : State) (lo hi : Reg) (u v : Nat) :
    (State.setReg64 s lo hi u v).sec = s.sec := by
  simp [State.setReg64]
@[simp] theorem State.setReg64_img (s : State) (lo hi : Reg) (u v : Nat) :
    (State.setReg64 s lo hi u v).img = s.img := by
  simp [State.setReg64]
@[simp] theorem State.setReg64_desc (s : State) (lo hi : Reg) (u v : Nat) :
    (State.setReg64 s lo hi u v).desc = s.desc := by
  simp [State.setReg64]
@[simp] theorem State.setReg64_aux (s : State) (lo hi : Reg) (u v : Nat) :
    (State.setReg64 s lo hi u v).aux = s.aux := by
  simp [State.setReg64]
@[simp] theorem State.setReg64_emptyCtr (s : State) (lo hi : Reg) (u v : Nat) :
    (State.setReg64 s lo hi u v).emptyCtr = s.emptyCtr := by
  simp [State.setReg64]
@[simp] theorem State.setReg64_mem (s : State) (lo hi : Reg) (u v : Nat) :
    (State.setReg64 s lo hi u v).mem = s.mem := by
  simp [State.setReg64]
@[simp] theorem State.setReg64_cnv (s : State) (lo hi : Reg) (u v : Nat) :
    (State.setReg64 s lo hi u v).cnv = s.cnv := by
  simp [State.setReg64]
@[simp] theorem State.setReg64_srv (s : State) (lo hi : Reg) (u v : Nat) :
    (State.setReg64 s lo hi u v).srv = s.srv := by
  simp [State.setReg64]
@[simp] theorem State.setReg64_comp (s : State) (lo hi : Reg) (u v : Nat) :
    (State.setReg64 s lo hi u v).comp = s.comp := by
  simp [State.setReg64]
@[simp] theorem State.setReg64_pool (s : State) (lo hi : Reg) (u v : Nat) :
    (State.setReg64 s lo hi u v).pool = s.pool := by
  simp [State.setReg64]
@[simp] theorem State.setReg64_apertures (s : State) (lo hi : Reg) (u v : Nat) :
    (State.setReg64 s lo hi u v).apertures = s.apertures := by
  simp [State.setReg64]
@[simp] theorem State.setReg64_mirrors (s : State) (lo hi : Reg) (u v : Nat) :
    (State.setReg64 s lo hi u v).mirrors = s.mirrors := by
  simp [State.setReg64]
@[simp] theorem State.setReg64_handoffs (s : State) (lo hi : Reg) (u v : Nat) :
    (State.setReg64 s lo hi u v).handoffs = s.handoffs := by
  simp [State.setReg64]
@[simp] theorem State.setReg64_net (s : State) (lo hi : Reg) (u v : Nat) :
    (State.setReg64 s lo hi u v).net = s.net := by
  simp [State.setReg64]
@[simp] theorem State.setReg64_ret (s : State) (lo hi : Reg) (u v : Nat) :
    (State.setReg64 s lo hi u v).ret = s.ret := by
  simp [State.setReg64]
@[simp] theorem State.setReg64_ck (s : State) (lo hi : Reg) (u v : Nat) :
    (State.setReg64 s lo hi u v).ck = s.ck := by
  simp [State.setReg64]

/-! ### State.accErr -/

@[simp] theorem State.accErr_pending (s : State) (fn off : Nat) :
    (State.accErr s fn off).pending = s.pending := by
  simp [State.accErr]
@[simp] theorem State.accErr_free (s : State) (fn off : Nat) :
    (State.accErr s fn off).free = s.free := by
  simp [State.accErr]
@[simp] theorem State.accErr_pkg (s : State) (fn off : Nat) :
    (State.accErr s fn off).pkg = s.pkg := by
  simp [State.accErr]
@[simp] theorem State.accErr_flash (s : State) (fn off : Nat) :
    (State.accErr s fn off).flash = s.flash := by
  simp [State.accErr]
@[simp] theorem State.accErr_log (s : State) (fn off : Nat) :
    (State.accErr s fn off).log = s.log := by
  simp [State.accErr]
@[simp] theorem State.accErr_host (s : State) (fn off : Nat) :
    (State.accErr s fn off).host = s.host := by
  simp [State.accErr]
@[simp] theorem State.accErr_sec (s : State) (fn off : Nat) :
    (State.accErr s fn off).sec = s.sec := by
  simp [State.accErr]
@[simp] theorem State.accErr_img (s : State) (fn off : Nat) :
    (State.accErr s fn off).img = s.img := by
  simp [State.accErr]
@[simp] theorem State.accErr_desc (s : State) (fn off : Nat) :
    (State.accErr s fn off).desc = s.desc := by
  simp [State.accErr]
@[simp] theorem State.accErr_aux (s : State) (fn off : Nat) :
    (State.accErr s fn off).aux = s.aux := by
  simp [State.accErr]
@[simp] theorem State.accErr_emptyCtr (s : State) (fn off : Nat) :
    (State.accErr s fn off).emptyCtr = s.emptyCtr := by
  simp [State.accErr]
@[simp] theorem State.accErr_mem (s : State) (fn off : Nat) :
    (State.accErr s fn off).mem = s.mem := by
  simp [State.accErr]
@[simp] theorem State.accErr_cnv (s : State) (fn off : Nat) :
    (State.accErr s fn off).cnv = s.cnv := by
  simp [State.accErr]
@[simp] theorem State.accErr_srv (s : State) (fn off : Nat) :
    (State.accErr s fn off).srv = s.srv := by
  simp [State.accErr]
@[simp] theorem State.accErr_comp (s : State) (fn off : Nat) :
    (State.accErr s fn off).comp = s.comp := by
  simp [State.accErr]
@[simp] theorem State.accErr_pool (s : State) (fn off : Nat) :
    (State.accErr s fn off).pool = s.pool := by
  simp [State.accErr]
@[simp] theorem State.accErr_apertures (s : State) (fn off : Nat) :
    (State.accErr s fn off).apertures = s.apertures := by
  simp [State.accErr]
@[simp] theorem State.accErr_mirrors (s : State) (fn off : Nat) :
    (State.accErr s fn off).mirrors = s.mirrors := by
  simp [State.accErr]
@[simp] theorem State.accErr_handoffs (s : State) (fn off : Nat) :
    (State.accErr s fn off).handoffs = s.handoffs := by
  simp [State.accErr]
@[simp] theorem State.accErr_net (s : State) (fn off : Nat) :
    (State.accErr s fn off).net = s.net := by
  simp [State.accErr]
@[simp] theorem State.accErr_ret (s : State) (fn off : Nat) :
    (State.accErr s fn off).ret = s.ret := by
  simp [State.accErr]
@[simp] theorem State.accErr_ck (s : State) (fn off : Nat) :
    (State.accErr s fn off).ck = s.ck := by
  simp [State.accErr]

/-! ### State.setDie -/

@[simp] theorem State.setDie_pending (s : State) (d : Nat) (x : Die) :
    (State.setDie s d x).pending = s.pending := by
  simp [State.setDie]
@[simp] theorem State.setDie_free (s : State) (d : Nat) (x : Die) :
    (State.setDie s d x).free = s.free := by
  simp [State.setDie]
@[simp] theorem State.setDie_regs (s : State) (d : Nat) (x : Die) :
    (State.setDie s d x).regs = s.regs := by
  simp [State.setDie]
@[simp] theorem State.setDie_flash (s : State) (d : Nat) (x : Die) :
    (State.setDie s d x).flash = s.flash := by
  simp [State.setDie]
@[simp] theorem State.setDie_log (s : State) (d : Nat) (x : Die) :
    (State.setDie s d x).log = s.log := by
  simp [State.setDie]
@[simp] theorem State.setDie_host (s : State) (d : Nat) (x : Die) :
    (State.setDie s d x).host = s.host := by
  simp [State.setDie]
@[simp] theorem State.setDie_sec (s : State) (d : Nat) (x : Die) :
    (State.setDie s d x).sec = s.sec := by
  simp [State.setDie]
@[simp] theorem State.setDie_img (s : State) (d : Nat) (x : Die) :
    (State.setDie s d x).img = s.img := by
  simp [State.setDie]
@[simp] theorem State.setDie_desc (s : State) (d : Nat) (x : Die) :
    (State.setDie s d x).desc = s.desc := by
  simp [State.setDie]
@[simp] theorem State.setDie_aux (s : State) (d : Nat) (x : Die) :
    (State.setDie s d x).aux = s.aux := by
  simp [State.setDie]
@[simp] theorem State.setDie_emptyCtr (s : State) (d : Nat) (x : Die) :
    (State.setDie s d x).emptyCtr = s.emptyCtr := by
  simp [State.setDie]
@[simp] theorem State.setDie_mem (s : State) (d : Nat) (x : Die) :
    (State.setDie s d x).mem = s.mem := by
  simp [State.setDie]
@[simp] theorem State.setDie_cnv (s : State) (d : Nat) (x : Die) :
    (State.setDie s d x).cnv = s.cnv := by
  simp [State.setDie]
@[simp] theorem State.setDie_srv (s : State) (d : Nat) (x : Die) :
    (State.setDie s d x).srv = s.srv := by
  simp [State.setDie]
@[simp] theorem State.setDie_comp (s : State) (d : Nat) (x : Die) :
    (State.setDie s d x).comp = s.comp := by
  simp [State.setDie]
@[simp] theorem State.setDie_pool (s : State) (d : Nat) (x : Die) :
    (State.setDie s d x).pool = s.pool := by
  simp [State.setDie]
@[simp] theorem State.setDie_apertures (s : State) (d : Nat) (x : Die) :
    (State.setDie s d x).apertures = s.apertures := by
  simp [State.setDie]
@[simp] theorem State.setDie_mirrors (s : State) (d : Nat) (x : Die) :
    (State.setDie s d x).mirrors = s.mirrors := by
  simp [State.setDie]
@[simp] theorem State.setDie_handoffs (s : State) (d : Nat) (x : Die) :
    (State.setDie s d x).handoffs = s.handoffs := by
  simp [State.setDie]
@[simp] theorem State.setDie_net (s : State) (d : Nat) (x : Die) :
    (State.setDie s d x).net = s.net := by
  simp [State.setDie]
@[simp] theorem State.setDie_ret (s : State) (d : Nat) (x : Die) :
    (State.setDie s d x).ret = s.ret := by
  simp [State.setDie]
@[simp] theorem State.setDie_ck (s : State) (d : Nat) (x : Die) :
    (State.setDie s d x).ck = s.ck := by
  simp [State.setDie]

/-! ### State.emit -/

@[simp] theorem State.emit_pending (s : State) (o : Output) :
    (State.emit s o).pending = s.pending := by
  simp [State.emit]
@[simp] theorem State.emit_free (s : State) (o : Output) :
    (State.emit s o).free = s.free := by
  simp [State.emit]
@[simp] theorem State.emit_regs (s : State) (o : Output) :
    (State.emit s o).regs = s.regs := by
  simp [State.emit]
@[simp] theorem State.emit_pkg (s : State) (o : Output) :
    (State.emit s o).pkg = s.pkg := by
  simp [State.emit]
@[simp] theorem State.emit_flash (s : State) (o : Output) :
    (State.emit s o).flash = s.flash := by
  simp [State.emit]
@[simp] theorem State.emit_log (s : State) (o : Output) :
    (State.emit s o).log = s.log := by
  simp [State.emit]
@[simp] theorem State.emit_sec (s : State) (o : Output) :
    (State.emit s o).sec = s.sec := by
  simp [State.emit]
@[simp] theorem State.emit_img (s : State) (o : Output) :
    (State.emit s o).img = s.img := by
  simp [State.emit]
@[simp] theorem State.emit_desc (s : State) (o : Output) :
    (State.emit s o).desc = s.desc := by
  simp [State.emit]
@[simp] theorem State.emit_aux (s : State) (o : Output) :
    (State.emit s o).aux = s.aux := by
  simp [State.emit]
@[simp] theorem State.emit_emptyCtr (s : State) (o : Output) :
    (State.emit s o).emptyCtr = s.emptyCtr := by
  simp [State.emit]
@[simp] theorem State.emit_mem (s : State) (o : Output) :
    (State.emit s o).mem = s.mem := by
  simp [State.emit]
@[simp] theorem State.emit_cnv (s : State) (o : Output) :
    (State.emit s o).cnv = s.cnv := by
  simp [State.emit]
@[simp] theorem State.emit_srv (s : State) (o : Output) :
    (State.emit s o).srv = s.srv := by
  simp [State.emit]
@[simp] theorem State.emit_comp (s : State) (o : Output) :
    (State.emit s o).comp = s.comp := by
  simp [State.emit]
@[simp] theorem State.emit_pool (s : State) (o : Output) :
    (State.emit s o).pool = s.pool := by
  simp [State.emit]
@[simp] theorem State.emit_apertures (s : State) (o : Output) :
    (State.emit s o).apertures = s.apertures := by
  simp [State.emit]
@[simp] theorem State.emit_mirrors (s : State) (o : Output) :
    (State.emit s o).mirrors = s.mirrors := by
  simp [State.emit]
@[simp] theorem State.emit_handoffs (s : State) (o : Output) :
    (State.emit s o).handoffs = s.handoffs := by
  simp [State.emit]
@[simp] theorem State.emit_net (s : State) (o : Output) :
    (State.emit s o).net = s.net := by
  simp [State.emit]
@[simp] theorem State.emit_ret (s : State) (o : Output) :
    (State.emit s o).ret = s.ret := by
  simp [State.emit]
@[simp] theorem State.emit_ck (s : State) (o : Output) :
    (State.emit s o).ck = s.ck := by
  simp [State.emit]

/-! ### State.hostWrite -/

@[simp] theorem State.hostWrite_pending (s : State) (a : Nat) (b : Bytes) :
    (State.hostWrite s a b).pending = s.pending := by
  simp only [State.hostWrite]; (repeat' split) <;> simp
@[simp] theorem State.hostWrite_free (s : State) (a : Nat) (b : Bytes) :
    (State.hostWrite s a b).free = s.free := by
  simp only [State.hostWrite]; (repeat' split) <;> simp
@[simp] theorem State.hostWrite_regs (s : State) (a : Nat) (b : Bytes) :
    (State.hostWrite s a b).regs = s.regs := by
  simp only [State.hostWrite]; (repeat' split) <;> simp
@[simp] theorem State.hostWrite_pkg (s : State) (a : Nat) (b : Bytes) :
    (State.hostWrite s a b).pkg = s.pkg := by
  simp only [State.hostWrite]; (repeat' split) <;> simp
@[simp] theorem State.hostWrite_flash (s : State) (a : Nat) (b : Bytes) :
    (State.hostWrite s a b).flash = s.flash := by
  simp only [State.hostWrite]; (repeat' split) <;> simp
@[simp] theorem State.hostWrite_log (s : State) (a : Nat) (b : Bytes) :
    (State.hostWrite s a b).log = s.log := by
  simp only [State.hostWrite]; (repeat' split) <;> simp
@[simp] theorem State.hostWrite_sec (s : State) (a : Nat) (b : Bytes) :
    (State.hostWrite s a b).sec = s.sec := by
  simp only [State.hostWrite]; (repeat' split) <;> simp
@[simp] theorem State.hostWrite_img (s : State) (a : Nat) (b : Bytes) :
    (State.hostWrite s a b).img = s.img := by
  simp only [State.hostWrite]; (repeat' split) <;> simp
@[simp] theorem State.hostWrite_desc (s : State) (a : Nat) (b : Bytes) :
    (State.hostWrite s a b).desc = s.desc := by
  simp only [State.hostWrite]; (repeat' split) <;> simp
@[simp] theorem State.hostWrite_aux (s : State) (a : Nat) (b : Bytes) :
    (State.hostWrite s a b).aux = s.aux := by
  simp only [State.hostWrite]; (repeat' split) <;> simp
@[simp] theorem State.hostWrite_emptyCtr (s : State) (a : Nat) (b : Bytes) :
    (State.hostWrite s a b).emptyCtr = s.emptyCtr := by
  simp only [State.hostWrite]; (repeat' split) <;> simp
@[simp] theorem State.hostWrite_mem (s : State) (a : Nat) (b : Bytes) :
    (State.hostWrite s a b).mem = s.mem := by
  simp only [State.hostWrite]; (repeat' split) <;> simp
@[simp] theorem State.hostWrite_cnv (s : State) (a : Nat) (b : Bytes) :
    (State.hostWrite s a b).cnv = s.cnv := by
  simp only [State.hostWrite]; (repeat' split) <;> simp
@[simp] theorem State.hostWrite_srv (s : State) (a : Nat) (b : Bytes) :
    (State.hostWrite s a b).srv = s.srv := by
  simp only [State.hostWrite]; (repeat' split) <;> simp
@[simp] theorem State.hostWrite_comp (s : State) (a : Nat) (b : Bytes) :
    (State.hostWrite s a b).comp = s.comp := by
  simp only [State.hostWrite]; (repeat' split) <;> simp
@[simp] theorem State.hostWrite_pool (s : State) (a : Nat) (b : Bytes) :
    (State.hostWrite s a b).pool = s.pool := by
  simp only [State.hostWrite]; (repeat' split) <;> simp
@[simp] theorem State.hostWrite_apertures (s : State) (a : Nat) (b : Bytes) :
    (State.hostWrite s a b).apertures = s.apertures := by
  simp only [State.hostWrite]; (repeat' split) <;> simp
@[simp] theorem State.hostWrite_mirrors (s : State) (a : Nat) (b : Bytes) :
    (State.hostWrite s a b).mirrors = s.mirrors := by
  simp only [State.hostWrite]; (repeat' split) <;> simp
@[simp] theorem State.hostWrite_handoffs (s : State) (a : Nat) (b : Bytes) :
    (State.hostWrite s a b).handoffs = s.handoffs := by
  simp only [State.hostWrite]; (repeat' split) <;> simp
@[simp] theorem State.hostWrite_net (s : State) (a : Nat) (b : Bytes) :
    (State.hostWrite s a b).net = s.net := by
  simp only [State.hostWrite]; (repeat' split) <;> simp
@[simp] theorem State.hostWrite_ret (s : State) (a : Nat) (b : Bytes) :
    (State.hostWrite s a b).ret = s.ret := by
  simp only [State.hostWrite]; (repeat' split) <;> simp
@[simp] theorem State.hostWrite_ck (s : State) (a : Nat) (b : Bytes) :
    (State.hostWrite s a b).ck = s.ck := by
  simp only [State.hostWrite]; (repeat' split) <;> simp

/-! ### State.interrupt -/

@[simp] theorem State.interrupt_pending (s : State) (fn vector : Nat) :
    (State.interrupt s fn vector).pending = s.pending := by
  simp only [State.interrupt]; (repeat' split) <;> simp
@[simp] theorem State.interrupt_free (s : State) (fn vector : Nat) :
    (State.interrupt s fn vector).free = s.free := by
  simp only [State.interrupt]; (repeat' split) <;> simp
@[simp] theorem State.interrupt_regs (s : State) (fn vector : Nat) :
    (State.interrupt s fn vector).regs = s.regs := by
  simp only [State.interrupt]; (repeat' split) <;> simp
@[simp] theorem State.interrupt_pkg (s : State) (fn vector : Nat) :
    (State.interrupt s fn vector).pkg = s.pkg := by
  simp only [State.interrupt]; (repeat' split) <;> simp
@[simp] theorem State.interrupt_flash (s : State) (fn vector : Nat) :
    (State.interrupt s fn vector).flash = s.flash := by
  simp only [State.interrupt]; (repeat' split) <;> simp
@[simp] theorem State.interrupt_log (s : State) (fn vector : Nat) :
    (State.interrupt s fn vector).log = s.log := by
  simp only [State.interrupt]; (repeat' split) <;> simp
@[simp] theorem State.interrupt_sec (s : State) (fn vector : Nat) :
    (State.interrupt s fn vector).sec = s.sec := by
  simp only [State.interrupt]; (repeat' split) <;> simp
@[simp] theorem State.interrupt_img (s : State) (fn vector : Nat) :
    (State.interrupt s fn vector).img = s.img := by
  simp only [State.interrupt]; (repeat' split) <;> simp
@[simp] theorem State.interrupt_desc (s : State) (fn vector : Nat) :
    (State.interrupt s fn vector).desc = s.desc := by
  simp only [State.interrupt]; (repeat' split) <;> simp
@[simp] theorem State.interrupt_aux (s : State) (fn vector : Nat) :
    (State.interrupt s fn vector).aux = s.aux := by
  simp only [State.interrupt]; (repeat' split) <;> simp
@[simp] theorem State.interrupt_emptyCtr (s : State) (fn vector : Nat) :
    (State.interrupt s fn vector).emptyCtr = s.emptyCtr := by
  simp only [State.interrupt]; (repeat' split) <;> simp
@[simp] theorem State.interrupt_mem (s : State) (fn vector : Nat) :
    (State.interrupt s fn vector).mem = s.mem := by
  simp only [State.interrupt]; (repeat' split) <;> simp
@[simp] theorem State.interrupt_cnv (s : State) (fn vector : Nat) :
    (State.interrupt s fn vector).cnv = s.cnv := by
  simp only [State.interrupt]; (repeat' split) <;> simp
@[simp] theorem State.interrupt_srv (s : State) (fn vector : Nat) :
    (State.interrupt s fn vector).srv = s.srv := by
  simp only [State.interrupt]; (repeat' split) <;> simp
@[simp] theorem State.interrupt_comp (s : State) (fn vector : Nat) :
    (State.interrupt s fn vector).comp = s.comp := by
  simp only [State.interrupt]; (repeat' split) <;> simp
@[simp] theorem State.interrupt_pool (s : State) (fn vector : Nat) :
    (State.interrupt s fn vector).pool = s.pool := by
  simp only [State.interrupt]; (repeat' split) <;> simp
@[simp] theorem State.interrupt_apertures (s : State) (fn vector : Nat) :
    (State.interrupt s fn vector).apertures = s.apertures := by
  simp only [State.interrupt]; (repeat' split) <;> simp
@[simp] theorem State.interrupt_mirrors (s : State) (fn vector : Nat) :
    (State.interrupt s fn vector).mirrors = s.mirrors := by
  simp only [State.interrupt]; (repeat' split) <;> simp
@[simp] theorem State.interrupt_handoffs (s : State) (fn vector : Nat) :
    (State.interrupt s fn vector).handoffs = s.handoffs := by
  simp only [State.interrupt]; (repeat' split) <;> simp
@[simp] theorem State.interrupt_net (s : State) (fn vector : Nat) :
    (State.interrupt s fn vector).net = s.net := by
  simp only [State.interrupt]; (repeat' split) <;> simp
@[simp] theorem State.interrupt_ret (s : State) (fn vector : Nat) :
    (State.interrupt s fn vector).ret = s.ret := by
  simp only [State.interrupt]; (repeat' split) <;> simp
@[simp] theorem State.interrupt_ck (s : State) (fn vector : Nat) :
    (State.interrupt s fn vector).ck = s.ck := by
  simp only [State.interrupt]; (repeat' split) <;> simp

/-! ### State.complete -/

@[simp] theorem State.complete_pending (s : State) (t : Tag) (status info : Nat) (result : Bytes) :
    (State.complete s t status info result).pending = s.pending := by
  simp only [State.complete]; (repeat' split) <;> simp
@[simp] theorem State.complete_free (s : State) (t : Tag) (status info : Nat) (result : Bytes) :
    (State.complete s t status info result).free = s.free := by
  simp only [State.complete]; (repeat' split) <;> simp
@[simp] theorem State.complete_regs (s : State) (t : Tag) (status info : Nat) (result : Bytes) :
    (State.complete s t status info result).regs = s.regs := by
  simp only [State.complete]; (repeat' split) <;> simp
@[simp] theorem State.complete_pkg (s : State) (t : Tag) (status info : Nat) (result : Bytes) :
    (State.complete s t status info result).pkg = s.pkg := by
  simp only [State.complete]; (repeat' split) <;> simp
@[simp] theorem State.complete_flash (s : State) (t : Tag) (status info : Nat) (result : Bytes) :
    (State.complete s t status info result).flash = s.flash := by
  simp only [State.complete]; (repeat' split) <;> simp
@[simp] theorem State.complete_log (s : State) (t : Tag) (status info : Nat) (result : Bytes) :
    (State.complete s t status info result).log = s.log := by
  simp only [State.complete]; (repeat' split) <;> simp
@[simp] theorem State.complete_sec (s : State) (t : Tag) (status info : Nat) (result : Bytes) :
    (State.complete s t status info result).sec = s.sec := by
  simp only [State.complete]; (repeat' split) <;> simp
@[simp] theorem State.complete_img (s : State) (t : Tag) (status info : Nat) (result : Bytes) :
    (State.complete s t status info result).img = s.img := by
  simp only [State.complete]; (repeat' split) <;> simp
@[simp] theorem State.complete_desc (s : State) (t : Tag) (status info : Nat) (result : Bytes) :
    (State.complete s t status info result).desc = s.desc := by
  simp only [State.complete]; (repeat' split) <;> simp
@[simp] theorem State.complete_aux (s : State) (t : Tag) (status info : Nat) (result : Bytes) :
    (State.complete s t status info result).aux = s.aux := by
  simp only [State.complete]; (repeat' split) <;> simp
@[simp] theorem State.complete_emptyCtr (s : State) (t : Tag) (status info : Nat) (result : Bytes) :
    (State.complete s t status info result).emptyCtr = s.emptyCtr := by
  simp only [State.complete]; (repeat' split) <;> simp
@[simp] theorem State.complete_mem (s : State) (t : Tag) (status info : Nat) (result : Bytes) :
    (State.complete s t status info result).mem = s.mem := by
  simp only [State.complete]; (repeat' split) <;> simp
@[simp] theorem State.complete_cnv (s : State) (t : Tag) (status info : Nat) (result : Bytes) :
    (State.complete s t status info result).cnv = s.cnv := by
  simp only [State.complete]; (repeat' split) <;> simp
@[simp] theorem State.complete_srv (s : State) (t : Tag) (status info : Nat) (result : Bytes) :
    (State.complete s t status info result).srv = s.srv := by
  simp only [State.complete]; (repeat' split) <;> simp
@[simp] theorem State.complete_comp (s : State) (t : Tag) (status info : Nat) (result : Bytes) :
    (State.complete s t status info result).comp = s.comp := by
  simp only [State.complete]; (repeat' split) <;> simp
@[simp] theorem State.complete_pool (s : State) (t : Tag) (status info : Nat) (result : Bytes) :
    (State.complete s t status info result).pool = s.pool := by
  simp only [State.complete]; (repeat' split) <;> simp
@[simp] theorem State.complete_apertures (s : State) (t : Tag) (status info : Nat) (result : Bytes) :
    (State.complete s t status info result).apertures = s.apertures := by
  simp only [State.complete]; (repeat' split) <;> simp
@[simp] theorem State.complete_mirrors (s : State) (t : Tag) (status info : Nat) (result : Bytes) :
    (State.complete s t status info result).mirrors = s.mirrors := by
  simp only [State.complete]; (repeat' split) <;> simp
@[simp] theorem State.complete_handoffs (s : State) (t : Tag) (status info : Nat) (result : Bytes) :
    (State.complete s t status info result).handoffs = s.handoffs := by
  simp only [State.complete]; (repeat' split) <;> simp
@[simp] theorem State.complete_net (s : State) (t : Tag) (status info : Nat) (result : Bytes) :
    (State.complete s t status info result).net = s.net := by
  simp only [State.complete]; (repeat' split) <;> simp
@[simp] theorem State.complete_ret (s : State) (t : Tag) (status info : Nat) (result : Bytes) :
    (State.complete s t status info result).ret = s.ret := by
  simp only [State.complete]; (repeat' split) <;> simp
@[simp] theorem State.complete_ck (s : State) (t : Tag) (status info : Nat) (result : Bytes) :
    (State.complete s t status info result).ck = s.ck := by
  simp only [State.complete]; (repeat' split) <;> simp

/-! ### State.completeOpt -/

@[simp] theorem State.completeOpt_pending (s : State) (t : Option Tag) (status : Nat) (result : Bytes) :
    (State.completeOpt s t status result).pending = s.pending := by
  simp only [State.completeOpt]; (repeat' split) <;> simp
@[simp] theorem State.completeOpt_free (s : State) (t : Option Tag) (status : Nat) (result : Bytes) :
    (State.completeOpt s t status result).free = s.free := by
  simp only [State.completeOpt]; (repeat' split) <;> simp
@[simp] theorem State.completeOpt_regs (s : State) (t : Option Tag) (status : Nat) (result : Bytes) :
    (State.completeOpt s t status result).regs = s.regs := by
  simp only [State.completeOpt]; (repeat' split) <;> simp
@[simp] theorem State.completeOpt_pkg (s : State) (t : Option Tag) (status : Nat) (result : Bytes) :
    (State.completeOpt s t status result).pkg = s.pkg := by
  simp only [State.completeOpt]; (repeat' split) <;> simp
@[simp] theorem State.completeOpt_flash (s : State) (t : Option Tag) (status : Nat) (result : Bytes) :
    (State.completeOpt s t status result).flash = s.flash := by
  simp only [State.completeOpt]; (repeat' split) <;> simp
@[simp] theorem State.completeOpt_log (s : State) (t : Option Tag) (status : Nat) (result : Bytes) :
    (State.completeOpt s t status result).log = s.log := by
  simp only [State.completeOpt]; (repeat' split) <;> simp
@[simp] theorem State.completeOpt_sec (s : State) (t : Option Tag) (status : Nat) (result : Bytes) :
    (State.completeOpt s t status result).sec = s.sec := by
  simp only [State.completeOpt]; (repeat' split) <;> simp
@[simp] theorem State.completeOpt_img (s : State) (t : Option Tag) (status : Nat) (result : Bytes) :
    (State.completeOpt s t status result).img = s.img := by
  simp only [State.completeOpt]; (repeat' split) <;> simp
@[simp] theorem State.completeOpt_desc (s : State) (t : Option Tag) (status : Nat) (result : Bytes) :
    (State.completeOpt s t status result).desc = s.desc := by
  simp only [State.completeOpt]; (repeat' split) <;> simp
@[simp] theorem State.completeOpt_aux (s : State) (t : Option Tag) (status : Nat) (result : Bytes) :
    (State.completeOpt s t status result).aux = s.aux := by
  simp only [State.completeOpt]; (repeat' split) <;> simp
@[simp] theorem State.completeOpt_emptyCtr (s : State) (t : Option Tag) (status : Nat) (result : Bytes) :
    (State.completeOpt s t status result).emptyCtr = s.emptyCtr := by
  simp only [State.completeOpt]; (repeat' split) <;> simp
@[simp] theorem State.completeOpt_mem (s : State) (t : Option Tag) (status : Nat) (result : Bytes) :
    (State.completeOpt s t status result).mem = s.mem := by
  simp only [State.completeOpt]; (repeat' split) <;> simp
@[simp] theorem State.completeOpt_cnv (s : State) (t : Option Tag) (status : Nat) (result : Bytes) :
    (State.completeOpt s t status result).cnv = s.cnv := by
  simp only [State.completeOpt]; (repeat' split) <;> simp
@[simp] theorem State.completeOpt_srv (s : State) (t : Option Tag) (status : Nat) (result : Bytes) :
    (State.completeOpt s t status result).srv = s.srv := by
  simp only [State.completeOpt]; (repeat' split) <;> simp
@[simp] theorem State.completeOpt_comp (s : State) (t : Option Tag) (status : Nat) (result : Bytes) :
    (State.completeOpt s t status result).comp = s.comp := by
  simp only [State.completeOpt]; (repeat' split) <;> simp
@[simp] theorem State.completeOpt_pool (s : State) (t : Option Tag) (status : Nat) (result : Bytes) :
    (State.completeOpt s t status result).pool = s.pool := by
  simp only [State.completeOpt]; (repeat' split) <;> simp
@[simp] theorem State.completeOpt_apertures (s : State) (t : Option Tag) (status : Nat) (result : Bytes) :
    (State.completeOpt s t status result).apertures = s.apertures := by
  simp only [State.completeOpt]; (repeat' split) <;> simp
@[simp] theorem State.completeOpt_mirrors (s : State) (t : Option Tag) (status : Nat) (result : Bytes) :
    (State.completeOpt s t status result).mirrors = s.mirrors := by
  simp only [State.completeOpt]; (repeat' split) <;> simp
@[simp] theorem State.completeOpt_handoffs (s : State) (t : Option Tag) (status : Nat) (result : Bytes) :
    (State.completeOpt s t status result).handoffs = s.handoffs := by
  simp only [State.completeOpt]; (repeat' split) <;> simp
@[simp] theorem State.completeOpt_net (s : State) (t : Option Tag) (status : Nat) (result : Bytes) :
    (State.completeOpt s t status result).net = s.net := by
  simp only [State.completeOpt]; (repeat' split) <;> simp
@[simp] theorem State.completeOpt_ret (s : State) (t : Option Tag) (status : Nat) (result : Bytes) :
    (State.completeOpt s t status result).ret = s.ret := by
  simp only [State.completeOpt]; (repeat' split) <;> simp
@[simp] theorem State.completeOpt_ck (s : State) (t : Option Tag) (status : Nat) (result : Bytes) :
    (State.completeOpt s t status result).ck = s.ck := by
  simp only [State.completeOpt]; (repeat' split) <;> simp

/-! ### State.post -/

@[simp] theorem State.post_pending (s : State) (q type slice status : Nat) (data : Bytes) :
    (State.post s q type slice status data).pending = s.pending := by
  simp only [State.post]; (repeat' split) <;> simp
@[simp] theorem State.post_free (s : State) (q type slice status : Nat) (data : Bytes) :
    (State.post s q type slice status data).free = s.free := by
  simp only [State.post]; (repeat' split) <;> simp
@[simp] theorem State.post_pkg (s : State) (q type slice status : Nat) (data : Bytes) :
    (State.post s q type slice status data).pkg = s.pkg := by
  simp only [State.post]; (repeat' split) <;> simp
@[simp] theorem State.post_flash (s : State) (q type slice status : Nat) (data : Bytes) :
    (State.post s q type slice status data).flash = s.flash := by
  simp only [State.post]; (repeat' split) <;> simp
@[simp] theorem State.post_log (s : State) (q type slice status : Nat) (data : Bytes) :
    (State.post s q type slice status data).log = s.log := by
  simp only [State.post]; (repeat' split) <;> simp
@[simp] theorem State.post_sec (s : State) (q type slice status : Nat) (data : Bytes) :
    (State.post s q type slice status data).sec = s.sec := by
  simp only [State.post]; (repeat' split) <;> simp
@[simp] theorem State.post_img (s : State) (q type slice status : Nat) (data : Bytes) :
    (State.post s q type slice status data).img = s.img := by
  simp only [State.post]; (repeat' split) <;> simp
@[simp] theorem State.post_desc (s : State) (q type slice status : Nat) (data : Bytes) :
    (State.post s q type slice status data).desc = s.desc := by
  simp only [State.post]; (repeat' split) <;> simp
@[simp] theorem State.post_aux (s : State) (q type slice status : Nat) (data : Bytes) :
    (State.post s q type slice status data).aux = s.aux := by
  simp only [State.post]; (repeat' split) <;> simp
@[simp] theorem State.post_emptyCtr (s : State) (q type slice status : Nat) (data : Bytes) :
    (State.post s q type slice status data).emptyCtr = s.emptyCtr := by
  simp only [State.post]; (repeat' split) <;> simp
@[simp] theorem State.post_mem (s : State) (q type slice status : Nat) (data : Bytes) :
    (State.post s q type slice status data).mem = s.mem := by
  simp only [State.post]; (repeat' split) <;> simp
@[simp] theorem State.post_cnv (s : State) (q type slice status : Nat) (data : Bytes) :
    (State.post s q type slice status data).cnv = s.cnv := by
  simp only [State.post]; (repeat' split) <;> simp
@[simp] theorem State.post_srv (s : State) (q type slice status : Nat) (data : Bytes) :
    (State.post s q type slice status data).srv = s.srv := by
  simp only [State.post]; (repeat' split) <;> simp
@[simp] theorem State.post_comp (s : State) (q type slice status : Nat) (data : Bytes) :
    (State.post s q type slice status data).comp = s.comp := by
  simp only [State.post]; (repeat' split) <;> simp
@[simp] theorem State.post_pool (s : State) (q type slice status : Nat) (data : Bytes) :
    (State.post s q type slice status data).pool = s.pool := by
  simp only [State.post]; (repeat' split) <;> simp
@[simp] theorem State.post_apertures (s : State) (q type slice status : Nat) (data : Bytes) :
    (State.post s q type slice status data).apertures = s.apertures := by
  simp only [State.post]; (repeat' split) <;> simp
@[simp] theorem State.post_mirrors (s : State) (q type slice status : Nat) (data : Bytes) :
    (State.post s q type slice status data).mirrors = s.mirrors := by
  simp only [State.post]; (repeat' split) <;> simp
@[simp] theorem State.post_handoffs (s : State) (q type slice status : Nat) (data : Bytes) :
    (State.post s q type slice status data).handoffs = s.handoffs := by
  simp only [State.post]; (repeat' split) <;> simp
@[simp] theorem State.post_net (s : State) (q type slice status : Nat) (data : Bytes) :
    (State.post s q type slice status data).net = s.net := by
  simp only [State.post]; (repeat' split) <;> simp
@[simp] theorem State.post_ret (s : State) (q type slice status : Nat) (data : Bytes) :
    (State.post s q type slice status data).ret = s.ret := by
  simp only [State.post]; (repeat' split) <;> simp
@[simp] theorem State.post_ck (s : State) (q type slice status : Nat) (data : Bytes) :
    (State.post s q type slice status data).ck = s.ck := by
  simp only [State.post]; (repeat' split) <;> simp

/-! ### State.logWrite -/

@[simp] theorem State.logWrite_pending (s : State) (source die slice code unit : Nat) (addr : Option Nat) (detail : Bytes) :
    (State.logWrite s source die slice code unit addr detail).pending = s.pending := by
  simp only [State.logWrite]; (repeat' split) <;> simp
@[simp] theorem State.logWrite_free (s : State) (source die slice code unit : Nat) (addr : Option Nat) (detail : Bytes) :
    (State.logWrite s source die slice code unit addr detail).free = s.free := by
  simp only [State.logWrite]; (repeat' split) <;> simp
@[simp] theorem State.logWrite_flash (s : State) (source die slice code unit : Nat) (addr : Option Nat) (detail : Bytes) :
    (State.logWrite s source die slice code unit addr detail).flash = s.flash := by
  simp only [State.logWrite]; (repeat' split) <;> simp
@[simp] theorem State.logWrite_sec (s : State) (source die slice code unit : Nat) (addr : Option Nat) (detail : Bytes) :
    (State.logWrite s source die slice code unit addr detail).sec = s.sec := by
  simp only [State.logWrite]; (repeat' split) <;> simp
@[simp] theorem State.logWrite_img (s : State) (source die slice code unit : Nat) (addr : Option Nat) (detail : Bytes) :
    (State.logWrite s source die slice code unit addr detail).img = s.img := by
  simp only [State.logWrite]; (repeat' split) <;> simp
@[simp] theorem State.logWrite_desc (s : State) (source die slice code unit : Nat) (addr : Option Nat) (detail : Bytes) :
    (State.logWrite s source die slice code unit addr detail).desc = s.desc := by
  simp only [State.logWrite]; (repeat' split) <;> simp
@[simp] theorem State.logWrite_aux (s : State) (source die slice code unit : Nat) (addr : Option Nat) (detail : Bytes) :
    (State.logWrite s source die slice code unit addr detail).aux = s.aux := by
  simp only [State.logWrite]; (repeat' split) <;> simp
@[simp] theorem State.logWrite_emptyCtr (s : State) (source die slice code unit : Nat) (addr : Option Nat) (detail : Bytes) :
    (State.logWrite s source die slice code unit addr detail).emptyCtr = s.emptyCtr := by
  simp only [State.logWrite]; (repeat' split) <;> simp
@[simp] theorem State.logWrite_mem (s : State) (source die slice code unit : Nat) (addr : Option Nat) (detail : Bytes) :
    (State.logWrite s source die slice code unit addr detail).mem = s.mem := by
  simp only [State.logWrite]; (repeat' split) <;> simp
@[simp] theorem State.logWrite_cnv (s : State) (source die slice code unit : Nat) (addr : Option Nat) (detail : Bytes) :
    (State.logWrite s source die slice code unit addr detail).cnv = s.cnv := by
  simp only [State.logWrite]; (repeat' split) <;> simp
@[simp] theorem State.logWrite_srv (s : State) (source die slice code unit : Nat) (addr : Option Nat) (detail : Bytes) :
    (State.logWrite s source die slice code unit addr detail).srv = s.srv := by
  simp only [State.logWrite]; (repeat' split) <;> simp
@[simp] theorem State.logWrite_comp (s : State) (source die slice code unit : Nat) (addr : Option Nat) (detail : Bytes) :
    (State.logWrite s source die slice code unit addr detail).comp = s.comp := by
  simp only [State.logWrite]; (repeat' split) <;> simp
@[simp] theorem State.logWrite_pool (s : State) (source die slice code unit : Nat) (addr : Option Nat) (detail : Bytes) :
    (State.logWrite s source die slice code unit addr detail).pool = s.pool := by
  simp only [State.logWrite]; (repeat' split) <;> simp
@[simp] theorem State.logWrite_apertures (s : State) (source die slice code unit : Nat) (addr : Option Nat) (detail : Bytes) :
    (State.logWrite s source die slice code unit addr detail).apertures = s.apertures := by
  simp only [State.logWrite]; (repeat' split) <;> simp
@[simp] theorem State.logWrite_mirrors (s : State) (source die slice code unit : Nat) (addr : Option Nat) (detail : Bytes) :
    (State.logWrite s source die slice code unit addr detail).mirrors = s.mirrors := by
  simp only [State.logWrite]; (repeat' split) <;> simp
@[simp] theorem State.logWrite_handoffs (s : State) (source die slice code unit : Nat) (addr : Option Nat) (detail : Bytes) :
    (State.logWrite s source die slice code unit addr detail).handoffs = s.handoffs := by
  simp only [State.logWrite]; (repeat' split) <;> simp
@[simp] theorem State.logWrite_net (s : State) (source die slice code unit : Nat) (addr : Option Nat) (detail : Bytes) :
    (State.logWrite s source die slice code unit addr detail).net = s.net := by
  simp only [State.logWrite]; (repeat' split) <;> simp
@[simp] theorem State.logWrite_ret (s : State) (source die slice code unit : Nat) (addr : Option Nat) (detail : Bytes) :
    (State.logWrite s source die slice code unit addr detail).ret = s.ret := by
  simp only [State.logWrite]; (repeat' split) <;> simp
@[simp] theorem State.logWrite_ck (s : State) (source die slice code unit : Nat) (addr : Option Nat) (detail : Bytes) :
    (State.logWrite s source die slice code unit addr detail).ck = s.ck := by
  simp only [State.logWrite]; (repeat' split) <;> simp

/-! ### State.logErr -/

@[simp] theorem State.logErr_pending (s : State) (source die slice code unit : Nat) (addr : Option Nat) :
    (State.logErr s source die slice code unit addr).pending = s.pending := by
  simp only [State.logErr]; (repeat' split) <;> simp
@[simp] theorem State.logErr_free (s : State) (source die slice code unit : Nat) (addr : Option Nat) :
    (State.logErr s source die slice code unit addr).free = s.free := by
  simp only [State.logErr]; (repeat' split) <;> simp
@[simp] theorem State.logErr_flash (s : State) (source die slice code unit : Nat) (addr : Option Nat) :
    (State.logErr s source die slice code unit addr).flash = s.flash := by
  simp only [State.logErr]; (repeat' split) <;> simp
@[simp] theorem State.logErr_sec (s : State) (source die slice code unit : Nat) (addr : Option Nat) :
    (State.logErr s source die slice code unit addr).sec = s.sec := by
  simp only [State.logErr]; (repeat' split) <;> simp
@[simp] theorem State.logErr_img (s : State) (source die slice code unit : Nat) (addr : Option Nat) :
    (State.logErr s source die slice code unit addr).img = s.img := by
  simp only [State.logErr]; (repeat' split) <;> simp
@[simp] theorem State.logErr_desc (s : State) (source die slice code unit : Nat) (addr : Option Nat) :
    (State.logErr s source die slice code unit addr).desc = s.desc := by
  simp only [State.logErr]; (repeat' split) <;> simp
@[simp] theorem State.logErr_aux (s : State) (source die slice code unit : Nat) (addr : Option Nat) :
    (State.logErr s source die slice code unit addr).aux = s.aux := by
  simp only [State.logErr]; (repeat' split) <;> simp
@[simp] theorem State.logErr_emptyCtr (s : State) (source die slice code unit : Nat) (addr : Option Nat) :
    (State.logErr s source die slice code unit addr).emptyCtr = s.emptyCtr := by
  simp only [State.logErr]; (repeat' split) <;> simp
@[simp] theorem State.logErr_mem (s : State) (source die slice code unit : Nat) (addr : Option Nat) :
    (State.logErr s source die slice code unit addr).mem = s.mem := by
  simp only [State.logErr]; (repeat' split) <;> simp
@[simp] theorem State.logErr_cnv (s : State) (source die slice code unit : Nat) (addr : Option Nat) :
    (State.logErr s source die slice code unit addr).cnv = s.cnv := by
  simp only [State.logErr]; (repeat' split) <;> simp
@[simp] theorem State.logErr_srv (s : State) (source die slice code unit : Nat) (addr : Option Nat) :
    (State.logErr s source die slice code unit addr).srv = s.srv := by
  simp only [State.logErr]; (repeat' split) <;> simp
@[simp] theorem State.logErr_comp (s : State) (source die slice code unit : Nat) (addr : Option Nat) :
    (State.logErr s source die slice code unit addr).comp = s.comp := by
  simp only [State.logErr]; (repeat' split) <;> simp
@[simp] theorem State.logErr_pool (s : State) (source die slice code unit : Nat) (addr : Option Nat) :
    (State.logErr s source die slice code unit addr).pool = s.pool := by
  simp only [State.logErr]; (repeat' split) <;> simp
@[simp] theorem State.logErr_apertures (s : State) (source die slice code unit : Nat) (addr : Option Nat) :
    (State.logErr s source die slice code unit addr).apertures = s.apertures := by
  simp only [State.logErr]; (repeat' split) <;> simp
@[simp] theorem State.logErr_mirrors (s : State) (source die slice code unit : Nat) (addr : Option Nat) :
    (State.logErr s source die slice code unit addr).mirrors = s.mirrors := by
  simp only [State.logErr]; (repeat' split) <;> simp
@[simp] theorem State.logErr_handoffs (s : State) (source die slice code unit : Nat) (addr : Option Nat) :
    (State.logErr s source die slice code unit addr).handoffs = s.handoffs := by
  simp only [State.logErr]; (repeat' split) <;> simp
@[simp] theorem State.logErr_net (s : State) (source die slice code unit : Nat) (addr : Option Nat) :
    (State.logErr s source die slice code unit addr).net = s.net := by
  simp only [State.logErr]; (repeat' split) <;> simp
@[simp] theorem State.logErr_ret (s : State) (source die slice code unit : Nat) (addr : Option Nat) :
    (State.logErr s source die slice code unit addr).ret = s.ret := by
  simp only [State.logErr]; (repeat' split) <;> simp
@[simp] theorem State.logErr_ck (s : State) (source die slice code unit : Nat) (addr : Option Nat) :
    (State.logErr s source die slice code unit addr).ck = s.ck := by
  simp only [State.logErr]; (repeat' split) <;> simp

/-! ### State.measChanged -/

@[simp] theorem State.measChanged_pending (s : State) :
    (State.measChanged s).pending = s.pending := by
  simp only [State.measChanged]; (repeat' split) <;> simp
@[simp] theorem State.measChanged_free (s : State) :
    (State.measChanged s).free = s.free := by
  simp only [State.measChanged]; (repeat' split) <;> simp
@[simp] theorem State.measChanged_regs (s : State) :
    (State.measChanged s).regs = s.regs := by
  simp only [State.measChanged]; (repeat' split) <;> simp
@[simp] theorem State.measChanged_pkg (s : State) :
    (State.measChanged s).pkg = s.pkg := by
  simp only [State.measChanged]; (repeat' split) <;> simp
@[simp] theorem State.measChanged_flash (s : State) :
    (State.measChanged s).flash = s.flash := by
  simp only [State.measChanged]; (repeat' split) <;> simp
@[simp] theorem State.measChanged_log (s : State) :
    (State.measChanged s).log = s.log := by
  simp only [State.measChanged]; (repeat' split) <;> simp
@[simp] theorem State.measChanged_host (s : State) :
    (State.measChanged s).host = s.host := by
  simp only [State.measChanged]; (repeat' split) <;> simp
@[simp] theorem State.measChanged_img (s : State) :
    (State.measChanged s).img = s.img := by
  simp only [State.measChanged]; (repeat' split) <;> simp
@[simp] theorem State.measChanged_desc (s : State) :
    (State.measChanged s).desc = s.desc := by
  simp only [State.measChanged]; (repeat' split) <;> simp
@[simp] theorem State.measChanged_aux (s : State) :
    (State.measChanged s).aux = s.aux := by
  simp only [State.measChanged]; (repeat' split) <;> simp
@[simp] theorem State.measChanged_emptyCtr (s : State) :
    (State.measChanged s).emptyCtr = s.emptyCtr := by
  simp only [State.measChanged]; (repeat' split) <;> simp
@[simp] theorem State.measChanged_mem (s : State) :
    (State.measChanged s).mem = s.mem := by
  simp only [State.measChanged]; (repeat' split) <;> simp
@[simp] theorem State.measChanged_cnv (s : State) :
    (State.measChanged s).cnv = s.cnv := by
  simp only [State.measChanged]; (repeat' split) <;> simp
@[simp] theorem State.measChanged_srv (s : State) :
    (State.measChanged s).srv = s.srv := by
  simp only [State.measChanged]; (repeat' split) <;> simp
@[simp] theorem State.measChanged_comp (s : State) :
    (State.measChanged s).comp = s.comp := by
  simp only [State.measChanged]; (repeat' split) <;> simp
@[simp] theorem State.measChanged_pool (s : State) :
    (State.measChanged s).pool = s.pool := by
  simp only [State.measChanged]; (repeat' split) <;> simp
@[simp] theorem State.measChanged_apertures (s : State) :
    (State.measChanged s).apertures = s.apertures := by
  simp only [State.measChanged]; (repeat' split) <;> simp
@[simp] theorem State.measChanged_mirrors (s : State) :
    (State.measChanged s).mirrors = s.mirrors := by
  simp only [State.measChanged]; (repeat' split) <;> simp
@[simp] theorem State.measChanged_handoffs (s : State) :
    (State.measChanged s).handoffs = s.handoffs := by
  simp only [State.measChanged]; (repeat' split) <;> simp
@[simp] theorem State.measChanged_net (s : State) :
    (State.measChanged s).net = s.net := by
  simp only [State.measChanged]; (repeat' split) <;> simp
@[simp] theorem State.measChanged_ret (s : State) :
    (State.measChanged s).ret = s.ret := by
  simp only [State.measChanged]; (repeat' split) <;> simp
@[simp] theorem State.measChanged_ck (s : State) :
    (State.measChanged s).ck = s.ck := by
  simp only [State.measChanged]; (repeat' split) <;> simp

/-! ### State.setMeas -/

@[simp] theorem State.setMeas_pending (s : State) (i : Nat) (v : U256) :
    (State.setMeas s i v).pending = s.pending := by
  simp only [State.setMeas]; (repeat' split) <;> simp
@[simp] theorem State.setMeas_free (s : State) (i : Nat) (v : U256) :
    (State.setMeas s i v).free = s.free := by
  simp only [State.setMeas]; (repeat' split) <;> simp
@[simp] theorem State.setMeas_regs (s : State) (i : Nat) (v : U256) :
    (State.setMeas s i v).regs = s.regs := by
  simp only [State.setMeas]; (repeat' split) <;> simp
@[simp] theorem State.setMeas_pkg (s : State) (i : Nat) (v : U256) :
    (State.setMeas s i v).pkg = s.pkg := by
  simp only [State.setMeas]; (repeat' split) <;> simp
@[simp] theorem State.setMeas_flash (s : State) (i : Nat) (v : U256) :
    (State.setMeas s i v).flash = s.flash := by
  simp only [State.setMeas]; (repeat' split) <;> simp
@[simp] theorem State.setMeas_log (s : State) (i : Nat) (v : U256) :
    (State.setMeas s i v).log = s.log := by
  simp only [State.setMeas]; (repeat' split) <;> simp
@[simp] theorem State.setMeas_host (s : State) (i : Nat) (v : U256) :
    (State.setMeas s i v).host = s.host := by
  simp only [State.setMeas]; (repeat' split) <;> simp
@[simp] theorem State.setMeas_img (s : State) (i : Nat) (v : U256) :
    (State.setMeas s i v).img = s.img := by
  simp only [State.setMeas]; (repeat' split) <;> simp
@[simp] theorem State.setMeas_desc (s : State) (i : Nat) (v : U256) :
    (State.setMeas s i v).desc = s.desc := by
  simp only [State.setMeas]; (repeat' split) <;> simp
@[simp] theorem State.setMeas_aux (s : State) (i : Nat) (v : U256) :
    (State.setMeas s i v).aux = s.aux := by
  simp only [State.setMeas]; (repeat' split) <;> simp
@[simp] theorem State.setMeas_emptyCtr (s : State) (i : Nat) (v : U256) :
    (State.setMeas s i v).emptyCtr = s.emptyCtr := by
  simp only [State.setMeas]; (repeat' split) <;> simp
@[simp] theorem State.setMeas_mem (s : State) (i : Nat) (v : U256) :
    (State.setMeas s i v).mem = s.mem := by
  simp only [State.setMeas]; (repeat' split) <;> simp
@[simp] theorem State.setMeas_cnv (s : State) (i : Nat) (v : U256) :
    (State.setMeas s i v).cnv = s.cnv := by
  simp only [State.setMeas]; (repeat' split) <;> simp
@[simp] theorem State.setMeas_srv (s : State) (i : Nat) (v : U256) :
    (State.setMeas s i v).srv = s.srv := by
  simp only [State.setMeas]; (repeat' split) <;> simp
@[simp] theorem State.setMeas_comp (s : State) (i : Nat) (v : U256) :
    (State.setMeas s i v).comp = s.comp := by
  simp only [State.setMeas]; (repeat' split) <;> simp
@[simp] theorem State.setMeas_pool (s : State) (i : Nat) (v : U256) :
    (State.setMeas s i v).pool = s.pool := by
  simp only [State.setMeas]; (repeat' split) <;> simp
@[simp] theorem State.setMeas_apertures (s : State) (i : Nat) (v : U256) :
    (State.setMeas s i v).apertures = s.apertures := by
  simp only [State.setMeas]; (repeat' split) <;> simp
@[simp] theorem State.setMeas_mirrors (s : State) (i : Nat) (v : U256) :
    (State.setMeas s i v).mirrors = s.mirrors := by
  simp only [State.setMeas]; (repeat' split) <;> simp
@[simp] theorem State.setMeas_handoffs (s : State) (i : Nat) (v : U256) :
    (State.setMeas s i v).handoffs = s.handoffs := by
  simp only [State.setMeas]; (repeat' split) <;> simp
@[simp] theorem State.setMeas_net (s : State) (i : Nat) (v : U256) :
    (State.setMeas s i v).net = s.net := by
  simp only [State.setMeas]; (repeat' split) <;> simp
@[simp] theorem State.setMeas_ret (s : State) (i : Nat) (v : U256) :
    (State.setMeas s i v).ret = s.ret := by
  simp only [State.setMeas]; (repeat' split) <;> simp
@[simp] theorem State.setMeas_ck (s : State) (i : Nat) (v : U256) :
    (State.setMeas s i v).ck = s.ck := by
  simp only [State.setMeas]; (repeat' split) <;> simp

/-! ### State.genUp -/

@[simp] theorem State.genUp_pending (s : State) :
    (State.genUp s).pending = s.pending := by
  simp [State.genUp]
@[simp] theorem State.genUp_free (s : State) :
    (State.genUp s).free = s.free := by
  simp [State.genUp]
@[simp] theorem State.genUp_pkg (s : State) :
    (State.genUp s).pkg = s.pkg := by
  simp [State.genUp]
@[simp] theorem State.genUp_flash (s : State) :
    (State.genUp s).flash = s.flash := by
  simp [State.genUp]
@[simp] theorem State.genUp_log (s : State) :
    (State.genUp s).log = s.log := by
  simp [State.genUp]
@[simp] theorem State.genUp_host (s : State) :
    (State.genUp s).host = s.host := by
  simp [State.genUp]
@[simp] theorem State.genUp_sec (s : State) :
    (State.genUp s).sec = s.sec := by
  simp [State.genUp]
@[simp] theorem State.genUp_img (s : State) :
    (State.genUp s).img = s.img := by
  simp [State.genUp]
@[simp] theorem State.genUp_desc (s : State) :
    (State.genUp s).desc = s.desc := by
  simp [State.genUp]
@[simp] theorem State.genUp_aux (s : State) :
    (State.genUp s).aux = s.aux := by
  simp [State.genUp]
@[simp] theorem State.genUp_emptyCtr (s : State) :
    (State.genUp s).emptyCtr = s.emptyCtr := by
  simp [State.genUp]
@[simp] theorem State.genUp_mem (s : State) :
    (State.genUp s).mem = s.mem := by
  simp [State.genUp]
@[simp] theorem State.genUp_cnv (s : State) :
    (State.genUp s).cnv = s.cnv := by
  simp [State.genUp]
@[simp] theorem State.genUp_srv (s : State) :
    (State.genUp s).srv = s.srv := by
  simp [State.genUp]
@[simp] theorem State.genUp_comp (s : State) :
    (State.genUp s).comp = s.comp := by
  simp [State.genUp]
@[simp] theorem State.genUp_pool (s : State) :
    (State.genUp s).pool = s.pool := by
  simp [State.genUp]
@[simp] theorem State.genUp_apertures (s : State) :
    (State.genUp s).apertures = s.apertures := by
  simp [State.genUp]
@[simp] theorem State.genUp_mirrors (s : State) :
    (State.genUp s).mirrors = s.mirrors := by
  simp [State.genUp]
@[simp] theorem State.genUp_handoffs (s : State) :
    (State.genUp s).handoffs = s.handoffs := by
  simp [State.genUp]
@[simp] theorem State.genUp_net (s : State) :
    (State.genUp s).net = s.net := by
  simp [State.genUp]
@[simp] theorem State.genUp_ret (s : State) :
    (State.genUp s).ret = s.ret := by
  simp [State.genUp]
@[simp] theorem State.genUp_ck (s : State) :
    (State.genUp s).ck = s.ck := by
  simp [State.genUp]

/-! ### State.evc -/

@[simp] theorem State.evc_pending (s : State) (sl source unit n : Nat) :
    (State.evc s sl source unit n).pending = s.pending := by
  simp only [State.evc]; refine foldl_pending _ ?_ _ _; intro t x; (repeat' split) <;> simp
@[simp] theorem State.evc_free (s : State) (sl source unit n : Nat) :
    (State.evc s sl source unit n).free = s.free := by
  simp only [State.evc]; refine foldl_free _ ?_ _ _; intro t x; (repeat' split) <;> simp
@[simp] theorem State.evc_pkg (s : State) (sl source unit n : Nat) :
    (State.evc s sl source unit n).pkg = s.pkg := by
  simp only [State.evc]; refine foldl_pkg _ ?_ _ _; intro t x; (repeat' split) <;> simp
@[simp] theorem State.evc_flash (s : State) (sl source unit n : Nat) :
    (State.evc s sl source unit n).flash = s.flash := by
  simp only [State.evc]; refine foldl_flash _ ?_ _ _; intro t x; (repeat' split) <;> simp
@[simp] theorem State.evc_log (s : State) (sl source unit n : Nat) :
    (State.evc s sl source unit n).log = s.log := by
  simp only [State.evc]; refine foldl_log _ ?_ _ _; intro t x; (repeat' split) <;> simp
@[simp] theorem State.evc_host (s : State) (sl source unit n : Nat) :
    (State.evc s sl source unit n).host = s.host := by
  simp only [State.evc]; refine foldl_host _ ?_ _ _; intro t x; (repeat' split) <;> simp
@[simp] theorem State.evc_sec (s : State) (sl source unit n : Nat) :
    (State.evc s sl source unit n).sec = s.sec := by
  simp only [State.evc]; refine foldl_sec _ ?_ _ _; intro t x; (repeat' split) <;> simp
@[simp] theorem State.evc_img (s : State) (sl source unit n : Nat) :
    (State.evc s sl source unit n).img = s.img := by
  simp only [State.evc]; refine foldl_img _ ?_ _ _; intro t x; (repeat' split) <;> simp
@[simp] theorem State.evc_desc (s : State) (sl source unit n : Nat) :
    (State.evc s sl source unit n).desc = s.desc := by
  simp only [State.evc]; refine foldl_desc _ ?_ _ _; intro t x; (repeat' split) <;> simp
@[simp] theorem State.evc_aux (s : State) (sl source unit n : Nat) :
    (State.evc s sl source unit n).aux = s.aux := by
  simp only [State.evc]; refine foldl_aux _ ?_ _ _; intro t x; (repeat' split) <;> simp
@[simp] theorem State.evc_emptyCtr (s : State) (sl source unit n : Nat) :
    (State.evc s sl source unit n).emptyCtr = s.emptyCtr := by
  simp only [State.evc]; refine foldl_emptyCtr _ ?_ _ _; intro t x; (repeat' split) <;> simp
@[simp] theorem State.evc_mem (s : State) (sl source unit n : Nat) :
    (State.evc s sl source unit n).mem = s.mem := by
  simp only [State.evc]; refine foldl_mem _ ?_ _ _; intro t x; (repeat' split) <;> simp
@[simp] theorem State.evc_cnv (s : State) (sl source unit n : Nat) :
    (State.evc s sl source unit n).cnv = s.cnv := by
  simp only [State.evc]; refine foldl_cnv _ ?_ _ _; intro t x; (repeat' split) <;> simp
@[simp] theorem State.evc_srv (s : State) (sl source unit n : Nat) :
    (State.evc s sl source unit n).srv = s.srv := by
  simp only [State.evc]; refine foldl_srv _ ?_ _ _; intro t x; (repeat' split) <;> simp
@[simp] theorem State.evc_comp (s : State) (sl source unit n : Nat) :
    (State.evc s sl source unit n).comp = s.comp := by
  simp only [State.evc]; refine foldl_comp _ ?_ _ _; intro t x; (repeat' split) <;> simp
@[simp] theorem State.evc_pool (s : State) (sl source unit n : Nat) :
    (State.evc s sl source unit n).pool = s.pool := by
  simp only [State.evc]; refine foldl_pool _ ?_ _ _; intro t x; (repeat' split) <;> simp
@[simp] theorem State.evc_apertures (s : State) (sl source unit n : Nat) :
    (State.evc s sl source unit n).apertures = s.apertures := by
  simp only [State.evc]; refine foldl_apertures _ ?_ _ _; intro t x; (repeat' split) <;> simp
@[simp] theorem State.evc_mirrors (s : State) (sl source unit n : Nat) :
    (State.evc s sl source unit n).mirrors = s.mirrors := by
  simp only [State.evc]; refine foldl_mirrors _ ?_ _ _; intro t x; (repeat' split) <;> simp
@[simp] theorem State.evc_handoffs (s : State) (sl source unit n : Nat) :
    (State.evc s sl source unit n).handoffs = s.handoffs := by
  simp only [State.evc]; refine foldl_handoffs _ ?_ _ _; intro t x; (repeat' split) <;> simp
@[simp] theorem State.evc_net (s : State) (sl source unit n : Nat) :
    (State.evc s sl source unit n).net = s.net := by
  simp only [State.evc]; refine foldl_net _ ?_ _ _; intro t x; (repeat' split) <;> simp
@[simp] theorem State.evc_ret (s : State) (sl source unit n : Nat) :
    (State.evc s sl source unit n).ret = s.ret := by
  simp only [State.evc]; refine foldl_ret _ ?_ _ _; intro t x; (repeat' split) <;> simp
@[simp] theorem State.evc_ck (s : State) (sl source unit n : Nat) :
    (State.evc s sl source unit n).ck = s.ck := by
  simp only [State.evc]; refine foldl_ck _ ?_ _ _; intro t x; (repeat' split) <;> simp

/-! ### State.setPort -/

@[simp] theorem State.setPort_pending (s : State) (p : Nat) (x : Port) :
    (State.setPort s p x).pending = s.pending := by
  simp [State.setPort]
@[simp] theorem State.setPort_free (s : State) (p : Nat) (x : Port) :
    (State.setPort s p x).free = s.free := by
  simp [State.setPort]
@[simp] theorem State.setPort_regs (s : State) (p : Nat) (x : Port) :
    (State.setPort s p x).regs = s.regs := by
  simp [State.setPort]
@[simp] theorem State.setPort_pkg (s : State) (p : Nat) (x : Port) :
    (State.setPort s p x).pkg = s.pkg := by
  simp [State.setPort]
@[simp] theorem State.setPort_flash (s : State) (p : Nat) (x : Port) :
    (State.setPort s p x).flash = s.flash := by
  simp [State.setPort]
@[simp] theorem State.setPort_log (s : State) (p : Nat) (x : Port) :
    (State.setPort s p x).log = s.log := by
  simp [State.setPort]
@[simp] theorem State.setPort_host (s : State) (p : Nat) (x : Port) :
    (State.setPort s p x).host = s.host := by
  simp [State.setPort]
@[simp] theorem State.setPort_sec (s : State) (p : Nat) (x : Port) :
    (State.setPort s p x).sec = s.sec := by
  simp [State.setPort]
@[simp] theorem State.setPort_img (s : State) (p : Nat) (x : Port) :
    (State.setPort s p x).img = s.img := by
  simp [State.setPort]
@[simp] theorem State.setPort_desc (s : State) (p : Nat) (x : Port) :
    (State.setPort s p x).desc = s.desc := by
  simp [State.setPort]
@[simp] theorem State.setPort_aux (s : State) (p : Nat) (x : Port) :
    (State.setPort s p x).aux = s.aux := by
  simp [State.setPort]
@[simp] theorem State.setPort_emptyCtr (s : State) (p : Nat) (x : Port) :
    (State.setPort s p x).emptyCtr = s.emptyCtr := by
  simp [State.setPort]
@[simp] theorem State.setPort_mem (s : State) (p : Nat) (x : Port) :
    (State.setPort s p x).mem = s.mem := by
  simp [State.setPort]
@[simp] theorem State.setPort_cnv (s : State) (p : Nat) (x : Port) :
    (State.setPort s p x).cnv = s.cnv := by
  simp [State.setPort]
@[simp] theorem State.setPort_srv (s : State) (p : Nat) (x : Port) :
    (State.setPort s p x).srv = s.srv := by
  simp [State.setPort]
@[simp] theorem State.setPort_comp (s : State) (p : Nat) (x : Port) :
    (State.setPort s p x).comp = s.comp := by
  simp [State.setPort]
@[simp] theorem State.setPort_pool (s : State) (p : Nat) (x : Port) :
    (State.setPort s p x).pool = s.pool := by
  simp [State.setPort]
@[simp] theorem State.setPort_apertures (s : State) (p : Nat) (x : Port) :
    (State.setPort s p x).apertures = s.apertures := by
  simp [State.setPort]
@[simp] theorem State.setPort_mirrors (s : State) (p : Nat) (x : Port) :
    (State.setPort s p x).mirrors = s.mirrors := by
  simp [State.setPort]
@[simp] theorem State.setPort_handoffs (s : State) (p : Nat) (x : Port) :
    (State.setPort s p x).handoffs = s.handoffs := by
  simp [State.setPort]
@[simp] theorem State.setPort_ret (s : State) (p : Nat) (x : Port) :
    (State.setPort s p x).ret = s.ret := by
  simp [State.setPort]
@[simp] theorem State.setPort_ck (s : State) (p : Nat) (x : Port) :
    (State.setPort s p x).ck = s.ck := by
  simp [State.setPort]

/-! ### State.reject -/

@[simp] theorem State.reject_pending (s : State) (t : Tag) (code info : Nat) (result : List (Nat × Nat)) :
    (State.reject s t code info result).pending = s.pending := by
  simp [State.reject]
@[simp] theorem State.reject_free (s : State) (t : Tag) (code info : Nat) (result : List (Nat × Nat)) :
    (State.reject s t code info result).free = s.free := by
  simp [State.reject]
@[simp] theorem State.reject_pkg (s : State) (t : Tag) (code info : Nat) (result : List (Nat × Nat)) :
    (State.reject s t code info result).pkg = s.pkg := by
  simp [State.reject]
@[simp] theorem State.reject_flash (s : State) (t : Tag) (code info : Nat) (result : List (Nat × Nat)) :
    (State.reject s t code info result).flash = s.flash := by
  simp [State.reject]
@[simp] theorem State.reject_log (s : State) (t : Tag) (code info : Nat) (result : List (Nat × Nat)) :
    (State.reject s t code info result).log = s.log := by
  simp [State.reject]
@[simp] theorem State.reject_sec (s : State) (t : Tag) (code info : Nat) (result : List (Nat × Nat)) :
    (State.reject s t code info result).sec = s.sec := by
  simp [State.reject]
@[simp] theorem State.reject_img (s : State) (t : Tag) (code info : Nat) (result : List (Nat × Nat)) :
    (State.reject s t code info result).img = s.img := by
  simp [State.reject]
@[simp] theorem State.reject_desc (s : State) (t : Tag) (code info : Nat) (result : List (Nat × Nat)) :
    (State.reject s t code info result).desc = s.desc := by
  simp [State.reject]
@[simp] theorem State.reject_aux (s : State) (t : Tag) (code info : Nat) (result : List (Nat × Nat)) :
    (State.reject s t code info result).aux = s.aux := by
  simp [State.reject]
@[simp] theorem State.reject_emptyCtr (s : State) (t : Tag) (code info : Nat) (result : List (Nat × Nat)) :
    (State.reject s t code info result).emptyCtr = s.emptyCtr := by
  simp [State.reject]
@[simp] theorem State.reject_mem (s : State) (t : Tag) (code info : Nat) (result : List (Nat × Nat)) :
    (State.reject s t code info result).mem = s.mem := by
  simp [State.reject]
@[simp] theorem State.reject_cnv (s : State) (t : Tag) (code info : Nat) (result : List (Nat × Nat)) :
    (State.reject s t code info result).cnv = s.cnv := by
  simp [State.reject]
@[simp] theorem State.reject_srv (s : State) (t : Tag) (code info : Nat) (result : List (Nat × Nat)) :
    (State.reject s t code info result).srv = s.srv := by
  simp [State.reject]
@[simp] theorem State.reject_comp (s : State) (t : Tag) (code info : Nat) (result : List (Nat × Nat)) :
    (State.reject s t code info result).comp = s.comp := by
  simp [State.reject]
@[simp] theorem State.reject_pool (s : State) (t : Tag) (code info : Nat) (result : List (Nat × Nat)) :
    (State.reject s t code info result).pool = s.pool := by
  simp [State.reject]
@[simp] theorem State.reject_apertures (s : State) (t : Tag) (code info : Nat) (result : List (Nat × Nat)) :
    (State.reject s t code info result).apertures = s.apertures := by
  simp [State.reject]
@[simp] theorem State.reject_mirrors (s : State) (t : Tag) (code info : Nat) (result : List (Nat × Nat)) :
    (State.reject s t code info result).mirrors = s.mirrors := by
  simp [State.reject]
@[simp] theorem State.reject_handoffs (s : State) (t : Tag) (code info : Nat) (result : List (Nat × Nat)) :
    (State.reject s t code info result).handoffs = s.handoffs := by
  simp [State.reject]
@[simp] theorem State.reject_net (s : State) (t : Tag) (code info : Nat) (result : List (Nat × Nat)) :
    (State.reject s t code info result).net = s.net := by
  simp [State.reject]
@[simp] theorem State.reject_ret (s : State) (t : Tag) (code info : Nat) (result : List (Nat × Nat)) :
    (State.reject s t code info result).ret = s.ret := by
  simp [State.reject]
@[simp] theorem State.reject_ck (s : State) (t : Tag) (code info : Nat) (result : List (Nat × Nat)) :
    (State.reject s t code info result).ck = s.ck := by
  simp [State.reject]

/-! ### State.setKv -/

@[simp] theorem State.setKv_pending (s : State) (i : Nat) (k : SessKv) :
    (State.setKv s i k).pending = s.pending := by
  simp [State.setKv]
@[simp] theorem State.setKv_free (s : State) (i : Nat) (k : SessKv) :
    (State.setKv s i k).free = s.free := by
  simp [State.setKv]
@[simp] theorem State.setKv_regs (s : State) (i : Nat) (k : SessKv) :
    (State.setKv s i k).regs = s.regs := by
  simp [State.setKv]
@[simp] theorem State.setKv_pkg (s : State) (i : Nat) (k : SessKv) :
    (State.setKv s i k).pkg = s.pkg := by
  simp [State.setKv]
@[simp] theorem State.setKv_flash (s : State) (i : Nat) (k : SessKv) :
    (State.setKv s i k).flash = s.flash := by
  simp [State.setKv]
@[simp] theorem State.setKv_log (s : State) (i : Nat) (k : SessKv) :
    (State.setKv s i k).log = s.log := by
  simp [State.setKv]
@[simp] theorem State.setKv_host (s : State) (i : Nat) (k : SessKv) :
    (State.setKv s i k).host = s.host := by
  simp [State.setKv]
@[simp] theorem State.setKv_sec (s : State) (i : Nat) (k : SessKv) :
    (State.setKv s i k).sec = s.sec := by
  simp [State.setKv]
@[simp] theorem State.setKv_img (s : State) (i : Nat) (k : SessKv) :
    (State.setKv s i k).img = s.img := by
  simp [State.setKv]
@[simp] theorem State.setKv_desc (s : State) (i : Nat) (k : SessKv) :
    (State.setKv s i k).desc = s.desc := by
  simp [State.setKv]
@[simp] theorem State.setKv_aux (s : State) (i : Nat) (k : SessKv) :
    (State.setKv s i k).aux = s.aux := by
  simp [State.setKv]
@[simp] theorem State.setKv_emptyCtr (s : State) (i : Nat) (k : SessKv) :
    (State.setKv s i k).emptyCtr = s.emptyCtr := by
  simp [State.setKv]
@[simp] theorem State.setKv_cnv (s : State) (i : Nat) (k : SessKv) :
    (State.setKv s i k).cnv = s.cnv := by
  simp [State.setKv]
@[simp] theorem State.setKv_srv (s : State) (i : Nat) (k : SessKv) :
    (State.setKv s i k).srv = s.srv := by
  simp [State.setKv]
@[simp] theorem State.setKv_comp (s : State) (i : Nat) (k : SessKv) :
    (State.setKv s i k).comp = s.comp := by
  simp [State.setKv]
@[simp] theorem State.setKv_pool (s : State) (i : Nat) (k : SessKv) :
    (State.setKv s i k).pool = s.pool := by
  simp [State.setKv]
@[simp] theorem State.setKv_apertures (s : State) (i : Nat) (k : SessKv) :
    (State.setKv s i k).apertures = s.apertures := by
  simp [State.setKv]
@[simp] theorem State.setKv_mirrors (s : State) (i : Nat) (k : SessKv) :
    (State.setKv s i k).mirrors = s.mirrors := by
  simp [State.setKv]
@[simp] theorem State.setKv_handoffs (s : State) (i : Nat) (k : SessKv) :
    (State.setKv s i k).handoffs = s.handoffs := by
  simp [State.setKv]
@[simp] theorem State.setKv_net (s : State) (i : Nat) (k : SessKv) :
    (State.setKv s i k).net = s.net := by
  simp [State.setKv]
@[simp] theorem State.setKv_ret (s : State) (i : Nat) (k : SessKv) :
    (State.setKv s i k).ret = s.ret := by
  simp [State.setKv]
@[simp] theorem State.setKv_ck (s : State) (i : Nat) (k : SessKv) :
    (State.setKv s i k).ck = s.ck := by
  simp [State.setKv]

/-! ### State.setCount -/

@[simp] theorem State.setCount_pending (s : State) (pa rcp n : Nat) :
    (State.setCount s pa rcp n).pending = s.pending := by
  simp only [State.setCount]; (repeat' split) <;> simp
@[simp] theorem State.setCount_free (s : State) (pa rcp n : Nat) :
    (State.setCount s pa rcp n).free = s.free := by
  simp only [State.setCount]; (repeat' split) <;> simp
@[simp] theorem State.setCount_regs (s : State) (pa rcp n : Nat) :
    (State.setCount s pa rcp n).regs = s.regs := by
  simp only [State.setCount]; (repeat' split) <;> simp
@[simp] theorem State.setCount_pkg (s : State) (pa rcp n : Nat) :
    (State.setCount s pa rcp n).pkg = s.pkg := by
  simp only [State.setCount]; (repeat' split) <;> simp
@[simp] theorem State.setCount_flash (s : State) (pa rcp n : Nat) :
    (State.setCount s pa rcp n).flash = s.flash := by
  simp only [State.setCount]; (repeat' split) <;> simp
@[simp] theorem State.setCount_log (s : State) (pa rcp n : Nat) :
    (State.setCount s pa rcp n).log = s.log := by
  simp only [State.setCount]; (repeat' split) <;> simp
@[simp] theorem State.setCount_host (s : State) (pa rcp n : Nat) :
    (State.setCount s pa rcp n).host = s.host := by
  simp only [State.setCount]; (repeat' split) <;> simp
@[simp] theorem State.setCount_sec (s : State) (pa rcp n : Nat) :
    (State.setCount s pa rcp n).sec = s.sec := by
  simp only [State.setCount]; (repeat' split) <;> simp
@[simp] theorem State.setCount_img (s : State) (pa rcp n : Nat) :
    (State.setCount s pa rcp n).img = s.img := by
  simp only [State.setCount]; (repeat' split) <;> simp
@[simp] theorem State.setCount_desc (s : State) (pa rcp n : Nat) :
    (State.setCount s pa rcp n).desc = s.desc := by
  simp only [State.setCount]; (repeat' split) <;> simp
@[simp] theorem State.setCount_aux (s : State) (pa rcp n : Nat) :
    (State.setCount s pa rcp n).aux = s.aux := by
  simp only [State.setCount]; (repeat' split) <;> simp
@[simp] theorem State.setCount_emptyCtr (s : State) (pa rcp n : Nat) :
    (State.setCount s pa rcp n).emptyCtr = s.emptyCtr := by
  simp only [State.setCount]; (repeat' split) <;> simp
@[simp] theorem State.setCount_cnv (s : State) (pa rcp n : Nat) :
    (State.setCount s pa rcp n).cnv = s.cnv := by
  simp only [State.setCount]; (repeat' split) <;> simp
@[simp] theorem State.setCount_srv (s : State) (pa rcp n : Nat) :
    (State.setCount s pa rcp n).srv = s.srv := by
  simp only [State.setCount]; (repeat' split) <;> simp
@[simp] theorem State.setCount_comp (s : State) (pa rcp n : Nat) :
    (State.setCount s pa rcp n).comp = s.comp := by
  simp only [State.setCount]; (repeat' split) <;> simp
@[simp] theorem State.setCount_pool (s : State) (pa rcp n : Nat) :
    (State.setCount s pa rcp n).pool = s.pool := by
  simp only [State.setCount]; (repeat' split) <;> simp
@[simp] theorem State.setCount_apertures (s : State) (pa rcp n : Nat) :
    (State.setCount s pa rcp n).apertures = s.apertures := by
  simp only [State.setCount]; (repeat' split) <;> simp
@[simp] theorem State.setCount_mirrors (s : State) (pa rcp n : Nat) :
    (State.setCount s pa rcp n).mirrors = s.mirrors := by
  simp only [State.setCount]; (repeat' split) <;> simp
@[simp] theorem State.setCount_handoffs (s : State) (pa rcp n : Nat) :
    (State.setCount s pa rcp n).handoffs = s.handoffs := by
  simp only [State.setCount]; (repeat' split) <;> simp
@[simp] theorem State.setCount_net (s : State) (pa rcp n : Nat) :
    (State.setCount s pa rcp n).net = s.net := by
  simp only [State.setCount]; (repeat' split) <;> simp
@[simp] theorem State.setCount_ret (s : State) (pa rcp n : Nat) :
    (State.setCount s pa rcp n).ret = s.ret := by
  simp only [State.setCount]; (repeat' split) <;> simp
@[simp] theorem State.setCount_ck (s : State) (pa rcp n : Nat) :
    (State.setCount s pa rcp n).ck = s.ck := by
  simp only [State.setCount]; (repeat' split) <;> simp

/-! ### State.setD -/

@[simp] theorem State.setD_pending (s : State) (i : Nat) (d : Desc) :
    (State.setD s i d).pending = s.pending := by
  simp [State.setD]
@[simp] theorem State.setD_free (s : State) (i : Nat) (d : Desc) :
    (State.setD s i d).free = s.free := by
  simp [State.setD]
@[simp] theorem State.setD_regs (s : State) (i : Nat) (d : Desc) :
    (State.setD s i d).regs = s.regs := by
  simp [State.setD]
@[simp] theorem State.setD_pkg (s : State) (i : Nat) (d : Desc) :
    (State.setD s i d).pkg = s.pkg := by
  simp [State.setD]
@[simp] theorem State.setD_flash (s : State) (i : Nat) (d : Desc) :
    (State.setD s i d).flash = s.flash := by
  simp [State.setD]
@[simp] theorem State.setD_log (s : State) (i : Nat) (d : Desc) :
    (State.setD s i d).log = s.log := by
  simp [State.setD]
@[simp] theorem State.setD_host (s : State) (i : Nat) (d : Desc) :
    (State.setD s i d).host = s.host := by
  simp [State.setD]
@[simp] theorem State.setD_sec (s : State) (i : Nat) (d : Desc) :
    (State.setD s i d).sec = s.sec := by
  simp [State.setD]
@[simp] theorem State.setD_img (s : State) (i : Nat) (d : Desc) :
    (State.setD s i d).img = s.img := by
  simp [State.setD]
@[simp] theorem State.setD_aux (s : State) (i : Nat) (d : Desc) :
    (State.setD s i d).aux = s.aux := by
  simp [State.setD]
@[simp] theorem State.setD_emptyCtr (s : State) (i : Nat) (d : Desc) :
    (State.setD s i d).emptyCtr = s.emptyCtr := by
  simp [State.setD]
@[simp] theorem State.setD_mem (s : State) (i : Nat) (d : Desc) :
    (State.setD s i d).mem = s.mem := by
  simp [State.setD]
@[simp] theorem State.setD_cnv (s : State) (i : Nat) (d : Desc) :
    (State.setD s i d).cnv = s.cnv := by
  simp [State.setD]
@[simp] theorem State.setD_srv (s : State) (i : Nat) (d : Desc) :
    (State.setD s i d).srv = s.srv := by
  simp [State.setD]
@[simp] theorem State.setD_comp (s : State) (i : Nat) (d : Desc) :
    (State.setD s i d).comp = s.comp := by
  simp [State.setD]
@[simp] theorem State.setD_pool (s : State) (i : Nat) (d : Desc) :
    (State.setD s i d).pool = s.pool := by
  simp [State.setD]
@[simp] theorem State.setD_apertures (s : State) (i : Nat) (d : Desc) :
    (State.setD s i d).apertures = s.apertures := by
  simp [State.setD]
@[simp] theorem State.setD_mirrors (s : State) (i : Nat) (d : Desc) :
    (State.setD s i d).mirrors = s.mirrors := by
  simp [State.setD]
@[simp] theorem State.setD_handoffs (s : State) (i : Nat) (d : Desc) :
    (State.setD s i d).handoffs = s.handoffs := by
  simp [State.setD]
@[simp] theorem State.setD_net (s : State) (i : Nat) (d : Desc) :
    (State.setD s i d).net = s.net := by
  simp [State.setD]
@[simp] theorem State.setD_ret (s : State) (i : Nat) (d : Desc) :
    (State.setD s i d).ret = s.ret := by
  simp [State.setD]
@[simp] theorem State.setD_ck (s : State) (i : Nat) (d : Desc) :
    (State.setD s i d).ck = s.ck := by
  simp [State.setD]

/-! ### State.setAx -/

@[simp] theorem State.setAx_pending (s : State) (i : Nat) (a : DescAux) :
    (State.setAx s i a).pending = s.pending := by
  simp [State.setAx]
@[simp] theorem State.setAx_free (s : State) (i : Nat) (a : DescAux) :
    (State.setAx s i a).free = s.free := by
  simp [State.setAx]
@[simp] theorem State.setAx_regs (s : State) (i : Nat) (a : DescAux) :
    (State.setAx s i a).regs = s.regs := by
  simp [State.setAx]
@[simp] theorem State.setAx_pkg (s : State) (i : Nat) (a : DescAux) :
    (State.setAx s i a).pkg = s.pkg := by
  simp [State.setAx]
@[simp] theorem State.setAx_flash (s : State) (i : Nat) (a : DescAux) :
    (State.setAx s i a).flash = s.flash := by
  simp [State.setAx]
@[simp] theorem State.setAx_log (s : State) (i : Nat) (a : DescAux) :
    (State.setAx s i a).log = s.log := by
  simp [State.setAx]
@[simp] theorem State.setAx_host (s : State) (i : Nat) (a : DescAux) :
    (State.setAx s i a).host = s.host := by
  simp [State.setAx]
@[simp] theorem State.setAx_sec (s : State) (i : Nat) (a : DescAux) :
    (State.setAx s i a).sec = s.sec := by
  simp [State.setAx]
@[simp] theorem State.setAx_img (s : State) (i : Nat) (a : DescAux) :
    (State.setAx s i a).img = s.img := by
  simp [State.setAx]
@[simp] theorem State.setAx_desc (s : State) (i : Nat) (a : DescAux) :
    (State.setAx s i a).desc = s.desc := by
  simp [State.setAx]
@[simp] theorem State.setAx_emptyCtr (s : State) (i : Nat) (a : DescAux) :
    (State.setAx s i a).emptyCtr = s.emptyCtr := by
  simp [State.setAx]
@[simp] theorem State.setAx_mem (s : State) (i : Nat) (a : DescAux) :
    (State.setAx s i a).mem = s.mem := by
  simp [State.setAx]
@[simp] theorem State.setAx_cnv (s : State) (i : Nat) (a : DescAux) :
    (State.setAx s i a).cnv = s.cnv := by
  simp [State.setAx]
@[simp] theorem State.setAx_srv (s : State) (i : Nat) (a : DescAux) :
    (State.setAx s i a).srv = s.srv := by
  simp [State.setAx]
@[simp] theorem State.setAx_comp (s : State) (i : Nat) (a : DescAux) :
    (State.setAx s i a).comp = s.comp := by
  simp [State.setAx]
@[simp] theorem State.setAx_pool (s : State) (i : Nat) (a : DescAux) :
    (State.setAx s i a).pool = s.pool := by
  simp [State.setAx]
@[simp] theorem State.setAx_apertures (s : State) (i : Nat) (a : DescAux) :
    (State.setAx s i a).apertures = s.apertures := by
  simp [State.setAx]
@[simp] theorem State.setAx_mirrors (s : State) (i : Nat) (a : DescAux) :
    (State.setAx s i a).mirrors = s.mirrors := by
  simp [State.setAx]
@[simp] theorem State.setAx_handoffs (s : State) (i : Nat) (a : DescAux) :
    (State.setAx s i a).handoffs = s.handoffs := by
  simp [State.setAx]
@[simp] theorem State.setAx_net (s : State) (i : Nat) (a : DescAux) :
    (State.setAx s i a).net = s.net := by
  simp [State.setAx]
@[simp] theorem State.setAx_ret (s : State) (i : Nat) (a : DescAux) :
    (State.setAx s i a).ret = s.ret := by
  simp [State.setAx]
@[simp] theorem State.setAx_ck (s : State) (i : Nat) (a : DescAux) :
    (State.setAx s i a).ck = s.ck := by
  simp [State.setAx]

/-! ### State.setRing -/

@[simp] theorem State.setRing_pending (s : State) (k : Nat) (t : TRing) :
    (State.setRing s k t).pending = s.pending := by
  simp [State.setRing]
@[simp] theorem State.setRing_free (s : State) (k : Nat) (t : TRing) :
    (State.setRing s k t).free = s.free := by
  simp [State.setRing]
@[simp] theorem State.setRing_regs (s : State) (k : Nat) (t : TRing) :
    (State.setRing s k t).regs = s.regs := by
  simp [State.setRing]
@[simp] theorem State.setRing_pkg (s : State) (k : Nat) (t : TRing) :
    (State.setRing s k t).pkg = s.pkg := by
  simp [State.setRing]
@[simp] theorem State.setRing_flash (s : State) (k : Nat) (t : TRing) :
    (State.setRing s k t).flash = s.flash := by
  simp [State.setRing]
@[simp] theorem State.setRing_log (s : State) (k : Nat) (t : TRing) :
    (State.setRing s k t).log = s.log := by
  simp [State.setRing]
@[simp] theorem State.setRing_host (s : State) (k : Nat) (t : TRing) :
    (State.setRing s k t).host = s.host := by
  simp [State.setRing]
@[simp] theorem State.setRing_sec (s : State) (k : Nat) (t : TRing) :
    (State.setRing s k t).sec = s.sec := by
  simp [State.setRing]
@[simp] theorem State.setRing_img (s : State) (k : Nat) (t : TRing) :
    (State.setRing s k t).img = s.img := by
  simp [State.setRing]
@[simp] theorem State.setRing_desc (s : State) (k : Nat) (t : TRing) :
    (State.setRing s k t).desc = s.desc := by
  simp [State.setRing]
@[simp] theorem State.setRing_aux (s : State) (k : Nat) (t : TRing) :
    (State.setRing s k t).aux = s.aux := by
  simp [State.setRing]
@[simp] theorem State.setRing_emptyCtr (s : State) (k : Nat) (t : TRing) :
    (State.setRing s k t).emptyCtr = s.emptyCtr := by
  simp [State.setRing]
@[simp] theorem State.setRing_mem (s : State) (k : Nat) (t : TRing) :
    (State.setRing s k t).mem = s.mem := by
  simp [State.setRing]
@[simp] theorem State.setRing_cnv (s : State) (k : Nat) (t : TRing) :
    (State.setRing s k t).cnv = s.cnv := by
  simp [State.setRing]
@[simp] theorem State.setRing_comp (s : State) (k : Nat) (t : TRing) :
    (State.setRing s k t).comp = s.comp := by
  simp [State.setRing]
@[simp] theorem State.setRing_pool (s : State) (k : Nat) (t : TRing) :
    (State.setRing s k t).pool = s.pool := by
  simp [State.setRing]
@[simp] theorem State.setRing_apertures (s : State) (k : Nat) (t : TRing) :
    (State.setRing s k t).apertures = s.apertures := by
  simp [State.setRing]
@[simp] theorem State.setRing_mirrors (s : State) (k : Nat) (t : TRing) :
    (State.setRing s k t).mirrors = s.mirrors := by
  simp [State.setRing]
@[simp] theorem State.setRing_handoffs (s : State) (k : Nat) (t : TRing) :
    (State.setRing s k t).handoffs = s.handoffs := by
  simp [State.setRing]
@[simp] theorem State.setRing_net (s : State) (k : Nat) (t : TRing) :
    (State.setRing s k t).net = s.net := by
  simp [State.setRing]
@[simp] theorem State.setRing_ret (s : State) (k : Nat) (t : TRing) :
    (State.setRing s k t).ret = s.ret := by
  simp [State.setRing]
@[simp] theorem State.setRing_ck (s : State) (k : Nat) (t : TRing) :
    (State.setRing s k t).ck = s.ck := by
  simp [State.setRing]

/-! ### State.sessEvent -/

@[simp] theorem State.sessEvent_pending (s : State) (i : Nat) (old new : Season) (cause : Nat) :
    (State.sessEvent s i old new cause).pending = s.pending := by
  simp [State.sessEvent]
@[simp] theorem State.sessEvent_free (s : State) (i : Nat) (old new : Season) (cause : Nat) :
    (State.sessEvent s i old new cause).free = s.free := by
  simp [State.sessEvent]
@[simp] theorem State.sessEvent_pkg (s : State) (i : Nat) (old new : Season) (cause : Nat) :
    (State.sessEvent s i old new cause).pkg = s.pkg := by
  simp [State.sessEvent]
@[simp] theorem State.sessEvent_flash (s : State) (i : Nat) (old new : Season) (cause : Nat) :
    (State.sessEvent s i old new cause).flash = s.flash := by
  simp [State.sessEvent]
@[simp] theorem State.sessEvent_log (s : State) (i : Nat) (old new : Season) (cause : Nat) :
    (State.sessEvent s i old new cause).log = s.log := by
  simp [State.sessEvent]
@[simp] theorem State.sessEvent_sec (s : State) (i : Nat) (old new : Season) (cause : Nat) :
    (State.sessEvent s i old new cause).sec = s.sec := by
  simp [State.sessEvent]
@[simp] theorem State.sessEvent_img (s : State) (i : Nat) (old new : Season) (cause : Nat) :
    (State.sessEvent s i old new cause).img = s.img := by
  simp [State.sessEvent]
@[simp] theorem State.sessEvent_desc (s : State) (i : Nat) (old new : Season) (cause : Nat) :
    (State.sessEvent s i old new cause).desc = s.desc := by
  simp [State.sessEvent]
@[simp] theorem State.sessEvent_aux (s : State) (i : Nat) (old new : Season) (cause : Nat) :
    (State.sessEvent s i old new cause).aux = s.aux := by
  simp [State.sessEvent]
@[simp] theorem State.sessEvent_emptyCtr (s : State) (i : Nat) (old new : Season) (cause : Nat) :
    (State.sessEvent s i old new cause).emptyCtr = s.emptyCtr := by
  simp [State.sessEvent]
@[simp] theorem State.sessEvent_mem (s : State) (i : Nat) (old new : Season) (cause : Nat) :
    (State.sessEvent s i old new cause).mem = s.mem := by
  simp [State.sessEvent]
@[simp] theorem State.sessEvent_cnv (s : State) (i : Nat) (old new : Season) (cause : Nat) :
    (State.sessEvent s i old new cause).cnv = s.cnv := by
  simp [State.sessEvent]
@[simp] theorem State.sessEvent_srv (s : State) (i : Nat) (old new : Season) (cause : Nat) :
    (State.sessEvent s i old new cause).srv = s.srv := by
  simp [State.sessEvent]
@[simp] theorem State.sessEvent_comp (s : State) (i : Nat) (old new : Season) (cause : Nat) :
    (State.sessEvent s i old new cause).comp = s.comp := by
  simp [State.sessEvent]
@[simp] theorem State.sessEvent_pool (s : State) (i : Nat) (old new : Season) (cause : Nat) :
    (State.sessEvent s i old new cause).pool = s.pool := by
  simp [State.sessEvent]
@[simp] theorem State.sessEvent_apertures (s : State) (i : Nat) (old new : Season) (cause : Nat) :
    (State.sessEvent s i old new cause).apertures = s.apertures := by
  simp [State.sessEvent]
@[simp] theorem State.sessEvent_mirrors (s : State) (i : Nat) (old new : Season) (cause : Nat) :
    (State.sessEvent s i old new cause).mirrors = s.mirrors := by
  simp [State.sessEvent]
@[simp] theorem State.sessEvent_handoffs (s : State) (i : Nat) (old new : Season) (cause : Nat) :
    (State.sessEvent s i old new cause).handoffs = s.handoffs := by
  simp [State.sessEvent]
@[simp] theorem State.sessEvent_net (s : State) (i : Nat) (old new : Season) (cause : Nat) :
    (State.sessEvent s i old new cause).net = s.net := by
  simp [State.sessEvent]
@[simp] theorem State.sessEvent_ret (s : State) (i : Nat) (old new : Season) (cause : Nat) :
    (State.sessEvent s i old new cause).ret = s.ret := by
  simp [State.sessEvent]
@[simp] theorem State.sessEvent_ck (s : State) (i : Nat) (old new : Season) (cause : Nat) :
    (State.sessEvent s i old new cause).ck = s.ck := by
  simp [State.sessEvent]

/-! ### State.setCore -/

@[simp] theorem State.setCore_pending (s : State) (c : Nat) (x : Core) :
    (State.setCore s c x).pending = s.pending := by
  simp [State.setCore]
@[simp] theorem State.setCore_free (s : State) (c : Nat) (x : Core) :
    (State.setCore s c x).free = s.free := by
  simp [State.setCore]
@[simp] theorem State.setCore_regs (s : State) (c : Nat) (x : Core) :
    (State.setCore s c x).regs = s.regs := by
  simp [State.setCore]
@[simp] theorem State.setCore_pkg (s : State) (c : Nat) (x : Core) :
    (State.setCore s c x).pkg = s.pkg := by
  simp [State.setCore]
@[simp] theorem State.setCore_flash (s : State) (c : Nat) (x : Core) :
    (State.setCore s c x).flash = s.flash := by
  simp [State.setCore]
@[simp] theorem State.setCore_log (s : State) (c : Nat) (x : Core) :
    (State.setCore s c x).log = s.log := by
  simp [State.setCore]
@[simp] theorem State.setCore_host (s : State) (c : Nat) (x : Core) :
    (State.setCore s c x).host = s.host := by
  simp [State.setCore]
@[simp] theorem State.setCore_sec (s : State) (c : Nat) (x : Core) :
    (State.setCore s c x).sec = s.sec := by
  simp [State.setCore]
@[simp] theorem State.setCore_img (s : State) (c : Nat) (x : Core) :
    (State.setCore s c x).img = s.img := by
  simp [State.setCore]
@[simp] theorem State.setCore_desc (s : State) (c : Nat) (x : Core) :
    (State.setCore s c x).desc = s.desc := by
  simp [State.setCore]
@[simp] theorem State.setCore_aux (s : State) (c : Nat) (x : Core) :
    (State.setCore s c x).aux = s.aux := by
  simp [State.setCore]
@[simp] theorem State.setCore_emptyCtr (s : State) (c : Nat) (x : Core) :
    (State.setCore s c x).emptyCtr = s.emptyCtr := by
  simp [State.setCore]
@[simp] theorem State.setCore_mem (s : State) (c : Nat) (x : Core) :
    (State.setCore s c x).mem = s.mem := by
  simp [State.setCore]
@[simp] theorem State.setCore_cnv (s : State) (c : Nat) (x : Core) :
    (State.setCore s c x).cnv = s.cnv := by
  simp [State.setCore]
@[simp] theorem State.setCore_comp (s : State) (c : Nat) (x : Core) :
    (State.setCore s c x).comp = s.comp := by
  simp [State.setCore]
@[simp] theorem State.setCore_pool (s : State) (c : Nat) (x : Core) :
    (State.setCore s c x).pool = s.pool := by
  simp [State.setCore]
@[simp] theorem State.setCore_apertures (s : State) (c : Nat) (x : Core) :
    (State.setCore s c x).apertures = s.apertures := by
  simp [State.setCore]
@[simp] theorem State.setCore_mirrors (s : State) (c : Nat) (x : Core) :
    (State.setCore s c x).mirrors = s.mirrors := by
  simp [State.setCore]
@[simp] theorem State.setCore_handoffs (s : State) (c : Nat) (x : Core) :
    (State.setCore s c x).handoffs = s.handoffs := by
  simp [State.setCore]
@[simp] theorem State.setCore_net (s : State) (c : Nat) (x : Core) :
    (State.setCore s c x).net = s.net := by
  simp [State.setCore]
@[simp] theorem State.setCore_ret (s : State) (c : Nat) (x : Core) :
    (State.setCore s c x).ret = s.ret := by
  simp [State.setCore]
@[simp] theorem State.setCore_ck (s : State) (c : Nat) (x : Core) :
    (State.setCore s c x).ck = s.ck := by
  simp [State.setCore]

/-! ### State.setJob -/

@[simp] theorem State.setJob_pending (s : State) (sl : Nat) (j : Job) :
    (State.setJob s sl j).pending = s.pending := by
  simp [State.setJob]
@[simp] theorem State.setJob_free (s : State) (sl : Nat) (j : Job) :
    (State.setJob s sl j).free = s.free := by
  simp [State.setJob]
@[simp] theorem State.setJob_regs (s : State) (sl : Nat) (j : Job) :
    (State.setJob s sl j).regs = s.regs := by
  simp [State.setJob]
@[simp] theorem State.setJob_pkg (s : State) (sl : Nat) (j : Job) :
    (State.setJob s sl j).pkg = s.pkg := by
  simp [State.setJob]
@[simp] theorem State.setJob_flash (s : State) (sl : Nat) (j : Job) :
    (State.setJob s sl j).flash = s.flash := by
  simp [State.setJob]
@[simp] theorem State.setJob_log (s : State) (sl : Nat) (j : Job) :
    (State.setJob s sl j).log = s.log := by
  simp [State.setJob]
@[simp] theorem State.setJob_host (s : State) (sl : Nat) (j : Job) :
    (State.setJob s sl j).host = s.host := by
  simp [State.setJob]
@[simp] theorem State.setJob_sec (s : State) (sl : Nat) (j : Job) :
    (State.setJob s sl j).sec = s.sec := by
  simp [State.setJob]
@[simp] theorem State.setJob_img (s : State) (sl : Nat) (j : Job) :
    (State.setJob s sl j).img = s.img := by
  simp [State.setJob]
@[simp] theorem State.setJob_desc (s : State) (sl : Nat) (j : Job) :
    (State.setJob s sl j).desc = s.desc := by
  simp [State.setJob]
@[simp] theorem State.setJob_aux (s : State) (sl : Nat) (j : Job) :
    (State.setJob s sl j).aux = s.aux := by
  simp [State.setJob]
@[simp] theorem State.setJob_emptyCtr (s : State) (sl : Nat) (j : Job) :
    (State.setJob s sl j).emptyCtr = s.emptyCtr := by
  simp [State.setJob]
@[simp] theorem State.setJob_mem (s : State) (sl : Nat) (j : Job) :
    (State.setJob s sl j).mem = s.mem := by
  simp [State.setJob]
@[simp] theorem State.setJob_cnv (s : State) (sl : Nat) (j : Job) :
    (State.setJob s sl j).cnv = s.cnv := by
  simp [State.setJob]
@[simp] theorem State.setJob_comp (s : State) (sl : Nat) (j : Job) :
    (State.setJob s sl j).comp = s.comp := by
  simp [State.setJob]
@[simp] theorem State.setJob_pool (s : State) (sl : Nat) (j : Job) :
    (State.setJob s sl j).pool = s.pool := by
  simp [State.setJob]
@[simp] theorem State.setJob_apertures (s : State) (sl : Nat) (j : Job) :
    (State.setJob s sl j).apertures = s.apertures := by
  simp [State.setJob]
@[simp] theorem State.setJob_mirrors (s : State) (sl : Nat) (j : Job) :
    (State.setJob s sl j).mirrors = s.mirrors := by
  simp [State.setJob]
@[simp] theorem State.setJob_handoffs (s : State) (sl : Nat) (j : Job) :
    (State.setJob s sl j).handoffs = s.handoffs := by
  simp [State.setJob]
@[simp] theorem State.setJob_net (s : State) (sl : Nat) (j : Job) :
    (State.setJob s sl j).net = s.net := by
  simp [State.setJob]
@[simp] theorem State.setJob_ret (s : State) (sl : Nat) (j : Job) :
    (State.setJob s sl j).ret = s.ret := by
  simp [State.setJob]
@[simp] theorem State.setJob_ck (s : State) (sl : Nat) (j : Job) :
    (State.setJob s sl j).ck = s.ck := by
  simp [State.setJob]

/-! ### State.setSat -/

@[simp] theorem State.setSat_pending (s : State) (sl : Nat) (x : Sat) :
    (State.setSat s sl x).pending = s.pending := by
  simp [State.setSat]
@[simp] theorem State.setSat_free (s : State) (sl : Nat) (x : Sat) :
    (State.setSat s sl x).free = s.free := by
  simp [State.setSat]
@[simp] theorem State.setSat_regs (s : State) (sl : Nat) (x : Sat) :
    (State.setSat s sl x).regs = s.regs := by
  simp [State.setSat]
@[simp] theorem State.setSat_pkg (s : State) (sl : Nat) (x : Sat) :
    (State.setSat s sl x).pkg = s.pkg := by
  simp [State.setSat]
@[simp] theorem State.setSat_flash (s : State) (sl : Nat) (x : Sat) :
    (State.setSat s sl x).flash = s.flash := by
  simp [State.setSat]
@[simp] theorem State.setSat_log (s : State) (sl : Nat) (x : Sat) :
    (State.setSat s sl x).log = s.log := by
  simp [State.setSat]
@[simp] theorem State.setSat_host (s : State) (sl : Nat) (x : Sat) :
    (State.setSat s sl x).host = s.host := by
  simp [State.setSat]
@[simp] theorem State.setSat_sec (s : State) (sl : Nat) (x : Sat) :
    (State.setSat s sl x).sec = s.sec := by
  simp [State.setSat]
@[simp] theorem State.setSat_img (s : State) (sl : Nat) (x : Sat) :
    (State.setSat s sl x).img = s.img := by
  simp [State.setSat]
@[simp] theorem State.setSat_desc (s : State) (sl : Nat) (x : Sat) :
    (State.setSat s sl x).desc = s.desc := by
  simp [State.setSat]
@[simp] theorem State.setSat_aux (s : State) (sl : Nat) (x : Sat) :
    (State.setSat s sl x).aux = s.aux := by
  simp [State.setSat]
@[simp] theorem State.setSat_emptyCtr (s : State) (sl : Nat) (x : Sat) :
    (State.setSat s sl x).emptyCtr = s.emptyCtr := by
  simp [State.setSat]
@[simp] theorem State.setSat_mem (s : State) (sl : Nat) (x : Sat) :
    (State.setSat s sl x).mem = s.mem := by
  simp [State.setSat]
@[simp] theorem State.setSat_cnv (s : State) (sl : Nat) (x : Sat) :
    (State.setSat s sl x).cnv = s.cnv := by
  simp [State.setSat]
@[simp] theorem State.setSat_comp (s : State) (sl : Nat) (x : Sat) :
    (State.setSat s sl x).comp = s.comp := by
  simp [State.setSat]
@[simp] theorem State.setSat_pool (s : State) (sl : Nat) (x : Sat) :
    (State.setSat s sl x).pool = s.pool := by
  simp [State.setSat]
@[simp] theorem State.setSat_apertures (s : State) (sl : Nat) (x : Sat) :
    (State.setSat s sl x).apertures = s.apertures := by
  simp [State.setSat]
@[simp] theorem State.setSat_mirrors (s : State) (sl : Nat) (x : Sat) :
    (State.setSat s sl x).mirrors = s.mirrors := by
  simp [State.setSat]
@[simp] theorem State.setSat_handoffs (s : State) (sl : Nat) (x : Sat) :
    (State.setSat s sl x).handoffs = s.handoffs := by
  simp [State.setSat]
@[simp] theorem State.setSat_net (s : State) (sl : Nat) (x : Sat) :
    (State.setSat s sl x).net = s.net := by
  simp [State.setSat]
@[simp] theorem State.setSat_ret (s : State) (sl : Nat) (x : Sat) :
    (State.setSat s sl x).ret = s.ret := by
  simp [State.setSat]
@[simp] theorem State.setSat_ck (s : State) (sl : Nat) (x : Sat) :
    (State.setSat s sl x).ck = s.ck := by
  simp [State.setSat]

/-! ### State.setTxn -/

@[simp] theorem State.setTxn_pending (s : State) (t : Txn) :
    (State.setTxn s t).pending = s.pending := by
  simp [State.setTxn]
@[simp] theorem State.setTxn_free (s : State) (t : Txn) :
    (State.setTxn s t).free = s.free := by
  simp [State.setTxn]
@[simp] theorem State.setTxn_regs (s : State) (t : Txn) :
    (State.setTxn s t).regs = s.regs := by
  simp [State.setTxn]
@[simp] theorem State.setTxn_pkg (s : State) (t : Txn) :
    (State.setTxn s t).pkg = s.pkg := by
  simp [State.setTxn]
@[simp] theorem State.setTxn_flash (s : State) (t : Txn) :
    (State.setTxn s t).flash = s.flash := by
  simp [State.setTxn]
@[simp] theorem State.setTxn_log (s : State) (t : Txn) :
    (State.setTxn s t).log = s.log := by
  simp [State.setTxn]
@[simp] theorem State.setTxn_host (s : State) (t : Txn) :
    (State.setTxn s t).host = s.host := by
  simp [State.setTxn]
@[simp] theorem State.setTxn_sec (s : State) (t : Txn) :
    (State.setTxn s t).sec = s.sec := by
  simp [State.setTxn]
@[simp] theorem State.setTxn_img (s : State) (t : Txn) :
    (State.setTxn s t).img = s.img := by
  simp [State.setTxn]
@[simp] theorem State.setTxn_desc (s : State) (t : Txn) :
    (State.setTxn s t).desc = s.desc := by
  simp [State.setTxn]
@[simp] theorem State.setTxn_aux (s : State) (t : Txn) :
    (State.setTxn s t).aux = s.aux := by
  simp [State.setTxn]
@[simp] theorem State.setTxn_emptyCtr (s : State) (t : Txn) :
    (State.setTxn s t).emptyCtr = s.emptyCtr := by
  simp [State.setTxn]
@[simp] theorem State.setTxn_mem (s : State) (t : Txn) :
    (State.setTxn s t).mem = s.mem := by
  simp [State.setTxn]
@[simp] theorem State.setTxn_cnv (s : State) (t : Txn) :
    (State.setTxn s t).cnv = s.cnv := by
  simp [State.setTxn]
@[simp] theorem State.setTxn_srv (s : State) (t : Txn) :
    (State.setTxn s t).srv = s.srv := by
  simp [State.setTxn]
@[simp] theorem State.setTxn_pool (s : State) (t : Txn) :
    (State.setTxn s t).pool = s.pool := by
  simp [State.setTxn]
@[simp] theorem State.setTxn_apertures (s : State) (t : Txn) :
    (State.setTxn s t).apertures = s.apertures := by
  simp [State.setTxn]
@[simp] theorem State.setTxn_mirrors (s : State) (t : Txn) :
    (State.setTxn s t).mirrors = s.mirrors := by
  simp [State.setTxn]
@[simp] theorem State.setTxn_handoffs (s : State) (t : Txn) :
    (State.setTxn s t).handoffs = s.handoffs := by
  simp [State.setTxn]
@[simp] theorem State.setTxn_net (s : State) (t : Txn) :
    (State.setTxn s t).net = s.net := by
  simp [State.setTxn]
@[simp] theorem State.setTxn_ret (s : State) (t : Txn) :
    (State.setTxn s t).ret = s.ret := by
  simp [State.setTxn]
@[simp] theorem State.setTxn_ck (s : State) (t : Txn) :
    (State.setTxn s t).ck = s.ck := by
  simp [State.setTxn]

/-! ### State.setOp -/

@[simp] theorem State.setOp_pending (s : State) (o : CanvasOp) :
    (State.setOp s o).pending = s.pending := by
  simp [State.setOp]
@[simp] theorem State.setOp_free (s : State) (o : CanvasOp) :
    (State.setOp s o).free = s.free := by
  simp [State.setOp]
@[simp] theorem State.setOp_regs (s : State) (o : CanvasOp) :
    (State.setOp s o).regs = s.regs := by
  simp [State.setOp]
@[simp] theorem State.setOp_pkg (s : State) (o : CanvasOp) :
    (State.setOp s o).pkg = s.pkg := by
  simp [State.setOp]
@[simp] theorem State.setOp_flash (s : State) (o : CanvasOp) :
    (State.setOp s o).flash = s.flash := by
  simp [State.setOp]
@[simp] theorem State.setOp_log (s : State) (o : CanvasOp) :
    (State.setOp s o).log = s.log := by
  simp [State.setOp]
@[simp] theorem State.setOp_host (s : State) (o : CanvasOp) :
    (State.setOp s o).host = s.host := by
  simp [State.setOp]
@[simp] theorem State.setOp_sec (s : State) (o : CanvasOp) :
    (State.setOp s o).sec = s.sec := by
  simp [State.setOp]
@[simp] theorem State.setOp_img (s : State) (o : CanvasOp) :
    (State.setOp s o).img = s.img := by
  simp [State.setOp]
@[simp] theorem State.setOp_desc (s : State) (o : CanvasOp) :
    (State.setOp s o).desc = s.desc := by
  simp [State.setOp]
@[simp] theorem State.setOp_aux (s : State) (o : CanvasOp) :
    (State.setOp s o).aux = s.aux := by
  simp [State.setOp]
@[simp] theorem State.setOp_emptyCtr (s : State) (o : CanvasOp) :
    (State.setOp s o).emptyCtr = s.emptyCtr := by
  simp [State.setOp]
@[simp] theorem State.setOp_mem (s : State) (o : CanvasOp) :
    (State.setOp s o).mem = s.mem := by
  simp [State.setOp]
@[simp] theorem State.setOp_srv (s : State) (o : CanvasOp) :
    (State.setOp s o).srv = s.srv := by
  simp [State.setOp]
@[simp] theorem State.setOp_comp (s : State) (o : CanvasOp) :
    (State.setOp s o).comp = s.comp := by
  simp [State.setOp]
@[simp] theorem State.setOp_pool (s : State) (o : CanvasOp) :
    (State.setOp s o).pool = s.pool := by
  simp [State.setOp]
@[simp] theorem State.setOp_apertures (s : State) (o : CanvasOp) :
    (State.setOp s o).apertures = s.apertures := by
  simp [State.setOp]
@[simp] theorem State.setOp_mirrors (s : State) (o : CanvasOp) :
    (State.setOp s o).mirrors = s.mirrors := by
  simp [State.setOp]
@[simp] theorem State.setOp_handoffs (s : State) (o : CanvasOp) :
    (State.setOp s o).handoffs = s.handoffs := by
  simp [State.setOp]
@[simp] theorem State.setOp_net (s : State) (o : CanvasOp) :
    (State.setOp s o).net = s.net := by
  simp [State.setOp]
@[simp] theorem State.setOp_ret (s : State) (o : CanvasOp) :
    (State.setOp s o).ret = s.ret := by
  simp [State.setOp]
@[simp] theorem State.setOp_ck (s : State) (o : CanvasOp) :
    (State.setOp s o).ck = s.ck := by
  simp [State.setOp]

/-! ### State.lcWaiting -/

@[simp] theorem State.lcWaiting_pending (s : State) (k : Nat) (on : Bool) :
    (State.lcWaiting s k on).pending = s.pending := by
  simp [State.lcWaiting]
@[simp] theorem State.lcWaiting_free (s : State) (k : Nat) (on : Bool) :
    (State.lcWaiting s k on).free = s.free := by
  simp [State.lcWaiting]
@[simp] theorem State.lcWaiting_pkg (s : State) (k : Nat) (on : Bool) :
    (State.lcWaiting s k on).pkg = s.pkg := by
  simp [State.lcWaiting]
@[simp] theorem State.lcWaiting_flash (s : State) (k : Nat) (on : Bool) :
    (State.lcWaiting s k on).flash = s.flash := by
  simp [State.lcWaiting]
@[simp] theorem State.lcWaiting_log (s : State) (k : Nat) (on : Bool) :
    (State.lcWaiting s k on).log = s.log := by
  simp [State.lcWaiting]
@[simp] theorem State.lcWaiting_host (s : State) (k : Nat) (on : Bool) :
    (State.lcWaiting s k on).host = s.host := by
  simp [State.lcWaiting]
@[simp] theorem State.lcWaiting_sec (s : State) (k : Nat) (on : Bool) :
    (State.lcWaiting s k on).sec = s.sec := by
  simp [State.lcWaiting]
@[simp] theorem State.lcWaiting_img (s : State) (k : Nat) (on : Bool) :
    (State.lcWaiting s k on).img = s.img := by
  simp [State.lcWaiting]
@[simp] theorem State.lcWaiting_desc (s : State) (k : Nat) (on : Bool) :
    (State.lcWaiting s k on).desc = s.desc := by
  simp [State.lcWaiting]
@[simp] theorem State.lcWaiting_aux (s : State) (k : Nat) (on : Bool) :
    (State.lcWaiting s k on).aux = s.aux := by
  simp [State.lcWaiting]
@[simp] theorem State.lcWaiting_emptyCtr (s : State) (k : Nat) (on : Bool) :
    (State.lcWaiting s k on).emptyCtr = s.emptyCtr := by
  simp [State.lcWaiting]
@[simp] theorem State.lcWaiting_mem (s : State) (k : Nat) (on : Bool) :
    (State.lcWaiting s k on).mem = s.mem := by
  simp [State.lcWaiting]
@[simp] theorem State.lcWaiting_srv (s : State) (k : Nat) (on : Bool) :
    (State.lcWaiting s k on).srv = s.srv := by
  simp [State.lcWaiting]
@[simp] theorem State.lcWaiting_comp (s : State) (k : Nat) (on : Bool) :
    (State.lcWaiting s k on).comp = s.comp := by
  simp [State.lcWaiting]
@[simp] theorem State.lcWaiting_pool (s : State) (k : Nat) (on : Bool) :
    (State.lcWaiting s k on).pool = s.pool := by
  simp [State.lcWaiting]
@[simp] theorem State.lcWaiting_apertures (s : State) (k : Nat) (on : Bool) :
    (State.lcWaiting s k on).apertures = s.apertures := by
  simp [State.lcWaiting]
@[simp] theorem State.lcWaiting_mirrors (s : State) (k : Nat) (on : Bool) :
    (State.lcWaiting s k on).mirrors = s.mirrors := by
  simp [State.lcWaiting]
@[simp] theorem State.lcWaiting_handoffs (s : State) (k : Nat) (on : Bool) :
    (State.lcWaiting s k on).handoffs = s.handoffs := by
  simp [State.lcWaiting]
@[simp] theorem State.lcWaiting_ret (s : State) (k : Nat) (on : Bool) :
    (State.lcWaiting s k on).ret = s.ret := by
  simp [State.lcWaiting]
@[simp] theorem State.lcWaiting_ck (s : State) (k : Nat) (on : Bool) :
    (State.lcWaiting s k on).ck = s.ck := by
  simp [State.lcWaiting]

/-! ### State.regAdmit -/

@[simp] theorem State.regAdmit_pending (s : State) (sl r n : Nat) (lc : Bool) :
    (State.regAdmit s sl r n lc).2.pending = s.pending := by
  simp only [State.regAdmit]; (repeat' split) <;> simp
@[simp] theorem State.regAdmit_free (s : State) (sl r n : Nat) (lc : Bool) :
    (State.regAdmit s sl r n lc).2.free = s.free := by
  simp only [State.regAdmit]; (repeat' split) <;> simp
@[simp] theorem State.regAdmit_pkg (s : State) (sl r n : Nat) (lc : Bool) :
    (State.regAdmit s sl r n lc).2.pkg = s.pkg := by
  simp only [State.regAdmit]; (repeat' split) <;> simp
@[simp] theorem State.regAdmit_flash (s : State) (sl r n : Nat) (lc : Bool) :
    (State.regAdmit s sl r n lc).2.flash = s.flash := by
  simp only [State.regAdmit]; (repeat' split) <;> simp
@[simp] theorem State.regAdmit_log (s : State) (sl r n : Nat) (lc : Bool) :
    (State.regAdmit s sl r n lc).2.log = s.log := by
  simp only [State.regAdmit]; (repeat' split) <;> simp
@[simp] theorem State.regAdmit_host (s : State) (sl r n : Nat) (lc : Bool) :
    (State.regAdmit s sl r n lc).2.host = s.host := by
  simp only [State.regAdmit]; (repeat' split) <;> simp
@[simp] theorem State.regAdmit_sec (s : State) (sl r n : Nat) (lc : Bool) :
    (State.regAdmit s sl r n lc).2.sec = s.sec := by
  simp only [State.regAdmit]; (repeat' split) <;> simp
@[simp] theorem State.regAdmit_img (s : State) (sl r n : Nat) (lc : Bool) :
    (State.regAdmit s sl r n lc).2.img = s.img := by
  simp only [State.regAdmit]; (repeat' split) <;> simp
@[simp] theorem State.regAdmit_desc (s : State) (sl r n : Nat) (lc : Bool) :
    (State.regAdmit s sl r n lc).2.desc = s.desc := by
  simp only [State.regAdmit]; (repeat' split) <;> simp
@[simp] theorem State.regAdmit_aux (s : State) (sl r n : Nat) (lc : Bool) :
    (State.regAdmit s sl r n lc).2.aux = s.aux := by
  simp only [State.regAdmit]; (repeat' split) <;> simp
@[simp] theorem State.regAdmit_emptyCtr (s : State) (sl r n : Nat) (lc : Bool) :
    (State.regAdmit s sl r n lc).2.emptyCtr = s.emptyCtr := by
  simp only [State.regAdmit]; (repeat' split) <;> simp
@[simp] theorem State.regAdmit_mem (s : State) (sl r n : Nat) (lc : Bool) :
    (State.regAdmit s sl r n lc).2.mem = s.mem := by
  simp only [State.regAdmit]; (repeat' split) <;> simp
@[simp] theorem State.regAdmit_srv (s : State) (sl r n : Nat) (lc : Bool) :
    (State.regAdmit s sl r n lc).2.srv = s.srv := by
  simp only [State.regAdmit]; (repeat' split) <;> simp
@[simp] theorem State.regAdmit_comp (s : State) (sl r n : Nat) (lc : Bool) :
    (State.regAdmit s sl r n lc).2.comp = s.comp := by
  simp only [State.regAdmit]; (repeat' split) <;> simp
@[simp] theorem State.regAdmit_pool (s : State) (sl r n : Nat) (lc : Bool) :
    (State.regAdmit s sl r n lc).2.pool = s.pool := by
  simp only [State.regAdmit]; (repeat' split) <;> simp
@[simp] theorem State.regAdmit_apertures (s : State) (sl r n : Nat) (lc : Bool) :
    (State.regAdmit s sl r n lc).2.apertures = s.apertures := by
  simp only [State.regAdmit]; (repeat' split) <;> simp
@[simp] theorem State.regAdmit_mirrors (s : State) (sl r n : Nat) (lc : Bool) :
    (State.regAdmit s sl r n lc).2.mirrors = s.mirrors := by
  simp only [State.regAdmit]; (repeat' split) <;> simp
@[simp] theorem State.regAdmit_handoffs (s : State) (sl r n : Nat) (lc : Bool) :
    (State.regAdmit s sl r n lc).2.handoffs = s.handoffs := by
  simp only [State.regAdmit]; (repeat' split) <;> simp
@[simp] theorem State.regAdmit_ret (s : State) (sl r n : Nat) (lc : Bool) :
    (State.regAdmit s sl r n lc).2.ret = s.ret := by
  simp only [State.regAdmit]; (repeat' split) <;> simp
@[simp] theorem State.regAdmit_ck (s : State) (sl r n : Nat) (lc : Bool) :
    (State.regAdmit s sl r n lc).2.ck = s.ck := by
  simp only [State.regAdmit]; (repeat' split) <;> simp

/-! ### State.ceBegin -/

@[simp] theorem State.ceBegin_pending (s : State) (k : Nat) (x : CanvasOp × Nat) :
    (State.ceBegin s k x).pending = s.pending := by
  simp [State.ceBegin]
@[simp] theorem State.ceBegin_free (s : State) (k : Nat) (x : CanvasOp × Nat) :
    (State.ceBegin s k x).free = s.free := by
  simp [State.ceBegin]
@[simp] theorem State.ceBegin_pkg (s : State) (k : Nat) (x : CanvasOp × Nat) :
    (State.ceBegin s k x).pkg = s.pkg := by
  simp [State.ceBegin]
@[simp] theorem State.ceBegin_flash (s : State) (k : Nat) (x : CanvasOp × Nat) :
    (State.ceBegin s k x).flash = s.flash := by
  simp [State.ceBegin]
@[simp] theorem State.ceBegin_log (s : State) (k : Nat) (x : CanvasOp × Nat) :
    (State.ceBegin s k x).log = s.log := by
  simp [State.ceBegin]
@[simp] theorem State.ceBegin_host (s : State) (k : Nat) (x : CanvasOp × Nat) :
    (State.ceBegin s k x).host = s.host := by
  simp [State.ceBegin]
@[simp] theorem State.ceBegin_sec (s : State) (k : Nat) (x : CanvasOp × Nat) :
    (State.ceBegin s k x).sec = s.sec := by
  simp [State.ceBegin]
@[simp] theorem State.ceBegin_img (s : State) (k : Nat) (x : CanvasOp × Nat) :
    (State.ceBegin s k x).img = s.img := by
  simp [State.ceBegin]
@[simp] theorem State.ceBegin_desc (s : State) (k : Nat) (x : CanvasOp × Nat) :
    (State.ceBegin s k x).desc = s.desc := by
  simp [State.ceBegin]
@[simp] theorem State.ceBegin_aux (s : State) (k : Nat) (x : CanvasOp × Nat) :
    (State.ceBegin s k x).aux = s.aux := by
  simp [State.ceBegin]
@[simp] theorem State.ceBegin_emptyCtr (s : State) (k : Nat) (x : CanvasOp × Nat) :
    (State.ceBegin s k x).emptyCtr = s.emptyCtr := by
  simp [State.ceBegin]
@[simp] theorem State.ceBegin_mem (s : State) (k : Nat) (x : CanvasOp × Nat) :
    (State.ceBegin s k x).mem = s.mem := by
  simp [State.ceBegin]
@[simp] theorem State.ceBegin_srv (s : State) (k : Nat) (x : CanvasOp × Nat) :
    (State.ceBegin s k x).srv = s.srv := by
  simp [State.ceBegin]
@[simp] theorem State.ceBegin_comp (s : State) (k : Nat) (x : CanvasOp × Nat) :
    (State.ceBegin s k x).comp = s.comp := by
  simp [State.ceBegin]
@[simp] theorem State.ceBegin_pool (s : State) (k : Nat) (x : CanvasOp × Nat) :
    (State.ceBegin s k x).pool = s.pool := by
  simp [State.ceBegin]
@[simp] theorem State.ceBegin_apertures (s : State) (k : Nat) (x : CanvasOp × Nat) :
    (State.ceBegin s k x).apertures = s.apertures := by
  simp [State.ceBegin]
@[simp] theorem State.ceBegin_mirrors (s : State) (k : Nat) (x : CanvasOp × Nat) :
    (State.ceBegin s k x).mirrors = s.mirrors := by
  simp [State.ceBegin]
@[simp] theorem State.ceBegin_handoffs (s : State) (k : Nat) (x : CanvasOp × Nat) :
    (State.ceBegin s k x).handoffs = s.handoffs := by
  simp [State.ceBegin]
@[simp] theorem State.ceBegin_ret (s : State) (k : Nat) (x : CanvasOp × Nat) :
    (State.ceBegin s k x).ret = s.ret := by
  simp [State.ceBegin]
@[simp] theorem State.ceBegin_ck (s : State) (k : Nat) (x : CanvasOp × Nat) :
    (State.ceBegin s k x).ck = s.ck := by
  simp [State.ceBegin]

/-! ### State.ceOffer -/

@[simp] theorem State.ceOffer_pending (s : State) (k : Nat) (q : List (CanvasOp × Nat)) :
    (State.ceOffer s k q).2.pending = s.pending := by
  induction q generalizing s with
  | nil => rfl
  | cons x q ih => simp only [State.ceOffer]; (repeat' split) <;> simp [ih]
@[simp] theorem State.ceOffer_free (s : State) (k : Nat) (q : List (CanvasOp × Nat)) :
    (State.ceOffer s k q).2.free = s.free := by
  induction q generalizing s with
  | nil => rfl
  | cons x q ih => simp only [State.ceOffer]; (repeat' split) <;> simp [ih]
@[simp] theorem State.ceOffer_pkg (s : State) (k : Nat) (q : List (CanvasOp × Nat)) :
    (State.ceOffer s k q).2.pkg = s.pkg := by
  induction q generalizing s with
  | nil => rfl
  | cons x q ih => simp only [State.ceOffer]; (repeat' split) <;> simp [ih]
@[simp] theorem State.ceOffer_flash (s : State) (k : Nat) (q : List (CanvasOp × Nat)) :
    (State.ceOffer s k q).2.flash = s.flash := by
  induction q generalizing s with
  | nil => rfl
  | cons x q ih => simp only [State.ceOffer]; (repeat' split) <;> simp [ih]
@[simp] theorem State.ceOffer_log (s : State) (k : Nat) (q : List (CanvasOp × Nat)) :
    (State.ceOffer s k q).2.log = s.log := by
  induction q generalizing s with
  | nil => rfl
  | cons x q ih => simp only [State.ceOffer]; (repeat' split) <;> simp [ih]
@[simp] theorem State.ceOffer_host (s : State) (k : Nat) (q : List (CanvasOp × Nat)) :
    (State.ceOffer s k q).2.host = s.host := by
  induction q generalizing s with
  | nil => rfl
  | cons x q ih => simp only [State.ceOffer]; (repeat' split) <;> simp [ih]
@[simp] theorem State.ceOffer_sec (s : State) (k : Nat) (q : List (CanvasOp × Nat)) :
    (State.ceOffer s k q).2.sec = s.sec := by
  induction q generalizing s with
  | nil => rfl
  | cons x q ih => simp only [State.ceOffer]; (repeat' split) <;> simp [ih]
@[simp] theorem State.ceOffer_img (s : State) (k : Nat) (q : List (CanvasOp × Nat)) :
    (State.ceOffer s k q).2.img = s.img := by
  induction q generalizing s with
  | nil => rfl
  | cons x q ih => simp only [State.ceOffer]; (repeat' split) <;> simp [ih]
@[simp] theorem State.ceOffer_desc (s : State) (k : Nat) (q : List (CanvasOp × Nat)) :
    (State.ceOffer s k q).2.desc = s.desc := by
  induction q generalizing s with
  | nil => rfl
  | cons x q ih => simp only [State.ceOffer]; (repeat' split) <;> simp [ih]
@[simp] theorem State.ceOffer_aux (s : State) (k : Nat) (q : List (CanvasOp × Nat)) :
    (State.ceOffer s k q).2.aux = s.aux := by
  induction q generalizing s with
  | nil => rfl
  | cons x q ih => simp only [State.ceOffer]; (repeat' split) <;> simp [ih]
@[simp] theorem State.ceOffer_emptyCtr (s : State) (k : Nat) (q : List (CanvasOp × Nat)) :
    (State.ceOffer s k q).2.emptyCtr = s.emptyCtr := by
  induction q generalizing s with
  | nil => rfl
  | cons x q ih => simp only [State.ceOffer]; (repeat' split) <;> simp [ih]
@[simp] theorem State.ceOffer_mem (s : State) (k : Nat) (q : List (CanvasOp × Nat)) :
    (State.ceOffer s k q).2.mem = s.mem := by
  induction q generalizing s with
  | nil => rfl
  | cons x q ih => simp only [State.ceOffer]; (repeat' split) <;> simp [ih]
@[simp] theorem State.ceOffer_srv (s : State) (k : Nat) (q : List (CanvasOp × Nat)) :
    (State.ceOffer s k q).2.srv = s.srv := by
  induction q generalizing s with
  | nil => rfl
  | cons x q ih => simp only [State.ceOffer]; (repeat' split) <;> simp [ih]
@[simp] theorem State.ceOffer_comp (s : State) (k : Nat) (q : List (CanvasOp × Nat)) :
    (State.ceOffer s k q).2.comp = s.comp := by
  induction q generalizing s with
  | nil => rfl
  | cons x q ih => simp only [State.ceOffer]; (repeat' split) <;> simp [ih]
@[simp] theorem State.ceOffer_pool (s : State) (k : Nat) (q : List (CanvasOp × Nat)) :
    (State.ceOffer s k q).2.pool = s.pool := by
  induction q generalizing s with
  | nil => rfl
  | cons x q ih => simp only [State.ceOffer]; (repeat' split) <;> simp [ih]
@[simp] theorem State.ceOffer_apertures (s : State) (k : Nat) (q : List (CanvasOp × Nat)) :
    (State.ceOffer s k q).2.apertures = s.apertures := by
  induction q generalizing s with
  | nil => rfl
  | cons x q ih => simp only [State.ceOffer]; (repeat' split) <;> simp [ih]
@[simp] theorem State.ceOffer_mirrors (s : State) (k : Nat) (q : List (CanvasOp × Nat)) :
    (State.ceOffer s k q).2.mirrors = s.mirrors := by
  induction q generalizing s with
  | nil => rfl
  | cons x q ih => simp only [State.ceOffer]; (repeat' split) <;> simp [ih]
@[simp] theorem State.ceOffer_handoffs (s : State) (k : Nat) (q : List (CanvasOp × Nat)) :
    (State.ceOffer s k q).2.handoffs = s.handoffs := by
  induction q generalizing s with
  | nil => rfl
  | cons x q ih => simp only [State.ceOffer]; (repeat' split) <;> simp [ih]
@[simp] theorem State.ceOffer_ret (s : State) (k : Nat) (q : List (CanvasOp × Nat)) :
    (State.ceOffer s k q).2.ret = s.ret := by
  induction q generalizing s with
  | nil => rfl
  | cons x q ih => simp only [State.ceOffer]; (repeat' split) <;> simp [ih]
@[simp] theorem State.ceOffer_ck (s : State) (k : Nat) (q : List (CanvasOp × Nat)) :
    (State.ceOffer s k q).2.ck = s.ck := by
  induction q generalizing s with
  | nil => rfl
  | cons x q ih => simp only [State.ceOffer]; (repeat' split) <;> simp [ih]

/-! ### State.ceTake -/

@[simp] theorem State.ceTake_pending (s : State) (k : Nat) :
    (State.ceTake s k).pending = s.pending := by
  simp only [State.ceTake]; (repeat' split) <;> simp
@[simp] theorem State.ceTake_free (s : State) (k : Nat) :
    (State.ceTake s k).free = s.free := by
  simp only [State.ceTake]; (repeat' split) <;> simp
@[simp] theorem State.ceTake_pkg (s : State) (k : Nat) :
    (State.ceTake s k).pkg = s.pkg := by
  simp only [State.ceTake]; (repeat' split) <;> simp
@[simp] theorem State.ceTake_flash (s : State) (k : Nat) :
    (State.ceTake s k).flash = s.flash := by
  simp only [State.ceTake]; (repeat' split) <;> simp
@[simp] theorem State.ceTake_log (s : State) (k : Nat) :
    (State.ceTake s k).log = s.log := by
  simp only [State.ceTake]; (repeat' split) <;> simp
@[simp] theorem State.ceTake_host (s : State) (k : Nat) :
    (State.ceTake s k).host = s.host := by
  simp only [State.ceTake]; (repeat' split) <;> simp
@[simp] theorem State.ceTake_sec (s : State) (k : Nat) :
    (State.ceTake s k).sec = s.sec := by
  simp only [State.ceTake]; (repeat' split) <;> simp
@[simp] theorem State.ceTake_img (s : State) (k : Nat) :
    (State.ceTake s k).img = s.img := by
  simp only [State.ceTake]; (repeat' split) <;> simp
@[simp] theorem State.ceTake_desc (s : State) (k : Nat) :
    (State.ceTake s k).desc = s.desc := by
  simp only [State.ceTake]; (repeat' split) <;> simp
@[simp] theorem State.ceTake_aux (s : State) (k : Nat) :
    (State.ceTake s k).aux = s.aux := by
  simp only [State.ceTake]; (repeat' split) <;> simp
@[simp] theorem State.ceTake_emptyCtr (s : State) (k : Nat) :
    (State.ceTake s k).emptyCtr = s.emptyCtr := by
  simp only [State.ceTake]; (repeat' split) <;> simp
@[simp] theorem State.ceTake_mem (s : State) (k : Nat) :
    (State.ceTake s k).mem = s.mem := by
  simp only [State.ceTake]; (repeat' split) <;> simp
@[simp] theorem State.ceTake_srv (s : State) (k : Nat) :
    (State.ceTake s k).srv = s.srv := by
  simp only [State.ceTake]; (repeat' split) <;> simp
@[simp] theorem State.ceTake_comp (s : State) (k : Nat) :
    (State.ceTake s k).comp = s.comp := by
  simp only [State.ceTake]; (repeat' split) <;> simp
@[simp] theorem State.ceTake_pool (s : State) (k : Nat) :
    (State.ceTake s k).pool = s.pool := by
  simp only [State.ceTake]; (repeat' split) <;> simp
@[simp] theorem State.ceTake_apertures (s : State) (k : Nat) :
    (State.ceTake s k).apertures = s.apertures := by
  simp only [State.ceTake]; (repeat' split) <;> simp
@[simp] theorem State.ceTake_mirrors (s : State) (k : Nat) :
    (State.ceTake s k).mirrors = s.mirrors := by
  simp only [State.ceTake]; (repeat' split) <;> simp
@[simp] theorem State.ceTake_handoffs (s : State) (k : Nat) :
    (State.ceTake s k).handoffs = s.handoffs := by
  simp only [State.ceTake]; (repeat' split) <;> simp
@[simp] theorem State.ceTake_ret (s : State) (k : Nat) :
    (State.ceTake s k).ret = s.ret := by
  simp only [State.ceTake]; (repeat' split) <;> simp
@[simp] theorem State.ceTake_ck (s : State) (k : Nat) :
    (State.ceTake s k).ck = s.ck := by
  simp only [State.ceTake]; (repeat' split) <;> simp

/-! ### State.ceFill -/

@[simp] theorem State.ceFill_pending (s : State) :
    (State.ceFill s).pending = s.pending := by
  simp only [State.ceFill]; split
  · rfl
  · rw [foldl_pending _ (by intro t x; simp)]
@[simp] theorem State.ceFill_free (s : State) :
    (State.ceFill s).free = s.free := by
  simp only [State.ceFill]; split
  · rfl
  · rw [foldl_free _ (by intro t x; simp)]
@[simp] theorem State.ceFill_pkg (s : State) :
    (State.ceFill s).pkg = s.pkg := by
  simp only [State.ceFill]; split
  · rfl
  · rw [foldl_pkg _ (by intro t x; simp)]
@[simp] theorem State.ceFill_flash (s : State) :
    (State.ceFill s).flash = s.flash := by
  simp only [State.ceFill]; split
  · rfl
  · rw [foldl_flash _ (by intro t x; simp)]
@[simp] theorem State.ceFill_log (s : State) :
    (State.ceFill s).log = s.log := by
  simp only [State.ceFill]; split
  · rfl
  · rw [foldl_log _ (by intro t x; simp)]
@[simp] theorem State.ceFill_host (s : State) :
    (State.ceFill s).host = s.host := by
  simp only [State.ceFill]; split
  · rfl
  · rw [foldl_host _ (by intro t x; simp)]
@[simp] theorem State.ceFill_sec (s : State) :
    (State.ceFill s).sec = s.sec := by
  simp only [State.ceFill]; split
  · rfl
  · rw [foldl_sec _ (by intro t x; simp)]
@[simp] theorem State.ceFill_img (s : State) :
    (State.ceFill s).img = s.img := by
  simp only [State.ceFill]; split
  · rfl
  · rw [foldl_img _ (by intro t x; simp)]
@[simp] theorem State.ceFill_desc (s : State) :
    (State.ceFill s).desc = s.desc := by
  simp only [State.ceFill]; split
  · rfl
  · rw [foldl_desc _ (by intro t x; simp)]
@[simp] theorem State.ceFill_aux (s : State) :
    (State.ceFill s).aux = s.aux := by
  simp only [State.ceFill]; split
  · rfl
  · rw [foldl_aux _ (by intro t x; simp)]
@[simp] theorem State.ceFill_emptyCtr (s : State) :
    (State.ceFill s).emptyCtr = s.emptyCtr := by
  simp only [State.ceFill]; split
  · rfl
  · rw [foldl_emptyCtr _ (by intro t x; simp)]
@[simp] theorem State.ceFill_mem (s : State) :
    (State.ceFill s).mem = s.mem := by
  simp only [State.ceFill]; split
  · rfl
  · rw [foldl_mem _ (by intro t x; simp)]
@[simp] theorem State.ceFill_srv (s : State) :
    (State.ceFill s).srv = s.srv := by
  simp only [State.ceFill]; split
  · rfl
  · rw [foldl_srv _ (by intro t x; simp)]
@[simp] theorem State.ceFill_comp (s : State) :
    (State.ceFill s).comp = s.comp := by
  simp only [State.ceFill]; split
  · rfl
  · rw [foldl_comp _ (by intro t x; simp)]
@[simp] theorem State.ceFill_pool (s : State) :
    (State.ceFill s).pool = s.pool := by
  simp only [State.ceFill]; split
  · rfl
  · rw [foldl_pool _ (by intro t x; simp)]
@[simp] theorem State.ceFill_apertures (s : State) :
    (State.ceFill s).apertures = s.apertures := by
  simp only [State.ceFill]; split
  · rfl
  · rw [foldl_apertures _ (by intro t x; simp)]
@[simp] theorem State.ceFill_mirrors (s : State) :
    (State.ceFill s).mirrors = s.mirrors := by
  simp only [State.ceFill]; split
  · rfl
  · rw [foldl_mirrors _ (by intro t x; simp)]
@[simp] theorem State.ceFill_handoffs (s : State) :
    (State.ceFill s).handoffs = s.handoffs := by
  simp only [State.ceFill]; split
  · rfl
  · rw [foldl_handoffs _ (by intro t x; simp)]
@[simp] theorem State.ceFill_ret (s : State) :
    (State.ceFill s).ret = s.ret := by
  simp only [State.ceFill]; split
  · rfl
  · rw [foldl_ret _ (by intro t x; simp)]
@[simp] theorem State.ceFill_ck (s : State) :
    (State.ceFill s).ck = s.ck := by
  simp only [State.ceFill]; split
  · rfl
  · rw [foldl_ck _ (by intro t x; simp)]

/-! ### State.delOp -/

@[simp] theorem State.delOp_pending (s : State) (i : Nat) :
    (State.delOp s i).pending = s.pending := by
  simp [State.delOp]
@[simp] theorem State.delOp_free (s : State) (i : Nat) :
    (State.delOp s i).free = s.free := by
  simp [State.delOp]
@[simp] theorem State.delOp_pkg (s : State) (i : Nat) :
    (State.delOp s i).pkg = s.pkg := by
  simp [State.delOp]
@[simp] theorem State.delOp_flash (s : State) (i : Nat) :
    (State.delOp s i).flash = s.flash := by
  simp [State.delOp]
@[simp] theorem State.delOp_log (s : State) (i : Nat) :
    (State.delOp s i).log = s.log := by
  simp [State.delOp]
@[simp] theorem State.delOp_host (s : State) (i : Nat) :
    (State.delOp s i).host = s.host := by
  simp [State.delOp]
@[simp] theorem State.delOp_sec (s : State) (i : Nat) :
    (State.delOp s i).sec = s.sec := by
  simp [State.delOp]
@[simp] theorem State.delOp_img (s : State) (i : Nat) :
    (State.delOp s i).img = s.img := by
  simp [State.delOp]
@[simp] theorem State.delOp_desc (s : State) (i : Nat) :
    (State.delOp s i).desc = s.desc := by
  simp [State.delOp]
@[simp] theorem State.delOp_aux (s : State) (i : Nat) :
    (State.delOp s i).aux = s.aux := by
  simp [State.delOp]
@[simp] theorem State.delOp_emptyCtr (s : State) (i : Nat) :
    (State.delOp s i).emptyCtr = s.emptyCtr := by
  simp [State.delOp]
@[simp] theorem State.delOp_mem (s : State) (i : Nat) :
    (State.delOp s i).mem = s.mem := by
  simp [State.delOp]
@[simp] theorem State.delOp_srv (s : State) (i : Nat) :
    (State.delOp s i).srv = s.srv := by
  simp [State.delOp]
@[simp] theorem State.delOp_comp (s : State) (i : Nat) :
    (State.delOp s i).comp = s.comp := by
  simp [State.delOp]
@[simp] theorem State.delOp_pool (s : State) (i : Nat) :
    (State.delOp s i).pool = s.pool := by
  simp [State.delOp]
@[simp] theorem State.delOp_apertures (s : State) (i : Nat) :
    (State.delOp s i).apertures = s.apertures := by
  simp [State.delOp]
@[simp] theorem State.delOp_mirrors (s : State) (i : Nat) :
    (State.delOp s i).mirrors = s.mirrors := by
  simp [State.delOp]
@[simp] theorem State.delOp_handoffs (s : State) (i : Nat) :
    (State.delOp s i).handoffs = s.handoffs := by
  simp [State.delOp]
@[simp] theorem State.delOp_ret (s : State) (i : Nat) :
    (State.delOp s i).ret = s.ret := by
  simp [State.delOp]
@[simp] theorem State.delOp_ck (s : State) (i : Nat) :
    (State.delOp s i).ck = s.ck := by
  simp [State.delOp]

/-! ### State.putPart -/


/-! ### State.setRetOp -/

@[simp] theorem State.setRetOp_pending (s : State) (o : RetOp) :
    (State.setRetOp s o).pending = s.pending := by
  simp [State.setRetOp]
@[simp] theorem State.setRetOp_free (s : State) (o : RetOp) :
    (State.setRetOp s o).free = s.free := by
  simp [State.setRetOp]
@[simp] theorem State.setRetOp_regs (s : State) (o : RetOp) :
    (State.setRetOp s o).regs = s.regs := by
  simp [State.setRetOp]
@[simp] theorem State.setRetOp_pkg (s : State) (o : RetOp) :
    (State.setRetOp s o).pkg = s.pkg := by
  simp [State.setRetOp]
@[simp] theorem State.setRetOp_flash (s : State) (o : RetOp) :
    (State.setRetOp s o).flash = s.flash := by
  simp [State.setRetOp]
@[simp] theorem State.setRetOp_log (s : State) (o : RetOp) :
    (State.setRetOp s o).log = s.log := by
  simp [State.setRetOp]
@[simp] theorem State.setRetOp_host (s : State) (o : RetOp) :
    (State.setRetOp s o).host = s.host := by
  simp [State.setRetOp]
@[simp] theorem State.setRetOp_sec (s : State) (o : RetOp) :
    (State.setRetOp s o).sec = s.sec := by
  simp [State.setRetOp]
@[simp] theorem State.setRetOp_img (s : State) (o : RetOp) :
    (State.setRetOp s o).img = s.img := by
  simp [State.setRetOp]
@[simp] theorem State.setRetOp_desc (s : State) (o : RetOp) :
    (State.setRetOp s o).desc = s.desc := by
  simp [State.setRetOp]
@[simp] theorem State.setRetOp_aux (s : State) (o : RetOp) :
    (State.setRetOp s o).aux = s.aux := by
  simp [State.setRetOp]
@[simp] theorem State.setRetOp_emptyCtr (s : State) (o : RetOp) :
    (State.setRetOp s o).emptyCtr = s.emptyCtr := by
  simp [State.setRetOp]
@[simp] theorem State.setRetOp_mem (s : State) (o : RetOp) :
    (State.setRetOp s o).mem = s.mem := by
  simp [State.setRetOp]
@[simp] theorem State.setRetOp_cnv (s : State) (o : RetOp) :
    (State.setRetOp s o).cnv = s.cnv := by
  simp [State.setRetOp]
@[simp] theorem State.setRetOp_srv (s : State) (o : RetOp) :
    (State.setRetOp s o).srv = s.srv := by
  simp [State.setRetOp]
@[simp] theorem State.setRetOp_comp (s : State) (o : RetOp) :
    (State.setRetOp s o).comp = s.comp := by
  simp [State.setRetOp]
@[simp] theorem State.setRetOp_pool (s : State) (o : RetOp) :
    (State.setRetOp s o).pool = s.pool := by
  simp [State.setRetOp]
@[simp] theorem State.setRetOp_apertures (s : State) (o : RetOp) :
    (State.setRetOp s o).apertures = s.apertures := by
  simp [State.setRetOp]
@[simp] theorem State.setRetOp_mirrors (s : State) (o : RetOp) :
    (State.setRetOp s o).mirrors = s.mirrors := by
  simp [State.setRetOp]
@[simp] theorem State.setRetOp_handoffs (s : State) (o : RetOp) :
    (State.setRetOp s o).handoffs = s.handoffs := by
  simp [State.setRetOp]
@[simp] theorem State.setRetOp_net (s : State) (o : RetOp) :
    (State.setRetOp s o).net = s.net := by
  simp [State.setRetOp]
@[simp] theorem State.setRetOp_ck (s : State) (o : RetOp) :
    (State.setRetOp s o).ck = s.ck := by
  simp [State.setRetOp]

/-! ### State.setIndex -/

@[simp] theorem State.setIndex_pending (s : State) (x : Index) :
    (State.setIndex s x).pending = s.pending := by
  simp [State.setIndex]
@[simp] theorem State.setIndex_free (s : State) (x : Index) :
    (State.setIndex s x).free = s.free := by
  simp [State.setIndex]
@[simp] theorem State.setIndex_regs (s : State) (x : Index) :
    (State.setIndex s x).regs = s.regs := by
  simp [State.setIndex]
@[simp] theorem State.setIndex_pkg (s : State) (x : Index) :
    (State.setIndex s x).pkg = s.pkg := by
  simp [State.setIndex]
@[simp] theorem State.setIndex_flash (s : State) (x : Index) :
    (State.setIndex s x).flash = s.flash := by
  simp [State.setIndex]
@[simp] theorem State.setIndex_log (s : State) (x : Index) :
    (State.setIndex s x).log = s.log := by
  simp [State.setIndex]
@[simp] theorem State.setIndex_host (s : State) (x : Index) :
    (State.setIndex s x).host = s.host := by
  simp [State.setIndex]
@[simp] theorem State.setIndex_sec (s : State) (x : Index) :
    (State.setIndex s x).sec = s.sec := by
  simp [State.setIndex]
@[simp] theorem State.setIndex_img (s : State) (x : Index) :
    (State.setIndex s x).img = s.img := by
  simp [State.setIndex]
@[simp] theorem State.setIndex_desc (s : State) (x : Index) :
    (State.setIndex s x).desc = s.desc := by
  simp [State.setIndex]
@[simp] theorem State.setIndex_aux (s : State) (x : Index) :
    (State.setIndex s x).aux = s.aux := by
  simp [State.setIndex]
@[simp] theorem State.setIndex_emptyCtr (s : State) (x : Index) :
    (State.setIndex s x).emptyCtr = s.emptyCtr := by
  simp [State.setIndex]
@[simp] theorem State.setIndex_mem (s : State) (x : Index) :
    (State.setIndex s x).mem = s.mem := by
  simp [State.setIndex]
@[simp] theorem State.setIndex_cnv (s : State) (x : Index) :
    (State.setIndex s x).cnv = s.cnv := by
  simp [State.setIndex]
@[simp] theorem State.setIndex_srv (s : State) (x : Index) :
    (State.setIndex s x).srv = s.srv := by
  simp [State.setIndex]
@[simp] theorem State.setIndex_comp (s : State) (x : Index) :
    (State.setIndex s x).comp = s.comp := by
  simp [State.setIndex]
@[simp] theorem State.setIndex_pool (s : State) (x : Index) :
    (State.setIndex s x).pool = s.pool := by
  simp [State.setIndex]
@[simp] theorem State.setIndex_apertures (s : State) (x : Index) :
    (State.setIndex s x).apertures = s.apertures := by
  simp [State.setIndex]
@[simp] theorem State.setIndex_mirrors (s : State) (x : Index) :
    (State.setIndex s x).mirrors = s.mirrors := by
  simp [State.setIndex]
@[simp] theorem State.setIndex_handoffs (s : State) (x : Index) :
    (State.setIndex s x).handoffs = s.handoffs := by
  simp [State.setIndex]
@[simp] theorem State.setIndex_net (s : State) (x : Index) :
    (State.setIndex s x).net = s.net := by
  simp [State.setIndex]
@[simp] theorem State.setIndex_ck (s : State) (x : Index) :
    (State.setIndex s x).ck = s.ck := by
  simp [State.setIndex]

/-! ### State.setTable -/

@[simp] theorem State.setTable_pending (s : State) (t : Table) :
    (State.setTable s t).pending = s.pending := by
  simp [State.setTable]
@[simp] theorem State.setTable_free (s : State) (t : Table) :
    (State.setTable s t).free = s.free := by
  simp [State.setTable]
@[simp] theorem State.setTable_regs (s : State) (t : Table) :
    (State.setTable s t).regs = s.regs := by
  simp [State.setTable]
@[simp] theorem State.setTable_pkg (s : State) (t : Table) :
    (State.setTable s t).pkg = s.pkg := by
  simp [State.setTable]
@[simp] theorem State.setTable_flash (s : State) (t : Table) :
    (State.setTable s t).flash = s.flash := by
  simp [State.setTable]
@[simp] theorem State.setTable_log (s : State) (t : Table) :
    (State.setTable s t).log = s.log := by
  simp [State.setTable]
@[simp] theorem State.setTable_host (s : State) (t : Table) :
    (State.setTable s t).host = s.host := by
  simp [State.setTable]
@[simp] theorem State.setTable_sec (s : State) (t : Table) :
    (State.setTable s t).sec = s.sec := by
  simp [State.setTable]
@[simp] theorem State.setTable_img (s : State) (t : Table) :
    (State.setTable s t).img = s.img := by
  simp [State.setTable]
@[simp] theorem State.setTable_desc (s : State) (t : Table) :
    (State.setTable s t).desc = s.desc := by
  simp [State.setTable]
@[simp] theorem State.setTable_aux (s : State) (t : Table) :
    (State.setTable s t).aux = s.aux := by
  simp [State.setTable]
@[simp] theorem State.setTable_emptyCtr (s : State) (t : Table) :
    (State.setTable s t).emptyCtr = s.emptyCtr := by
  simp [State.setTable]
@[simp] theorem State.setTable_mem (s : State) (t : Table) :
    (State.setTable s t).mem = s.mem := by
  simp [State.setTable]
@[simp] theorem State.setTable_cnv (s : State) (t : Table) :
    (State.setTable s t).cnv = s.cnv := by
  simp [State.setTable]
@[simp] theorem State.setTable_srv (s : State) (t : Table) :
    (State.setTable s t).srv = s.srv := by
  simp [State.setTable]
@[simp] theorem State.setTable_comp (s : State) (t : Table) :
    (State.setTable s t).comp = s.comp := by
  simp [State.setTable]
@[simp] theorem State.setTable_pool (s : State) (t : Table) :
    (State.setTable s t).pool = s.pool := by
  simp [State.setTable]
@[simp] theorem State.setTable_apertures (s : State) (t : Table) :
    (State.setTable s t).apertures = s.apertures := by
  simp [State.setTable]
@[simp] theorem State.setTable_mirrors (s : State) (t : Table) :
    (State.setTable s t).mirrors = s.mirrors := by
  simp [State.setTable]
@[simp] theorem State.setTable_handoffs (s : State) (t : Table) :
    (State.setTable s t).handoffs = s.handoffs := by
  simp [State.setTable]
@[simp] theorem State.setTable_net (s : State) (t : Table) :
    (State.setTable s t).net = s.net := by
  simp [State.setTable]
@[simp] theorem State.setTable_ck (s : State) (t : Table) :
    (State.setTable s t).ck = s.ck := by
  simp [State.setTable]

/-! ### State.setMirror -/

@[simp] theorem State.setMirror_pending (s : State) (m : Mirror) :
    (State.setMirror s m).pending = s.pending := by
  simp [State.setMirror]
@[simp] theorem State.setMirror_free (s : State) (m : Mirror) :
    (State.setMirror s m).free = s.free := by
  simp [State.setMirror]
@[simp] theorem State.setMirror_regs (s : State) (m : Mirror) :
    (State.setMirror s m).regs = s.regs := by
  simp [State.setMirror]
@[simp] theorem State.setMirror_pkg (s : State) (m : Mirror) :
    (State.setMirror s m).pkg = s.pkg := by
  simp [State.setMirror]
@[simp] theorem State.setMirror_flash (s : State) (m : Mirror) :
    (State.setMirror s m).flash = s.flash := by
  simp [State.setMirror]
@[simp] theorem State.setMirror_log (s : State) (m : Mirror) :
    (State.setMirror s m).log = s.log := by
  simp [State.setMirror]
@[simp] theorem State.setMirror_host (s : State) (m : Mirror) :
    (State.setMirror s m).host = s.host := by
  simp [State.setMirror]
@[simp] theorem State.setMirror_sec (s : State) (m : Mirror) :
    (State.setMirror s m).sec = s.sec := by
  simp [State.setMirror]
@[simp] theorem State.setMirror_img (s : State) (m : Mirror) :
    (State.setMirror s m).img = s.img := by
  simp [State.setMirror]
@[simp] theorem State.setMirror_desc (s : State) (m : Mirror) :
    (State.setMirror s m).desc = s.desc := by
  simp [State.setMirror]
@[simp] theorem State.setMirror_aux (s : State) (m : Mirror) :
    (State.setMirror s m).aux = s.aux := by
  simp [State.setMirror]
@[simp] theorem State.setMirror_emptyCtr (s : State) (m : Mirror) :
    (State.setMirror s m).emptyCtr = s.emptyCtr := by
  simp [State.setMirror]
@[simp] theorem State.setMirror_mem (s : State) (m : Mirror) :
    (State.setMirror s m).mem = s.mem := by
  simp [State.setMirror]
@[simp] theorem State.setMirror_cnv (s : State) (m : Mirror) :
    (State.setMirror s m).cnv = s.cnv := by
  simp [State.setMirror]
@[simp] theorem State.setMirror_srv (s : State) (m : Mirror) :
    (State.setMirror s m).srv = s.srv := by
  simp [State.setMirror]
@[simp] theorem State.setMirror_comp (s : State) (m : Mirror) :
    (State.setMirror s m).comp = s.comp := by
  simp [State.setMirror]
@[simp] theorem State.setMirror_pool (s : State) (m : Mirror) :
    (State.setMirror s m).pool = s.pool := by
  simp [State.setMirror]
@[simp] theorem State.setMirror_apertures (s : State) (m : Mirror) :
    (State.setMirror s m).apertures = s.apertures := by
  simp [State.setMirror]
@[simp] theorem State.setMirror_handoffs (s : State) (m : Mirror) :
    (State.setMirror s m).handoffs = s.handoffs := by
  simp [State.setMirror]
@[simp] theorem State.setMirror_net (s : State) (m : Mirror) :
    (State.setMirror s m).net = s.net := by
  simp [State.setMirror]
@[simp] theorem State.setMirror_ret (s : State) (m : Mirror) :
    (State.setMirror s m).ret = s.ret := by
  simp [State.setMirror]
@[simp] theorem State.setMirror_ck (s : State) (m : Mirror) :
    (State.setMirror s m).ck = s.ck := by
  simp [State.setMirror]

/-! ### State.setHo -/

@[simp] theorem State.setHo_pending (s : State) (h : Handoff) :
    (State.setHo s h).pending = s.pending := by
  simp [State.setHo]
@[simp] theorem State.setHo_free (s : State) (h : Handoff) :
    (State.setHo s h).free = s.free := by
  simp [State.setHo]
@[simp] theorem State.setHo_regs (s : State) (h : Handoff) :
    (State.setHo s h).regs = s.regs := by
  simp [State.setHo]
@[simp] theorem State.setHo_pkg (s : State) (h : Handoff) :
    (State.setHo s h).pkg = s.pkg := by
  simp [State.setHo]
@[simp] theorem State.setHo_flash (s : State) (h : Handoff) :
    (State.setHo s h).flash = s.flash := by
  simp [State.setHo]
@[simp] theorem State.setHo_log (s : State) (h : Handoff) :
    (State.setHo s h).log = s.log := by
  simp [State.setHo]
@[simp] theorem State.setHo_host (s : State) (h : Handoff) :
    (State.setHo s h).host = s.host := by
  simp [State.setHo]
@[simp] theorem State.setHo_sec (s : State) (h : Handoff) :
    (State.setHo s h).sec = s.sec := by
  simp [State.setHo]
@[simp] theorem State.setHo_img (s : State) (h : Handoff) :
    (State.setHo s h).img = s.img := by
  simp [State.setHo]
@[simp] theorem State.setHo_desc (s : State) (h : Handoff) :
    (State.setHo s h).desc = s.desc := by
  simp [State.setHo]
@[simp] theorem State.setHo_aux (s : State) (h : Handoff) :
    (State.setHo s h).aux = s.aux := by
  simp [State.setHo]
@[simp] theorem State.setHo_emptyCtr (s : State) (h : Handoff) :
    (State.setHo s h).emptyCtr = s.emptyCtr := by
  simp [State.setHo]
@[simp] theorem State.setHo_mem (s : State) (h : Handoff) :
    (State.setHo s h).mem = s.mem := by
  simp [State.setHo]
@[simp] theorem State.setHo_cnv (s : State) (h : Handoff) :
    (State.setHo s h).cnv = s.cnv := by
  simp [State.setHo]
@[simp] theorem State.setHo_srv (s : State) (h : Handoff) :
    (State.setHo s h).srv = s.srv := by
  simp [State.setHo]
@[simp] theorem State.setHo_comp (s : State) (h : Handoff) :
    (State.setHo s h).comp = s.comp := by
  simp [State.setHo]
@[simp] theorem State.setHo_pool (s : State) (h : Handoff) :
    (State.setHo s h).pool = s.pool := by
  simp [State.setHo]
@[simp] theorem State.setHo_apertures (s : State) (h : Handoff) :
    (State.setHo s h).apertures = s.apertures := by
  simp [State.setHo]
@[simp] theorem State.setHo_mirrors (s : State) (h : Handoff) :
    (State.setHo s h).mirrors = s.mirrors := by
  simp [State.setHo]
@[simp] theorem State.setHo_net (s : State) (h : Handoff) :
    (State.setHo s h).net = s.net := by
  simp [State.setHo]
@[simp] theorem State.setHo_ret (s : State) (h : Handoff) :
    (State.setHo s h).ret = s.ret := by
  simp [State.setHo]
@[simp] theorem State.setHo_ck (s : State) (h : Handoff) :
    (State.setHo s h).ck = s.ck := by
  simp [State.setHo]

/-! ### State.delHo -/

@[simp] theorem State.delHo_pending (s : State) (h : Handoff) :
    (State.delHo s h).pending = s.pending := by
  simp [State.delHo]
@[simp] theorem State.delHo_free (s : State) (h : Handoff) :
    (State.delHo s h).free = s.free := by
  simp [State.delHo]
@[simp] theorem State.delHo_regs (s : State) (h : Handoff) :
    (State.delHo s h).regs = s.regs := by
  simp [State.delHo]
@[simp] theorem State.delHo_pkg (s : State) (h : Handoff) :
    (State.delHo s h).pkg = s.pkg := by
  simp [State.delHo]
@[simp] theorem State.delHo_flash (s : State) (h : Handoff) :
    (State.delHo s h).flash = s.flash := by
  simp [State.delHo]
@[simp] theorem State.delHo_log (s : State) (h : Handoff) :
    (State.delHo s h).log = s.log := by
  simp [State.delHo]
@[simp] theorem State.delHo_host (s : State) (h : Handoff) :
    (State.delHo s h).host = s.host := by
  simp [State.delHo]
@[simp] theorem State.delHo_sec (s : State) (h : Handoff) :
    (State.delHo s h).sec = s.sec := by
  simp [State.delHo]
@[simp] theorem State.delHo_img (s : State) (h : Handoff) :
    (State.delHo s h).img = s.img := by
  simp [State.delHo]
@[simp] theorem State.delHo_desc (s : State) (h : Handoff) :
    (State.delHo s h).desc = s.desc := by
  simp [State.delHo]
@[simp] theorem State.delHo_aux (s : State) (h : Handoff) :
    (State.delHo s h).aux = s.aux := by
  simp [State.delHo]
@[simp] theorem State.delHo_emptyCtr (s : State) (h : Handoff) :
    (State.delHo s h).emptyCtr = s.emptyCtr := by
  simp [State.delHo]
@[simp] theorem State.delHo_mem (s : State) (h : Handoff) :
    (State.delHo s h).mem = s.mem := by
  simp [State.delHo]
@[simp] theorem State.delHo_cnv (s : State) (h : Handoff) :
    (State.delHo s h).cnv = s.cnv := by
  simp [State.delHo]
@[simp] theorem State.delHo_srv (s : State) (h : Handoff) :
    (State.delHo s h).srv = s.srv := by
  simp [State.delHo]
@[simp] theorem State.delHo_comp (s : State) (h : Handoff) :
    (State.delHo s h).comp = s.comp := by
  simp [State.delHo]
@[simp] theorem State.delHo_pool (s : State) (h : Handoff) :
    (State.delHo s h).pool = s.pool := by
  simp [State.delHo]
@[simp] theorem State.delHo_apertures (s : State) (h : Handoff) :
    (State.delHo s h).apertures = s.apertures := by
  simp [State.delHo]
@[simp] theorem State.delHo_mirrors (s : State) (h : Handoff) :
    (State.delHo s h).mirrors = s.mirrors := by
  simp [State.delHo]
@[simp] theorem State.delHo_net (s : State) (h : Handoff) :
    (State.delHo s h).net = s.net := by
  simp [State.delHo]
@[simp] theorem State.delHo_ret (s : State) (h : Handoff) :
    (State.delHo s h).ret = s.ret := by
  simp [State.delHo]
@[simp] theorem State.delHo_ck (s : State) (h : Handoff) :
    (State.delHo s h).ck = s.ck := by
  simp [State.delHo]

/-! ### State.setCase -/

@[simp] theorem State.setCase_pending (s : State) (c : ArbCase) :
    (State.setCase s c).pending = s.pending := by
  simp [State.setCase]
@[simp] theorem State.setCase_free (s : State) (c : ArbCase) :
    (State.setCase s c).free = s.free := by
  simp [State.setCase]
@[simp] theorem State.setCase_regs (s : State) (c : ArbCase) :
    (State.setCase s c).regs = s.regs := by
  simp [State.setCase]
@[simp] theorem State.setCase_pkg (s : State) (c : ArbCase) :
    (State.setCase s c).pkg = s.pkg := by
  simp [State.setCase]
@[simp] theorem State.setCase_flash (s : State) (c : ArbCase) :
    (State.setCase s c).flash = s.flash := by
  simp [State.setCase]
@[simp] theorem State.setCase_log (s : State) (c : ArbCase) :
    (State.setCase s c).log = s.log := by
  simp [State.setCase]
@[simp] theorem State.setCase_host (s : State) (c : ArbCase) :
    (State.setCase s c).host = s.host := by
  simp [State.setCase]
@[simp] theorem State.setCase_sec (s : State) (c : ArbCase) :
    (State.setCase s c).sec = s.sec := by
  simp [State.setCase]
@[simp] theorem State.setCase_img (s : State) (c : ArbCase) :
    (State.setCase s c).img = s.img := by
  simp [State.setCase]
@[simp] theorem State.setCase_desc (s : State) (c : ArbCase) :
    (State.setCase s c).desc = s.desc := by
  simp [State.setCase]
@[simp] theorem State.setCase_aux (s : State) (c : ArbCase) :
    (State.setCase s c).aux = s.aux := by
  simp [State.setCase]
@[simp] theorem State.setCase_emptyCtr (s : State) (c : ArbCase) :
    (State.setCase s c).emptyCtr = s.emptyCtr := by
  simp [State.setCase]
@[simp] theorem State.setCase_mem (s : State) (c : ArbCase) :
    (State.setCase s c).mem = s.mem := by
  simp [State.setCase]
@[simp] theorem State.setCase_cnv (s : State) (c : ArbCase) :
    (State.setCase s c).cnv = s.cnv := by
  simp [State.setCase]
@[simp] theorem State.setCase_srv (s : State) (c : ArbCase) :
    (State.setCase s c).srv = s.srv := by
  simp [State.setCase]
@[simp] theorem State.setCase_pool (s : State) (c : ArbCase) :
    (State.setCase s c).pool = s.pool := by
  simp [State.setCase]
@[simp] theorem State.setCase_apertures (s : State) (c : ArbCase) :
    (State.setCase s c).apertures = s.apertures := by
  simp [State.setCase]
@[simp] theorem State.setCase_mirrors (s : State) (c : ArbCase) :
    (State.setCase s c).mirrors = s.mirrors := by
  simp [State.setCase]
@[simp] theorem State.setCase_handoffs (s : State) (c : ArbCase) :
    (State.setCase s c).handoffs = s.handoffs := by
  simp [State.setCase]
@[simp] theorem State.setCase_net (s : State) (c : ArbCase) :
    (State.setCase s c).net = s.net := by
  simp [State.setCase]
@[simp] theorem State.setCase_ret (s : State) (c : ArbCase) :
    (State.setCase s c).ret = s.ret := by
  simp [State.setCase]
@[simp] theorem State.setCase_ck (s : State) (c : ArbCase) :
    (State.setCase s c).ck = s.ck := by
  simp [State.setCase]

/-! ### State.setTarget -/

@[simp] theorem State.setTarget_pending (s : State) (x : CkTarget) :
    (State.setTarget s x).pending = s.pending := by
  simp [State.setTarget]
@[simp] theorem State.setTarget_free (s : State) (x : CkTarget) :
    (State.setTarget s x).free = s.free := by
  simp [State.setTarget]
@[simp] theorem State.setTarget_regs (s : State) (x : CkTarget) :
    (State.setTarget s x).regs = s.regs := by
  simp [State.setTarget]
@[simp] theorem State.setTarget_pkg (s : State) (x : CkTarget) :
    (State.setTarget s x).pkg = s.pkg := by
  simp [State.setTarget]
@[simp] theorem State.setTarget_flash (s : State) (x : CkTarget) :
    (State.setTarget s x).flash = s.flash := by
  simp [State.setTarget]
@[simp] theorem State.setTarget_log (s : State) (x : CkTarget) :
    (State.setTarget s x).log = s.log := by
  simp [State.setTarget]
@[simp] theorem State.setTarget_host (s : State) (x : CkTarget) :
    (State.setTarget s x).host = s.host := by
  simp [State.setTarget]
@[simp] theorem State.setTarget_sec (s : State) (x : CkTarget) :
    (State.setTarget s x).sec = s.sec := by
  simp [State.setTarget]
@[simp] theorem State.setTarget_img (s : State) (x : CkTarget) :
    (State.setTarget s x).img = s.img := by
  simp [State.setTarget]
@[simp] theorem State.setTarget_desc (s : State) (x : CkTarget) :
    (State.setTarget s x).desc = s.desc := by
  simp [State.setTarget]
@[simp] theorem State.setTarget_aux (s : State) (x : CkTarget) :
    (State.setTarget s x).aux = s.aux := by
  simp [State.setTarget]
@[simp] theorem State.setTarget_emptyCtr (s : State) (x : CkTarget) :
    (State.setTarget s x).emptyCtr = s.emptyCtr := by
  simp [State.setTarget]
@[simp] theorem State.setTarget_mem (s : State) (x : CkTarget) :
    (State.setTarget s x).mem = s.mem := by
  simp [State.setTarget]
@[simp] theorem State.setTarget_cnv (s : State) (x : CkTarget) :
    (State.setTarget s x).cnv = s.cnv := by
  simp [State.setTarget]
@[simp] theorem State.setTarget_srv (s : State) (x : CkTarget) :
    (State.setTarget s x).srv = s.srv := by
  simp [State.setTarget]
@[simp] theorem State.setTarget_comp (s : State) (x : CkTarget) :
    (State.setTarget s x).comp = s.comp := by
  simp [State.setTarget]
@[simp] theorem State.setTarget_pool (s : State) (x : CkTarget) :
    (State.setTarget s x).pool = s.pool := by
  simp [State.setTarget]
@[simp] theorem State.setTarget_apertures (s : State) (x : CkTarget) :
    (State.setTarget s x).apertures = s.apertures := by
  simp [State.setTarget]
@[simp] theorem State.setTarget_mirrors (s : State) (x : CkTarget) :
    (State.setTarget s x).mirrors = s.mirrors := by
  simp [State.setTarget]
@[simp] theorem State.setTarget_handoffs (s : State) (x : CkTarget) :
    (State.setTarget s x).handoffs = s.handoffs := by
  simp [State.setTarget]
@[simp] theorem State.setTarget_net (s : State) (x : CkTarget) :
    (State.setTarget s x).net = s.net := by
  simp [State.setTarget]
@[simp] theorem State.setTarget_ret (s : State) (x : CkTarget) :
    (State.setTarget s x).ret = s.ret := by
  simp [State.setTarget]

/-! ### State.setStored -/

@[simp] theorem State.setStored_pending (s : State) (old new : Stored) :
    (State.setStored s old new).pending = s.pending := by
  simp [State.setStored]
@[simp] theorem State.setStored_free (s : State) (old new : Stored) :
    (State.setStored s old new).free = s.free := by
  simp [State.setStored]
@[simp] theorem State.setStored_regs (s : State) (old new : Stored) :
    (State.setStored s old new).regs = s.regs := by
  simp [State.setStored]
@[simp] theorem State.setStored_pkg (s : State) (old new : Stored) :
    (State.setStored s old new).pkg = s.pkg := by
  simp [State.setStored]
@[simp] theorem State.setStored_flash (s : State) (old new : Stored) :
    (State.setStored s old new).flash = s.flash := by
  simp [State.setStored]
@[simp] theorem State.setStored_log (s : State) (old new : Stored) :
    (State.setStored s old new).log = s.log := by
  simp [State.setStored]
@[simp] theorem State.setStored_host (s : State) (old new : Stored) :
    (State.setStored s old new).host = s.host := by
  simp [State.setStored]
@[simp] theorem State.setStored_sec (s : State) (old new : Stored) :
    (State.setStored s old new).sec = s.sec := by
  simp [State.setStored]
@[simp] theorem State.setStored_img (s : State) (old new : Stored) :
    (State.setStored s old new).img = s.img := by
  simp [State.setStored]
@[simp] theorem State.setStored_desc (s : State) (old new : Stored) :
    (State.setStored s old new).desc = s.desc := by
  simp [State.setStored]
@[simp] theorem State.setStored_aux (s : State) (old new : Stored) :
    (State.setStored s old new).aux = s.aux := by
  simp [State.setStored]
@[simp] theorem State.setStored_emptyCtr (s : State) (old new : Stored) :
    (State.setStored s old new).emptyCtr = s.emptyCtr := by
  simp [State.setStored]
@[simp] theorem State.setStored_mem (s : State) (old new : Stored) :
    (State.setStored s old new).mem = s.mem := by
  simp [State.setStored]
@[simp] theorem State.setStored_srv (s : State) (old new : Stored) :
    (State.setStored s old new).srv = s.srv := by
  simp [State.setStored]
@[simp] theorem State.setStored_comp (s : State) (old new : Stored) :
    (State.setStored s old new).comp = s.comp := by
  simp [State.setStored]
@[simp] theorem State.setStored_pool (s : State) (old new : Stored) :
    (State.setStored s old new).pool = s.pool := by
  simp [State.setStored]
@[simp] theorem State.setStored_apertures (s : State) (old new : Stored) :
    (State.setStored s old new).apertures = s.apertures := by
  simp [State.setStored]
@[simp] theorem State.setStored_mirrors (s : State) (old new : Stored) :
    (State.setStored s old new).mirrors = s.mirrors := by
  simp [State.setStored]
@[simp] theorem State.setStored_handoffs (s : State) (old new : Stored) :
    (State.setStored s old new).handoffs = s.handoffs := by
  simp [State.setStored]
@[simp] theorem State.setStored_net (s : State) (old new : Stored) :
    (State.setStored s old new).net = s.net := by
  simp [State.setStored]
@[simp] theorem State.setStored_ret (s : State) (old new : Stored) :
    (State.setStored s old new).ret = s.ret := by
  simp [State.setStored]
@[simp] theorem State.setStored_ck (s : State) (old new : Stored) :
    (State.setStored s old new).ck = s.ck := by
  simp [State.setStored]

/-! ### State.setCsk -/

@[simp] theorem State.setCsk_pending (s : State) (k : U256) :
    (State.setCsk s k).pending = s.pending := by
  simp [State.setCsk]
@[simp] theorem State.setCsk_free (s : State) (k : U256) :
    (State.setCsk s k).free = s.free := by
  simp [State.setCsk]
@[simp] theorem State.setCsk_regs (s : State) (k : U256) :
    (State.setCsk s k).regs = s.regs := by
  simp [State.setCsk]
@[simp] theorem State.setCsk_pkg (s : State) (k : U256) :
    (State.setCsk s k).pkg = s.pkg := by
  simp [State.setCsk]
@[simp] theorem State.setCsk_flash (s : State) (k : U256) :
    (State.setCsk s k).flash = s.flash := by
  simp [State.setCsk]
@[simp] theorem State.setCsk_log (s : State) (k : U256) :
    (State.setCsk s k).log = s.log := by
  simp [State.setCsk]
@[simp] theorem State.setCsk_host (s : State) (k : U256) :
    (State.setCsk s k).host = s.host := by
  simp [State.setCsk]
@[simp] theorem State.setCsk_img (s : State) (k : U256) :
    (State.setCsk s k).img = s.img := by
  simp [State.setCsk]
@[simp] theorem State.setCsk_desc (s : State) (k : U256) :
    (State.setCsk s k).desc = s.desc := by
  simp [State.setCsk]
@[simp] theorem State.setCsk_aux (s : State) (k : U256) :
    (State.setCsk s k).aux = s.aux := by
  simp [State.setCsk]
@[simp] theorem State.setCsk_emptyCtr (s : State) (k : U256) :
    (State.setCsk s k).emptyCtr = s.emptyCtr := by
  simp [State.setCsk]
@[simp] theorem State.setCsk_mem (s : State) (k : U256) :
    (State.setCsk s k).mem = s.mem := by
  simp [State.setCsk]
@[simp] theorem State.setCsk_cnv (s : State) (k : U256) :
    (State.setCsk s k).cnv = s.cnv := by
  simp [State.setCsk]
@[simp] theorem State.setCsk_srv (s : State) (k : U256) :
    (State.setCsk s k).srv = s.srv := by
  simp [State.setCsk]
@[simp] theorem State.setCsk_comp (s : State) (k : U256) :
    (State.setCsk s k).comp = s.comp := by
  simp [State.setCsk]
@[simp] theorem State.setCsk_pool (s : State) (k : U256) :
    (State.setCsk s k).pool = s.pool := by
  simp [State.setCsk]
@[simp] theorem State.setCsk_apertures (s : State) (k : U256) :
    (State.setCsk s k).apertures = s.apertures := by
  simp [State.setCsk]
@[simp] theorem State.setCsk_mirrors (s : State) (k : U256) :
    (State.setCsk s k).mirrors = s.mirrors := by
  simp [State.setCsk]
@[simp] theorem State.setCsk_handoffs (s : State) (k : U256) :
    (State.setCsk s k).handoffs = s.handoffs := by
  simp [State.setCsk]
@[simp] theorem State.setCsk_net (s : State) (k : U256) :
    (State.setCsk s k).net = s.net := by
  simp [State.setCsk]
@[simp] theorem State.setCsk_ret (s : State) (k : U256) :
    (State.setCsk s k).ret = s.ret := by
  simp [State.setCsk]
@[simp] theorem State.setCsk_ck (s : State) (k : U256) :
    (State.setCsk s k).ck = s.ck := by
  simp [State.setCsk]

/-! ### State.dbIgnored -/

@[simp] theorem State.dbIgnored_pending (s : State) (fn : Nat) :
    (State.dbIgnored s fn).pending = s.pending := by
  simp [State.dbIgnored]
@[simp] theorem State.dbIgnored_free (s : State) (fn : Nat) :
    (State.dbIgnored s fn).free = s.free := by
  simp [State.dbIgnored]
@[simp] theorem State.dbIgnored_pkg (s : State) (fn : Nat) :
    (State.dbIgnored s fn).pkg = s.pkg := by
  simp [State.dbIgnored]
@[simp] theorem State.dbIgnored_flash (s : State) (fn : Nat) :
    (State.dbIgnored s fn).flash = s.flash := by
  simp [State.dbIgnored]
@[simp] theorem State.dbIgnored_log (s : State) (fn : Nat) :
    (State.dbIgnored s fn).log = s.log := by
  simp [State.dbIgnored]
@[simp] theorem State.dbIgnored_host (s : State) (fn : Nat) :
    (State.dbIgnored s fn).host = s.host := by
  simp [State.dbIgnored]
@[simp] theorem State.dbIgnored_sec (s : State) (fn : Nat) :
    (State.dbIgnored s fn).sec = s.sec := by
  simp [State.dbIgnored]
@[simp] theorem State.dbIgnored_img (s : State) (fn : Nat) :
    (State.dbIgnored s fn).img = s.img := by
  simp [State.dbIgnored]
@[simp] theorem State.dbIgnored_desc (s : State) (fn : Nat) :
    (State.dbIgnored s fn).desc = s.desc := by
  simp [State.dbIgnored]
@[simp] theorem State.dbIgnored_aux (s : State) (fn : Nat) :
    (State.dbIgnored s fn).aux = s.aux := by
  simp [State.dbIgnored]
@[simp] theorem State.dbIgnored_emptyCtr (s : State) (fn : Nat) :
    (State.dbIgnored s fn).emptyCtr = s.emptyCtr := by
  simp [State.dbIgnored]
@[simp] theorem State.dbIgnored_mem (s : State) (fn : Nat) :
    (State.dbIgnored s fn).mem = s.mem := by
  simp [State.dbIgnored]
@[simp] theorem State.dbIgnored_cnv (s : State) (fn : Nat) :
    (State.dbIgnored s fn).cnv = s.cnv := by
  simp [State.dbIgnored]
@[simp] theorem State.dbIgnored_srv (s : State) (fn : Nat) :
    (State.dbIgnored s fn).srv = s.srv := by
  simp [State.dbIgnored]
@[simp] theorem State.dbIgnored_comp (s : State) (fn : Nat) :
    (State.dbIgnored s fn).comp = s.comp := by
  simp [State.dbIgnored]
@[simp] theorem State.dbIgnored_pool (s : State) (fn : Nat) :
    (State.dbIgnored s fn).pool = s.pool := by
  simp [State.dbIgnored]
@[simp] theorem State.dbIgnored_apertures (s : State) (fn : Nat) :
    (State.dbIgnored s fn).apertures = s.apertures := by
  simp [State.dbIgnored]
@[simp] theorem State.dbIgnored_mirrors (s : State) (fn : Nat) :
    (State.dbIgnored s fn).mirrors = s.mirrors := by
  simp [State.dbIgnored]
@[simp] theorem State.dbIgnored_handoffs (s : State) (fn : Nat) :
    (State.dbIgnored s fn).handoffs = s.handoffs := by
  simp [State.dbIgnored]
@[simp] theorem State.dbIgnored_net (s : State) (fn : Nat) :
    (State.dbIgnored s fn).net = s.net := by
  simp [State.dbIgnored]
@[simp] theorem State.dbIgnored_ret (s : State) (fn : Nat) :
    (State.dbIgnored s fn).ret = s.ret := by
  simp [State.dbIgnored]
@[simp] theorem State.dbIgnored_ck (s : State) (fn : Nat) :
    (State.dbIgnored s fn).ck = s.ck := by
  simp [State.dbIgnored]

/-! ### State.setTdi -/

@[simp] theorem State.setTdi_pending (s : State) (fn : Nat) (t : Tdi) :
    (State.setTdi s fn t).pending = s.pending := by
  simp [State.setTdi]
@[simp] theorem State.setTdi_free (s : State) (fn : Nat) (t : Tdi) :
    (State.setTdi s fn t).free = s.free := by
  simp [State.setTdi]
@[simp] theorem State.setTdi_regs (s : State) (fn : Nat) (t : Tdi) :
    (State.setTdi s fn t).regs = s.regs := by
  simp [State.setTdi]
@[simp] theorem State.setTdi_pkg (s : State) (fn : Nat) (t : Tdi) :
    (State.setTdi s fn t).pkg = s.pkg := by
  simp [State.setTdi]
@[simp] theorem State.setTdi_flash (s : State) (fn : Nat) (t : Tdi) :
    (State.setTdi s fn t).flash = s.flash := by
  simp [State.setTdi]
@[simp] theorem State.setTdi_log (s : State) (fn : Nat) (t : Tdi) :
    (State.setTdi s fn t).log = s.log := by
  simp [State.setTdi]
@[simp] theorem State.setTdi_sec (s : State) (fn : Nat) (t : Tdi) :
    (State.setTdi s fn t).sec = s.sec := by
  simp [State.setTdi]
@[simp] theorem State.setTdi_img (s : State) (fn : Nat) (t : Tdi) :
    (State.setTdi s fn t).img = s.img := by
  simp [State.setTdi]
@[simp] theorem State.setTdi_desc (s : State) (fn : Nat) (t : Tdi) :
    (State.setTdi s fn t).desc = s.desc := by
  simp [State.setTdi]
@[simp] theorem State.setTdi_aux (s : State) (fn : Nat) (t : Tdi) :
    (State.setTdi s fn t).aux = s.aux := by
  simp [State.setTdi]
@[simp] theorem State.setTdi_emptyCtr (s : State) (fn : Nat) (t : Tdi) :
    (State.setTdi s fn t).emptyCtr = s.emptyCtr := by
  simp [State.setTdi]
@[simp] theorem State.setTdi_mem (s : State) (fn : Nat) (t : Tdi) :
    (State.setTdi s fn t).mem = s.mem := by
  simp [State.setTdi]
@[simp] theorem State.setTdi_cnv (s : State) (fn : Nat) (t : Tdi) :
    (State.setTdi s fn t).cnv = s.cnv := by
  simp [State.setTdi]
@[simp] theorem State.setTdi_srv (s : State) (fn : Nat) (t : Tdi) :
    (State.setTdi s fn t).srv = s.srv := by
  simp [State.setTdi]
@[simp] theorem State.setTdi_comp (s : State) (fn : Nat) (t : Tdi) :
    (State.setTdi s fn t).comp = s.comp := by
  simp [State.setTdi]
@[simp] theorem State.setTdi_pool (s : State) (fn : Nat) (t : Tdi) :
    (State.setTdi s fn t).pool = s.pool := by
  simp [State.setTdi]
@[simp] theorem State.setTdi_apertures (s : State) (fn : Nat) (t : Tdi) :
    (State.setTdi s fn t).apertures = s.apertures := by
  simp [State.setTdi]
@[simp] theorem State.setTdi_mirrors (s : State) (fn : Nat) (t : Tdi) :
    (State.setTdi s fn t).mirrors = s.mirrors := by
  simp [State.setTdi]
@[simp] theorem State.setTdi_handoffs (s : State) (fn : Nat) (t : Tdi) :
    (State.setTdi s fn t).handoffs = s.handoffs := by
  simp [State.setTdi]
@[simp] theorem State.setTdi_net (s : State) (fn : Nat) (t : Tdi) :
    (State.setTdi s fn t).net = s.net := by
  simp [State.setTdi]
@[simp] theorem State.setTdi_ret (s : State) (fn : Nat) (t : Tdi) :
    (State.setTdi s fn t).ret = s.ret := by
  simp [State.setTdi]
@[simp] theorem State.setTdi_ck (s : State) (fn : Nat) (t : Tdi) :
    (State.setTdi s fn t).ck = s.ck := by
  simp [State.setTdi]

/-! ### State.setSpdm -/

@[simp] theorem State.setSpdm_pending (s : State) (x : Spdm) :
    (State.setSpdm s x).pending = s.pending := by
  simp [State.setSpdm]
@[simp] theorem State.setSpdm_free (s : State) (x : Spdm) :
    (State.setSpdm s x).free = s.free := by
  simp [State.setSpdm]
@[simp] theorem State.setSpdm_regs (s : State) (x : Spdm) :
    (State.setSpdm s x).regs = s.regs := by
  simp [State.setSpdm]
@[simp] theorem State.setSpdm_pkg (s : State) (x : Spdm) :
    (State.setSpdm s x).pkg = s.pkg := by
  simp [State.setSpdm]
@[simp] theorem State.setSpdm_flash (s : State) (x : Spdm) :
    (State.setSpdm s x).flash = s.flash := by
  simp [State.setSpdm]
@[simp] theorem State.setSpdm_log (s : State) (x : Spdm) :
    (State.setSpdm s x).log = s.log := by
  simp [State.setSpdm]
@[simp] theorem State.setSpdm_sec (s : State) (x : Spdm) :
    (State.setSpdm s x).sec = s.sec := by
  simp [State.setSpdm]
@[simp] theorem State.setSpdm_img (s : State) (x : Spdm) :
    (State.setSpdm s x).img = s.img := by
  simp [State.setSpdm]
@[simp] theorem State.setSpdm_desc (s : State) (x : Spdm) :
    (State.setSpdm s x).desc = s.desc := by
  simp [State.setSpdm]
@[simp] theorem State.setSpdm_aux (s : State) (x : Spdm) :
    (State.setSpdm s x).aux = s.aux := by
  simp [State.setSpdm]
@[simp] theorem State.setSpdm_emptyCtr (s : State) (x : Spdm) :
    (State.setSpdm s x).emptyCtr = s.emptyCtr := by
  simp [State.setSpdm]
@[simp] theorem State.setSpdm_mem (s : State) (x : Spdm) :
    (State.setSpdm s x).mem = s.mem := by
  simp [State.setSpdm]
@[simp] theorem State.setSpdm_cnv (s : State) (x : Spdm) :
    (State.setSpdm s x).cnv = s.cnv := by
  simp [State.setSpdm]
@[simp] theorem State.setSpdm_srv (s : State) (x : Spdm) :
    (State.setSpdm s x).srv = s.srv := by
  simp [State.setSpdm]
@[simp] theorem State.setSpdm_comp (s : State) (x : Spdm) :
    (State.setSpdm s x).comp = s.comp := by
  simp [State.setSpdm]
@[simp] theorem State.setSpdm_pool (s : State) (x : Spdm) :
    (State.setSpdm s x).pool = s.pool := by
  simp [State.setSpdm]
@[simp] theorem State.setSpdm_apertures (s : State) (x : Spdm) :
    (State.setSpdm s x).apertures = s.apertures := by
  simp [State.setSpdm]
@[simp] theorem State.setSpdm_mirrors (s : State) (x : Spdm) :
    (State.setSpdm s x).mirrors = s.mirrors := by
  simp [State.setSpdm]
@[simp] theorem State.setSpdm_handoffs (s : State) (x : Spdm) :
    (State.setSpdm s x).handoffs = s.handoffs := by
  simp [State.setSpdm]
@[simp] theorem State.setSpdm_net (s : State) (x : Spdm) :
    (State.setSpdm s x).net = s.net := by
  simp [State.setSpdm]
@[simp] theorem State.setSpdm_ret (s : State) (x : Spdm) :
    (State.setSpdm s x).ret = s.ret := by
  simp [State.setSpdm]
@[simp] theorem State.setSpdm_ck (s : State) (x : Spdm) :
    (State.setSpdm s x).ck = s.ck := by
  simp [State.setSpdm]

end Sys2Proof.Machine
end

