-- ==== Sys2Proof/Laws/FixedBase.lean ====
section
/-! SUPPORT. The fields that almost nothing writes (the queue, the package count, the fuses, the current generation), bundled, and that the shared operations, memory and the cores keep them. -/

namespace Sys2Proof.Machine
structure Fixed where
  pending : List Instr
  pkc : U64
  retired : Nat
  zcount : Nat
  lifecycle : Nat
  authors : Tab Author
  current : Nat
def State.fixed (s : State) : Fixed :=
  ⟨s.pending, s.pkg.pkc, s.sec.retired, s.sec.zcount, s.sec.lifecycle, s.sec.authors, s.sec.current⟩
@[simp] theorem fixed_mk (p f r pk fl l h se i d a e m c sv co po ap mi ho n re ck) :
    State.fixed (State.mk p f r pk fl l h se i d a e m c sv co po ap mi ho n re ck) =
    ⟨p, pk.pkc, se.retired, se.zcount, se.lifecycle, se.authors, se.current⟩ := id rfl
@[simp] theorem fixed_fold (s : State) :
    Fixed.mk s.pending s.pkg.pkc s.sec.retired s.sec.zcount s.sec.lifecycle s.sec.authors s.sec.current = s.fixed := id rfl
@[simp] theorem fixed_ite (c : Prop) [Decidable c] (a b : State) :
    (if c then a else b).fixed = if c then a.fixed else b.fixed := apply_ite State.fixed c a b
@[simp] theorem foldl_fixed {α : Type} (f : State → α → State) (h : ∀ t x, (f t x).fixed = t.fixed) (l : List α) :
    ∀ s : State, (l.foldl f s).fixed = s.fixed := by
  induction l with
  | nil => intro s; rfl
  | cons x l ih => intro s; simp [ih, h]
def Reply.keeps (f : Fixed) : Reply → Prop
  | .reject _ _ _ => True
  | .done s _ _ => s.fixed = f
  | .later s => s.fixed = f
@[simp] theorem Reply.keeps_reject (f c i r) : (Reply.reject c i r).keeps f := trivial
@[simp] theorem Reply.keeps_done (f s c r) : (Reply.done s c r).keeps f ↔ s.fixed = f := Iff.rfl
@[simp] theorem Reply.keeps_later (f s) : (Reply.later s).keeps f ↔ s.fixed = f := Iff.rfl
@[simp] theorem checked_keeps (f l r) (h : r.keeps f) : (checked l r).keeps f := by
  unfold checked; split <;> simp [h]
@[simp] theorem withIndex_keeps (f r) (k : Nat → Reply) (h : ∀ i, (k i).keeps f) : (withIndex r k).keeps f := by
  unfold withIndex; split <;> simp [h]
@[simp] theorem ite_keeps (f) (c : Prop) [Decidable c] (a b : Reply) : (if c then a else b).keeps f ↔ if c then a.keeps f else b.keeps f := by
  split <;> rfl
@[simp] theorem fixed_fst_ite {α : Type} (c : Prop) [Decidable c] (a b : State × α) :
    (if c then a else b).1.fixed = if c then a.1.fixed else b.1.fixed := by split <;> rfl
def Rule.Keeps (r : Rule) : Prop := ∀ u, (r.eff u).1.fixed = u.fixed
theorem Rule.Keeps.eq {r : Rule} (h : r.Keeps) (u : State) : (r.eff u).1.fixed = u.fixed := h u
theorem foldl_fixed_fst {α β : Type} (f : State × β → α → State × β) (h : ∀ t x, (f t x).1.fixed = t.1.fixed) (l : List α) :
    ∀ s : State × β, (l.foldl f s).1.fixed = s.1.fixed := by
  induction l with
  | nil => intro s; rfl
  | cons x l ih => intro s; simp [ih, h]
theorem objThen_keeps {α : Type} {f : Fixed} {r : Except Nat (State × α)} {k : State → α → Reply}
    (h : ∀ s x, r = .ok (s, x) → (k s x).keeps f) : (objThen r k).keeps f := by
  unfold objThen; split
  · trivial
  · exact h _ _ rfl
theorem Except.bind_eq_ok {α β : Type} {r : Except Nat α} {k : α → Except Nat β} {b : β} :
    r.bind k = .ok b ↔ ∃ a, r = .ok a ∧ k a = .ok b := by
  cases r <;> simp [Except.bind]
theorem Except.map_eq_ok {α β : Type} {r : Except Nat α} {k : α → β} {b : β} :
    r.map k = .ok b ↔ ∃ a, r = .ok a ∧ k a = b := by
  cases r <;> simp [Except.map]
end Sys2Proof.Machine

namespace Sys2Proof.Machine

@[simp] theorem State.drew_fixed (s : State) :
    (State.drew s).fixed = s.fixed := by
  simp [State.drew]

@[simp] theorem State.setReg_fixed (s : State) (r : Reg) (u i v : Nat) :
    (State.setReg s r u i v).fixed = s.fixed := by
  simp [State.setReg]

@[simp] theorem State.setFld_fixed (s : State) (r : Reg) (u i lo w v : Nat) :
    (State.setFld s r u i lo w v).fixed = s.fixed := by
  simp [State.setFld]

@[simp] theorem State.bump_fixed (s : State) (r : Reg) (u n : Nat) :
    (State.bump s r u n).fixed = s.fixed := by
  simp [State.bump]

@[simp] theorem State.setReg64_fixed (s : State) (lo hi : Reg) (u v : Nat) :
    (State.setReg64 s lo hi u v).fixed = s.fixed := by
  simp [State.setReg64]

@[simp] theorem State.accErr_fixed (s : State) (fn off : Nat) :
    (State.accErr s fn off).fixed = s.fixed := by
  simp [State.accErr]

@[simp] theorem State.setDie_fixed (s : State) (d : Nat) (x : Die) :
    (State.setDie s d x).fixed = s.fixed := by
  simp [State.setDie]

@[simp] theorem State.emit_fixed (s : State) (o : Output) :
    (State.emit s o).fixed = s.fixed := by
  simp [State.emit]

@[simp] theorem State.hostWrite_fixed (s : State) (a : Nat) (b : Bytes) :
    (State.hostWrite s a b).fixed = s.fixed := by
  simp [State.hostWrite]

@[simp] theorem State.interrupt_fixed (s : State) (fn vector : Nat) :
    (State.interrupt s fn vector).fixed = s.fixed := by
  simp [State.interrupt]

@[simp] theorem State.complete_fixed (s : State) (t : Tag) (status info : Nat) (result : Bytes) :
    (State.complete s t status info result).fixed = s.fixed := by
  simp only [State.complete]; (repeat' split) <;> (try simp)

@[simp] theorem State.completeOpt_fixed (s : State) (t : Option Tag) (status : Nat) (result : Bytes) :
    (State.completeOpt s t status result).fixed = s.fixed := by
  simp only [State.completeOpt]; (repeat' split) <;> (try simp)

@[simp] theorem State.post_fixed (s : State) (q type slice status : Nat) (data : Bytes) :
    (State.post s q type slice status data).fixed = s.fixed := by
  simp only [State.post]; (repeat' split) <;> (try simp)

@[simp] theorem State.logWrite_fixed (s : State) (source die slice code unit : Nat) (addr : Option Nat) (detail : Bytes) :
    (State.logWrite s source die slice code unit addr detail).fixed = s.fixed := by
  simp [State.logWrite]

@[simp] theorem State.logErr_fixed (s : State) (source die slice code unit : Nat) (addr : Option Nat) :
    (State.logErr s source die slice code unit addr).fixed = s.fixed := by
  simp only [State.logErr]; (repeat' split) <;> (try simp)

@[simp] theorem State.measChanged_fixed (s : State) :
    (State.measChanged s).fixed = s.fixed := by
  simp only [State.measChanged]; (repeat' split) <;> (try simp)

@[simp] theorem State.setMeas_fixed (s : State) (i : Nat) (v : U256) :
    (State.setMeas s i v).fixed = s.fixed := by
  simp [State.setMeas]

@[simp] theorem State.genUp_fixed (s : State) :
    (State.genUp s).fixed = s.fixed := by
  simp [State.genUp]

@[simp] theorem State.evc_fixed (s : State) (sl source unit n : Nat) :
    (State.evc s sl source unit n).fixed = s.fixed := by
  simp [State.evc]

end Sys2Proof.Machine

namespace Sys2Proof.Machine

@[simp] theorem State.setPort_fixed (s : State) (p : Nat) (x : Port) :
    (State.setPort s p x).fixed = s.fixed := by
  simp [State.setPort]

@[simp] theorem State.pump_fixed (s : State) (p : Nat) (x0 : Nat) :
    (State.pump s p x0).fixed = s.fixed := by
  induction x0 generalizing s p with | zero => (simp [State.pump]) | succ n ih => (simp only [State.pump]; (repeat' split) <;> (try simp [ih]))

@[simp] theorem State.enqueue_fixed (s : State) (p vl queue payload : Nat) (who : Option (Nat × Nat)) :
    (State.enqueue s p vl queue payload who).fixed = s.fixed := by
  simp [State.enqueue]

@[simp] theorem State.transmit_fixed (s : State) (t : Txn) :
    (State.transmit s t).fixed = s.fixed := by
  simp only [State.transmit]; (repeat' split) <;> (try simp)

@[simp] theorem State.send_fixed (s : State) (dev type op sl : Nat) (args : List Nat) (payload : Bytes) (p : Purpose) :
    (State.send s dev type op sl args payload p).fixed = s.fixed := by
  simp [State.send]

@[simp] theorem State.sendOne_fixed (s : State) (sl dev type op tag : Nat) (args : List Nat) (payload : Bytes) :
    (State.sendOne s sl dev type op tag args payload).fixed = s.fixed := by
  simp only [State.sendOne]; (repeat' split) <;> (try simp)

end Sys2Proof.Machine

namespace Sys2Proof.Machine

@[simp] theorem State.fetch_fixed (s : State) (h : Hdr) :
    (State.fetch s h).1.fixed = s.fixed := by
  simp only [State.fetch]; (repeat' split) <;> (try simp)

@[simp] theorem State.reject_fixed (s : State) (t : Tag) (code info : Nat) (result : List (Nat × Nat)) :
    (State.reject s t code info result).fixed = s.fixed := by
  simp [State.reject]

theorem hostCmd_fixed {c : CmdSpec} {h : Hdr} {body : State → Tag → Reply} {s t : State}
    (hb : ∀ u g, (body u g).keeps u.fixed) (e : hostCmd c h body s = .next t) : t.fixed = s.fixed := by
  unfold hostCmd at e
  dsimp only at e
  split at e
  · cases e; rfl
  · split at e
    · cases e; simp
    · split at e
      · cases e; rfl
      · split at e
        · cases e; simp
        · cases e; have := hb (s.fetch h).1 (s.fetch h).2; simp_all
        · cases e; have := hb (s.fetch h).1 (s.fetch h).2; simp_all

@[simp] theorem State.inSlice_fixed (s : State) (sl : Nat) (r : Reply) (f : Fixed) (h : r.keeps f) :
    (State.inSlice s sl r).keeps f := by
  unfold State.inSlice; split
  · exact h
  · trivial

end Sys2Proof.Machine

namespace Sys2Proof.Machine

@[simp] theorem State.allocAt_fixed (s : State) (sl pa size : Nat) (prot : Bool) :
    (State.allocAt s sl pa size prot).fixed = s.fixed := by
  simp [State.allocAt]

theorem State.alloc_fixed (s : State) (sl n size align : Nat) (prot : Bool) {z : State} {w} (hz : State.alloc s sl n size align prot = some (z, w)) :
    z.fixed = s.fixed := by
  unfold State.alloc at hz; simp only [Option.map_eq_some_iff, Option.bind_eq_some_iff, Option.some.injEq, Prod.mk.injEq] at hz; (repeat' split at hz) <;> (try simp at hz) <;> (try (obtain ⟨_, _, rfl, rfl⟩ := hz)) <;> (try simp)

@[simp] theorem State.freeAt_fixed (s : State) (pa : Nat) :
    (State.freeAt s pa).fixed = s.fixed := by
  simp only [State.freeAt]; (repeat' split) <;> (try simp)

@[simp] theorem State.setKv_fixed (s : State) (i : Nat) (k : SessKv) :
    (State.setKv s i k).fixed = s.fixed := by
  simp [State.setKv]

@[simp] theorem State.xlateFault_fixed (s : State) (sl va : Nat) :
    (State.xlateFault s sl va).fixed = s.fixed := by
  simp [State.xlateFault]

@[simp] theorem State.invalidate_fixed (s : State) (sl : Nat) :
    (State.invalidate s sl).fixed = s.fixed := by
  simp [State.invalidate]

@[simp] theorem State.ckGuard_fixed (s : State) (f : Nat) :
    (State.ckGuard s f).fixed = s.fixed := by
  simp [State.ckGuard]

@[simp] theorem State.touch_fixed (s : State) (pa n : Nat) :
    (State.touch s pa n).fixed = s.fixed := by
  simp [State.touch]

@[simp] theorem State.pwrite_fixed (s : State) (pa : Nat) (b : Bytes) :
    (State.pwrite s pa b).fixed = s.fixed := by
  simp [State.pwrite]

@[simp] theorem State.gessoFill_fixed (s : State) (pa n : Nat) :
    (State.gessoFill s pa n).fixed = s.fixed := by
  simp [State.gessoFill]

@[simp] theorem State.vwriteBytes_fixed (s : State) (sl va : Nat) (x0 : Bytes) :
    (State.vwriteBytes s sl va x0).fixed = s.fixed := by
  induction x0 generalizing s sl va with | nil => (simp [State.vwriteBytes]) | cons y ys ih => (simp only [State.vwriteBytes]; (repeat' split) <;> (try simp [ih]))

@[simp] theorem State.vwrite_fixed (s : State) (sl va : Nat) (b : Bytes) :
    (State.vwrite s sl va b).fixed = s.fixed := by
  simp [State.vwrite]

end Sys2Proof.Machine

namespace Sys2Proof.Machine

theorem State.takeTables_fixed (s : State) (sl : Nat) (x0 : List (Nat × Nat)) {z : State} (hz : State.takeTables s sl x0 = some z) :
    z.fixed = s.fixed := by
  induction x0 generalizing s z with
  | nil => cases hz; rfl
  | cons y ys ih =>
    simp only [State.takeTables] at hz
    split at hz
    · exact ih _ hz
    · obtain ⟨a, ha, hz⟩ := Option.bind_eq_some_iff.1 hz
      obtain ⟨n, hn, e⟩ := List.exists_of_findSome?_eq_some ha
      exact (ih _ hz).trans (show a.1.fixed = s.fixed from State.alloc_fixed _ _ _ _ _ _ (w := a.2) e)

@[simp] theorem State.dropUnneeded_fixed (s : State) (sl : Nat) :
    (State.dropUnneeded s sl).fixed = s.fixed := by
  simp [State.dropUnneeded]

theorem State.remap_fixed (s : State) (sl : Nat) {z : State} (hz : State.remap s sl = some z) :
    z.fixed = s.fixed := by
  obtain ⟨a, ha, e⟩ := Option.map_eq_some_iff.1 hz; cases e
  simpa using State.takeTables_fixed _ _ _ ha

@[simp] theorem State.unmapped_fixed (s : State) (sl : Nat) :
    (State.unmapped s sl).fixed = s.fixed := by
  simp [State.unmapped]

@[simp] theorem State.walk_fixed (s : State) (die sl va : Nat) :
    (State.walk s die sl va).fixed = s.fixed := by
  simp only [State.walk]; (repeat' split) <;> (try simp)

@[simp] theorem State.walkFor_fixed (s : State) (core sl va : Nat) :
    (State.walkFor s core sl va).fixed = s.fixed := by
  simp only [State.walkFor]; (repeat' split) <;> (try simp)

@[simp] theorem State.takeGroup_fixed (s : State) (sl w : Nat) :
    (State.takeGroup s sl w).fixed = s.fixed := by
  unfold State.takeGroup
  cases h : s.takeTables sl (groupTables w) with
  | none => rfl
  | some t => exact State.takeTables_fixed _ _ _ h

@[simp] theorem State.takeWindow_fixed (s : State) (i : Nat) :
    (State.takeWindow s i).fixed = s.fixed := by
  simp only [State.takeWindow]; (repeat' split) <;> (try simp)

end Sys2Proof.Machine

namespace Sys2Proof.Machine

theorem State.takeRegion_fixed (s : State) (sl : Nat) (prot : Bool) (gs : List Granule) (area layer slot unit tokens : Nat) {z : State} {w} (hz : State.takeRegion s sl prot gs area layer slot unit tokens = some (z, w)) :
    z.fixed = s.fixed := by
  unfold State.takeRegion at hz; dsimp only at hz
  split at hz
  · cases hz; rfl
  · split at hz
    · obtain ⟨x, hx, e⟩ := Option.map_eq_some_iff.1 hz; cases e; exact State.alloc_fixed _ _ _ _ _ _ hx
    · split at hz
      · cases hz; rfl
      · obtain ⟨x, hx, e⟩ := Option.map_eq_some_iff.1 hz; cases e; exact State.alloc_fixed _ _ _ _ _ _ hx

theorem State.takePage_fixed (s : State) (sl : Nat) (g : Geom) (prot : Bool) (gs : List Granule) (layer j m : Nat) {z : State} {w} (hz : State.takePage s sl g prot gs layer j m = some (z, w)) :
    z.fixed = s.fixed := by
  unfold State.takePage at hz; dsimp only at hz
  obtain ⟨a, ha, hz⟩ := Option.bind_eq_some_iff.1 hz
  obtain ⟨b, hb, hz⟩ := Option.bind_eq_some_iff.1 hz
  obtain ⟨c, hc, hz⟩ := Option.map_eq_some_iff.1 hz
  cases hz
  exact (State.takeRegion_fixed _ _ _ _ _ _ _ _ _ hc).trans
    ((State.takeRegion_fixed _ _ _ _ _ _ _ _ _ hb).trans (State.takeRegion_fixed _ _ _ _ _ _ _ _ _ ha))

theorem State.takeLayers_fixed (s : State) (sl : Nat) (g : Geom) (prot : Bool) (j m : Nat) (x0 : List Nat) (x1 : SessKv) {z : State} {w} (hz : State.takeLayers s sl g prot j m x0 x1 = some (z, w)) :
    z.fixed = s.fixed := by
  induction x0 generalizing s x1 w z with
  | nil => cases hz; rfl
  | cons y ys ih =>
    obtain ⟨x, hx, hz⟩ := Option.bind_eq_some_iff.1 hz
    exact (ih _ _ hz).trans (State.takePage_fixed _ _ _ _ _ _ _ _ (w := x.2) hx)

theorem State.takePages_fixed (s : State) (sl : Nat) (g : Geom) (prot : Bool) (m : Nat) (x0 : Nat) (x1 : Nat) (x2 : SessKv) {z : State} {w} (hz : State.takePages s sl g prot m x0 x1 x2 = some (z, w)) :
    z.fixed = s.fixed := by
  induction x0 generalizing s x1 x2 w z with
  | zero => cases hz; rfl
  | succ n ih =>
    obtain ⟨x, hx, hz⟩ := Option.bind_eq_some_iff.1 hz
    exact (ih _ _ _ hz).trans (State.takeLayers_fixed _ _ _ _ _ _ _ _ (w := x.2) hx)

theorem State.reserveLayer_fixed (s : State) (sl : Nat) (g : Geom) (prot : Bool) (k : SessKv) (j m l : Nat) {z : State} {w} (hz : State.reserveLayer s sl g prot k j m l = some (z, w)) :
    z.fixed = s.fixed := by
  obtain ⟨x, hx, hz⟩ := Option.map_eq_some_iff.1 hz
  cases hz; exact State.takePage_fixed _ _ _ _ _ _ _ _ (w := x.2) hx

theorem State.reservePages_fixed (s : State) (sl : Nat) (g : Geom) (prot : Bool) (k : SessKv) (j m : Nat) (x0 : List Nat) (x1 : List ResEnt) {z : State} {w} (hz : State.reservePages s sl g prot k j m x0 x1 = some (z, w)) :
    z.fixed = s.fixed := by
  induction x0 generalizing s x1 w z with
  | nil => cases hz; rfl
  | cons y ys ih =>
    obtain ⟨x, hx, hz⟩ := Option.bind_eq_some_iff.1 hz
    exact (ih _ _ hz).trans (State.reserveLayer_fixed _ _ _ _ _ _ _ _ (w := x.2) hx)

@[simp] theorem State.setCount_fixed (s : State) (pa rcp n : Nat) :
    (State.setCount s pa rcp n).fixed = s.fixed := by
  simp [State.setCount]

@[simp] theorem State.freeRegions_fixed (s : State) (g : Geom) (p : KvPage) :
    (State.freeRegions s g p).fixed = s.fixed := by
  simp [State.freeRegions]

@[simp] theorem State.dropPage_fixed (s : State) (g : Geom) (p : KvPage) :
    (State.dropPage s g p).fixed = s.fixed := by
  simp [State.dropPage]

@[simp] theorem State.dropGranules_fixed (s : State) (grs : List Granule) :
    (State.dropGranules s grs).fixed = s.fixed := by
  simp [State.dropGranules]

@[simp] theorem State.releaseReserve_fixed (s : State) (g : Geom) (i : Nat) :
    (State.releaseReserve s g i).fixed = s.fixed := by
  simp [State.releaseReserve]

@[simp] theorem State.dropFrom_fixed (s : State) (g : Geom) (i j m : Nat) :
    (State.dropFrom s g i j m).fixed = s.fixed := by
  simp [State.dropFrom]

@[simp] theorem State.freeSession_fixed (s : State) (i : Nat) :
    (State.freeSession s i).fixed = s.fixed := by
  simp [State.freeSession]

theorem State.copyGranules_fixed (s : State) (sl : Nat) (prot : Bool) (x0 : List Granule) {z : State} {w} (hz : State.copyGranules s sl prot x0 = some (z, w)) :
    z.fixed = s.fixed := by
  induction x0 generalizing s z w with
  | nil => cases hz; rfl
  | cons y ys ih =>
    obtain ⟨a, ha, hz⟩ := Option.bind_eq_some_iff.1 hz
    obtain ⟨b, hb, e⟩ := Option.map_eq_some_iff.1 hz
    cases e
    exact (ih _ (w := b.2) hb).trans ((State.pwrite_fixed _ _ _).trans (State.alloc_fixed _ _ _ _ _ _ (w := a.2) ha))

theorem State.privatePage_fixed (s : State) (sl : Nat) (g : Geom) (d : Desc) (k : SessKv) (p : KvPage) {z : State} {w} (hz : State.privatePage s sl g d k p = some (z, w)) :
    z.fixed = s.fixed := by
  unfold State.privatePage at hz; dsimp only at hz
  obtain ⟨a, ha, hz⟩ := Option.bind_eq_some_iff.1 hz
  have h1 : a.1.fixed = s.fixed := by
    refine (State.copyGranules_fixed _ _ _ _ (w := a.2) ha).trans ?_
    rw [foldl_fixed _ (by intro t x; simp)]
  split at hz
  · cases hz; simp only [State.setCount_fixed]; split <;> simp [h1]
  · obtain ⟨x, hx, e⟩ := Option.map_eq_some_iff.1 hz
    cases e
    have h2 := State.takePage_fixed _ _ _ _ _ _ _ _ (w := x.2) hx
    simp only [State.bump_fixed, State.dropPage_fixed, fixed_ite, State.pwrite_fixed, ite_self]
    exact h2.trans (by simp [h1])

theorem State.privateAll_fixed (s : State) (sl : Nat) (g : Geom) (d : Desc) (i : Nat) (x0 : List KvPage) {z : State} (hz : State.privateAll s sl g d i x0 = some z) :
    z.fixed = s.fixed := by
  induction x0 generalizing s z with
  | nil => exact State.remap_fixed _ _ hz
  | cons y ys ih =>
    simp only [State.privateAll] at hz
    split at hz
    · exact ih _ hz
    · obtain ⟨x, hx, hz⟩ := Option.bind_eq_some_iff.1 hz
      exact (ih _ hz).trans ((State.setKv_fixed _ _ _).trans (State.privatePage_fixed _ _ _ _ _ _ (w := x.2) hx))

theorem State.sharePage_fixed (s : State) (p : KvPage) (n : Nat) {z : State} {w} (hz : State.sharePage s p n = some (z, w)) :
    z.fixed = s.fixed := by
  unfold State.sharePage at hz; dsimp only at hz
  split at hz
  · obtain ⟨x, hx, e⟩ := Option.map_eq_some_iff.1 hz; cases e; simp
  · split at hz <;> cases hz; simp

theorem State.shareGranule_fixed (s : State) (gr : Granule) (n : Nat) {z : State} {w} (hz : State.shareGranule s gr n = some (z, w)) :
    z.fixed = s.fixed := by
  unfold State.shareGranule at hz; dsimp only at hz
  split at hz
  · obtain ⟨x, hx, e⟩ := Option.map_eq_some_iff.1 hz; cases e; simp
  · split at hz <;> cases hz; simp

theorem State.sharePages_fixed (s : State) (n : Nat) (x0 : List KvPage) (x1 : List KvPage) {z : State} {w} (hz : State.sharePages s n x0 x1 = some (z, w)) :
    z.fixed = s.fixed := by
  induction x0 generalizing s x1 w z with
  | nil => cases hz; rfl
  | cons y ys ih =>
    obtain ⟨x, hx, hz⟩ := Option.bind_eq_some_iff.1 hz
    exact (ih _ _ hz).trans (State.sharePage_fixed _ _ _ (w := x.2) hx)

theorem State.shareGranules_fixed (s : State) (n : Nat) (x0 : List Granule) (x1 : List Granule) {z : State} {w} (hz : State.shareGranules s n x0 x1 = some (z, w)) :
    z.fixed = s.fixed := by
  induction x0 generalizing s x1 w z with
  | nil => cases hz; rfl
  | cons y ys ih =>
    simp only [State.shareGranules] at hz
    split at hz
    · exact ih _ _ hz
    · obtain ⟨x, hx, hz⟩ := Option.bind_eq_some_iff.1 hz
      exact (ih _ _ hz).trans (State.shareGranule_fixed _ _ _ (w := x.2) hx)

end Sys2Proof.Machine

namespace Sys2Proof.Machine

@[simp] theorem State.setD_fixed (s : State) (i : Nat) (d : Desc) :
    (State.setD s i d).fixed = s.fixed := by
  simp [State.setD]

@[simp] theorem State.setAx_fixed (s : State) (i : Nat) (a : DescAux) :
    (State.setAx s i a).fixed = s.fixed := by
  simp [State.setAx]

@[simp] theorem State.descWritten_fixed (s : State) (i : Nat) :
    (State.descWritten s i).fixed = s.fixed := by
  simp [State.descWritten]

@[simp] theorem State.setRing_fixed (s : State) (k : Nat) (t : TRing) :
    (State.setRing s k t).fixed = s.fixed := by
  simp [State.setRing]

@[simp] theorem State.ringWrite_fixed (s : State) (sl ring : Nat) (es : List RingEntry) :
    (State.ringWrite s sl ring es).fixed = s.fixed := by
  simp only [State.ringWrite]; (repeat' split) <;> (try simp)

@[simp] theorem State.reqWrite_fixed (s : State) (i : Nat) (r : Request) (es : List RingEntry) :
    (State.reqWrite s i r es).fixed = s.fixed := by
  simp only [State.reqWrite]; (repeat' split) <;> (try simp)

@[simp] theorem State.passCredit_fixed (s : State) (sl ring : Nat) :
    (State.passCredit s sl ring).fixed = s.fixed := by
  simp only [State.passCredit]; (repeat' split) <;> (try simp)

@[simp] theorem State.sessEvent_fixed (s : State) (i : Nat) (old new : Season) (cause : Nat) :
    (State.sessEvent s i old new cause).fixed = s.fixed := by
  simp [State.sessEvent]

@[simp] theorem State.palRef_fixed (s : State) (e : Nat) (up : Bool) :
    (State.palRef s e up).fixed = s.fixed := by
  simp only [State.palRef]; (repeat' split) <;> (try simp)

@[simp] theorem State.toEmpty_fixed (s : State) (i : Nat) :
    (State.toEmpty s i).fixed = s.fixed := by
  simp [State.toEmpty]

@[simp] theorem State.completeReq_fixed (s : State) (i : Nat) (r : Request) (status emitted : Nat) :
    (State.completeReq s i r status emitted).fixed = s.fixed := by
  simp only [State.completeReq]; (repeat' split) <;> (try simp)

@[simp] theorem State.endCancels_fixed (s : State) (i : Nat) :
    (State.endCancels s i).fixed = s.fixed := by
  simp [State.endCancels]

@[simp] theorem State.promote_fixed (s : State) (i : Nat) :
    (State.promote s i).fixed = s.fixed := by
  simp [State.promote]

@[simp] theorem State.noToken_fixed (s : State) (i : Nat) (r : Request) (flags : Nat) :
    (State.noToken s i r flags).fixed = s.fixed := by
  simp [State.noToken]

@[simp] theorem State.countEnd_fixed (s : State) (sl status : Nat) :
    (State.countEnd s sl status).fixed = s.fixed := by
  simp [State.countEnd]

@[simp] theorem State.endActive_fixed (s : State) (i status flags : Nat) (entry : Bool) :
    (State.endActive s i status flags entry).fixed = s.fixed := by
  simp [State.endActive]

@[simp] theorem State.endPending_fixed (s : State) (i status flags : Nat) :
    (State.endPending s i status flags).fixed = s.fixed := by
  simp [State.endPending]

@[simp] theorem State.dropRequests_fixed (s : State) (i status : Nat) :
    (State.dropRequests s i status).fixed = s.fixed := by
  simp [State.dropRequests]

end Sys2Proof.Machine

namespace Sys2Proof.Machine

@[simp] theorem State.setCore_fixed (s : State) (c : Nat) (x : Core) :
    (State.setCore s c x).fixed = s.fixed := by
  simp [State.setCore]

@[simp] theorem State.clearWritten_fixed (s : State) (sl : Nat) :
    (State.clearWritten s sl).fixed = s.fixed := by
  simp only [State.clearWritten]; (repeat' split) <;> (try simp)

@[simp] theorem State.rowCause_fixed (s : State) (sl i code : Nat) :
    (State.rowCause s sl i code).fixed = s.fixed := by
  simp only [State.rowCause]; (repeat' split) <;> (try simp)

@[simp] theorem State.stepCause_fixed (s : State) (sl code : Nat) :
    (State.stepCause s sl code).fixed = s.fixed := by
  simp only [State.stepCause]; (repeat' split) <;> (try simp)

@[simp] theorem State.pathLost_fixed (s : State) (c : Nat) (i : Inst) :
    (State.pathLost s c i).fixed = s.fixed := by
  simp [State.pathLost]

@[simp] theorem State.engineFault_fixed (s : State) (sl va code : Nat) :
    (State.engineFault s sl va code).fixed = s.fixed := by
  simp only [State.engineFault]; (repeat' split) <;> (try simp)

@[simp] theorem State.kernelFault_fixed (s : State) (c cause : Nat) :
    (State.kernelFault s c cause).fixed = s.fixed := by
  simp only [State.kernelFault]; (repeat' split) <;> (try simp)

@[simp] theorem State.issued_fixed (s : State) (c : Nat) (i : Inst) (r : Rec) (pos : Nat) :
    (State.issued s c i r pos).fixed = s.fixed := by
  simp [State.issued]

@[simp] theorem State.issueEngine_fixed (s : State) (c : Nat) (i : Inst) (r : Rec) :
    (State.issueEngine s c i r).fixed = s.fixed := by
  simp [State.issueEngine]

theorem execEngineRecord_fixed (core : BitVec 9) (s : State) {z : State} (hz : execEngineRecord core s = .next z) :
    z.fixed = s.fixed := by
  simp only [execEngineRecord] at hz; (repeat' split at hz) <;> (try simp at hz) <;> (try (obtain ⟨rfl, rfl⟩ := hz)) <;> (try subst hz) <;> (try simp)

theorem execWaitRecord_fixed (core : BitVec 9) (s : State) {z : State} (hz : execWaitRecord core s = .next z) :
    z.fixed = s.fixed := by
  simp only [execWaitRecord] at hz; (repeat' split at hz) <;> (try simp at hz) <;> (try (obtain ⟨rfl, rfl⟩ := hz)) <;> (try subst hz) <;> (try simp)

theorem execSignalRecord_fixed (core : BitVec 9) (s : State) {z : State} (hz : execSignalRecord core s = .next z) :
    z.fixed = s.fixed := by
  simp only [execSignalRecord] at hz; (repeat' split at hz) <;> (try simp at hz) <;> (try (obtain ⟨rfl, rfl⟩ := hz)) <;> (try subst hz) <;> (try simp)

@[simp] theorem State.loop_fixed (s : State) (c : Nat) (i : Inst) (r : Rec) :
    (State.loop s c i r).fixed = s.fixed := by
  unfold State.loop; dsimp only; split
  · exact State.kernelFault_fixed _ _ _
  · exact State.issued_fixed _ _ _ _ _

theorem execLoopRecord_fixed (core : BitVec 9) (s : State) {z : State} (hz : execLoopRecord core s = .next z) :
    z.fixed = s.fixed := by
  simp only [execLoopRecord] at hz; (repeat' split at hz) <;> (try simp at hz) <;> (try (obtain ⟨rfl, rfl⟩ := hz)) <;> (try subst hz) <;> (try simp)

@[simp] theorem State.setJob_fixed (s : State) (sl : Nat) (j : Job) :
    (State.setJob s sl j).fixed = s.fixed := by
  simp [State.setJob]

@[simp] theorem State.yield_fixed (s : State) (c : Nat) (i : Inst) (r : Rec) :
    (State.yield s c i r).fixed = s.fixed := by
  simp only [State.yield]; (repeat' split) <;> (try simp)

theorem execYieldRecord_fixed (core : BitVec 9) (s : State) {z : State} (hz : execYieldRecord core s = .next z) :
    z.fixed = s.fixed := by
  simp only [execYieldRecord] at hz; (repeat' split at hz) <;> (try simp at hz) <;> (try (obtain ⟨rfl, rfl⟩ := hz)) <;> (try subst hz) <;> (try simp)

theorem execEndRecord_fixed (core : BitVec 9) (s : State) {z : State} (hz : execEndRecord core s = .next z) :
    z.fixed = s.fixed := by
  simp only [execEndRecord] at hz; (repeat' split at hz) <;> (try simp at hz) <;> (try (obtain ⟨rfl, rfl⟩ := hz)) <;> (try subst hz) <;> (try simp)

@[simp] theorem State.engDone_fixed (s : State) (c e : Nat) :
    (State.engDone s c e).fixed = s.fixed := by
  simp only [State.engDone]; (repeat' split) <;> (try simp)

@[simp] theorem State.engRun_fixed (s : State) (c e op : Nat) (f : Inst → State → State) (hf : ∀ i t, (f i t).fixed = t.fixed) :
    (State.engRun s c e op f).fixed = s.fixed := by
  unfold State.engRun; split <;> simp [hf]

theorem execEngineCommandDone_fixed (core : BitVec 9) (engine : BitVec 3) (s : State) {z : State} (hz : execEngineCommandDone core engine s = .next z) :
    z.fixed = s.fixed := by
  simp only [execEngineCommandDone] at hz; (repeat' split at hz) <;> (try simp at hz) <;> (try (obtain ⟨rfl, rfl⟩ := hz)) <;> (try subst hz) <;> (try simp)

@[simp] theorem State.storeRead_fixed (s : State) (c : Nat) (reads : List (Nat × Nat)) :
    (State.storeRead s c reads).fixed = s.fixed := by
  simp [State.storeRead]

@[simp] theorem State.withStore_fixed (s : State) (c : Nat) (i : Inst) (reads writes : List (Nat × Nat)) (f : Core → State)
    (hf : ∀ x, (f x).fixed = s.fixed) : (State.withStore s c i reads writes f).fixed = s.fixed := by
  unfold State.withStore; dsimp only; (repeat' split) <;> simp [hf]

end Sys2Proof.Machine

namespace Sys2Proof.Machine

@[simp] theorem State.writeRow_fixed (s : State) (g : Geom) (pg : KvPage) (t : Nat) (r : KvRow) :
    (State.writeRow s g pg t r).fixed = s.fixed := by
  simp [State.writeRow]

@[simp] theorem State.writeRows_fixed (s : State) (g : Geom) (pg : KvPage) (rows : List KvRow) :
    (State.writeRows s g pg rows).fixed = s.fixed := by
  simp [State.writeRows]

end Sys2Proof.Machine
end

