-- ==== Sys2Proof/Laws/FixedEngines.lean ====
section
/-! SUPPORT. The engines, the regulators, ports and jobs keep the bundled fields. -/

namespace Sys2Proof.Machine

@[simp] theorem State.countResults_fixed (s : State) (nans ovfs : Nat) :
    (State.countResults s nans ovfs).fixed = s.fixed := by
  simp [State.countResults]

@[simp] theorem State.setSat_fixed (s : State) (sl : Nat) (x : Sat) :
    (State.setSat s sl x).fixed = s.fixed := by
  simp [State.setSat]

@[simp] theorem State.saturated_fixed (s : State) (sl layer n : Nat) :
    (State.saturated s sl layer n).fixed = s.fixed := by
  simp [State.saturated]

@[simp] theorem State.mm_fixed (s : State) (c me : Nat) (o : MmOps) (i : Inst) :
    (State.mm s c me o i).fixed = s.fixed := by
  unfold State.mm; dsimp only; split
  · simp
  · refine State.withStore_fixed _ _ _ _ _ _ ?_
    intro x; split <;> simp

theorem execMm_fixed (core : BitVec 9) (me : U1) (o : MmOps) (s : State) {z : State} (hz : execMm core me o s = .next z) :
    z.fixed = s.fixed := by
  simp only [execMm] at hz; (repeat' split at hz) <;> (try simp at hz) <;> (try (obtain ⟨rfl, rfl⟩ := hz)) <;> (try subst hz) <;> (try simp)

@[simp] theorem State.accOut_fixed (s : State) (c me bank dst : Nat) (half : Bool) (i : Inst) :
    (State.accOut s c me bank dst half i).fixed = s.fixed := by
  simp [State.accOut]

theorem execAccOut_fixed (core : BitVec 9) (me : U1) (bank : BitVec 2) (dst : BitVec 23) (half : U1) (s : State) {z : State} (hz : execAccOut core me bank dst half s = .next z) :
    z.fixed = s.fixed := by
  simp only [execAccOut] at hz; (repeat' split at hz) <;> (try simp at hz) <;> (try (obtain ⟨rfl, rfl⟩ := hz)) <;> (try subst hz) <;> (try simp)

@[simp] theorem State.funcPlain_fixed (s : State) (c : Nat) (o : FuncOps) (i : Inst) :
    (State.funcPlain s c o i).fixed = s.fixed := by
  simp [State.funcPlain]

@[simp] theorem State.funcQuantise_fixed (s : State) (c : Nat) (o : FuncOps) (i : Inst) :
    (State.funcQuantise s c o i).fixed = s.fixed := by
  simp [State.funcQuantise]

@[simp] theorem State.funcDequantise_fixed (s : State) (c : Nat) (o : FuncOps) (i : Inst) :
    (State.funcDequantise s c o i).fixed = s.fixed := by
  unfold State.funcDequantise; dsimp only; split
  · simp
  · refine State.withStore_fixed _ _ _ _ _ _ ?_
    intro x; split <;> simp

@[simp] theorem State.func_fixed (s : State) (c : Nat) (o : FuncOps) (i : Inst) :
    (State.func s c o i).fixed = s.fixed := by
  simp [State.func]

theorem execFunc_fixed (core : BitVec 9) (o : FuncOps) (s : State) {z : State} (hz : execFunc core o s = .next z) :
    z.fixed = s.fixed := by
  simp only [execFunc] at hz; (repeat' split at hz) <;> (try simp at hz) <;> (try (obtain ⟨rfl, rfl⟩ := hz)) <;> (try subst hz) <;> (try simp)

@[simp] theorem State.satWindowEnd_fixed (s : State) (sl layers : Nat) :
    (State.satWindowEnd s sl layers).fixed = s.fixed := by
  simp [State.satWindowEnd]

@[simp] theorem State.satApply_fixed (s : State) (sl step : Nat) :
    (State.satApply s sl step).fixed = s.fixed := by
  simp [State.satApply]

end Sys2Proof.Machine

namespace Sys2Proof.Machine

@[simp] theorem State.sendPart_fixed (s : State) (o : AttnOps) (qb : Nat × Nat) (body : Bytes) :
    (State.sendPart s o qb body).fixed = s.fixed := by
  simp [State.sendPart]

@[simp] theorem State.sendQuery_fixed (s : State) (o : AttnOps) (row : Nat) (body : Bytes) :
    (State.sendQuery s o row body).fixed = s.fixed := by
  simp [State.sendQuery]

@[simp] theorem State.resultIn_fixed (s : State) (b : Bytes) :
    (State.resultIn s b).fixed = s.fixed := by
  simp only [State.resultIn]; (repeat' split) <;> (try simp)

@[simp] theorem State.attn_fixed (s : State) (c : Nat) (o : AttnOps) (i : Inst) :
    (State.attn s c o i).fixed = s.fixed := by
  simp only [State.attn]; (repeat' split) <;> (try simp)

theorem execAttn_fixed (core : BitVec 9) (o : AttnOps) (s : State) {z : State} (hz : execAttn core o s = .next z) :
    z.fixed = s.fixed := by
  unfold execAttn at hz; dsimp only at hz
  rw [← apply_ite Host.Outcome.next] at hz; cases hz; rw [fixed_ite, State.engRun_fixed _ _ _ _ _ (by simp)]; simp

@[simp] theorem State.merge_fixed (s : State) (c list count rows heads out : Nat) (i : Inst) :
    (State.merge s c list count rows heads out i).fixed = s.fixed := by
  simp only [State.merge]; (repeat' split) <;> (try simp)

theorem execMerge_fixed (core : BitVec 9) (list : BitVec 23) (count rows heads : U16) (out : BitVec 23) (s : State) {z : State} (hz : execMerge core list count rows heads out s = .next z) :
    z.fixed = s.fixed := by
  simp only [execMerge] at hz; (repeat' split at hz) <;> (try simp at hz) <;> (try (obtain ⟨rfl, rfl⟩ := hz)) <;> (try subst hz) <;> (try simp)

end Sys2Proof.Machine

namespace Sys2Proof.Machine

@[simp] theorem State.lcWaiting_fixed (s : State) (k : Nat) (on : Bool) :
    (State.lcWaiting s k on).fixed = s.fixed := by
  simp [State.lcWaiting]

@[simp] theorem State.regAdmit_fixed (s : State) (sl r n : Nat) (lc : Bool) : (State.regAdmit s sl r n lc).2.fixed = s.fixed := by
  unfold State.regAdmit; (try dsimp only); (repeat' split) <;> (try simp)

@[simp] theorem State.admitted_fixed (s : State) (sl r n : Nat) (lc idle : Bool) :
    (State.admitted s sl r n lc idle).fixed = s.fixed := by
  unfold State.admitted; (try dsimp only); split <;> simp

theorem execRegulatorAdmit_fixed (slice : BitVec 6) (reg : BitVec 4) (bytes : U32) (lc idle : U1) (s : State) {z : State} (hz : execRegulatorAdmit slice reg bytes lc idle s = .next z) :
    z.fixed = s.fixed := by
  simp only [execRegulatorAdmit] at hz; (repeat' split at hz) <;> (try simp at hz) <;> (try (obtain ⟨rfl, rfl⟩ := hz)) <;> (try subst hz) <;> (try simp)

@[simp] theorem State.commitRegul_fixed (s : State) (sl r rate cfg : Nat) :
    (State.commitRegul s sl r rate cfg).fixed = s.fixed := by
  simp [State.commitRegul]

@[simp] theorem State.qosReject_fixed (s : State) (sl code : Nat) :
    (State.qosReject s sl code).fixed = s.fixed := by
  simp [State.qosReject]

@[simp] theorem State.commitMeter_fixed (s : State) (sl i sel cir pir burst : Nat) :
    (State.commitMeter s sl i sel cir pir burst).fixed = s.fixed := by
  simp [State.commitMeter]

@[simp] theorem State.rateWrite_fixed (s : State) (r : Reg) (sl i k v : Nat) :
    (State.rateWrite s r sl i k v).fixed = s.fixed := by
  simp [State.rateWrite]

@[simp] theorem State.cfgWrite_fixed (s : State) (sl k v : Nat) :
    (State.cfgWrite s sl k v).fixed = s.fixed := by
  simp only [State.cfgWrite]; (repeat' split) <;> (try simp)

@[simp] theorem State.selWrite_fixed (s : State) (sl i v : Nat) :
    (State.selWrite s sl i v).fixed = s.fixed := by
  simp only [State.selWrite]; (repeat' split) <;> (try simp)

theorem State.qosWrite_fixed (s : State) (r : Reg) (sl i v : Nat) {z : State} (hz : State.qosWrite s r sl i v = some z) :
    z.fixed = s.fixed := by
  unfold State.qosWrite at hz; (repeat' split at hz) <;> (try (cases hz)) <;> (try simp)

@[simp] theorem State.qosImage_fixed (s : State) (sl : Nat) :
    (State.qosImage s sl).fixed = s.fixed := by
  unfold State.qosImage; simp only [State.setReg_fixed]
  rw [foldl_fixed _ (by intro t x; split <;> simp), foldl_fixed _ (by intro t x; simp)]

@[simp] theorem State.metered_fixed (s : State) (p vl src flits : Nat) (lc : Bool) (colour : Nat) :
    (State.metered s p vl src flits lc colour).1.fixed = s.fixed := by
  simp only [State.metered]; (repeat' split) <;> (try simp)

end Sys2Proof.Machine

namespace Sys2Proof.Machine

@[simp] theorem State.noteCuts_fixed (s : State) :
    (State.noteCuts s).fixed = s.fixed := by
  simp [State.noteCuts]

@[simp] theorem State.sendLinks_fixed (s : State) :
    (State.sendLinks s).fixed = s.fixed := by
  simp only [State.sendLinks]; (repeat' split) <;> (try simp)

@[simp] theorem State.again_fixed (s : State) (t : Txn) :
    (State.again s t).fixed = s.fixed := by
  simp [State.again]

@[simp] theorem State.portFail_fixed (s : State) (p : Nat) :
    (State.portFail s p).fixed = s.fixed := by
  simp [State.portFail]

@[simp] theorem State.bringupFail_fixed (s : State) (p : Nat) :
    (State.bringupFail s p).fixed = s.fixed := by
  simp [State.bringupFail]

@[simp] theorem State.bringup_fixed (s : State) (p : Nat) :
    (State.bringup s p).fixed = s.fixed := by
  simp [State.bringup]

@[simp] theorem State.flitFields_fixed (s : State) (p : Nat) (f : Flit) :
    (State.flitFields s p f).fixed = s.fixed := by
  simp only [State.flitFields]; (repeat' split) <;> (try simp)

@[simp] theorem State.sendAck_fixed (s : State) (p : Nat) (nak : Bool) :
    (State.sendAck s p nak).fixed = s.fixed := by
  simp [State.sendAck]

@[simp] theorem State.dataFlit_fixed (s : State) (p : Nat) (f : Flit) :
    (State.dataFlit s p f).fixed = s.fixed := by
  simp [State.dataFlit]

@[simp] theorem State.flitReceive_fixed (s : State) (p : Nat) (f : Flit) :
    (State.flitReceive s p f).fixed = s.fixed := by
  simp [State.flitReceive]

theorem execFlitReceive_fixed (port : BitVec 6) (f : Flit) (s : State) {z : State} (hz : execFlitReceive port f s = .next z) :
    z.fixed = s.fixed := by
  simp only [execFlitReceive] at hz; (repeat' split at hz) <;> (try simp at hz) <;> (try (obtain ⟨rfl, rfl⟩ := hz)) <;> (try subst hz) <;> (try simp)

theorem execAckIntervalExpiry_fixed (port : BitVec 6) (s : State) {z : State} (hz : execAckIntervalExpiry port s = .next z) :
    z.fixed = s.fixed := by
  simp only [execAckIntervalExpiry] at hz; (repeat' split at hz) <;> (try simp at hz) <;> (try (obtain ⟨rfl, rfl⟩ := hz)) <;> (try subst hz) <;> (try simp)

theorem execLaneFailure_fixed (port : BitVec 6) (good : U8) (s : State) {z : State} (hz : execLaneFailure port good s = .next z) :
    z.fixed = s.fixed := by
  simp only [execLaneFailure] at hz; (repeat' split at hz) <;> (try simp at hz) <;> (try (obtain ⟨rfl, rfl⟩ := hz)) <;> (try subst hz) <;> (try simp)

theorem execPortTrainingDone_fixed (port : BitVec 6) (good : U8) (s : State) {z : State} (hz : execPortTrainingDone port good s = .next z) :
    z.fixed = s.fixed := by
  simp only [execPortTrainingDone] at hz; (repeat' split at hz) <;> (try simp at hz) <;> (try (obtain ⟨rfl, rfl⟩ := hz)) <;> (try subst hz) <;> (try simp)

theorem execHello_fixed (port : BitVec 6) (o : HelloOps) (s : State) {z : State} (hz : execHello port o s = .next z) :
    z.fixed = s.fixed := by
  simp only [execHello] at hz; (repeat' split at hz) <;> (try simp at hz) <;> (try (obtain ⟨rfl, rfl⟩ := hz)) <;> (try subst hz) <;> (try simp)

theorem execKeyConfirm_fixed (port : BitVec 6) (identity : U256) (sigOk : U1) (s : State) {z : State} (hz : execKeyConfirm port identity sigOk s = .next z) :
    z.fixed = s.fixed := by
  simp only [execKeyConfirm] at hz; (repeat' split at hz) <;> (try simp at hz) <;> (try (obtain ⟨rfl, rfl⟩ := hz)) <;> (try subst hz) <;> (try simp)

theorem execBringupRetry_fixed (port : BitVec 6) (s : State) {z : State} (hz : execBringupRetry port s = .next z) :
    z.fixed = s.fixed := by
  simp only [execBringupRetry] at hz; (repeat' split at hz) <;> (try simp at hz) <;> (try (obtain ⟨rfl, rfl⟩ := hz)) <;> (try subst hz) <;> (try simp)

@[simp] theorem State.startRekey_fixed (s : State) (p : Nat) :
    (State.startRekey s p).fixed = s.fixed := by
  simp [State.startRekey]

theorem execFrameCountRekey_fixed (port : BitVec 6) (s : State) {z : State} (hz : execFrameCountRekey port s = .next z) :
    z.fixed = s.fixed := by
  simp only [execFrameCountRekey] at hz; (repeat' split at hz) <;> (try simp at hz) <;> (try (obtain ⟨rfl, rfl⟩ := hz)) <;> (try subst hz) <;> (try simp)

theorem execRekeyDone_fixed (port : BitVec 6) (s : State) {z : State} (hz : execRekeyDone port s = .next z) :
    z.fixed = s.fixed := by
  simp only [execRekeyDone] at hz; (repeat' split at hz) <;> (try simp at hz) <;> (try (obtain ⟨rfl, rfl⟩ := hz)) <;> (try subst hz) <;> (try simp)

@[simp] theorem State.portOff_fixed (s : State) (p : Nat) :
    (State.portOff s p).fixed = s.fixed := by
  simp [State.portOff]

theorem execPortEnable_fixed (h : Hdr) (port : BitVec 6) (s : State) {z : State} (hz : execPortEnable h port s = .next z) :
    z.fixed = s.fixed := by
  unfold execPortEnable at hz; (try dsimp only at hz); refine hostCmd_fixed ?_ hz; intro u g; (try dsimp only); (repeat' split) <;> (try simp [withIndex]) <;> (repeat (first | rfl | refine Eq.trans (hostCmd_fixed (by assumption)) ?_)) <;> (try simp)

theorem execPortDisable_fixed (h : Hdr) (port : BitVec 6) (s : State) {z : State} (hz : execPortDisable h port s = .next z) :
    z.fixed = s.fixed := by
  unfold execPortDisable at hz; (try dsimp only at hz); refine hostCmd_fixed ?_ hz; intro u g; (try dsimp only); (repeat' split) <;> (try simp [withIndex]) <;> (repeat (first | rfl | refine Eq.trans (hostCmd_fixed (by assumption)) ?_)) <;> (try simp)

theorem execPortRekey_fixed (h : Hdr) (port : BitVec 6) (s : State) {z : State} (hz : execPortRekey h port s = .next z) :
    z.fixed = s.fixed := by
  unfold execPortRekey at hz; (try dsimp only at hz); refine hostCmd_fixed ?_ hz; intro u g; (try dsimp only); (repeat' split) <;> (try simp [withIndex]) <;> (repeat (first | rfl | refine Eq.trans (hostCmd_fixed (by assumption)) ?_)) <;> (try simp)

end Sys2Proof.Machine

namespace Sys2Proof.Machine

@[simp] theorem State.answer_fixed (s : State) (t : TxHdr) (type rtype status result : Nat) (data : Bytes) (poison : Bool) :
    (State.answer s t type rtype status result data poison).fixed = s.fixed := by
  simp only [State.answer]; (repeat' split) <;> (try simp)

@[simp] theorem State.respCode_fixed (s : State) (t : TxHdr) (type code : Nat) :
    (State.respCode s t type code).fixed = s.fixed := by
  simp [State.respCode]

@[simp] theorem State.leaveBuffer_fixed (s : State) (p vl n : Nat) :
    (State.leaveBuffer s p vl n).fixed = s.fixed := by
  simp [State.leaveBuffer]

@[simp] theorem State.arrive_fixed (s : State) (t : TxHdr) (type op n vl : Nat) (request : Bool) :
    (State.arrive s t type op n vl request).1.fixed = s.fixed := by
  simp only [State.arrive]; (repeat' split) <;> (try simp)

@[simp] theorem State.tagSeen_fixed (s : State) (src tag : Nat) :
    (State.tagSeen s src tag).fixed = s.fixed := by
  simp [State.tagSeen]

@[simp] theorem State.tagDone_fixed (s : State) (src tag status result : Nat) :
    (State.tagDone s src tag status result).fixed = s.fixed := by
  simp [State.tagDone]

@[simp] theorem State.tagRuns_fixed (s : State) (src tag : Nat) :
    (State.tagRuns s src tag).fixed = s.fixed := by
  simp [State.tagRuns]

@[simp] theorem State.lateAnswer_fixed (s : State) (t : TxHdr) (type status result : Nat) :
    (State.lateAnswer s t type status result).fixed = s.fixed := by
  simp [State.lateAnswer]

@[simp] theorem State.execute_fixed (s : State) (r : Rule) (hr : r.Keeps) :
    (State.execute s r).fixed = s.fixed := by
  unfold State.execute; dsimp only; split <;> simp [hr.eq]

@[simp] theorem State.forward_fixed (s : State) (r : Rule) (dev : Nat) :
    (State.forward s r dev).fixed = s.fixed := by
  simp only [State.forward]; (repeat' split) <;> (try simp)

@[simp] theorem State.judge_fixed (s : State) (r : Rule) (last : Bool) (hr : r.Keeps) :
    (State.judge s r last).fixed = s.fixed := by
  unfold State.judge; dsimp only; (repeat' split) <;> simp [hr]

@[simp] theorem State.serve_fixed (s : State) (r : Rule) (hr : r.Keeps) :
    (State.serve s r).fixed = s.fixed := by
  unfold State.serve; dsimp only; (repeat' split) <;> simp [hr, hr.eq]

theorem execUnsupportedTransaction_fixed (t : TxHdr) (type op : U8) (s : State) {z : State} (hz : execUnsupportedTransaction t type op s = .next z) :
    z.fixed = s.fixed := by
  cases hz; split <;> simp

theorem execTransitForward_fixed (t : TxHdr) (dst : U16) (type op : U8) (data : Bytes) (s : State) {z : State} (hz : execTransitForward t dst type op data s = .next z) :
    z.fixed = s.fixed := by
  unfold execTransitForward at hz; dsimp only at hz
  (repeat' split at hz) <;> cases hz <;> simp <;> (repeat' split) <;> simp

@[simp] theorem State.setTxn_fixed (s : State) (t : Txn) :
    (State.setTxn s t).fixed = s.fixed := by
  simp [State.setTxn]

@[simp] theorem State.endTxn_fixed (s : State) (dev tag : Nat) :
    (State.endTxn s dev tag).fixed = s.fixed := by
  simp only [State.endTxn]; (repeat' split) <;> (try simp)

@[simp] theorem State.arriveResp_fixed (s : State) (t : TxHdr) (rtype n : Nat) :
    (State.arriveResp s t rtype n).1.fixed = s.fixed := by
  simp [State.arriveResp]

theorem execDrop_fixed (t : TxHdr) (s : State) {z : State} (hz : execDrop t s = .next z) :
    z.fixed = s.fixed := by
  unfold execDrop at hz; (try dsimp only at hz); split at hz <;> cases hz <;> simp

theorem execQosHoldoffExpiry_fixed (dev : U16) (tag : U32) (s : State) {z : State} (hz : execQosHoldoffExpiry dev tag s = .next z) :
    z.fixed = s.fixed := by
  simp only [execQosHoldoffExpiry] at hz; (repeat' split at hz) <;> (try simp at hz) <;> (try (obtain ⟨rfl, rfl⟩ := hz)) <;> (try subst hz) <;> (try simp)

theorem execTxnResend_fixed (dev : U16) (tag : U32) (s : State) {z : State} (hz : execTxnResend dev tag s = .next z) :
    z.fixed = s.fixed := by
  simp only [execTxnResend] at hz; (repeat' split at hz) <;> (try simp at hz) <;> (try (obtain ⟨rfl, rfl⟩ := hz)) <;> (try subst hz) <;> (try simp)

end Sys2Proof.Machine

namespace Sys2Proof.Machine

@[simp] theorem State.evict_fixed (s : State) (f : FetchGran) :
    (State.evict s f).fixed = s.fixed := by
  simp [State.evict]

theorem State.makePlace_fixed (s : State) (sl size : Nat) (x0 : Nat) {z : State} {w} (hz : State.makePlace s sl size x0 = some (z, w)) :
    z.fixed = s.fixed := by
  induction x0 generalizing s z w with
  | zero =>
    obtain ⟨a, ha, e⟩ := Option.map_eq_some_iff.1 hz; cases e; rfl
  | succ n ih =>
    simp only [State.makePlace] at hz
    split at hz
    · cases hz; rfl
    · obtain ⟨a, ha, e⟩ := Option.bind_eq_some_iff.1 hz; exact (ih _ e).trans (by simp)

@[simp] theorem State.fetchStart_fixed (s : State) (o : Obj) (va : Nat) :
    (State.fetchStart s o va).fixed = s.fixed := by
  unfold State.fetchStart; dsimp only; split
  · rfl
  · split
    · rfl
    · rename_i h
      rw [foldl_fixed _ (by intro t x; simp)]
      simpa using State.makePlace_fixed _ _ _ _ h

@[simp] theorem State.fetchFault_fixed (s : State) (o : Obj) (va : Nat) :
    (State.fetchFault s o va).fixed = s.fixed := by
  simp [State.fetchFault]

@[simp] theorem State.homeWrite_fixed (s : State) (o : Obj) (va : Nat) (b : Bytes) (bad : Bool) :
    (State.homeWrite s o va b bad).fixed = s.fixed := by
  simp [State.homeWrite]

@[simp] theorem State.switchLeaves_fixed (s : State) (old n new : Nat) :
    (State.switchLeaves s old n new).fixed = s.fixed := by
  simp [State.switchLeaves]

@[simp] theorem State.rekeyRegion_fixed (s : State) (r : Region) :
    (State.rekeyRegion s r).fixed = s.fixed := by
  unfold State.rekeyRegion; dsimp only; split
  · simp
  · rename_i h
    simpa using State.alloc_fixed _ _ _ _ _ _ h

@[simp] theorem State.rekeyAt_fixed (s : State) (pas : List Nat) :
    (State.rekeyAt s pas).fixed = s.fixed := by
  simp only [State.rekeyAt]; rw [foldl_fixed _ (by intro t x; (repeat' split) <;> (try simp))] <;> (try simp)

theorem State.unshare_fixed (s : State) (sl va n : Nat) {z : State} (hz : State.unshare s sl va n = some z) :
    z.fixed = s.fixed := by
  unfold State.unshare at hz
  suffices h : ∀ (l : List Nat) (o : Option State), (∀ t, o = some t → t.fixed = s.fixed) → ∀ t, (l.foldl (fun (acc : Option State) w => acc.bind fun t =>
    match t.windowOwner sl w, t.geom sl with
    | some (i, d), some g =>
      let l := (t.kvOf i).sharedIn g d.windowBase va n
      if l.isEmpty then some t else t.privateAll sl g d i l
    | _, _ => some t) o) = some t → t.fixed = s.fixed from h _ _ (fun t e => by cases e; rfl) _ hz
  intro l
  induction l with
  | nil => intro o ho t e; exact ho t e
  | cons w l ih =>
    intro o ho t e
    refine ih _ ?_ t e
    intro u hu
    obtain ⟨a, ha, hb⟩ := Option.bind_eq_some_iff.1 hu
    (try dsimp only at hb)
    split at hb
    · split at hb
      · cases hb; exact ho _ ha
      · exact (State.privateAll_fixed _ _ _ _ _ _ hb).trans (ho _ ha)
    · cases hb; exact ho _ ha

@[simp] theorem State.wantCopy_fixed (s : State) (pa : Nat) :
    (State.wantCopy s pa).fixed = s.fixed := by
  simp [State.wantCopy]

@[simp] theorem State.poisonRange_fixed (s : State) (sl va n : Nat) :
    (State.poisonRange s sl va n).fixed = s.fixed := by
  simp [State.poisonRange]

@[simp] theorem State.engineWrite_fixed (s0 : State) (sl va : Nat) (b : Bytes) (bad : Bool) :
    (State.engineWrite s0 sl va b bad).fixed = s0.fixed := by
  unfold State.engineWrite
  have h0 : ((s0.unshare sl va b.length).getD s0).fixed = s0.fixed := by
    cases h : s0.unshare sl va b.length with
    | none => rfl
    | some t => exact State.unshare_fixed _ _ _ _ h
  generalize (s0.unshare sl va b.length).getD s0 = s at h0 ⊢
  rw [← h0]; (try dsimp only); (repeat' split) <;> simp

@[simp] theorem State.gessoRange_fixed (s : State) (sl va n : Nat) :
    (State.gessoRange s sl va n).fixed = s.fixed := by
  simp only [State.gessoRange]; rw [foldl_fixed _ (by intro t x; (repeat' split) <;> (try simp))] <;> (try simp)

@[simp] theorem State.writeFrom_fixed (s : State) (d sl va : Nat) (b : Bytes) (bad : Bool) :
    (State.writeFrom s d sl va b bad).fixed = s.fixed := by
  simp [State.writeFrom]

end Sys2Proof.Machine

namespace Sys2Proof.Machine

@[simp] theorem State.jobStarted_fixed (s : State) (sl prog first : Nat) :
    (State.jobStarted s sl prog first).fixed = s.fixed := by
  simp [State.jobStarted]

theorem execJobStart_fixed (h : Hdr) (slice : BitVec 6) (program : BitVec 4) (firstStep : U64) (s : State) {z : State} (hz : execJobStart h slice program firstStep s = .next z) :
    z.fixed = s.fixed := by
  unfold execJobStart at hz; (try dsimp only at hz); split at hz; exact (by cases hz; rfl); refine hostCmd_fixed ?_ hz; intro u g; (try dsimp only); (repeat' split) <;> (try simp [withIndex]) <;> (repeat (first | rfl | refine Eq.trans (hostCmd_fixed (by assumption)) ?_)) <;> (try simp)

@[simp] theorem State.toAutumn_fixed (s : State) (i : Nat) :
    (State.toAutumn s i).fixed = s.fixed := by
  simp [State.toAutumn]

@[simp] theorem State.allToAutumn_fixed (s : State) (sl : Nat) :
    (State.allToAutumn s sl).fixed = s.fixed := by
  simp [State.allToAutumn]

@[simp] theorem State.jobCheckEnd_fixed (s : State) (sl : Nat) :
    (State.jobCheckEnd s sl).fixed = s.fixed := by
  simp only [State.jobCheckEnd]; (repeat' split) <;> (try simp)

@[simp] theorem State.countWaits_fixed (s : State) (sl n : Nat) :
    (State.countWaits s sl n).fixed = s.fixed := by
  simp [State.countWaits]

@[simp] theorem State.dispatch_fixed (s : State) (sl phase : Nat) (x0 : Nat) :
    (State.dispatch s sl phase x0).fixed = s.fixed := by
  induction x0 generalizing s sl phase with | zero => (simp [State.dispatch]) | succ n ih => (simp only [State.dispatch]; (repeat' split) <;> (try simp [ih]))

@[simp] theorem State.dropYielded_fixed (s : State) (sl : Nat) (j : Job) :
    (State.dropYielded s sl j).fixed = s.fixed := by
  simp [State.dropYielded]

@[simp] theorem State.jobEnding_fixed (s : State) (sl : Nat) (j : Job) (t : Tag) :
    (State.jobEnding s sl j t).fixed = s.fixed := by
  simp [State.jobEnding]

theorem execJobEnd_fixed (h : Hdr) (slice : BitVec 6) (s : State) {z : State} (hz : execJobEnd h slice s = .next z) :
    z.fixed = s.fixed := by
  unfold execJobEnd at hz; (try dsimp only at hz); refine hostCmd_fixed ?_ hz; intro u g; (try dsimp only); (repeat' split) <;> (try simp [withIndex]) <;> (repeat (first | rfl | refine Eq.trans (hostCmd_fixed (by assumption)) ?_)) <;> (try simp)

@[simp] theorem State.placed_fixed (s : State) (sl : Nat) (i : Inst) (c : Nat) (j : Job) :
    (State.placed s sl i c j).fixed = s.fixed := by
  simp [State.placed]

theorem execInstancePlace_fixed (slice : BitVec 6) (s : State) {z : State} (hz : execInstancePlace slice s = .next z) :
    z.fixed = s.fixed := by
  simp only [execInstancePlace] at hz; (repeat' split at hz) <;> (try simp at hz) <;> (try (obtain ⟨rfl, rfl⟩ := hz)) <;> (try subst hz) <;> (try simp)

@[simp] theorem State.sendResult_fixed (s : State) (q : MemberQuery) (body : Bytes) :
    (State.sendResult s q body).fixed = s.fixed := by
  simp [State.sendResult]

@[simp] theorem State.queuePartial_fixed (s : State) (i : Inst) :
    (State.queuePartial s i).fixed = s.fixed := by
  simp only [State.queuePartial]; (repeat' split) <;> (try simp)

@[simp] theorem State.partialGone_fixed (s : State) (i : Inst) (x : Core) :
    (State.partialGone s i x).fixed = s.fixed := by
  simp only [State.partialGone]; (repeat' split) <;> (try simp)

@[simp] theorem State.instGone_fixed (s : State) (c : Nat) :
    (State.instGone s c).fixed = s.fixed := by
  simp only [State.instGone]; (repeat' split) <;> (try simp)

theorem execInstanceEnd_fixed (core : BitVec 9) (s : State) {z : State} (hz : execInstanceEnd core s = .next z) :
    z.fixed = s.fixed := by
  simp only [execInstanceEnd] at hz; (repeat' split at hz) <;> (try simp at hz) <;> (try (obtain ⟨rfl, rfl⟩ := hz)) <;> (try subst hz) <;> (try simp)

end Sys2Proof.Machine
end

