-- ==== Sys2Proof/Laws/FixedSessions.lean ====
section
/-! SUPPORT. Canvases, sessions, steps, movers, tiers and the palette keep the bundled fields. -/

namespace Sys2Proof.Machine

@[simp] theorem State.freeCanvas_fixed (s : State) (d : Desc) :
    (State.freeCanvas s d).fixed = s.fixed := by
  simp only [State.freeCanvas]; (repeat' split) <;> (try simp)

@[simp] theorem State.setOp_fixed (s : State) (o : CanvasOp) :
    (State.setOp s o).fixed = s.fixed := by
  simp [State.setOp]

@[simp] theorem State.delStream_fixed (s : State) (i : Nat) :
    (State.delStream s i).fixed = s.fixed := by
  simp [State.delStream]

@[simp] theorem State.ceBegin_fixed (s : State) (k : Nat) (x : CanvasOp × Nat) :
    (State.ceBegin s k x).fixed = s.fixed := by
  simp [State.ceBegin]

@[simp] theorem State.ceOffer_fixed (s : State) (k : Nat) (q : List (CanvasOp × Nat)) :
    (State.ceOffer s k q).2.fixed = s.fixed := by
  induction q generalizing s with
  | nil => rfl
  | cons x q ih => simp only [State.ceOffer]; (repeat' split) <;> simp [ih]

@[simp] theorem State.ceTake_fixed (s : State) (k : Nat) :
    (State.ceTake s k).fixed = s.fixed := by
  unfold State.ceTake; (try dsimp only); (repeat' split) <;> simp

@[simp] theorem State.ceFill_fixed (s : State) :
    (State.ceFill s).fixed = s.fixed := by
  simp [State.ceFill]

@[simp] theorem State.addOp_fixed (s : State) (o : CanvasOp) :
    (State.addOp s o).fixed = s.fixed := by
  simp [State.addOp]

@[simp] theorem State.delOp_fixed (s : State) (i : Nat) :
    (State.delOp s i).fixed = s.fixed := by
  simp [State.delOp]

@[simp] theorem State.guardAll_fixed (s : State) (i : Nat) (g : Bool) :
    (State.guardAll s i g).fixed = s.fixed := by
  simp [State.guardAll]

@[simp] theorem State.startPark_fixed (s : State) (i : Nat) (op : SessOp) (tier : Nat) (addr : U64) (members : List Nat) (deep comp lc : Bool) :
    (State.startPark s i op tier addr members deep comp lc).fixed = s.fixed := by
  simp [State.startPark]

@[simp] theorem State.abandonPark_fixed (s : State) (i : Nat) :
    (State.abandonPark s i).fixed = s.fixed := by
  simp only [State.abandonPark]; (repeat' split) <;> (try simp) <;> (rw [foldl_fixed _ (by intro t x; (repeat' split) <;> (try simp))]) <;> (try simp)

@[simp] theorem State.pageCopied_fixed (s : State) (o : CanvasOp) (n : Nat) :
    (State.pageCopied s o n).fixed = s.fixed := by
  simp only [State.pageCopied]; (repeat' split) <;> (try simp)

@[simp] theorem State.smallDone_fixed (s : State) (o : CanvasOp) :
    (State.smallDone s o).fixed = s.fixed := by
  simp [State.smallDone]

theorem State.thawPages_fixed (s : State) (i : Nat) (c : Canvas) {z : State} {w} (hz : State.thawPages s i c = some (z, w)) :
    z.fixed = s.fixed := by
  obtain ⟨p, hp, e⟩ := Option.bind_eq_some_iff.1 hz
  exact State.takePages_fixed _ _ _ _ _ _ _ _ e

theorem State.thawRoom_fixed (s : State) (i : Nat) (c : Canvas) {z : State} (hz : State.thawRoom s i c = some z) :
    z.fixed = s.fixed := by
  obtain ⟨x, hx, e⟩ := Option.bind_eq_some_iff.1 hz
  exact (State.remap_fixed _ _ e).trans (by simpa using State.thawPages_fixed _ _ _ (w := x.2) hx)

@[simp] theorem State.startThaw_fixed (s : State) (i : Nat) (c : Canvas) (stream runahead : Bool) :
    (State.startThaw s i c stream runahead).fixed = s.fixed := by
  unfold State.startThaw; (try dsimp only); split
  · rfl
  · rename_i t h
    simpa using State.thawRoom_fixed _ _ _ h

@[simp] theorem State.abandonThaw_fixed (s : State) (i : Nat) :
    (State.abandonThaw s i).fixed = s.fixed := by
  simp [State.abandonThaw]

@[simp] theorem State.rebuildPage_fixed (s : State) (o : CanvasOp) (n : Nat) :
    (State.rebuildPage s o n).fixed = s.fixed := by
  simp only [State.rebuildPage]; (repeat' split) <;> (try simp)

@[simp] theorem State.ceBytes_fixed (s : State) (sl die n : Nat) :
    (State.ceBytes s sl die n).fixed = s.fixed := by
  simp [State.ceBytes]

theorem State.sideAreas_fixed (s : State) (i : Nat) {z : State} (hz : State.sideAreas s i = some z) :
    z.fixed = s.fixed := by
  unfold State.sideAreas at hz; dsimp only at hz
  obtain ⟨a, ha, e⟩ := Option.bind_eq_some_iff.1 hz
  have h1 : a.fixed = s.fixed := by
    split at ha
    · cases ha; rfl
    · obtain ⟨b, hb, e⟩ := Option.map_eq_some_iff.1 ha; cases e
      simpa using State.alloc_fixed _ _ _ _ _ _ (w := b.2) hb
  refine Eq.trans ?_ h1
  split at e
  · cases e; rfl
  · obtain ⟨b, hb, e⟩ := Option.map_eq_some_iff.1 e; cases e
    simpa using State.alloc_fixed _ _ _ _ _ _ (w := b.2) hb

@[simp] theorem State.fillSide_fixed (s : State) (i : Nat) (scratch : Bytes) (cursors : Bytes) :
    (State.fillSide s i scratch cursors).fixed = s.fixed := by
  unfold State.fillSide; split
  · rfl
  · split
    · rfl
    · rename_i h
      obtain ⟨t, ht, e⟩ := Option.bind_eq_some_iff.1 h
      simpa using (State.remap_fixed _ _ e).trans (State.sideAreas_fixed _ _ ht)

end Sys2Proof.Machine

namespace Sys2Proof.Machine

@[simp] theorem State.stopPark_fixed (s : State) (i status : Nat) :
    (State.stopPark s i status).fixed = s.fixed := by
  simp [State.stopPark]

@[simp] theorem State.stopThaw_fixed (s : State) (i status : Nat) :
    (State.stopThaw s i status).fixed = s.fixed := by
  simp [State.stopThaw]

@[simp] theorem State.stopStream_fixed (s : State) (i : Nat) :
    (State.stopStream s i).fixed = s.fixed := by
  simp [State.stopStream]

@[simp] theorem State.storeReq_fixed (s0 : State) (i : Nat) (q : Request) :
    (State.storeReq s0 i q).fixed = s0.fixed := by
  simp [State.storeReq]

theorem execRequest_fixed (h : Hdr) (r : ReqOps) (s : State) {z : State} (hz : execRequest h r s = .next z) :
    z.fixed = s.fixed := by
  unfold execRequest at hz; (try dsimp only at hz); (repeat' split at hz) <;> (try (cases hz)) <;> (try simp) <;> (refine hostCmd_fixed ?_ hz; intro u g; (try dsimp only); (repeat' split) <;> (try simp) <;> (repeat (first | rfl | refine Eq.trans (hostCmd_fixed (by assumption)) ?_)) <;> (try simp))

@[simp] theorem State.afterEnd_fixed (s : State) (i : Nat) :
    (State.afterEnd s i).fixed = s.fixed := by
  simp [State.afterEnd]

theorem execCancel_fixed (h : Hdr) (handle requestId : U64) (s : State) {z : State} (hz : execCancel h handle requestId s = .next z) :
    z.fixed = s.fixed := by
  unfold execCancel at hz; (try dsimp only at hz); (repeat' split at hz) <;> (try (cases hz)) <;> (try simp) <;> (refine hostCmd_fixed ?_ hz; intro u g; (try dsimp only); (repeat' split) <;> (try simp) <;> (repeat (first | rfl | refine Eq.trans (hostCmd_fixed (by assumption)) ?_)) <;> (try simp))

theorem execDeadlineCheck_fixed (s : State) {z : State} (hz : execDeadlineCheck s = .next z) :
    z.fixed = s.fixed := by
  simp only [execDeadlineCheck] at hz; (repeat' split at hz) <;> (try simp at hz) <;> (try (obtain ⟨rfl, rfl⟩ := hz)) <;> (try subst hz) <;> (try simp)

@[simp] theorem State.opened_fixed (s : State) (sl i : Nat) (o : OpenOps) :
    (State.opened s sl i o).fixed = s.fixed := by
  simp [State.opened]

theorem execOpen_fixed (h : Hdr) (o : OpenOps) (s : State) {z : State} (hz : execOpen h o s = .next z) :
    z.fixed = s.fixed := by
  unfold execOpen at hz; (try dsimp only at hz); split at hz; exact (by cases hz; rfl); refine hostCmd_fixed ?_ hz; intro u g; (try dsimp only); (repeat' split) <;> (try simp [withIndex]) <;> (repeat (first | rfl | refine Eq.trans (hostCmd_fixed (by assumption)) ?_)) <;> (try simp)

@[simp] theorem State.closeOne_fixed (s : State) (i : Nat) (t : Option Tag) :
    (State.closeOne s i t).fixed = s.fixed := by
  simp [State.closeOne]

@[simp] theorem State.ringSend_fixed (s : State) (dev : Nat) (o : RingOps) (p : Purpose) :
    (State.ringSend s dev o p).fixed = s.fixed := by
  simp [State.ringSend]

@[simp] theorem State.closeRing_fixed (s : State) (sid : U64) (except from_ : Nat) :
    (State.closeRing s sid except from_).fixed = s.fixed := by
  simp [State.closeRing]

@[simp] theorem State.toClosing_fixed (s : State) (i : Nat) (t : Option Tag) :
    (State.toClosing s i t).fixed = s.fixed := by
  simp [State.toClosing]

@[simp] theorem State.closeBody_fixed (s : State) (i : Nat) (t : Tag) :
    (State.closeBody s i t).keeps s.fixed := by
  simp only [State.closeBody]; (repeat' split) <;> (try simp)

theorem execClose_fixed (h : Hdr) (handle : U64) (s : State) {z : State} (hz : execClose h handle s = .next z) :
    z.fixed = s.fixed := by
  unfold execClose at hz; (try dsimp only at hz); (repeat' split at hz) <;> (try (cases hz)) <;> (try simp) <;> (refine hostCmd_fixed ?_ hz; intro u g; (try dsimp only); (repeat' split) <;> (try simp) <;> (repeat (first | rfl | refine Eq.trans (hostCmd_fixed (by assumption)) ?_)) <;> (try simp))

@[simp] theorem State.leaveSession_fixed (s : State) (i : Nat) :
    (State.leaveSession s i).fixed = s.fixed := by
  simp [State.leaveSession]

@[simp] theorem State.closeEnd_fixed (s : State) (i : Nat) :
    (State.closeEnd s i).fixed = s.fixed := by
  simp [State.closeEnd]

theorem execCloseEnd_fixed (index : BitVec 24) (s : State) {z : State} (hz : execCloseEnd index s = .next z) :
    z.fixed = s.fixed := by
  simp only [execCloseEnd] at hz; (repeat' split at hz) <;> (try simp at hz) <;> (try (obtain ⟨rfl, rfl⟩ := hz)) <;> (try subst hz) <;> (try simp)

theorem State.forkChild_fixed (s : State) (i : Nat) (sid : U64) {z : State} {w} (hz : State.forkChild s i sid = some (z, w)) :
    z.fixed = s.fixed := by
  unfold State.forkChild at hz
  split at hz
  · cases hz
  · (try dsimp only at hz)
    split at hz
    · cases hz
    · obtain ⟨x, hx, e⟩ := Option.map_eq_some_iff.1 hz
      cases e
      refine (State.remap_fixed _ _ hx).trans ?_
      split <;> simp

theorem State.forkAll_fixed (s : State) (i : Nat) (x0 : List U64) (x1 : List Nat) {z : State} {w} (hz : State.forkAll s i x0 x1 = some (z, w)) :
    z.fixed = s.fixed := by
  induction x0 generalizing s x1 w z with
  | nil => cases hz; rfl
  | cons y ys ih =>
    obtain ⟨x, hx, hz⟩ := Option.bind_eq_some_iff.1 hz
    exact (ih _ _ hz).trans (State.forkChild_fixed _ _ _ (w := x.2) hx)

theorem State.forkNow_fixed (s : State) (i : Nat) (ids : List U64) (again : Bool) {z : State} {w} (hz : State.forkNow s i ids again = .ok (z, w)) :
    z.fixed = s.fixed := by
  unfold State.forkNow at hz; dsimp only at hz
  split at hz
  · cases hz
  · split at hz
    · cases hz
    · split at hz
      · cases hz
      · split at hz
        · cases hz
        · rename_i a b h
          obtain ⟨a', ha, e⟩ := Option.bind_eq_some_iff.1 h
          obtain ⟨b', hb, e⟩ := Option.map_eq_some_iff.1 e
          cases e
          split at hz
          · cases hz
          · split at hz
            · cases hz
            · rename_i r hr
              cases hz
              have h1 := State.forkAll_fixed _ _ _ _ (w := r.2) hr
              have h2 := State.shareGranules_fixed _ _ _ _ (w := b.2) hb
              have h3 := State.sharePages_fixed _ _ _ _ (w := a.2) ha
              simp_all

@[simp] theorem State.forkKept_fixed (s : State) (ids : List U64) :
    (State.forkKept s ids).fixed = s.fixed := by
  simp [State.forkKept]

@[simp] theorem State.forkOut_fixed (s : State) (ids : List U64) (addr : Nat) (cs : List Nat) :
    (State.forkOut s ids addr cs).fixed = s.fixed := by
  simp [State.forkOut]

@[simp] theorem State.carry_fixed (s : State) (i : Nat) (o : RingOps) (f : State → Nat → State)
    (hf : ∀ t x, (f t x).fixed = t.fixed) : (State.carry s i o f).fixed = s.fixed := by
  unfold State.carry; (try dsimp only); split <;> simp [foldl_fixed _ hf]

theorem State.forkEach_fixed (s : State) (ids : List U64) (x0 : List Nat) (x1 : Bool) {z : State} (hz : State.forkEach s ids x0 x1 = .ok z) :
    z.fixed = s.fixed := by
  induction x0 generalizing s x1 z with
  | nil => cases hz; rfl
  | cons y ys ih =>
    simp only [State.forkEach] at hz
    split at hz
    · cases hz
    · rename_i r h; exact (ih _ _ hz).trans (State.forkNow_fixed _ _ _ _ (w := r.2) h)

@[simp] theorem State.dropRecords_fixed (s : State) (fresh : List Nat) :
    (State.dropRecords s fresh).fixed = s.fixed := by
  simp [State.dropRecords]

@[simp] theorem State.unforkOne_fixed (s : State) (c : Nat) :
    (State.unforkOne s c).fixed = s.fixed := by
  simp only [State.unforkOne]; (repeat' split) <;> (try simp)

@[simp] theorem State.unfork_fixed (s : State) (ids : List U64) (fresh : List Nat) :
    (State.unfork s ids fresh).fixed = s.fixed := by
  simp [State.unfork]

@[simp] theorem State.forkRing_fixed (s was : State) (i : Nat) (ids : List U64) (children : List Nat) (out : Nat) (t : Tag)
    (hw : was.fixed = s.fixed) : (State.forkRing s was i ids children out t).fixed = s.fixed := by
  unfold State.forkRing; (try dsimp only); split
  · simp [hw]
  · rename_i h
    have h1 := State.forkEach_fixed _ _ _ _ h
    split <;> simp [h1]

@[simp] theorem State.forkCore_fixed (s : State) (i count idsAddr outAddr : Nat) (t : Tag) :
    (State.forkCore s i count idsAddr outAddr t).keeps s.fixed := by
  unfold State.forkCore; split
  · simp
  · split
    · simp
    · rename_i r h
      have h1 := State.forkNow_fixed _ _ _ _ (w := r.2) h
      (repeat' split) <;> simp [h1]

@[simp] theorem State.forkBody_fixed (s : State) (i : Nat) (count idsAddr outAddr : Nat) (t : Tag) :
    (State.forkBody s i count idsAddr outAddr t).keeps s.fixed := by
  simp only [State.forkBody]; (repeat' split) <;> (try simp)

theorem execFork_fixed (h : Hdr) (handle : U64) (count : U32) (idsAddr outAddr : U64) (s : State) {z : State} (hz : execFork h handle count idsAddr outAddr s = .next z) :
    z.fixed = s.fixed := by
  unfold execFork at hz; (try dsimp only at hz); (repeat' split at hz) <;> (try (cases hz)) <;> (try simp) <;> (refine hostCmd_fixed ?_ hz; intro u g; (try dsimp only); (repeat' split) <;> (try simp) <;> (repeat (first | rfl | refine Eq.trans (hostCmd_fixed (by assumption)) ?_)) <;> (try simp))

@[simp] theorem State.setPolicy_fixed (s : State) (i flags budget dclass mirror : Nat) :
    (State.setPolicy s i flags budget dclass mirror).fixed = s.fixed := by
  simp [State.setPolicy]

@[simp] theorem State.memberSet_fixed (s : State) (o : RingOps) (i : Nat) :
    (State.memberSet s o i).fixed = s.fixed := by
  simp [State.memberSet]

theorem execSetSession_fixed (h : Hdr) (o : SetOps) (s : State) {z : State} (hz : execSetSession h o s = .next z) :
    z.fixed = s.fixed := by
  unfold execSetSession at hz
  refine hostCmd_fixed ?_ hz; intro u g
  refine withIndex_keeps _ _ _ (fun i => ?_)
  (try dsimp only)
  refine checked_keeps _ _ _ ?_
  exact (State.carry_fixed _ _ _ _ (by intro t x; simp)).trans (by simp)

theorem execSessionQuery_fixed (h : Hdr) (handle outAddr : U64) (s : State) {z : State} (hz : execSessionQuery h handle outAddr s = .next z) :
    z.fixed = s.fixed := by
  unfold execSessionQuery at hz; (try dsimp only at hz); (repeat' split at hz) <;> (try (cases hz)) <;> (try simp) <;> (refine hostCmd_fixed ?_ hz; intro u g; (try dsimp only); (repeat' split) <;> (try simp) <;> (repeat (first | rfl | refine Eq.trans (hostCmd_fixed (by assumption)) ?_)) <;> (try simp))

theorem execTringCreate_fixed (h : Hdr) (slice : BitVec 6) (ring : U16) (log2 : BitVec 5) (base tailAddr : U64) (vector : BitVec 11) (ien : U1) (s : State) {z : State} (hz : execTringCreate h slice ring log2 base tailAddr vector ien s = .next z) :
    z.fixed = s.fixed := by
  unfold execTringCreate at hz; (try dsimp only at hz); refine hostCmd_fixed ?_ hz; intro u g; (try dsimp only); (repeat' split) <;> (try simp [withIndex]) <;> (repeat (first | rfl | refine Eq.trans (hostCmd_fixed (by assumption)) ?_)) <;> (try simp)

theorem execTringDestroy_fixed (h : Hdr) (slice : BitVec 6) (ring : U16) (s : State) {z : State} (hz : execTringDestroy h slice ring s = .next z) :
    z.fixed = s.fixed := by
  unfold execTringDestroy at hz; (try dsimp only at hz); refine hostCmd_fixed ?_ hz; intro u g; (try dsimp only); (repeat' split) <;> (try simp [withIndex]) <;> (repeat (first | rfl | refine Eq.trans (hostCmd_fixed (by assumption)) ?_)) <;> (try simp)

theorem execTringCreditDoorbell_fixed (fn slice : BitVec 6) (ring : BitVec 14) (value : U32) (s : State) {z : State} (hz : execTringCreditDoorbell fn slice ring value s = .next z) :
    z.fixed = s.fixed := by
  simp only [execTringCreditDoorbell] at hz; (repeat' split at hz) <;> (try simp at hz) <;> (try (obtain ⟨rfl, rfl⟩ := hz)) <;> (try subst hz) <;> (try simp)

end Sys2Proof.Machine

namespace Sys2Proof.Machine

@[simp] theorem State.upset_fixed (s : State) (pa : Nat) (e : Errors) :
    (State.upset s pa e).fixed = s.fixed := by
  simp only [State.upset]; rw [foldl_fixed _ (by intro t x; (repeat' split) <;> (try simp))] <;> (try simp)

@[simp] theorem State.sectorRead_fixed (s : State) (pa : Nat) (errs : Errors) :
    (State.sectorRead s pa errs).fixed = s.fixed := by
  simp only [State.sectorRead]; (repeat' split) <;> (try simp)

end Sys2Proof.Machine

namespace Sys2Proof.Machine

@[simp] theorem State.poolPut_fixed (s : State) (dev addr : Nat) (b : Bytes) (epoch sid : Nat) (p : Purpose) :
    (State.poolPut s dev addr b epoch sid p).fixed = s.fixed := by
  simp [State.poolPut]

@[simp] theorem State.sendMembers_fixed (s : State) (c : Canvas) (ms : List (Nat × Nat)) (rgen : Nat) (b : Bytes) (p : Purpose) :
    (State.sendMembers s c ms rgen b p).fixed = s.fixed := by
  simp [State.sendMembers]

end Sys2Proof.Machine

namespace Sys2Proof.Machine

@[simp] theorem State.memberPark_fixed (s : State) (i tier : Nat) (deep comp : Bool) :
    (State.memberPark s i tier deep comp).fixed = s.fixed := by
  simp only [State.memberPark]; (repeat' split) <;> (try simp)

theorem execPark_fixed (h : Hdr) (handle : U64) (tier : BitVec 2) (deep compress : U1) (hostAddr : U64) (hostLen : U32) (s : State) {z : State} (hz : execPark h handle tier deep compress hostAddr hostLen s = .next z) :
    z.fixed = s.fixed := by
  unfold execPark at hz; (try dsimp only at hz); (repeat' split at hz) <;> (try (cases hz)) <;> (try simp) <;> (refine hostCmd_fixed ?_ hz; intro u g; (repeat' (first | refine withIndex_keeps _ _ _ (fun i => ?_) | refine checked_keeps _ _ _ ?_ | split | dsimp only)) <;> (try simp) <;> (repeat (first | rfl | refine Eq.trans (hostCmd_fixed (by assumption)) ?_)) <;> (try simp))

@[simp] theorem State.thawWinter_fixed (s : State) (i : Nat) (stream : Bool) (t : Tag) :
    (State.thawWinter s i stream t).keeps s.fixed := by
  simp only [State.thawWinter]; (repeat' split) <;> (try simp)

@[simp] theorem State.memberThaw_fixed (s : State) (i : Nat) (stream lc : Bool) :
    (State.memberThaw s i stream lc).fixed = s.fixed := by
  simp only [State.memberThaw]; (repeat' split) <;> (try simp)

@[simp] theorem State.carryThaw_fixed (s : State) (i : Nat) (stream lc : Bool) :
    (State.carryThaw s i stream lc).fixed = s.fixed := by
  simp [State.carryThaw]

@[simp] theorem State.thawBody_fixed (s : State) (i : Nat) (stream : Bool) (t : Tag) :
    (State.thawBody s i stream t).keeps s.fixed := by
  simp only [State.thawBody]; (repeat' split) <;> (try simp)

theorem execThaw_fixed (h : Hdr) (handle : U64) (stream : U1) (s : State) {z : State} (hz : execThaw h handle stream s = .next z) :
    z.fixed = s.fixed := by
  unfold execThaw at hz
  refine hostCmd_fixed ?_ hz; intro u g
  refine withIndex_keeps _ _ _ (fun i => ?_)
  split
  · trivial
  · have h := State.thawBody_fixed u i (stream == 1) g
    revert h; generalize u.thawBody i (stream == 1) g = r; intro h
    cases r
    · trivial
    · exact (State.carryThaw_fixed _ _ _ _).trans h
    · exact (State.carryThaw_fixed _ _ _ _).trans h

@[simp] theorem State.readStops_fixed (s : State) (o : CanvasOp) (code : Nat) :
    (State.readStops s o code).fixed = s.fixed := by
  simp [State.readStops]

@[simp] theorem State.itemFails_fixed (s : State) (o : CanvasOp) (die : Nat) :
    (State.itemFails s o die).fixed = s.fixed := by
  simp [State.itemFails]

@[simp] theorem State.retryPage_fixed (s : State) (o : CanvasOp) (n : Nat) (q : CanvasPage) (lost : State → State)
    (hl : ∀ t, (lost t).fixed = t.fixed) : (State.retryPage s o n q lost).fixed = s.fixed := by
  unfold State.retryPage; (try dsimp only); split <;> simp [hl]

@[simp] theorem State.thawItem_fixed (s : State) (o : CanvasOp) (n : Nat) :
    (State.thawItem s o n).fixed = s.fixed := by
  simp only [State.thawItem]; (repeat' split) <;> (try simp)

@[simp] theorem State.thawSmall_fixed (s : State) (o : CanvasOp) :
    (State.thawSmall s o).fixed = s.fixed := by
  simp [State.thawSmall]

@[simp] theorem State.doItem_fixed (s : State) (o : CanvasOp) (n : Nat) :
    (State.doItem s o n).fixed = s.fixed := by
  simp [State.doItem]

@[simp] theorem State.toWinter_fixed (s : State) (i : Nat) (deep : Bool) (addr : U64) (len tier : Nat) :
    (State.toWinter s i deep addr len tier).fixed = s.fixed := by
  simp [State.toWinter]

@[simp] theorem State.finishPark_fixed (s : State) (o : CanvasOp) :
    (State.finishPark s o).fixed = s.fixed := by
  simp [State.finishPark]

@[simp] theorem State.sendPark_fixed (s : State) (o : CanvasOp) :
    (State.sendPark s o).fixed = s.fixed := by
  simp [State.sendPark]

@[simp] theorem State.streamEnd_fixed (s : State) (i : Nat) :
    (State.streamEnd s i).fixed = s.fixed := by
  simp only [State.streamEnd]; (repeat' split) <;> (try simp)

@[simp] theorem State.finishThaw_fixed (s : State) (o : CanvasOp) :
    (State.finishThaw s o).fixed = s.fixed := by
  simp [State.finishThaw]

theorem execRunaheadThawStart_fixed (index : BitVec 24) (s : State) {z : State} (hz : execRunaheadThawStart index s = .next z) :
    z.fixed = s.fixed := by
  simp only [execRunaheadThawStart] at hz; (repeat' split at hz) <;> (try simp at hz) <;> (try (obtain ⟨rfl, rfl⟩ := hz)) <;> (try subst hz) <;> (try simp)

theorem execStreamFault_fixed (slice : BitVec 6) (va : BitVec 52) (s : State) {z : State} (hz : execStreamFault slice va s = .next z) :
    z.fixed = s.fixed := by
  simp only [execStreamFault] at hz; (repeat' split at hz) <;> (try simp at hz) <;> (try (obtain ⟨rfl, rfl⟩ := hz)) <;> (try subst hz) <;> (try simp)

@[simp] theorem State.ownPark_fixed (s : State) (cause i : Nat) (lc : Bool) :
    (State.ownPark s cause i lc).fixed = s.fixed := by
  simp only [State.ownPark]; (repeat' split) <;> (try simp)

theorem execIdleParkCheck_fixed (die : BitVec 3) (s : State) {z : State} (hz : execIdleParkCheck die s = .next z) :
    z.fixed = s.fixed := by
  simp only [execIdleParkCheck] at hz; (repeat' split at hz) <;> (try simp at hz) <;> (try (obtain ⟨rfl, rfl⟩ := hz)) <;> (try subst hz) <;> (try simp)

@[simp] theorem State.pressurePark_fixed (s : State) (sl need : Nat) :
    (State.pressurePark s sl need).fixed = s.fixed := by
  unfold State.pressurePark; dsimp only
  refine (foldl_fixed_fst _ ?_ _ _).trans rfl
  intro a x; (repeat' split) <;> simp

end Sys2Proof.Machine

namespace Sys2Proof.Machine

@[simp] theorem State.markHeld_fixed (s : State) (r : BatchRow) :
    (State.markHeld s r).fixed = s.fixed := by
  simp [State.markHeld]

@[simp] theorem State.sendCanvas_fixed (s : State) (dev sl : Nat) (b : Bytes) (args : List Nat) (p : Purpose) :
    (State.sendCanvas s dev sl b args p).fixed = s.fixed := by
  simp [State.sendCanvas]

@[simp] theorem State.startHandover_fixed (s : State) (r : BatchRow) :
    (State.startHandover s r).fixed = s.fixed := by
  simp [State.startHandover]

theorem State.takeFor_fixed (s : State) (i n : Nat) (p : Prog) {z : State} (hz : State.takeFor s i n p = some z) :
    z.fixed = s.fixed := by
  unfold State.takeFor at hz; dsimp only at hz
  split at hz
  · cases hz; rfl
  · obtain ⟨x, hx, e⟩ := Option.bind_eq_some_iff.1 hz
    have h1 := State.takePages_fixed _ _ _ _ _ _ _ _ (w := x.2) hx
    refine (State.remap_fixed _ _ e).trans ?_
    split <;> simp [h1]

@[simp] theorem State.releaseAutumn_fixed (s : State) (sl : Nat) (g : Geom) :
    (State.releaseAutumn s sl g).fixed = s.fixed := by
  simp [State.releaseAutumn]

theorem State.obtain_fixed (s : State) (i fixed : Nat) (p : Prog) (x0 : Nat) {z : State} {w} (hz : State.obtain s i fixed p x0 = some (z, w)) :
    z.fixed = s.fixed := by
  induction x0 generalizing s z w with
  | zero => obtain ⟨x, hx, e⟩ := Option.map_eq_some_iff.1 hz; cases e; exact State.takeFor_fixed _ _ _ _ hx
  | succ n ih =>
    simp only [State.obtain] at hz
    split at hz
    · rename_i h
      cases hz
      split at h
      · exact State.takeFor_fixed _ _ _ _ h
      · cases h
    · exact ih _ hz

@[simp] theorem State.settlePages_fixed (s : State) (r : BatchRow) (p : Prog) :
    (State.settlePages s r p).1.fixed = s.fixed := by
  unfold State.settlePages; (try dsimp only)
  split
  · rename_i h; exact State.takeFor_fixed _ _ _ _ h
  · split
    · rename_i x h; exact (State.obtain_fixed _ _ _ _ _ (w := x.2) h).trans (by simp)
    · simp

@[simp] theorem State.settleRow_fixed (s : State) (r : BatchRow) (p : Prog) :
    (State.settleRow s r p).1.fixed = s.fixed := by
  unfold State.settleRow; dsimp only
  (repeat' split) <;> (try simp)

@[simp] theorem State.settleAll_fixed (s : State) (sl : Nat) (rows : List BatchRow) (p : Prog) :
    (State.settleAll s sl rows p).1.fixed = s.fixed := by
  unfold State.settleAll; (try dsimp only)
  have h : ∀ (l : List BatchRow) (a : State × List BatchRow), (l.foldl (fun (acc : State × List BatchRow) r =>
    let y := acc.1.settleRow r p
    (y.1, acc.2.map fun q => if q.index = r.index then y.2 else q)) a).1.fixed = a.1.fixed :=
    foldl_fixed_fst _ (by intro t x; simp)
  split
  · exact h _ _
  · simpa using h _ _

@[simp] theorem State.joinRow_fixed (s : State) (sl : Nat) (r : BatchRow) :
    (State.joinRow s sl r).fixed = s.fixed := by
  simp [State.joinRow]

@[simp] theorem State.lateAtStart_fixed (s : State) (sl : Nat) (rows : List BatchRow) :
    (State.lateAtStart s sl rows).fixed = s.fixed := by
  simp [State.lateAtStart]

@[simp] theorem State.loadLast_fixed (s : State) (sl : Nat) :
    (State.loadLast s sl).fixed = s.fixed := by
  simp only [State.loadLast]; (repeat' split) <;> (try simp) <;> (rw [foldl_fixed _ (by intro t x; (repeat' split) <;> (try simp))]) <;> (try simp)

@[simp] theorem State.stepBegin_fixed (s : State) (sl : Nat) (j : Job) (p : Prog) :
    (State.stepBegin s sl j p).fixed = s.fixed := by
  simp [State.stepBegin]

theorem execStepStart_fixed (slice : BitVec 6) (s : State) {z : State} (hz : execStepStart slice s = .next z) :
    z.fixed = s.fixed := by
  simp only [execStepStart] at hz; (repeat' split at hz) <;> (try simp at hz) <;> (try (obtain ⟨rfl, rfl⟩ := hz)) <;> (try subst hz) <;> (try simp)

end Sys2Proof.Machine

namespace Sys2Proof.Machine

@[simp] theorem State.logCommit_fixed (s : State) (sl : Nat) (r : BatchRow) (c : CommitRec) :
    (State.logCommit s sl r c).fixed = s.fixed := by
  simp only [State.logCommit]; (repeat' split) <;> (try simp)

@[simp] theorem State.commitActive_fixed (s : State) (sl : Nat) (r : BatchRow) (toks : Option (List (Nat × Nat))) (die : Nat) :
    (State.commitActive s sl r toks die).fixed = s.fixed := by
  simp only [State.commitActive]; (repeat' split) <;> (try simp)

@[simp] theorem State.dropPending_fixed (s : State) (i : Nat) :
    (State.dropPending s i).fixed = s.fixed := by
  simp [State.dropPending]

@[simp] theorem State.commit_fixed (s : State) (sl : Nat) (r : BatchRow) (toks : Option (List (Nat × Nat))) (die : Nat) :
    (State.commit s sl r toks die).fixed = s.fixed := by
  simp only [State.commit]; (repeat' split) <;> (try simp)

@[simp] theorem State.propose_fixed (s : State) (sl i vocab : Nat) :
    (State.propose s sl i vocab).fixed = s.fixed := by
  simp only [State.propose]; (repeat' split) <;> (try simp)

@[simp] theorem State.sample_fixed (s : State) (c : Nat) (a : MvAddr) (i vocab : Nat) (inst : Inst) :
    (State.sample s c a i vocab inst).fixed = s.fixed := by
  simp only [State.sample]; (repeat' split) <;> (try simp)

@[simp] theorem State.verify_fixed (s : State) (c : Nat) (a : MvAddr) (i drafts : Nat) (inst : Inst) :
    (State.verify s c a i drafts inst).fixed = s.fixed := by
  simp only [State.verify]; (repeat' split) <;> (try simp)

theorem execSample_fixed (core : BitVec 9) (logits : MvAddr) (index : BitVec 24) (vocab : U32) (s : State) {z : State} (hz : execSample core logits index vocab s = .next z) :
    z.fixed = s.fixed := by
  simp only [execSample] at hz; (repeat' split at hz) <;> (try simp at hz) <;> (try (obtain ⟨rfl, rfl⟩ := hz)) <;> (try subst hz) <;> (try simp)

theorem execVerify_fixed (core : BitVec 9) (logits : MvAddr) (index : BitVec 24) (drafts : BitVec 4) (s : State) {z : State} (hz : execVerify core logits index drafts s = .next z) :
    z.fixed = s.fixed := by
  simp only [execVerify] at hz; (repeat' split at hz) <;> (try simp at hz) <;> (try (obtain ⟨rfl, rfl⟩ := hz)) <;> (try subst hz) <;> (try simp)

end Sys2Proof.Machine

namespace Sys2Proof.Machine

theorem State.appendPage_fixed (s : State) (sl i layer t : Nat) (g : Geom) {z : State} {w} (hz : State.appendPage s sl i layer t g = some (z, w)) :
    z.fixed = s.fixed := by
  unfold State.appendPage at hz; split at hz
  · cases hz
  · obtain ⟨a, ha, hz⟩ := Option.bind_eq_some_iff.1 hz
    obtain ⟨b, hb, hz⟩ := Option.bind_eq_some_iff.1 hz
    obtain ⟨c, hc, hz⟩ := Option.map_eq_some_iff.1 hz
    cases hz; simpa using State.privateAll_fixed _ _ _ _ _ _ ha

theorem State.appendOne_fixed (s : State) (die : Nat) (x : Core) (i layer src t : Nat) (p : Prog) {z : State} (hz : State.appendOne s die x i layer src t p = some z) :
    z.fixed = s.fixed := by
  unfold State.appendOne at hz; dsimp only at hz
  obtain ⟨a, ha, e⟩ := Option.map_eq_some_iff.1 hz
  have h1 := State.appendPage_fixed _ _ _ _ _ _ (w := a.2) ha
  cases e; split <;> simp [h1]

theorem State.appendAll_fixed (s : State) (die : Nat) (x : Core) (i layer src t : Nat) (p : Prog) (x0 : Nat) {z : State} (hz : State.appendAll s die x i layer src t p x0 = some z) :
    z.fixed = s.fixed := by
  induction x0 generalizing s src t z with
  | zero => cases hz; rfl
  | succ n ih =>
    obtain ⟨a, ha, e⟩ := Option.bind_eq_some_iff.1 hz
    exact (ih _ _ _ e).trans (State.appendOne_fixed _ _ _ _ _ _ _ _ ha)

@[simp] theorem State.append_fixed (s : State) (c i layer src first n : Nat) (inst : Inst) :
    (State.append s c i layer src first n inst).fixed = s.fixed := by
  unfold State.append; split
  · simp
  · refine State.withStore_fixed _ _ _ _ _ _ ?_
    intro x; dsimp only; split
    · simp
    · split
      · simp
      · cases h : s.appendAll (c / 64) x i layer src (s.appendFrom i first) _ n with
        | none => rfl
        | some t => exact State.appendAll_fixed _ _ _ _ _ _ _ _ _ h

theorem State.appendStall_fixed (s : State) (c i layer src first n : Nat) (inst : Inst) {z : State} (hz : State.appendStall s c i layer src first n inst = some z) :
    z.fixed = s.fixed := by
  simp only [State.appendStall] at hz; (repeat' split at hz) <;> (try simp at hz) <;> (try (obtain ⟨rfl, rfl⟩ := hz)) <;> (try subst hz) <;> (try simp) <;> (repeat (first | rfl | refine Eq.trans (State.appendAll_fixed (by assumption)) ?_)) <;> (try simp)

theorem execAppend_fixed (core : BitVec 9) (index : BitVec 24) (layer : U8) (src : BitVec 23) (first rows : U16) (s : State) {z : State} (hz : execAppend core index layer src first rows s = .next z) :
    z.fixed = s.fixed := by
  unfold execAppend at hz; (try dsimp only at hz); split at hz
  · cases hz; rfl
  · split at hz
    · rename_i h; cases hz; exact State.appendStall_fixed _ _ _ _ _ _ _ _ h
    · cases hz; simp

@[simp] theorem State.mvWait_fixed (s : State) (sl : Nat) (va : Option Nat) :
    (State.mvWait s sl va).fixed = s.fixed := by
  simp only [State.mvWait]; (repeat' split) <;> (try simp)

@[simp] theorem State.poolLost_fixed (s : State) (i : Inst) :
    (State.poolLost s i).fixed = s.fixed := by
  simp [State.poolLost]

@[simp] theorem State.mvWrite_fixed (s : State) (c sl : Nat) (a : MvAddr) (b : Bytes) (bad : Bool) :
    (State.mvWrite s c sl a b bad).fixed = s.fixed := by
  simp only [State.mvWrite]; (repeat' split) <;> (try simp)

@[simp] theorem State.move_fixed (s : State) (c : Nat) (src dst : MvAddr) (n : Nat) (bc : Bool) (i : Inst) :
    (State.move s c src dst n bc i).fixed = s.fixed := by
  simp only [State.move]; (repeat' split) <;> (try simp)

@[simp] theorem State.mvEnds_fixed (s : State) (c : Nat) (bc : Bool) :
    (State.mvEnds s c bc).fixed = s.fixed := by
  simp [State.mvEnds]

@[simp] theorem State.mvFinish_fixed (s : State) (c sl n : Nat) (bc : Bool) :
    (State.mvFinish s c sl n bc).fixed = s.fixed := by
  simp [State.mvFinish]

@[simp] theorem State.mvFault_fixed (s : State) (c cause : Nat) :
    (State.mvFault s c cause).fixed = s.fixed := by
  simp [State.mvFault]

@[simp] theorem State.mvCopy_fixed (s : State) (c : Nat) (src0 dst0 : MvAddr) (n : Nat) (bc : Bool) (i : Inst) :
    (State.mvCopy s c src0 dst0 n bc i).fixed = s.fixed := by
  simp only [State.mvCopy]; (repeat' split) <;> (try simp)

theorem execMvCopy_fixed (core : BitVec 9) (src dst : MvAddr) (len : U32) (broadcast : U1) (s : State) {z : State} (hz : execMvCopy core src dst len broadcast s = .next z) :
    z.fixed = s.fixed := by
  simp only [execMvCopy] at hz; (repeat' split at hz) <;> (try simp at hz) <;> (try (obtain ⟨rfl, rfl⟩ := hz)) <;> (try subst hz) <;> (try simp)

@[simp] theorem State.mvGather_fixed (s : State) (c list size count : Nat) (dst0 : MvAddr) (i : Inst) :
    (State.mvGather s c list size count dst0 i).fixed = s.fixed := by
  unfold State.mvGather; dsimp only
  split
  · rfl
  · split
    · simp
    · split
      · simp
      · split
        · rename_i h
          obtain ⟨r, hr, e⟩ := List.exists_of_findSome?_eq_some h
          split at e <;> cases e <;> simp
        · rw [State.mvFinish_fixed, foldl_fixed _ (by intro t x; simp)]

theorem execMvGather_fixed (core : BitVec 9) (list : BitVec 23) (rowSize count : U32) (dst : MvAddr) (s : State) {z : State} (hz : execMvGather core list rowSize count dst s = .next z) :
    z.fixed = s.fixed := by
  simp only [execMvGather] at hz; (repeat' split at hz) <;> (try simp at hz) <;> (try (obtain ⟨rfl, rfl⟩ := hz)) <;> (try subst hz) <;> (try simp)

@[simp] theorem State.clearGuard_fixed (s : State) (pa : Nat) :
    (State.clearGuard s pa).fixed = s.fixed := by
  simp only [State.clearGuard]; (repeat' split) <;> (try simp)

theorem execRingWaitLimitExpiry_fixed (index : BitVec 24) (layer : U8) (part : U16) (s : State) {z : State} (hz : execRingWaitLimitExpiry index layer part s = .next z) :
    z.fixed = s.fixed := by
  simp only [execRingWaitLimitExpiry] at hz; (repeat' split at hz) <;> (try simp at hz) <;> (try (obtain ⟨rfl, rfl⟩ := hz)) <;> (try subst hz) <;> (try simp)

end Sys2Proof.Machine

namespace Sys2Proof.Machine

theorem State.takeChunks_fixed (s : State) (sl va : Nat) (die : Option Nat) (prot : Bool) (x0 : List (Nat × Nat)) (x1 : List (Nat × Nat × Nat)) {z : State} {w} (hz : State.takeChunks s sl va die prot x0 x1 = some (z, w)) :
    z.fixed = s.fixed := by
  induction x0 generalizing s x1 w z with
  | nil => cases hz; rfl
  | cons y ys ih =>
    obtain ⟨x, hx, hz⟩ := Option.bind_eq_some_iff.1 hz
    exact (ih _ _ hz).trans (State.alloc_fixed _ _ _ _ _ _ (w := x.2) hx)

theorem State.allocT1_fixed (s : State) (sl type va units : Nat) (die : Option Nat) (prot : Bool) (t : Option Tag) {z : State} (hz : State.allocT1 s sl type va units die prot t = some z) :
    z.fixed = s.fixed := by
  obtain ⟨x, hx, e⟩ := Option.bind_eq_some_iff.1 hz
  exact (State.remap_fixed _ _ e).trans (show x.1.fixed = s.fixed from State.takeChunks_fixed _ _ _ _ _ _ _ (w := x.2) hx)

theorem State.allocT2_fixed (s : State) (sl type va units fetchLog2 w : Nat) (prot : Bool) (t : Option Tag) {z : State} (hz : State.allocT2 s sl type va units fetchLog2 w prot t = some z) :
    z.fixed = s.fixed := by
  simp only [State.allocT2] at hz; (repeat' split at hz) <;> (try simp at hz) <;> (try (obtain ⟨rfl, rfl⟩ := hz)) <;> (try subst hz) <;> (try simp)

theorem execMemAlloc_fixed (h : Hdr) (slice : BitVec 6) (type : BitVec 3) (tier : BitVec 2) (protect : U1) (die fetchLog2 : BitVec 4) (stripe : BitVec 5) (size : U32) (va : U64) (s : State) {z : State} (hz : execMemAlloc h slice type tier protect die fetchLog2 stripe size va s = .next z) :
    z.fixed = s.fixed := by
  unfold execMemAlloc at hz; (try dsimp only at hz); split at hz
  · cases hz; rfl
  · refine hostCmd_fixed ?_ hz; intro u g; (try dsimp only)
    refine checked_keeps _ _ _ ?_
    split
    · split
      · trivial
      · rename_i h; exact State.allocT1_fixed _ _ _ _ _ _ _ _ h
    · split
      · trivial
      · rename_i h; exact State.allocT2_fixed _ _ _ _ _ _ _ _ _ h

@[simp] theorem State.created_fixed (s : State) (t : Option Tag) :
    (State.created s t).fixed = s.fixed := by
  simp [State.created]

@[simp] theorem State.freeObj_fixed (s : State) (o : Obj) :
    (State.freeObj s o).fixed = s.fixed := by
  simp [State.freeObj]

@[simp] theorem State.uncreate_fixed (s : State) (t : Option Tag) :
    (State.uncreate s t).fixed = s.fixed := by
  simp [State.uncreate]

@[simp] theorem State.objAllocated_fixed (s : State) (sl va dev : Nat) (base : Option Nat) :
    (State.objAllocated s sl va dev base).fixed = s.fixed := by
  unfold State.objAllocated; split
  · split <;> simp
  · split
    · (try dsimp only)
      generalize hu : State.mk .. = u
      have h0 : u.fixed = s.fixed := by subst hu; rfl
      split
      · simp [h0]
      · rename_i v h
        have h1 : v.fixed = u.fixed := by
          split at h
          · exact State.remap_fixed _ _ h
          · cases h; rfl
        split <;> simp [h1, h0]
    · simp

theorem execMemFree_fixed (h : Hdr) (slice : BitVec 6) (va : U64) (s : State) {z : State} (hz : execMemFree h slice va s = .next z) :
    z.fixed = s.fixed := by
  unfold execMemFree at hz; (try dsimp only at hz); refine hostCmd_fixed ?_ hz; intro u g; (try dsimp only); (repeat' split) <;> (try simp [withIndex]) <;> (repeat (first | rfl | refine Eq.trans (hostCmd_fixed (by assumption)) ?_)) <;> (try simp)

@[simp] theorem State.aperturePut_fixed (s : State) (x : Aperture) :
    (State.aperturePut s x).fixed = s.fixed := by
  simp [State.aperturePut]

theorem execApertureMap_fixed (h : Hdr) (slice : BitVec 6) (va : U64) (member : U16) (size : U32) (s : State) {z : State} (hz : execApertureMap h slice va member size s = .next z) :
    z.fixed = s.fixed := by
  unfold execApertureMap at hz; (try dsimp only at hz); refine hostCmd_fixed ?_ hz; intro u g; (try dsimp only); (repeat' split) <;> (try simp [withIndex]) <;> (repeat (first | rfl | refine Eq.trans (hostCmd_fixed (by assumption)) ?_)) <;> (try simp)

@[simp] theorem State.apertureAnswer_fixed (s : State) (sl va dev : Nat) (base : Option Nat) :
    (State.apertureAnswer s sl va dev base).fixed = s.fixed := by
  simp only [State.apertureAnswer]; (repeat' split) <;> (try simp)

theorem execApertureUnmap_fixed (h : Hdr) (slice : BitVec 6) (va : U64) (s : State) {z : State} (hz : execApertureUnmap h slice va s = .next z) :
    z.fixed = s.fixed := by
  unfold execApertureUnmap at hz; (try dsimp only at hz); refine hostCmd_fixed ?_ hz; intro u g; (try dsimp only); (repeat' split) <;> (try simp [withIndex]) <;> (repeat (first | rfl | refine Eq.trans (hostCmd_fixed (by assumption)) ?_)) <;> (try simp)

@[simp] theorem State.miss_fixed (s : State) (c sl va : Nat) (write : Bool) :
    (State.miss s c sl va write).fixed = s.fixed := by
  simp only [State.miss]; (repeat' split) <;> (try simp)

theorem execTranslationMiss_fixed (core : BitVec 9) (va : BitVec 52) (write : U1) (s : State) {z : State} (hz : execTranslationMiss core va write s = .next z) :
    z.fixed = s.fixed := by
  simp only [execTranslationMiss] at hz; (repeat' split at hz) <;> (try simp at hz) <;> (try (obtain ⟨rfl, rfl⟩ := hz)) <;> (try subst hz) <;> (try simp)

theorem execFetchDone_fixed (slice : BitVec 6) (va : BitVec 52) (s : State) {z : State} (hz : execFetchDone slice va s = .next z) :
    z.fixed = s.fixed := by
  simp only [execFetchDone] at hz; (repeat' split at hz) <;> (try simp at hz) <;> (try (obtain ⟨rfl, rfl⟩ := hz)) <;> (try subst hz) <;> (try simp)

theorem execGessoFillDone_fixed (pa : U64) (s : State) {z : State} (hz : execGessoFillDone pa s = .next z) :
    z.fixed = s.fixed := by
  simp only [execGessoFillDone] at hz; (repeat' split at hz) <;> (try simp at hz) <;> (try (obtain ⟨rfl, rfl⟩ := hz)) <;> (try subst hz) <;> (try simp)

theorem execPatrolRead_fixed (pa : U64) (errs : List (U8 × U8)) (s : State) {z : State} (hz : execPatrolRead pa errs s = .next z) :
    z.fixed = s.fixed := by
  simp only [execPatrolRead] at hz; (repeat' split at hz) <;> (try simp at hz) <;> (try (obtain ⟨rfl, rfl⟩ := hz)) <;> (try subst hz) <;> (try simp)

@[simp] theorem State.rowReplace_fixed (s : State) (c bank key : Nat) :
    (State.rowReplace s c bank key).fixed = s.fixed := by
  simp [State.rowReplace]

theorem execCoreStoreRowReplace_fixed (core : BitVec 9) (bank : BitVec 5) (row : BitVec 12) (s : State) {z : State} (hz : execCoreStoreRowReplace core bank row s = .next z) :
    z.fixed = s.fixed := by
  simp only [execCoreStoreRowReplace] at hz; (repeat' split at hz) <;> (try simp at hz) <;> (try (obtain ⟨rfl, rfl⟩ := hz)) <;> (try subst hz) <;> (try simp)

end Sys2Proof.Machine

namespace Sys2Proof.Machine

theorem State.takeParts_fixed (s : State) (sl : Nat) (prot : Bool) (x0 : List (Nat × Nat × Nat)) (x1 : List (Nat × Nat × Nat)) {z : State} {w} (hz : State.takeParts s sl prot x0 x1 = some (z, w)) :
    z.fixed = s.fixed := by
  induction x0 generalizing s x1 w z with
  | nil => cases hz; rfl
  | cons y ys ih =>
    obtain ⟨x, hx, hz⟩ := Option.bind_eq_some_iff.1 hz
    exact (ih _ _ hz).trans (State.alloc_fixed _ _ _ _ _ _ (w := x.2) hx)

@[simp] theorem State.palLoad_fixed (s : State) (sl index : Nat) (sect : Bytes) (tokens : Nat) (src : U64) (t : Tag) :
    (State.palLoad s sl index sect tokens src t).keeps s.fixed := by
  unfold State.palLoad; dsimp only; split
  · simp
  · split
    · simp
    · split
      · rename_i x h1 h2
        split
        · rename_i h
          exact (State.remap_fixed _ _ h).trans (show x.1.fixed = s.fixed from State.takeParts_fixed _ _ _ _ _ (w := x.2) h2)
        · trivial
      · simp

theorem execPaletteLoad_fixed (h : Hdr) (slice : BitVec 6) (program : BitVec 4) (tokens : U16) (srcAddr : U64) (s : State) {z : State} (hz : execPaletteLoad h slice program tokens srcAddr s = .next z) :
    z.fixed = s.fixed := by
  unfold execPaletteLoad at hz; (try dsimp only at hz); refine hostCmd_fixed ?_ hz; intro u g; (try dsimp only); (repeat' split) <;> (try simp [withIndex]) <;> (repeat (first | rfl | refine Eq.trans (hostCmd_fixed (by assumption)) ?_)) <;> (try simp)

@[simp] theorem State.freePal_fixed (s : State) (e : Nat) :
    (State.freePal s e).fixed = s.fixed := by
  simp only [State.freePal]; (repeat' split) <;> (try simp)

@[simp] theorem State.putPart_fixed (s : State) (q : Pal) (off : Nat) (b : Bytes) :
    (State.putPart s q off b).fixed = s.fixed := by
  simp only [State.putPart]; (repeat' split) <;> (try simp)

@[simp] theorem State.palWrite_fixed (s : State) (q : Pal) (sect b : Bytes) :
    (State.palWrite s q sect b).fixed = s.fixed := by
  simp [State.palWrite]

theorem execPaletteCompileDone_fixed (index : BitVec 12) (s : State) {z : State} (hz : execPaletteCompileDone index s = .next z) :
    z.fixed = s.fixed := by
  simp only [execPaletteCompileDone] at hz; (repeat' split at hz) <;> (try simp at hz) <;> (try (obtain ⟨rfl, rfl⟩ := hz)) <;> (try subst hz) <;> (try simp)

theorem execPaletteUnload_fixed (h : Hdr) (slice : BitVec 6) (index : U16) (s : State) {z : State} (hz : execPaletteUnload h slice index s = .next z) :
    z.fixed = s.fixed := by
  unfold execPaletteUnload at hz; (try dsimp only at hz); refine hostCmd_fixed ?_ hz; intro u g; (try dsimp only); (repeat' split) <;> (try simp [withIndex]) <;> (repeat (first | rfl | refine Eq.trans (hostCmd_fixed (by assumption)) ?_)) <;> (try simp)

end Sys2Proof.Machine
end

