-- ==== Sys2Proof/Laws/FixedComposition.lean ====
section
/-! SUPPORT. Retrieval, the pool, mirrors, handoffs, checkpoints, repairs, rings and the composition keep the bundled fields. -/

namespace Sys2Proof.Machine

@[simp] theorem State.fetchAll_fixed (s : State) (sl : Nat) (l : List Nat) :
    (State.fetchAll s sl l).fixed = s.fixed := by
  simp only [State.fetchAll]; rw [foldl_fixed _ (by intro t x; (repeat' split) <;> (try simp))] <;> (try simp)

end Sys2Proof.Machine

namespace Sys2Proof.Machine

@[simp] theorem State.setRetOp_fixed (s : State) (o : RetOp) :
    (State.setRetOp s o).fixed = s.fixed := by
  simp [State.setRetOp]

@[simp] theorem State.delRetOp_fixed (s : State) (id : Nat) :
    (State.delRetOp s id).fixed = s.fixed := by
  simp [State.delRetOp]

@[simp] theorem State.setIndex_fixed (s : State) (x : Index) :
    (State.setIndex s x).fixed = s.fixed := by
  simp [State.setIndex]

@[simp] theorem State.retStart_fixed (s : State) (die : Nat) (search : Bool) (x0 : Nat) :
    (State.retStart s die search x0).fixed = s.fixed := by
  induction x0 generalizing s die search with | zero => (simp [State.retStart]) | succ n ih => (simp only [State.retStart]; (repeat' split) <;> (try simp [ih]))

@[simp] theorem State.retAccept_fixed (s : State) (o : RetOp) :
    (State.retAccept s o).fixed = s.fixed := by
  simp [State.retAccept]

@[simp] theorem State.retEnd_fixed (s : State) (o : RetOp) (status : Nat) (result : List (Nat × Nat)) :
    (State.retEnd s o status result).fixed = s.fixed := by
  simp [State.retEnd]

theorem State.takeObj_fixed (s : State) (sl type tier va units : Nat) (die : Option Nat) (prot : Bool) (t : Option Tag) {z : State} {w} (hz : State.takeObj s sl type tier va units die prot t = .ok (z, w)) :
    z.fixed = s.fixed := by
  unfold State.takeObj at hz; dsimp only at hz
  split at hz
  · cases hz; rfl
  · split at hz
    · cases hz
    · split at hz
      · cases hz
      · split at hz
        · cases hz
        · split at hz
          · rename_i h
            cases hz
            split at h
            · exact State.allocT1_fixed _ _ _ _ _ _ _ _ h
            · exact State.allocT2_fixed _ _ _ _ _ _ _ _ _ h
          · cases hz

@[simp] theorem State.endCreate_fixed (s : State) (t : Tag) (result : List (Nat × Nat)) :
    (State.endCreate s t result).keeps s.fixed := by
  simp [State.endCreate]

@[simp] theorem State.makeIndex_fixed (s : State) (o : IndexOps) (sl die : Nat) (t : Tag) :
    (State.makeIndex s o sl die t).keeps s.fixed := by
  unfold State.makeIndex; (try dsimp only)
  refine objThen_keeps (fun s1 va h1 => objThen_keeps (fun s2 rva h2 => ?_))
  have e1 := State.takeObj_fixed _ _ _ _ _ _ _ _ _ h1
  have e2 := State.takeObj_fixed _ _ _ _ _ _ _ _ _ h2
  unfold State.endCreate
  split
  · exact (State.created_fixed _ _).trans (e2.trans e1)
  · exact e2.trans e1

theorem execIndexCreate_fixed (h : Hdr) (o : IndexOps) (s : State) {z : State} (hz : execIndexCreate h o s = .next z) :
    z.fixed = s.fixed := by
  unfold execIndexCreate at hz; (try dsimp only at hz); refine hostCmd_fixed ?_ hz; intro u g; (try dsimp only); (repeat' split) <;> (try simp [withIndex]) <;> (repeat (first | rfl | refine Eq.trans (hostCmd_fixed (by assumption)) ?_)) <;> (try simp)

@[simp] theorem State.indexGone_fixed (s : State) (sl n : Nat) :
    (State.indexGone s sl n).fixed = s.fixed := by
  simp only [State.indexGone]; (repeat' split) <;> (try simp)

theorem execIndexDestroy_fixed (h : Hdr) (slice : BitVec 6) (index : U8) (s : State) {z : State} (hz : execIndexDestroy h slice index s = .next z) :
    z.fixed = s.fixed := by
  unfold execIndexDestroy at hz; (try dsimp only at hz); refine hostCmd_fixed ?_ hz; intro u g; (try dsimp only); (repeat' split) <;> (try simp [withIndex]) <;> (repeat (first | rfl | refine Eq.trans (hostCmd_fixed (by assumption)) ?_)) <;> (try simp)

theorem execInsertVec_fixed (h : Hdr) (slice : BitVec 6) (index : U8) (id : U32) (srcAddr attrAddr : U64) (s : State) {z : State} (hz : execInsertVec h slice index id srcAddr attrAddr s = .next z) :
    z.fixed = s.fixed := by
  unfold execInsertVec at hz; (try dsimp only at hz); refine hostCmd_fixed ?_ hz; intro u g; (try dsimp only); (repeat' split) <;> (try simp [withIndex]) <;> (repeat (first | rfl | refine Eq.trans (hostCmd_fixed (by assumption)) ?_)) <;> (try simp)

theorem execDeleteVec_fixed (h : Hdr) (slice : BitVec 6) (index : U8) (id : U32) (s : State) {z : State} (hz : execDeleteVec h slice index id s = .next z) :
    z.fixed = s.fixed := by
  unfold execDeleteVec at hz; (try dsimp only at hz); refine hostCmd_fixed ?_ hz; intro u g; (try dsimp only); (repeat' split) <;> (try simp [withIndex]) <;> (repeat (first | rfl | refine Eq.trans (hostCmd_fixed (by assumption)) ?_)) <;> (try simp)

theorem execIndexCompact_fixed (h : Hdr) (slice : BitVec 6) (index : U8) (s : State) {z : State} (hz : execIndexCompact h slice index s = .next z) :
    z.fixed = s.fixed := by
  unfold execIndexCompact at hz; (try dsimp only at hz); refine hostCmd_fixed ?_ hz; intro u g; (try dsimp only); (repeat' split) <;> (try simp [withIndex]) <;> (repeat (first | rfl | refine Eq.trans (hostCmd_fixed (by assumption)) ?_)) <;> (try simp)

@[simp] theorem State.putCursor_fixed (s : State) (i k : Nat) (b : Bytes) :
    (State.putCursor s i k b).fixed = s.fixed := by
  unfold State.putCursor; split
  · rfl
  · rename_i h; simpa using State.sideAreas_fixed _ _ h

@[simp] theorem State.saveQuery_fixed (s : State) (i qoff : Nat) (query filter : Bytes) :
    (State.saveQuery s i qoff query filter).fixed = s.fixed := by
  unfold State.saveQuery; split
  · rfl
  · rename_i h; simpa using State.sideAreas_fixed _ _ h

theorem execSearch_fixed (h : Hdr) (o : SearchOps) (s : State) {z : State} (hz : execSearch h o s = .next z) :
    z.fixed = s.fixed := by
  unfold execSearch at hz; (try dsimp only at hz); refine hostCmd_fixed ?_ hz; intro u g; (try dsimp only); (repeat' split) <;> (try simp [withIndex]) <;> (repeat (first | rfl | refine Eq.trans (hostCmd_fixed (by assumption)) ?_)) <;> (try simp)

theorem execSearchNext_fixed (h : Hdr) (handle : U64) (cursor : BitVec 6) (resultAddr : U64) (s : State) {z : State} (hz : execSearchNext h handle cursor resultAddr s = .next z) :
    z.fixed = s.fixed := by
  unfold execSearchNext at hz; (try dsimp only at hz); refine hostCmd_fixed ?_ hz; intro u g; (try dsimp only); (repeat' split) <;> (try simp [withIndex]) <;> (repeat (first | rfl | refine Eq.trans (hostCmd_fixed (by assumption)) ?_)) <;> (try simp)

theorem execCursorDrop_fixed (h : Hdr) (handle : U64) (cursor : BitVec 6) (s : State) {z : State} (hz : execCursorDrop h handle cursor s = .next z) :
    z.fixed = s.fixed := by
  unfold execCursorDrop at hz; (try dsimp only at hz); refine hostCmd_fixed ?_ hz; intro u g; (try dsimp only); (repeat' split) <;> (try simp [withIndex]) <;> (repeat (first | rfl | refine Eq.trans (hostCmd_fixed (by assumption)) ?_)) <;> (try simp)

@[simp] theorem State.cursorAfter_fixed (s : State) (x : Index) (o : RetOp) (r : List (U32 × Nat)) :
    (State.cursorAfter s x o r).fixed = s.fixed := by
  simp only [State.cursorAfter]; (repeat' split) <;> (try simp)

@[simp] theorem State.searchDone_fixed (s : State) (x : Index) (o : RetOp) :
    (State.searchDone s x o).fixed = s.fixed := by
  simp [State.searchDone]

@[simp] theorem State.runPlan_fixed (s : State) (die sl : Nat) (p : Plan) :
    (State.runPlan s die sl p).fixed = s.fixed := by
  simp [State.runPlan]

@[simp] theorem State.insertNode_fixed (s : State) (x : Index) (o : RetOp) (n : NodeView) :
    (State.insertNode s x o n).fixed = s.fixed := by
  simp only [State.insertNode]; (repeat' split) <;> (try simp)

@[simp] theorem State.insertDone_fixed (s : State) (x : Index) (o : RetOp) :
    (State.insertDone s x o).fixed = s.fixed := by
  simp [State.insertDone]

@[simp] theorem State.deleteNode_fixed (s : State) (x : Index) (o : RetOp) (n : NodeView) :
    (State.deleteNode s x o n).fixed = s.fixed := by
  simp only [State.deleteNode]; (repeat' split) <;> (try simp)

@[simp] theorem State.deleteDone_fixed (s : State) (x : Index) (o : RetOp) :
    (State.deleteDone s x o).fixed = s.fixed := by
  simp [State.deleteDone]

@[simp] theorem State.compactDone_fixed (s : State) (x : Index) (o : RetOp) :
    (State.compactDone s x o).fixed = s.fixed := by
  simp [State.compactDone]

theorem execCompactRelease_fixed (slice : BitVec 6) (index : U8) (s : State) {z : State} (hz : execCompactRelease slice index s = .next z) :
    z.fixed = s.fixed := by
  simp only [execCompactRelease] at hz; (repeat' split at hz) <;> (try simp at hz) <;> (try (obtain ⟨rfl, rfl⟩ := hz)) <;> (try subst hz) <;> (try simp)

end Sys2Proof.Machine

namespace Sys2Proof.Machine

@[simp] theorem State.setTable_fixed (s : State) (t : Table) :
    (State.setTable s t).fixed = s.fixed := by
  simp [State.setTable]

@[simp] theorem State.makeTable_fixed (s : State) (o : TableOps) (sl k : Nat) (dflt : Bytes) (t : Tag) :
    (State.makeTable s o sl k dflt t).keeps s.fixed := by
  unfold State.makeTable; (try dsimp only)
  refine objThen_keeps (fun s1 va h1 => ?_)
  obtain ⟨⟨a1, a2⟩, ha, h1⟩ := Except.bind_eq_ok.1 h1
  obtain ⟨⟨b1, b2⟩, hb, h1⟩ := Except.bind_eq_ok.1 h1
  obtain ⟨⟨c1, c2⟩, hc, h1⟩ := Except.bind_eq_ok.1 h1
  obtain ⟨⟨d1, d2⟩, hd, h1⟩ := Except.map_eq_ok.1 h1
  have ea := State.takeObj_fixed _ _ _ _ _ _ _ _ _ ha
  have eb := State.takeObj_fixed _ _ _ _ _ _ _ _ _ hb
  have ec := State.takeObj_fixed _ _ _ _ _ _ _ _ _ hc
  have ed := State.takeObj_fixed _ _ _ _ _ _ _ _ _ hd
  cases h1
  have e := ed.trans (ec.trans (eb.trans ea))
  unfold State.endCreate
  split
  · simpa using e
  · simpa using e

theorem execTableCreate_fixed (h : Hdr) (o : TableOps) (s : State) {z : State} (hz : execTableCreate h o s = .next z) :
    z.fixed = s.fixed := by
  unfold execTableCreate at hz; (try dsimp only at hz); refine hostCmd_fixed ?_ hz; intro u g; (try dsimp only); (repeat' split) <;> (try simp [withIndex]) <;> (repeat (first | rfl | refine Eq.trans (hostCmd_fixed (by assumption)) ?_)) <;> (try simp)

@[simp] theorem State.freeVas_fixed (s : State) (sl : Nat) (vas : List Nat) :
    (State.freeVas s sl vas).fixed = s.fixed := by
  simp [State.freeVas]

@[simp] theorem State.tableGone_fixed (s : State) (sl n : Nat) :
    (State.tableGone s sl n).fixed = s.fixed := by
  simp only [State.tableGone]; (repeat' split) <;> (try simp)

theorem execTableDestroy_fixed (h : Hdr) (slice : BitVec 6) (table : U8) (s : State) {z : State} (hz : execTableDestroy h slice table s = .next z) :
    z.fixed = s.fixed := by
  unfold execTableDestroy at hz; (try dsimp only at hz); refine hostCmd_fixed ?_ hz; intro u g; (try dsimp only); (repeat' split) <;> (try simp [withIndex]) <;> (repeat (first | rfl | refine Eq.trans (hostCmd_fixed (by assumption)) ?_)) <;> (try simp)

@[simp] theorem State.rowUpdate_fixed (s : State) (sl n version row src : Nat) (add dup : Bool) (b : Bytes) :
    (State.rowUpdate s sl n version row src add dup b).fixed = s.fixed := by
  simp only [State.rowUpdate]; (repeat' split) <;> (try simp)

@[simp] theorem State.batch_fixed (s : State) (kind : RetKind) (h : Hdr) (o : BatchOps) (t : Tag) :
    (State.batch s kind h o t).keeps s.fixed := by
  simp only [State.batch]; (repeat' split) <;> (try simp)

theorem execGather_fixed (h : Hdr) (o : BatchOps) (s : State) {z : State} (hz : execGather h o s = .next z) :
    z.fixed = s.fixed := by
  unfold execGather at hz; (try dsimp only at hz); refine hostCmd_fixed ?_ hz; intro u g; (try dsimp only); (repeat' split) <;> (try simp [withIndex]) <;> (repeat (first | rfl | refine Eq.trans (hostCmd_fixed (by assumption)) ?_)) <;> (try simp)

theorem execScatterAdd_fixed (h : Hdr) (o : BatchOps) (s : State) {z : State} (hz : execScatterAdd h o s = .next z) :
    z.fixed = s.fixed := by
  unfold execScatterAdd at hz; (try dsimp only at hz); refine hostCmd_fixed ?_ hz; intro u g; (try dsimp only); (repeat' split) <;> (try simp [withIndex]) <;> (repeat (first | rfl | refine Eq.trans (hostCmd_fixed (by assumption)) ?_)) <;> (try simp)

theorem execScatterSet_fixed (h : Hdr) (o : BatchOps) (s : State) {z : State} (hz : execScatterSet h o s = .next z) :
    z.fixed = s.fixed := by
  unfold execScatterSet at hz; (try dsimp only at hz); refine hostCmd_fixed ?_ hz; intro u g; (try dsimp only); (repeat' split) <;> (try simp [withIndex]) <;> (repeat (first | rfl | refine Eq.trans (hostCmd_fixed (by assumption)) ?_)) <;> (try simp)

@[simp] theorem State.sendRows_fixed (s : State) (o : RetOp) (i : TableInfo) :
    (State.sendRows s o i).fixed = s.fixed := by
  simp [State.sendRows]

@[simp] theorem State.retFault_fixed (s : State) (sl : Nat) (write : Bool) (va n : Nat) :
    (State.retFault s sl write va n).fixed = s.fixed := by
  simp only [State.retFault]; (repeat' split) <;> (try simp)

@[simp] theorem State.deliver_fixed (s : State) (o : RetOp) (rows : List (Bytes × Bool)) :
    (State.deliver s o rows).fixed = s.fixed := by
  simp [State.deliver]

theorem State.destHeld_fixed (s : State) (o : RetOp) (n : Nat) {z : State} (hz : State.destHeld s o n = some z) :
    z.fixed = s.fixed := by
  simp only [State.destHeld] at hz; (repeat' split at hz) <;> (try simp at hz) <;> (try (obtain ⟨rfl, rfl⟩ := hz)) <;> (try subst hz) <;> (try simp)

theorem State.withSource_fixed (s : State) (o : RetOp) (rb : Nat) (f : State → RetOp → State)
    (hf : ∀ t p, (f t p).fixed = t.fixed) : (State.withSource s o rb f).fixed = s.fixed := by
  unfold State.withSource; dsimp only; (repeat' split) <;> (try simp) <;> (try exact hf _ _)

@[simp] theorem State.gatherEnd_fixed (s : State) (o : RetOp) (rows : List (Bytes × Bool)) (nbad status : Nat) :
    (State.gatherEnd s o rows nbad status).fixed = s.fixed := by
  simp [State.gatherEnd]

@[simp] theorem State.gatherDone_fixed (s : State) (t : Table) (o : RetOp) :
    (State.gatherDone s t o).fixed = s.fixed := by
  unfold State.gatherDone; dsimp only; split
  · simp
  · split
    · exact State.destHeld_fixed _ _ _ (by assumption)
    · simp

@[simp] theorem State.scatterDone_fixed (s : State) (t : Table) (o : RetOp) :
    (State.scatterDone s t o).fixed = s.fixed := by
  simp [State.scatterDone]

@[simp] theorem State.remoteDone_fixed (s : State) (o : RetOp) :
    (State.remoteDone s o).fixed = s.fixed := by
  unfold State.remoteDone; dsimp only
  split
  · split
    · simp
    · exact State.withSource_fixed _ _ _ _ fun t p => by simp
  · (repeat' split) <;> first
      | exact State.destHeld_fixed _ _ _ (by assumption)
      | simp

@[simp] theorem State.retDone_fixed (s : State) (o : RetOp) :
    (State.retDone s o).fixed = s.fixed := by
  unfold State.retDone; (repeat' split) <;> first
    | (simp; done)
    | exact (State.tableGone_fixed _ _ _).trans (State.withSource_fixed _ _ _ _ fun u p => by simp)

theorem execRetrievalOperationDone_fixed (die : BitVec 3) (gather : U1) (engine : BitVec 2) (s : State) {z : State} (hz : execRetrievalOperationDone die gather engine s = .next z) :
    z.fixed = s.fixed := by
  simp only [execRetrievalOperationDone] at hz; (repeat' split at hz) <;> (try simp at hz) <;> (try (obtain ⟨rfl, rfl⟩ := hz)) <;> (try subst hz) <;> (try simp)

theorem execTableStage_fixed (h : Hdr) (slice : BitVec 6) (table : U8) (s : State) {z : State} (hz : execTableStage h slice table s = .next z) :
    z.fixed = s.fixed := by
  unfold execTableStage at hz; refine hostCmd_fixed ?_ hz; intro u g; (try dsimp only)
  refine State.inSlice_fixed _ _ _ _ ?_
  split
  · trivial
  · split
    · trivial
    · refine objThen_keeps (fun s1 va h1 => ?_)
      have e := State.takeObj_fixed _ _ _ _ _ _ _ _ _ h1
      unfold State.endCreate
      split
      · simpa using e
      · simpa using e

@[simp] theorem State.switchEnd_fixed (s : State) (sl n : Nat) :
    (State.switchEnd s sl n).fixed = s.fixed := by
  simp only [State.switchEnd]; (repeat' split) <;> (try simp)

@[simp] theorem State.switchNow_fixed (s : State) (t : Table) :
    (State.switchNow s t).fixed = s.fixed := by
  simp only [State.switchNow]; (repeat' split) <;> (try simp)

theorem execTableSwitch_fixed (h : Hdr) (slice : BitVec 6) (table : U8) (s : State) {z : State} (hz : execTableSwitch h slice table s = .next z) :
    z.fixed = s.fixed := by
  unfold execTableSwitch at hz; (try dsimp only at hz); refine hostCmd_fixed ?_ hz; intro u g; (try dsimp only); (repeat' split) <;> (try simp [withIndex]) <;> (repeat (first | rfl | refine Eq.trans (hostCmd_fixed (by assumption)) ?_)) <;> (try simp)

theorem execTableSwitchApply_fixed (slice : BitVec 6) (table : U8) (s : State) {z : State} (hz : execTableSwitchApply slice table s = .next z) :
    z.fixed = s.fixed := by
  simp only [execTableSwitchApply] at hz; (repeat' split at hz) <;> (try simp at hz) <;> (try (obtain ⟨rfl, rfl⟩ := hz)) <;> (try subst hz) <;> (try simp)

@[simp] theorem State.switchAll_fixed (s : State) (sl : Nat) :
    (State.switchAll s sl).fixed = s.fixed := by
  simp only [State.switchAll]; rw [foldl_fixed _ (by intro t x; (repeat' split) <;> (try simp))] <;> (try simp)

@[simp] theorem State.hotInstall_fixed (s : State) (sl step : Nat) :
    (State.hotInstall s sl step).fixed = s.fixed := by
  simp [State.hotInstall]

theorem execHotPost_fixed (h : Hdr) (slice : BitVec 6) (table : U8) (listAddr : U64) (count : U32) (s : State) {z : State} (hz : execHotPost h slice table listAddr count s = .next z) :
    z.fixed = s.fixed := by
  unfold execHotPost at hz; (try dsimp only at hz); refine hostCmd_fixed ?_ hz; intro u g; (try dsimp only); (repeat' split) <;> (try simp [withIndex]) <;> (repeat (first | rfl | refine Eq.trans (hostCmd_fixed (by assumption)) ?_)) <;> (try simp)

@[simp] theorem State.putMap_fixed (s : State) (t : Table) (slot row : Nat) (used : Bool) :
    (State.putMap s t slot row used).fixed = s.fixed := by
  simp [State.putMap]

@[simp] theorem State.migrateRow_fixed (s : State) (t : Table) (m : Migration) (slot : Nat) :
    (State.migrateRow s t m slot).fixed = s.fixed := by
  simp only [State.migrateRow]; (repeat' split) <;> (try simp)

theorem execRowMigration_fixed (slice : BitVec 6) (table : U8) (row : U32) (s : State) {z : State} (hz : execRowMigration slice table row s = .next z) :
    z.fixed = s.fixed := by
  simp only [execRowMigration] at hz; (repeat' split at hz) <;> (try simp at hz) <;> (try (obtain ⟨rfl, rfl⟩ := hz)) <;> (try subst hz) <;> (try simp)

end Sys2Proof.Machine

namespace Sys2Proof.Machine

@[simp] theorem State.poolPart_fixed (s : State) (b : Bytes) (bad : Bool) (p : Nat × Nat × Nat) :
    (State.poolPart s b bad p).fixed = s.fixed := by
  unfold State.poolPart; (try dsimp only)
  rw [fixed_ite]
  simp only [fixed_mk, fixed_fold, State.pwrite_fixed, ite_self]

@[simp] theorem State.poolWrite_fixed (s : State) (off : Nat) (b : Bytes) (bad : Bool) :
    (State.poolWrite s off b bad).fixed = s.fixed := by
  unfold State.poolWrite; exact foldl_fixed _ (by intro t x; simp) _ _

@[simp] theorem State.poolDrop_fixed (s : State) (r : PoolRange) :
    (State.poolDrop s r).fixed = s.fixed := by
  simp [State.poolDrop]

@[simp] theorem State.poolGive_fixed (s : State) (src sl units : Nat) :
    (State.poolGive s src sl units).1.fixed = s.fixed := by
  simp only [State.poolGive]; (repeat' split) <;> (try simp)

theorem poolAllocRule_fixed (t : TxHdr) (units : U64) :
    (poolAllocRule t units).Keeps := by
  intro u; simp [poolAllocRule]

theorem execPoolAlloc_fixed (t : TxHdr) (units : U64) (s : State) {z : State} (hz : execPoolAlloc t units s = .next z) :
    z.fixed = s.fixed := by
  cases hz; exact State.serve_fixed _ _ (by intro u; exact State.poolGive_fixed _ _ _ _)

@[simp] theorem State.poolTake_fixed (s : State) (src base : Nat) :
    (State.poolTake s src base).1.fixed = s.fixed := by
  simp only [State.poolTake]; (repeat' split) <;> (try simp)

theorem State.poolFreeRule_fixed (s : State) (t : TxHdr) (base : U64) :
    (State.poolFreeRule s t base).Keeps := by
  intro u; simp [State.poolFreeRule]

theorem execPoolFree_fixed (t : TxHdr) (base : U64) (s : State) {z : State} (hz : execPoolFree t base s = .next z) :
    z.fixed = s.fixed := by
  cases hz; exact State.serve_fixed _ _ (by intro u; simp [State.poolFreeRule])

theorem poolInfoRule_fixed (t : TxHdr) :
    (poolInfoRule t).Keeps := by
  intro u; simp [poolInfoRule]

theorem execPoolInfo_fixed (t : TxHdr) (s : State) {z : State} (hz : execPoolInfo t s = .next z) :
    z.fixed = s.fixed := by
  cases hz; exact State.serve_fixed _ _ (by intro u; simp [poolInfoRule])

theorem identifyRule_fixed (t : TxHdr) :
    (identifyRule t).Keeps := by
  intro u; simp [identifyRule]

theorem execIdentify_fixed (t : TxHdr) (s : State) {z : State} (hz : execIdentify t s = .next z) :
    z.fixed = s.fixed := by
  cases hz; exact State.serve_fixed _ _ (by intro u; simp [identifyRule])

theorem execPoolReclaim_fixed (h : Hdr) (locator : U64) (s : State) {z : State} (hz : execPoolReclaim h locator s = .next z) :
    z.fixed = s.fixed := by
  unfold execPoolReclaim at hz; (try dsimp only at hz); refine hostCmd_fixed ?_ hz; intro u g; (try dsimp only); (repeat' split) <;> (try simp [withIndex]) <;> (repeat (first | rfl | refine Eq.trans (hostCmd_fixed (by assumption)) ?_)) <;> (try simp)

@[simp] theorem State.readPool_fixed (s : State) (t : TxHdr) :
    (State.readPool s t).1.fixed = s.fixed := by
  simp [State.readPool]

@[simp] theorem State.readRow_fixed (s : State) (t : TxHdr) :
    (State.readRow s t).1.fixed = s.fixed := by
  simp only [State.readRow]; (repeat' split) <;> (try simp)

theorem State.readRule_fixed (s : State) (t : TxHdr) :
    (State.readRule s t).Keeps := by
  intro u; simp [State.readRule]

@[simp] theorem State.serveRow_fixed (s : State) (t : TxHdr) (r : Rule) (hr : r.Keeps) :
    (State.serveRow s t r).fixed = s.fixed := by
  unfold State.serveRow; split
  · rw [State.fetchAll_fixed]; rfl
  · exact State.serve_fixed _ _ hr

theorem execReadTxn_fixed (t : TxHdr) (s : State) {z : State} (hz : execReadTxn t s = .next z) :
    z.fixed = s.fixed := by
  cases hz; exact State.serveRow_fixed _ _ _ (State.readRule_fixed _ _)

theorem State.writeRule_fixed (s : State) (t : TxHdr) (data : Bytes) :
    (State.writeRule s t data).Keeps := by
  intro u; simp [State.writeRule]

@[simp] theorem State.atomicWhole_fixed (s : State) (tb : Table) (src row : Nat) (add : Bool) (b : Bytes) (bad : Bool) :
    (State.atomicWhole s tb src row add b bad).1.fixed = s.fixed := by
  simp [State.atomicWhole]

@[simp] theorem State.atomicRow_fixed (s : State) (t : TxHdr) (op : Nat) (data : Bytes) :
    (State.atomicRow s t op data).1.fixed = s.fixed := by
  simp only [State.atomicRow]; (repeat' split) <;> (try simp)

theorem rowRule_fixed (t : TxHdr) (op : Nat) (data : Bytes) (cmd : Instr) :
    (rowRule t op data cmd).Keeps := by
  intro u; simp [rowRule]

theorem execAddF32_fixed (t : TxHdr) (data : Bytes) (s : State) {z : State} (hz : execAddF32 t data s = .next z) :
    z.fixed = s.fixed := by
  cases hz; exact State.serveRow_fixed _ _ _ (rowRule_fixed _ _ _ _)

theorem execAddBf16_fixed (t : TxHdr) (data : Bytes) (s : State) {z : State} (hz : execAddBf16 t data s = .next z) :
    z.fixed = s.fixed := by
  cases hz; exact State.serveRow_fixed _ _ _ (rowRule_fixed _ _ _ _)

theorem execSetRow_fixed (t : TxHdr) (data : Bytes) (s : State) {z : State} (hz : execSetRow t data s = .next z) :
    z.fixed = s.fixed := by
  cases hz; exact State.serveRow_fixed _ _ _ (rowRule_fixed _ _ _ _)

@[simp] theorem State.atomic64_fixed (s : State) (t : TxHdr) (f : Nat → Nat) :
    (State.atomic64 s t f).1.fixed = s.fixed := by
  simp [State.atomic64]

theorem State.word64Rule_fixed (s : State) (t : TxHdr) (op : Nat) (data : Bytes) (cmd : Instr) (f : Nat → Nat) :
    (State.word64Rule s t op data cmd f).Keeps := by
  intro u; simp [State.word64Rule]

theorem State.faddRule_fixed (s : State) (t : TxHdr) (data : Bytes) :
    (State.faddRule s t data).Keeps := by
  exact State.word64Rule_fixed _ _ _ _ _ _

theorem execFadd64_fixed (t : TxHdr) (data : Bytes) (s : State) {z : State} (hz : execFadd64 t data s = .next z) :
    z.fixed = s.fixed := by
  cases hz; exact State.serve_fixed _ _ (State.faddRule_fixed _ _ _)

theorem State.casRule_fixed (s : State) (t : TxHdr) (data : Bytes) :
    (State.casRule s t data).Keeps := by
  exact State.word64Rule_fixed _ _ _ _ _ _

theorem execCas64_fixed (t : TxHdr) (data : Bytes) (s : State) {z : State} (hz : execCas64 t data s = .next z) :
    z.fixed = s.fixed := by
  cases hz; exact State.serve_fixed _ _ (State.casRule_fixed _ _ _)

end Sys2Proof.Machine

namespace Sys2Proof.Machine

theorem State.sessRule_keeps (s : State) (t : TxHdr) (type op : Nat) (data : Bytes) (cmd : Instr) (sid : U64) (epoch : Nat)
    (always : Bool) (eff : State → State × Ans) (hk : ∀ u, (eff u).1.fixed = u.fixed) :
    (State.sessRule s t type op data cmd sid epoch always eff).Keeps := by
  intro u; unfold State.sessRule; (try dsimp only); split <;> simp [hk]

@[simp] theorem State.setMirror_fixed (s : State) (m : Mirror) :
    (State.setMirror s m).fixed = s.fixed := by
  simp [State.setMirror]

theorem State.mirrorFor_fixed (s : State) (sid : U64) (src epoch offset bytes : Nat) {z : State} {w} (hz : State.mirrorFor s sid src epoch offset bytes = some (z, w)) :
    z.fixed = s.fixed := by
  unfold State.mirrorFor at hz; split at hz
  · cases hz; rfl
  · obtain ⟨a, ha, hz⟩ := Option.bind_eq_some_iff.1 hz
    obtain ⟨b, hb, hz⟩ := Option.map_eq_some_iff.1 hz
    cases hz; exact State.takeGroup_fixed _ _ _

theorem State.mirrorGrow_fixed (s : State) (m : Mirror) (p : Prog) (n : Nat) {z : State} (hz : State.mirrorGrow s m p n = some z) :
    z.fixed = s.fixed := by
  obtain ⟨x, hx, e⟩ := Option.bind_eq_some_iff.1 hz
  refine (State.remap_fixed _ _ e).trans ?_
  simpa using State.takePages_fixed _ _ _ _ _ _ _ _ (w := x.2) hx

@[simp] theorem State.mirrorWrite_fixed (s : State) (m : Mirror) (g : Geom) (layer t : Nat) (rows : List Bytes) :
    (State.mirrorWrite s m g layer t rows).fixed = s.fixed := by
  simp only [State.mirrorWrite]; rw [foldl_fixed _ (by intro t x; (repeat' split) <;> (try simp))] <;> (try simp)

@[simp] theorem State.takeRows_fixed (s : State) (t : TxHdr) (sid : U64) (layer first : Nat) (data : Bytes) :
    (State.takeRows s t sid layer first data).1.fixed = s.fixed := by
  unfold State.takeRows; (try dsimp only); split
  · rfl
  · rename_i s1 m h1
    have e1 := State.mirrorFor_fixed _ _ _ _ _ _ (w := m) h1
    split
    · rfl
    · split
      · simp
      · split
        · rfl
        · rename_i h2
          have e2 := State.mirrorGrow_fixed _ _ _ _ h2
          simp [e1, e2]

theorem execMirrorRows_fixed (t : TxHdr) (sid : U64) (layer : U8) (first : U32) (data : Bytes) (s : State) {z : State} (hz : execMirrorRows t sid layer first data s = .next z) :
    z.fixed = s.fixed := by
  cases hz; exact State.serve_fixed _ _ (State.sessRule_keeps _ _ _ _ _ _ _ _ _ _ (by intro u; (try dsimp only); (repeat' split) <;> (try simp) <;> (repeat' split) <;> (try simp)))

@[simp] theorem State.dropMirror_fixed (s : State) (m : Mirror) :
    (State.dropMirror s m).fixed = s.fixed := by
  simp [State.dropMirror]

@[simp] theorem State.commitMirror_fixed (s : State) (t : TxHdr) (sid : U64) (n : Nat) :
    (State.commitMirror s t sid n).1.fixed = s.fixed := by
  simp only [State.commitMirror]; (repeat' split) <;> (try simp)

theorem execMirrorCommit_fixed (t : TxHdr) (sid : U64) (committed : U32) (s : State) {z : State} (hz : execMirrorCommit t sid committed s = .next z) :
    z.fixed = s.fixed := by
  cases hz; exact State.serve_fixed _ _ (State.sessRule_keeps _ _ _ _ _ _ _ _ _ _ (by intro u; (try dsimp only); (repeat' split) <;> (try simp) <;> (repeat' split) <;> (try simp)))

theorem execMirrorState_fixed (t : TxHdr) (sid : U64) (sampler scratch cursors : Bytes) (s : State) {z : State} (hz : execMirrorState t sid sampler scratch cursors s = .next z) :
    z.fixed = s.fixed := by
  cases hz; exact State.serve_fixed _ _ (State.sessRule_keeps _ _ _ _ _ _ _ _ _ _ (by intro u; (try dsimp only); (repeat' split) <;> (try simp) <;> (repeat' split) <;> (try simp)))

@[simp] theorem State.copyStretch_fixed (s : State) (i dev : Nat) :
    (State.copyStretch s i dev).fixed = s.fixed := by
  simp only [State.copyStretch]; (repeat' split) <;> (try simp)

@[simp] theorem State.mirrorMoved_fixed (s : State) (i : Nat) :
    (State.mirrorMoved s i).fixed = s.fixed := by
  simp [State.mirrorMoved]

@[simp] theorem State.setNeighbours_fixed (s : State) (sid : U64) (pos dev old epoch : Nat) :
    (State.setNeighbours s sid pos dev old epoch).fixed = s.fixed := by
  simp [State.setNeighbours]

@[simp] theorem State.forgetRing_fixed (s : State) (sid : U64) :
    (State.forgetRing s sid).fixed = s.fixed := by
  simp [State.forgetRing]

@[simp] theorem State.resendQueries_fixed (s : State) (sid : U64) (dev : Nat) :
    (State.resendQueries s sid dev).fixed = s.fixed := by
  simp [State.resendQueries]

@[simp] theorem State.promoteMirror_fixed (s : State) (m : Mirror) :
    (State.promoteMirror s m).fixed = s.fixed := by
  simp only [State.promoteMirror]; (repeat' split) <;> (try simp)

end Sys2Proof.Machine

namespace Sys2Proof.Machine

@[simp] theorem State.setHo_fixed (s : State) (h : Handoff) :
    (State.setHo s h).fixed = s.fixed := by
  simp [State.setHo]

@[simp] theorem State.delHo_fixed (s : State) (h : Handoff) :
    (State.delHo s h).fixed = s.fixed := by
  simp [State.delHo]

@[simp] theorem State.hoSend_fixed (s : State) (h : Handoff) (op : Nat) (more : List Nat) :
    (State.hoSend s h op more).fixed = s.fixed := by
  simp [State.hoSend]

@[simp] theorem State.migrateDone_fixed (s : State) (h : Handoff) (code : Nat) (handle : U64) :
    (State.migrateDone s h code handle).fixed = s.fixed := by
  simp only [State.migrateDone]; (repeat' split) <;> (try simp)

@[simp] theorem State.startMigrate_fixed (s : State) (i dev sl tier : Nat) (tag : Option Tag) (reply : Option TxHdr) :
    (State.startMigrate s i dev sl tier tag reply).fixed = s.fixed := by
  simp only [State.startMigrate]; (repeat' split) <;> (try simp)

@[simp] theorem State.migrateOwn_fixed (s : State) (i dev sl tier : Nat) (tag : Option Tag) (reply : Option TxHdr) :
    (State.migrateOwn s i dev sl tier tag reply).fixed = s.fixed := by
  simp [State.migrateOwn]

theorem execMigrate_fixed (h : Hdr) (handle : U64) (member : BitVec 6) (targetDev : U16) (targetSlice : BitVec 6) (tier : BitVec 2) (s : State) {z : State} (hz : execMigrate h handle member targetDev targetSlice tier s = .next z) :
    z.fixed = s.fixed := by
  unfold execMigrate at hz; (try dsimp only at hz); (repeat' split at hz) <;> (try (cases hz)) <;> (try simp) <;> (refine hostCmd_fixed ?_ hz; intro u g; (repeat' (first | refine withIndex_keeps _ _ _ (fun i => ?_) | refine checked_keeps _ _ _ ?_ | split | dsimp only)) <;> (try simp) <;> (repeat (first | rfl | refine Eq.trans (hostCmd_fixed (by assumption)) ?_)) <;> (try simp))

@[simp] theorem State.offerSeat_fixed (s : State) (sl : Nat) (o : OfferOps) (i : Nat) :
    (State.offerSeat s sl o i).fixed = s.fixed := by
  simp [State.offerSeat]

theorem State.offerRoom_fixed (s : State) (sl : Nat) (o : OfferOps) (i : Nat) {z : State} (hz : State.offerRoom s sl o i = some z) :
    z.fixed = s.fixed := by
  obtain ⟨p, hp, hz⟩ := Option.bind_eq_some_iff.1 hz
  obtain ⟨x, hx, e⟩ := Option.bind_eq_some_iff.1 hz
  refine (State.remap_fixed _ _ e).trans ?_
  simpa using State.takePages_fixed _ _ _ _ _ _ _ _ (w := x.2) hx

@[simp] theorem State.acceptOffer_fixed (s : State) (t : TxHdr) (o : OfferOps) (i : Nat) (place : Nat × Nat × List Nat) :
    (State.acceptOffer s t o i place).fixed = s.fixed := by
  unfold State.acceptOffer; (try dsimp only)
  rw [State.hoSend_fixed, foldl_fixed _ (by intro t x; simp)]
  simp only [fixed_mk, fixed_fold]
  have h : ((s.offerRoom t.slice.toNat o i).getD s).fixed = s.fixed := by
    cases h : s.offerRoom t.slice.toNat o i with
    | none => rfl
    | some x => exact State.offerRoom_fixed _ _ _ _ h
  (repeat' split) <;> simp [h]

@[simp] theorem State.takeOffer_fixed (s : State) (t : TxHdr) (o : OfferOps) :
    (State.takeOffer s t o).fixed = s.fixed := by
  simp only [State.takeOffer]; (repeat' split) <;> (try simp)

theorem execOffer_fixed (t : TxHdr) (o : OfferOps) (s : State) {z : State} (hz : execOffer t o s = .next z) :
    z.fixed = s.fixed := by
  cases hz; exact State.serve_fixed _ _ (State.sessRule_keeps _ _ _ _ _ _ _ _ _ _ (by intro u; (try dsimp only); (repeat' split) <;> (try simp) <;> (repeat' split) <;> (try simp)))

@[simp] theorem State.giverBack_fixed (s : State) (h : Handoff) (code : Nat) :
    (State.giverBack s h code).fixed = s.fixed := by
  simp [State.giverBack]

@[simp] theorem State.tellNeighbours_fixed (s : State) (h : Handoff) :
    (State.tellNeighbours s h).fixed = s.fixed := by
  simp [State.tellNeighbours]

@[simp] theorem State.leaveForward_fixed (s : State) (sid : U64) (dev : Nat) :
    (State.leaveForward s sid dev).fixed = s.fixed := by
  simp [State.leaveForward]

@[simp] theorem State.leaveCanvas_fixed (s : State) (h : Handoff) (d : Desc) :
    (State.leaveCanvas s h d).fixed = s.fixed := by
  simp only [State.leaveCanvas]; (repeat' split) <;> (try simp)

@[simp] theorem State.keepLeft_fixed (s : State) (h : Handoff) :
    (State.keepLeft s h).fixed = s.fixed := by
  simp [State.keepLeft]

@[simp] theorem State.giverRelease_fixed (s : State) (h : Handoff) (handle : U64) :
    (State.giverRelease s h handle).fixed = s.fixed := by
  simp [State.giverRelease]

@[simp] theorem State.handOver_fixed (s : State) (h : Handoff) (r : Request) :
    (State.handOver s h r).fixed = s.fixed := by
  simp [State.handOver]

@[simp] theorem State.tailRelease_fixed (s : State) (h : Handoff) :
    (State.tailRelease s h).fixed = s.fixed := by
  simp [State.tailRelease]

@[simp] theorem State.releaseSide_fixed (s : State) (h : Handoff) (handle : U64) :
    (State.releaseSide s h handle).fixed = s.fixed := by
  simp [State.releaseSide]

@[simp] theorem State.receiverDrop_fixed (s : State) (h : Handoff) :
    (State.receiverDrop s h).fixed = s.fixed := by
  simp [State.receiverDrop]

@[simp] theorem State.refuse_fixed (s : State) (h : Handoff) (code : Nat) :
    (State.refuse s h code).fixed = s.fixed := by
  simp [State.refuse]

@[simp] theorem State.prepared_fixed (s : State) (h : Handoff) :
    (State.prepared s h).fixed = s.fixed := by
  simp [State.prepared]

@[simp] theorem State.finishMigrateIn_fixed (s : State) (h : Handoff) (o : CanvasOp) :
    (State.finishMigrateIn s h o).fixed = s.fixed := by
  simp [State.finishMigrateIn]

@[simp] theorem State.finishWinterIn_fixed (s : State) (h : Handoff) (o : CanvasOp) :
    (State.finishWinterIn s h o).fixed = s.fixed := by
  simp [State.finishWinterIn]

@[simp] theorem State.receiverOwn_fixed (s : State) (h : Handoff) :
    (State.receiverOwn s h).fixed = s.fixed := by
  simp [State.receiverOwn]

@[simp] theorem State.tailOwn_fixed (s : State) (h : Handoff) :
    (State.tailOwn s h).fixed = s.fixed := by
  simp only [State.tailOwn]; (repeat' split) <;> (try simp)

@[simp] theorem State.ownSide_fixed (s : State) (h : Handoff) :
    (State.ownSide s h).fixed = s.fixed := by
  simp [State.ownSide]

@[simp] theorem State.sendMigration_fixed (s : State) (o : CanvasOp) :
    (State.sendMigration s o).fixed = s.fixed := by
  simp only [State.sendMigration]; (repeat' split) <;> (try simp)

@[simp] theorem State.parkRefused_fixed (s : State) (i status : Nat) :
    (State.parkRefused s i status).fixed = s.fixed := by
  simp [State.parkRefused]

theorem execParkEnd_fixed (index : BitVec 24) (s : State) {z : State} (hz : execParkEnd index s = .next z) :
    z.fixed = s.fixed := by
  simp only [execParkEnd] at hz; (repeat' split at hz) <;> (try simp at hz) <;> (try (obtain ⟨rfl, rfl⟩ := hz)) <;> (try subst hz) <;> (try simp)

theorem execThawEnd_fixed (index : BitVec 24) (s : State) {z : State} (hz : execThawEnd index s = .next z) :
    z.fixed = s.fixed := by
  simp only [execThawEnd] at hz; (repeat' split at hz) <;> (try simp at hz) <;> (try (obtain ⟨rfl, rfl⟩ := hz)) <;> (try subst hz) <;> (try simp)

theorem State.hoRule_keeps (s : State) (t : TxHdr) (op : Nat) (cmd : Instr) (sid : U64) (epoch : Nat) (giver : Bool)
    (eff : State → Handoff → State) (hk : ∀ u h, (eff u h).fixed = u.fixed) :
    (State.hoRule s t op cmd sid epoch giver eff).Keeps := by
  unfold State.hoRule
  refine State.sessRule_keeps _ _ _ _ _ _ _ _ _ _ ?_
  intro u; (repeat' split) <;> simp [hk]

@[simp] theorem State.accepted_fixed (s : State) (h : Handoff) (handle : U64) :
    (State.accepted s h handle).fixed = s.fixed := by
  simp only [State.accepted]; (repeat' split) <;> (try simp)

theorem execAccept_fixed (t : TxHdr) (sid : U64) (epoch : U32) (handle : U64) (s : State) {z : State} (hz : execAccept t sid epoch handle s = .next z) :
    z.fixed = s.fixed := by
  cases hz; exact State.serve_fixed _ _ (State.hoRule_keeps _ _ _ _ _ _ _ _ (by intro u h; (try dsimp only); (repeat' split) <;> (try simp) <;> (repeat' split) <;> (try simp)))

theorem execRefuse_fixed (t : TxHdr) (sid : U64) (epoch : U32) (code : U16) (s : State) {z : State} (hz : execRefuse t sid epoch code s = .next z) :
    z.fixed = s.fixed := by
  cases hz; exact State.serve_fixed _ _ (State.hoRule_keeps _ _ _ _ _ _ _ _ (by intro u h; (try dsimp only); (repeat' split) <;> (try simp) <;> (repeat' split) <;> (try simp)))

theorem execAck_fixed (t : TxHdr) (sid : U64) (epoch : U32) (s : State) {z : State} (hz : execAck t sid epoch s = .next z) :
    z.fixed = s.fixed := by
  cases hz; exact State.serve_fixed _ _ (State.hoRule_keeps _ _ _ _ _ _ _ _ (by intro u h; (try dsimp only); (repeat' split) <;> (try simp) <;> (repeat' split) <;> (try simp)))

theorem execCommitted_fixed (t : TxHdr) (sid : U64) (epoch : U32) (handle : U64) (s : State) {z : State} (hz : execCommitted t sid epoch handle s = .next z) :
    z.fixed = s.fixed := by
  cases hz; exact State.serve_fixed _ _ (State.hoRule_keeps _ _ _ _ _ _ _ _ (by intro u h; (try dsimp only); (repeat' split) <;> (try simp) <;> (repeat' split) <;> (try simp)))

theorem execCommitHandoff_fixed (t : TxHdr) (sid : U64) (epoch : U32) (s : State) {z : State} (hz : execCommitHandoff t sid epoch s = .next z) :
    z.fixed = s.fixed := by
  cases hz; exact State.serve_fixed _ _ (State.hoRule_keeps _ _ _ _ _ _ _ _ (by intro u h; (try dsimp only); (repeat' split) <;> (try simp) <;> (repeat' split) <;> (try simp)))

theorem execReleased_fixed (t : TxHdr) (sid : U64) (epoch : U32) (s : State) {z : State} (hz : execReleased t sid epoch s = .next z) :
    z.fixed = s.fixed := by
  cases hz; exact State.serve_fixed _ _ (State.hoRule_keeps _ _ _ _ _ _ _ _ (by intro u h; (try dsimp only); (repeat' split) <;> (try simp) <;> (repeat' split) <;> (try simp)))

@[simp] theorem State.tailArrived_fixed (s : State) (h : Handoff) (b : Bytes) :
    (State.tailArrived s h b).fixed = s.fixed := by
  simp only [State.tailArrived]; (repeat' split) <;> (try simp)

@[simp] theorem State.canvasArrived_fixed (s : State) (h : Handoff) (b : Bytes) :
    (State.canvasArrived s h b).fixed = s.fixed := by
  simp only [State.canvasArrived]; (repeat' split) <;> (try simp)

@[simp] theorem State.streamIn_fixed (s : State) (h : Handoff) (off : Nat) (b : Bytes) :
    (State.streamIn s h off b).fixed = s.fixed := by
  simp [State.streamIn]

theorem State.standbyRecord_fixed (s : State) (t : TxHdr) (sid : U64) {z : State} {w} (hz : State.standbyRecord s t sid = some (z, w)) :
    z.fixed = s.fixed := by
  simp only [State.standbyRecord] at hz; (repeat' split at hz) <;> (try simp at hz) <;> (try (obtain ⟨rfl, rfl⟩ := hz)) <;> (try subst hz) <;> (try simp)

@[simp] theorem State.takeCanvas_fixed (s : State) (t : TxHdr) (sid : U64) (data : Bytes) :
    (State.takeCanvas s t sid data).1.fixed = s.fixed := by
  unfold State.takeCanvas; split
  · simp
  · split
    · split <;> simp
    · split
      · rename_i x h; simpa using State.standbyRecord_fixed _ _ _ (w := x.2) h
      · rfl

theorem State.canvasRule_fixed (s : State) (t : TxHdr) (sid : U64) (data : Bytes) :
    (State.canvasRule s t sid data).Keeps := by
  have h := State.sessRule_keeps s t 5 1 data (.canvasData t sid data) sid t.aux.toNat false (fun u => u.takeCanvas t sid data)
    (fun u => State.takeCanvas_fixed _ _ _ _)
  unfold State.canvasRule; (try dsimp only); split
  · exact fun u => h u
  · exact h

theorem execCanvasData_fixed (t : TxHdr) (sid : U64) (data : Bytes) (s : State) {z : State} (hz : execCanvasData t sid data s = .next z) :
    z.fixed = s.fixed := by
  cases hz; exact State.serve_fixed _ _ (State.canvasRule_fixed _ _ _ _)

@[simp] theorem State.takeDesc_fixed (s : State) (h : Handoff) (x : Desc) (locator : U64) (len : Nat) :
    (State.takeDesc s h x locator len).fixed = s.fixed := by
  simp [State.takeDesc]

theorem execDesc_fixed (t : TxHdr) (data : Bytes) (locator : U64) (len : U32) (s : State) {z : State} (hz : execDesc t data locator len s = .next z) :
    z.fixed = s.fixed := by
  cases hz; exact State.serve_fixed _ _ (State.sessRule_keeps _ _ _ _ _ _ _ _ _ _ (by intro u; (try dsimp only); (repeat' split) <;> (try simp) <;> (repeat' split) <;> (try simp)))

@[simp] theorem State.setCase_fixed (s : State) (c : ArbCase) :
    (State.setCase s c).fixed = s.fixed := by
  simp [State.setCase]

@[simp] theorem State.resolvedEvent_fixed (s : State) (sl : Nat) (handle : U64) (old new : Season) :
    (State.resolvedEvent s sl handle old new).fixed = s.fixed := by
  simp [State.resolvedEvent]

@[simp] theorem State.resolveGiver_fixed (s : State) (h : Handoff) (toReceiver : Bool) (handle : U64) :
    (State.resolveGiver s h toReceiver handle).fixed = s.fixed := by
  simp [State.resolveGiver]

@[simp] theorem State.delCase_fixed (s : State) (sid : U64) :
    (State.delCase s sid).fixed = s.fixed := by
  simp [State.delCase]

theorem State.resolveReceiver_snd_fixed (s : State) (h : Handoff) (r : Bool) :
    (State.resolveReceiver s h r).2.fixed = s.fixed := by
  unfold State.resolveReceiver; (try dsimp only); (repeat' split) <;> simp

theorem State.resolveHere_snd_fixed (s : State) (sid : U64) (r : Bool) (handle : U64) :
    (State.resolveHere s sid r handle).2.fixed = s.fixed := by
  unfold State.resolveHere; (try dsimp only); split
  · simp
  · simp [State.resolveReceiver_snd_fixed]
  · simp
  · split <;> simp

@[simp] theorem State.tellFrom_fixed (s : State) (sid : U64) (x0 : Nat) :
    (State.tellFrom s sid x0).fixed = s.fixed := by
  induction x0 generalizing s with
  | zero => simp [State.tellFrom]
  | succ k ih =>
    simp only [State.tellFrom]; split
    · rfl
    · (repeat' split) <;> simp [ih, State.resolveHere_snd_fixed]

@[simp] theorem State.sendResolve_fixed (s : State) (c : ArbCase) (toReceiver : Bool) (epoch : Nat) :
    (State.sendResolve s c toReceiver epoch).fixed = s.fixed := by
  simp [State.sendResolve]

@[simp] theorem State.decideCase_fixed (s : State) (c : ArbCase) :
    (State.decideCase s c).fixed = s.fixed := by
  simp only [State.decideCase]; (repeat' split) <;> (try simp)

@[simp] theorem State.askSide_fixed (s : State) (sid : U64) (dev : Nat) :
    (State.askSide s sid dev).1.fixed = s.fixed := by
  simp [State.askSide]

@[simp] theorem State.dropAsked_fixed (s : State) (sid : U64) :
    (State.dropAsked s sid).fixed = s.fixed := by
  simp [State.dropAsked]

@[simp] theorem State.askCase_fixed (s : State) (c : ArbCase) :
    (State.askCase s c).fixed = s.fixed := by
  simp only [State.askCase]; (repeat' split) <;> (try simp)

@[simp] theorem State.openCase_fixed (s : State) (sid : U64) (giver receiver : Nat) :
    (State.openCase s sid giver receiver).fixed = s.fixed := by
  simp [State.openCase]

@[simp] theorem State.appeal_fixed (s : State) (h : Handoff) :
    (State.appeal s h).fixed = s.fixed := by
  simp only [State.appeal]; (repeat' split) <;> (try simp)

theorem execHandoffLimitExpiry_fixed (index : BitVec 24) (s : State) {z : State} (hz : execHandoffLimitExpiry index s = .next z) :
    z.fixed = s.fixed := by
  simp only [execHandoffLimitExpiry] at hz; (repeat' split at hz) <;> (try simp at hz) <;> (try (obtain ⟨rfl, rfl⟩ := hz)) <;> (try subst hz) <;> (try simp)

theorem execArbiterRetry_fixed (sid : U64) (s : State) {z : State} (hz : execArbiterRetry sid s = .next z) :
    z.fixed = s.fixed := by
  simp only [execArbiterRetry] at hz; (repeat' split at hz) <;> (try simp at hz) <;> (try (obtain ⟨rfl, rfl⟩ := hz)) <;> (try subst hz) <;> (try simp)

@[simp] theorem State.arbAnswer_fixed (s : State) (sid : U64) (dev status record : Nat) :
    (State.arbAnswer s sid dev status record).fixed = s.fixed := by
  simp only [State.arbAnswer]; (repeat' split) <;> (try simp)

@[simp] theorem State.resolveAnswer_fixed (s : State) (sid : U64) (left status : Nat) :
    (State.resolveAnswer s sid left status).fixed = s.fixed := by
  simp only [State.resolveAnswer]; (repeat' split) <;> (try simp)

theorem execRecordQuery_fixed (t : TxHdr) (sid : U64) (s : State) {z : State} (hz : execRecordQuery t sid s = .next z) :
    z.fixed = s.fixed := by
  cases hz; exact State.serve_fixed _ _ (by intro u; (try dsimp only); (repeat' split) <;> (try simp) <;> (repeat' split) <;> (try simp))

theorem execResolve_fixed (t : TxHdr) (sid : U64) (epoch : U32) (receiver : U1) (handle : U64) (s : State) {z : State} (hz : execResolve t sid epoch receiver handle s = .next z) :
    z.fixed = s.fixed := by
  cases hz; exact State.serve_fixed _ _ (by intro u; exact State.resolveHere_snd_fixed _ _ _ _)

@[simp] theorem State.streamLost_fixed (s : State) (i : Nat) :
    (State.streamLost s i).fixed = s.fixed := by
  simp only [State.streamLost]; (repeat' split) <;> (try simp)

@[simp] theorem State.streamFail_fixed (s : State) (i : Nat) :
    (State.streamFail s i).fixed = s.fixed := by
  simp [State.streamFail]

@[simp] theorem State.streamDone_fixed (s : State) (i : Nat) :
    (State.streamDone s i).fixed = s.fixed := by
  simp [State.streamDone]

theorem execStreamPageArrival_fixed (index : BitVec 24) (page : BitVec 20) (s : State) {z : State} (hz : execStreamPageArrival index page s = .next z) :
    z.fixed = s.fixed := by
  simp only [execStreamPageArrival] at hz; (repeat' split at hz) <;> (try simp at hz) <;> (try (obtain ⟨rfl, rfl⟩ := hz)) <;> (try subst hz) <;> (try simp)

@[simp] theorem State.itemEnds_fixed (s : State) (o : CanvasOp) (code : Nat) :
    (State.itemEnds s o code).fixed = s.fixed := by
  simp only [State.itemEnds]; (repeat' split) <;> (try simp)

@[simp] theorem State.prioCopied_fixed (s : State) (pa : Nat) (x : CanvasOp × Nat) :
    (State.prioCopied s pa x).fixed = s.fixed := by
  simp only [State.prioCopied]; (repeat' split) <;> (try simp)

theorem execPriorityCopyDone_fixed (pa : U64) (s : State) {z : State} (hz : execPriorityCopyDone pa s = .next z) :
    z.fixed = s.fixed := by
  unfold execPriorityCopyDone at hz; (try dsimp only at hz); split at hz
  · cases hz; rfl
  · cases hz; rw [State.ceFill_fixed]
    split <;> simp [foldl_fixed]

theorem execCanvasWorkItem_fixed (index : BitVec 24) (item : BitVec 20) (s : State) {z : State} (hz : execCanvasWorkItem index item s = .next z) :
    z.fixed = s.fixed := by
  simp only [execCanvasWorkItem] at hz; (repeat' split at hz) <;> (try simp at hz) <;> (try (obtain ⟨rfl, rfl⟩ := hz)) <;> (try subst hz) <;> (try simp)

end Sys2Proof.Machine

namespace Sys2Proof.Machine

@[simp] theorem State.setTarget_fixed (s : State) (x : CkTarget) :
    (State.setTarget s x).fixed = s.fixed := by
  simp [State.setTarget]

@[simp] theorem State.ckMark_fixed (s : State) (p : Nat) (fs : List Nat) :
    (State.ckMark s p fs).fixed = s.fixed := by
  simp [State.ckMark]

@[simp] theorem State.ckFill_fixed (s : State) (sl mask : Nat) :
    (State.ckFill s sl mask).fixed = s.fixed := by
  simp [State.ckFill]

@[simp] theorem State.ckClear_fixed (s : State) (sl p : Nat) :
    (State.ckClear s sl p).fixed = s.fixed := by
  simp [State.ckClear]

@[simp] theorem State.ckWrite_fixed (s : State) (x : CkTarget) (units sl num p off : Nat) (b : Bytes) :
    (State.ckWrite s x units sl num p off b).fixed = s.fixed := by
  simp [State.ckWrite]

@[simp] theorem State.setCk_fixed (s : State) (c : Ckpt) :
    (State.setCk s c).fixed = s.fixed := by
  simp [State.setCk]

@[simp] theorem State.delCk_fixed (s : State) (c : Ckpt) :
    (State.delCk s c).fixed = s.fixed := by
  simp [State.delCk]

@[simp] theorem State.ckLocator_fixed (s : State) (sl v : Nat) :
    (State.ckLocator s sl v).fixed = s.fixed := by
  simp [State.ckLocator]

@[simp] theorem State.releaseTarget_fixed (s : State) (sl : Nat) :
    (State.releaseTarget s sl).fixed = s.fixed := by
  simp only [State.releaseTarget]; (repeat' split) <;> (try simp) <;> (rw [foldl_fixed _ (by intro t x; (repeat' split) <;> (try simp))]) <;> (try simp)

@[simp] theorem State.ckEvent_fixed (s : State) (c : Ckpt) (status : Nat) :
    (State.ckEvent s c status).fixed = s.fixed := by
  simp [State.ckEvent]

@[simp] theorem State.ckAbandon_fixed (s : State) (c : Ckpt) (code : Nat) (targetLost : Bool) :
    (State.ckAbandon s c code targetLost).fixed = s.fixed := by
  simp [State.ckAbandon]

@[simp] theorem State.ckTargetLost_fixed (s : State) (sl : Nat) :
    (State.ckTargetLost s sl).fixed = s.fixed := by
  simp [State.ckTargetLost]

@[simp] theorem State.ckTake_fixed (s : State) (sl num : Nat) :
    (State.ckTake s sl num).1.fixed = s.fixed := by
  simp [State.ckTake]

@[simp] theorem State.ckCut_fixed (s : State) (sl step : Nat) (tag : Option Tag) :
    (State.ckCut s sl step tag).fixed = s.fixed := by
  simp only [State.ckCut]; (repeat' split) <;> (try simp)

@[simp] theorem State.ckAtStepEnd_fixed (s : State) (sl step : Nat) :
    (State.ckAtStepEnd s sl step).fixed = s.fixed := by
  simp [State.ckAtStepEnd]

@[simp] theorem State.ckIdle_fixed (s : State) (sl : Nat) :
    (State.ckIdle s sl).fixed = s.fixed := by
  simp only [State.ckIdle]; (repeat' split) <;> (try simp)

@[simp] theorem State.ckAllocated_fixed (s : State) (sl num dev status base : Nat) :
    (State.ckAllocated s sl num dev status base).fixed = s.fixed := by
  simp only [State.ckAllocated]; (repeat' split) <;> (try simp)

theorem execCkptNow_fixed (h : Hdr) (slice : BitVec 6) (s : State) {z : State} (hz : execCkptNow h slice s = .next z) :
    z.fixed = s.fixed := by
  unfold execCkptNow at hz; (try dsimp only at hz); refine hostCmd_fixed ?_ hz; intro u g; (try dsimp only); (repeat' split) <;> (try simp [withIndex]) <;> (repeat (first | rfl | refine Eq.trans (hostCmd_fixed (by assumption)) ?_)) <;> (try simp)

theorem execCkptRelease_fixed (h : Hdr) (slice : BitVec 6) (s : State) {z : State} (hz : execCkptRelease h slice s = .next z) :
    z.fixed = s.fixed := by
  unfold execCkptRelease at hz; (try dsimp only at hz); refine hostCmd_fixed ?_ hz; intro u g; (try dsimp only); (repeat' split) <;> (try simp [withIndex]) <;> (repeat (first | rfl | refine Eq.trans (hostCmd_fixed (by assumption)) ?_)) <;> (try simp)

@[simp] theorem State.ckZero_fixed (s : State) (c : Ckpt) :
    (State.ckZero s c).fixed = s.fixed := by
  simp only [State.ckZero]; (repeat' split) <;> (try simp)

@[simp] theorem State.ckStaged_fixed (s : State) (c : Ckpt) (pcg : Nat) :
    (State.ckStaged s c pcg).fixed = s.fixed := by
  simp [State.ckStaged]

theorem execStagingDone_fixed (slice : BitVec 6) (pcg : BitVec 6) (s : State) {z : State} (hz : execStagingDone slice pcg s = .next z) :
    z.fixed = s.fixed := by
  simp only [execStagingDone] at hz; (repeat' split at hz) <;> (try simp at hz) <;> (try (obtain ⟨rfl, rfl⟩ := hz)) <;> (try subst hz) <;> (try simp)

@[simp] theorem State.ckDrain_fixed (s : State) (c : Ckpt) (x : CkTarget) :
    (State.ckDrain s c x).fixed = s.fixed := by
  simp [State.ckDrain]

@[simp] theorem State.ckSeal_fixed (s : State) (c : Ckpt) (x : CkTarget) :
    (State.ckSeal s c x).fixed = s.fixed := by
  simp [State.ckSeal]

@[simp] theorem State.ckCommitted_fixed (s : State) (c : Ckpt) (x : CkTarget) :
    (State.ckCommitted s c x).fixed = s.fixed := by
  simp [State.ckCommitted]

theorem execCkptCommit_fixed (slice : BitVec 6) (s : State) {z : State} (hz : execCkptCommit slice s = .next z) :
    z.fixed = s.fixed := by
  simp only [execCkptCommit] at hz; (repeat' split at hz) <;> (try simp at hz) <;> (try (obtain ⟨rfl, rfl⟩ := hz)) <;> (try subst hz) <;> (try simp)

@[simp] theorem State.ckAnswer_fixed (s : State) (sl num dev op status result : Nat) :
    (State.ckAnswer s sl num dev op status result).fixed = s.fixed := by
  simp [State.ckAnswer]

@[simp] theorem State.ckReset_fixed (s : State) (sl : Nat) :
    (State.ckReset s sl).fixed = s.fixed := by
  simp [State.ckReset]

@[simp] theorem State.ckTenant_fixed (s : State) (sl : Nat) :
    (State.ckTenant s sl).fixed = s.fixed := by
  simp [State.ckTenant]

@[simp] theorem State.ckResume_fixed (s : State) (sl : Nat) :
    (State.ckResume s sl).fixed = s.fixed := by
  simp [State.ckResume]

@[simp] theorem State.ckGesso_fixed (s : State) (sl : Nat) :
    (State.ckGesso s sl).fixed = s.fixed := by
  simp [State.ckGesso]

theorem execCkptRestore_fixed (h : Hdr) (slice : BitVec 6) (locator ckpt : U64) (s : State) {z : State} (hz : execCkptRestore h slice locator ckpt s = .next z) :
    z.fixed = s.fixed := by
  unfold execCkptRestore at hz; (try dsimp only at hz); refine hostCmd_fixed ?_ hz; intro u g; (try dsimp only); (repeat' split) <;> (try simp [withIndex]) <;> (repeat (first | rfl | refine Eq.trans (hostCmd_fixed (by assumption)) ?_)) <;> (try simp)

@[simp] theorem State.putFrame_fixed (s : State) (frame : CkFrame) :
    (State.putFrame s frame).fixed = s.fixed := by
  simp [State.putFrame]

@[simp] theorem State.putSession_fixed (s : State) (i : Nat) (d : Desc) (k : Option SessKv) :
    (State.putSession s i d k).fixed = s.fixed := by
  simp only [State.putSession]; (repeat' split) <;> (try simp)

@[simp] theorem State.ckRebuild_fixed (s : State) (i : CkImage) :
    (State.ckRebuild s i).fixed = s.fixed := by
  simp [State.ckRebuild]

@[simp] theorem State.ckRaise_fixed (s : State) (sl : Nat) :
    (State.ckRaise s sl).fixed = s.fixed := by
  simp only [State.ckRaise]; (repeat' split) <;> (try simp)

theorem execRestoreDone_fixed (slice : BitVec 6) (s : State) {z : State} (hz : execRestoreDone slice s = .next z) :
    z.fixed = s.fixed := by
  simp only [execRestoreDone] at hz; (repeat' split at hz) <;> (try simp at hz) <;> (try (obtain ⟨rfl, rfl⟩ := hz)) <;> (try subst hz) <;> (try simp)

end Sys2Proof.Machine

namespace Sys2Proof.Machine

@[simp] theorem State.swapMember_fixed (s : State) (i dev : Nat) :
    (State.swapMember s i dev).fixed = s.fixed := by
  simp only [State.swapMember]; (repeat' split) <;> (try simp)

@[simp] theorem State.canvasAllocated_fixed (s : State) (i dev base : Nat) :
    (State.canvasAllocated s i dev base).fixed = s.fixed := by
  simp only [State.canvasAllocated]; (repeat' split) <;> (try simp)

@[simp] theorem State.setStored_fixed (s : State) (old new : Stored) :
    (State.setStored s old new).fixed = s.fixed := by
  simp [State.setStored]

@[simp] theorem State.startRepair_fixed (s : State) (c : Stored) :
    (State.startRepair s c).fixed = s.fixed := by
  simp [State.startRepair]

@[simp] theorem State.dropRepair_fixed (s : State) (c : Stored) (r : Repair) :
    (State.dropRepair s c r).fixed = s.fixed := by
  simp only [State.dropRepair]; rw [foldl_fixed _ (by intro t x; (repeat' split) <;> (try simp))] <;> (try simp)

@[simp] theorem State.repairRead_fixed (s : State) (c : Stored) (r : Repair) :
    (State.repairRead s c r).fixed = s.fixed := by
  simp [State.repairRead]

@[simp] theorem State.repairWrite_fixed (s : State) (c : Stored) (r : Repair) :
    (State.repairWrite s c r).fixed = s.fixed := by
  simp [State.repairWrite]

@[simp] theorem State.repairAnswer_fixed (s : State) (addr dev op status base : Nat) :
    (State.repairAnswer s addr dev op status base).fixed = s.fixed := by
  simp only [State.repairAnswer]; (repeat' split) <;> (try simp)

theorem execCanvasRepairDone_fixed (index : BitVec 24) (s : State) {z : State} (hz : execCanvasRepairDone index s = .next z) :
    z.fixed = s.fixed := by
  simp only [execCanvasRepairDone] at hz; (repeat' split at hz) <;> (try simp at hz) <;> (try (obtain ⟨rfl, rfl⟩ := hz)) <;> (try subst hz) <;> (try simp)

end Sys2Proof.Machine

namespace Sys2Proof.Machine

@[simp] theorem State.extendNow_fixed (s : State) (i dev sl : Nat) (t : Tag) :
    (State.extendNow s i dev sl t).fixed = s.fixed := by
  simp [State.extendNow]

theorem execRingExtend_fixed (h : Hdr) (handle : U64) (targetDev : U16) (targetSlice : BitVec 6) (s : State) {z : State} (hz : execRingExtend h handle targetDev targetSlice s = .next z) :
    z.fixed = s.fixed := by
  unfold execRingExtend at hz; (try dsimp only at hz); (repeat' split at hz) <;> (try (cases hz)) <;> (try simp) <;> (refine hostCmd_fixed ?_ hz; intro u g; (try dsimp only); (repeat' split) <;> (try simp) <;> (repeat (first | rfl | refine Eq.trans (hostCmd_fixed (by assumption)) ?_)) <;> (try simp))

@[simp] theorem State.makeStandby_fixed (s : State) (src : Nat) (o : RingOps) :
    (State.makeStandby s src o).1.fixed = s.fixed := by
  unfold State.makeStandby; (try dsimp only)
  split
  · rfl
  · rfl
  · split
    · rfl
    · rename_i h
      have e := State.remap_fixed _ _ h
      split <;> simp [e]

@[simp] theorem State.relayDown_fixed (s : State) (t : TxHdr) (o : RingOps) (i dev : Nat) (fresh : List Nat) :
    (State.relayDown s t o i dev fresh).1.fixed = s.fixed := by
  simp [State.relayDown]

@[simp] theorem State.carryDown_fixed (s : State) (o : RingOps) (i : Nat) (f : State → Nat → State)
    (hf : ∀ t x, (f t x).fixed = t.fixed) : (State.carryDown s o i f).1.fixed = s.fixed := by
  unfold State.carryDown; (try dsimp only); split <;> simp [foldl_fixed _ hf]

@[simp] theorem State.memberFork_fixed (s : State) (t : TxHdr) (o : RingOps) (i : Nat) :
    (State.memberFork s t o i).1.fixed = s.fixed := by
  unfold State.memberFork; (try dsimp only); split
  · rfl
  · rename_i h
    have e := State.forkEach_fixed _ _ _ _ h
    split <;> simp [e]

@[simp] theorem State.memberMigrate_fixed (s : State) (t : TxHdr) (o : RingOps) (i : Nat) :
    (State.memberMigrate s t o i).1.fixed = s.fixed := by
  simp only [State.memberMigrate]; (repeat' split) <;> (try simp)

@[simp] theorem State.memberSize_fixed (s : State) (src size epoch i : Nat) :
    (State.memberSize s src size epoch i).fixed = s.fixed := by
  simp only [State.memberSize]; (repeat' split) <;> (try simp)

@[simp] theorem State.stretchLost_fixed (s : State) (sid : U64) (pos : Nat) :
    (State.stretchLost s sid pos).fixed = s.fixed := by
  simp only [State.stretchLost]; (repeat' split) <;> (try simp)

@[simp] theorem State.tellLost_fixed (s : State) (sid : U64) (pos epoch src : Nat) (more : List Nat) :
    (State.tellLost s sid pos epoch src more).fixed = s.fixed := by
  simp [State.tellLost]

@[simp] theorem State.takeRing_fixed (s : State) (t : TxHdr) (o : RingOps) :
    (State.takeRing s t o).1.fixed = s.fixed := by
  simp only [State.takeRing]; (repeat' split) <;> (try simp)

theorem execRingCmd_fixed (t : TxHdr) (o : RingOps) (s : State) {z : State} (hz : execRingCmd t o s = .next z) :
    z.fixed = s.fixed := by
  cases hz; exact State.serve_fixed _ _ (State.sessRule_keeps _ _ _ _ _ _ _ _ _ _ (by intro u; (try dsimp only); (repeat' split) <;> (try simp) <;> (repeat' split) <;> (try simp)))

@[simp] theorem State.delRelay_fixed (s : State) (kind i : Nat) :
    (State.delRelay s kind i).fixed = s.fixed := by
  simp [State.delRelay]

@[simp] theorem State.forkAnswered_fixed (s : State) (i status : Nat) :
    (State.forkAnswered s i status).fixed = s.fixed := by
  simp only [State.forkAnswered]; (repeat' split) <;> (try simp)

@[simp] theorem State.ringAnswer_fixed (s : State) (kind i dev status result : Nat) :
    (State.ringAnswer s kind i dev status result).fixed = s.fixed := by
  simp only [State.ringAnswer]; (repeat' split) <;> (try simp)

@[simp] theorem State.startPartial_fixed (s : State) (i : Nat) (b : Bytes) :
    (State.startPartial s i b).fixed = s.fixed := by
  simp only [State.startPartial]; (repeat' split) <;> (try simp)

@[simp] theorem State.takeQuery_fixed (s : State) (src : Nat) (b : Bytes) :
    (State.takeQuery s src b).fixed = s.fixed := by
  simp only [State.takeQuery]; (repeat' split) <;> (try simp)

theorem execQuery_fixed (t : TxHdr) (data : Bytes) (s : State) {z : State} (hz : execQuery t data s = .next z) :
    z.fixed = s.fixed := by
  simp only [execQuery] at hz; (repeat' split at hz) <;> (try simp at hz) <;> (try (obtain ⟨rfl, rfl⟩ := hz)) <;> (try subst hz) <;> (try simp)

theorem execResult_fixed (t : TxHdr) (data : Bytes) (s : State) {z : State} (hz : execResult t data s = .next z) :
    z.fixed = s.fixed := by
  simp only [execResult] at hz; (repeat' split at hz) <;> (try simp at hz) <;> (try (obtain ⟨rfl, rfl⟩ := hz)) <;> (try subst hz) <;> (try simp)

@[simp] theorem State.handedEntry_fixed (s : State) (src sl ring : Nat) (b : Bytes) :
    (State.handedEntry s src sl ring b).fixed = s.fixed := by
  simp only [State.handedEntry]; (repeat' split) <;> (try simp)

@[simp] theorem State.handedDone_fixed (s : State) (src : Nat) (b : Bytes) :
    (State.handedDone s src b).fixed = s.fixed := by
  simp only [State.handedDone]; (repeat' split) <;> (try simp)

@[simp] theorem State.handedCredit_fixed (s : State) (src ring : Nat) (b : Bytes) :
    (State.handedCredit s src ring b).fixed = s.fixed := by
  simp only [State.handedCredit]; (repeat' split) <;> (try simp)

@[simp] theorem State.takeHanded_fixed (s : State) (t : TxHdr) (data : Bytes) :
    (State.takeHanded s t data).1.fixed = s.fixed := by
  simp only [State.takeHanded]; (repeat' split) <;> (try simp)

theorem State.writeTxnRule_fixed (s : State) (t : TxHdr) (data : Bytes) :
    (State.writeTxnRule s t data).Keeps := by
  unfold State.writeTxnRule; split
  · exact State.writeRule_fixed _ _ _
  · intro u; simp

theorem execWriteTxn_fixed (t : TxHdr) (data : Bytes) (s : State) {z : State} (hz : execWriteTxn t data s = .next z) :
    z.fixed = s.fixed := by
  cases hz; exact State.serve_fixed _ _ (State.writeTxnRule_fixed _ _ _)

end Sys2Proof.Machine

namespace Sys2Proof.Machine

@[simp] theorem State.fetchBytes_fixed (s : State) (pa : Nat) (b : Bytes) (bad : Bool) :
    (State.fetchBytes s pa b bad).fixed = s.fixed := by
  simp [State.fetchBytes]

@[simp] theorem State.objLost_fixed (s : State) (sl va dev : Nat) :
    (State.objLost s sl va dev).fixed = s.fixed := by
  simp [State.objLost]

@[simp] theorem State.fetchAnswer_fixed (s : State) (sl va off dev status : Nat) (data : Bytes) (bad : Bool) :
    (State.fetchAnswer s sl va off dev status data bad).fixed = s.fixed := by
  simp only [State.fetchAnswer]; (repeat' split) <;> (try simp)

@[simp] theorem State.homeAnswer_fixed (s : State) (sl va dev status : Nat) :
    (State.homeAnswer s sl va dev status).fixed = s.fixed := by
  simp [State.homeAnswer]

@[simp] theorem State.moverAnswer_fixed (s : State) (c sl dst len status : Nat) (data : Bytes) (bad : Bool) :
    (State.moverAnswer s c sl dst len status data bad).fixed = s.fixed := by
  simp only [State.moverAnswer]; (repeat' split) <;> (try simp)

@[simp] theorem State.mirrorRefused_fixed (s : State) (i : Nat) :
    (State.mirrorRefused s i).fixed = s.fixed := by
  simp only [State.mirrorRefused]; (repeat' split) <;> (try simp)

@[simp] theorem State.copyFailed_fixed (s : State) (i : Nat) :
    (State.copyFailed s i).fixed = s.fixed := by
  simp [State.copyFailed]

@[simp] theorem State.mirrorAnswer_fixed (s : State) (x : Txn) (i step status : Nat) :
    (State.mirrorAnswer s x i step status).fixed = s.fixed := by
  simp [State.mirrorAnswer]

@[simp] theorem State.retAnswer_fixed (s : State) (id pos dev status : Nat) (data : Bytes) (bad : Bool) :
    (State.retAnswer s id pos dev status data bad).fixed = s.fixed := by
  simp only [State.retAnswer]; (repeat' split) <;> (try simp)

@[simp] theorem State.handoffAnswer_fixed (s : State) (i type op status : Nat) :
    (State.handoffAnswer s i type op status).fixed = s.fixed := by
  simp only [State.handoffAnswer]; (repeat' split) <;> (try simp)

@[simp] theorem State.proposeAnswer_fixed (s : State) (id status epoch : Nat) :
    (State.proposeAnswer s id status epoch).fixed = s.fixed := by
  simp [State.proposeAnswer]

@[simp] theorem State.respond_fixed (s : State) (x : Txn) (status : Nat) (data : Bytes) (bad : Bool) :
    (State.respond s x status data bad).fixed = s.fixed := by
  simp only [State.respond]; (repeat' split) <;> (try simp)

@[simp] theorem State.answered_fixed (s : State) (x : Txn) (status : Nat) (data : Bytes) (bad : Bool) :
    (State.answered s x status data bad).fixed = s.fixed := by
  simp [State.answered]

theorem execResp_fixed (t : TxHdr) (status : U16) (data : Bytes) (s : State) {z : State} (hz : execResp t status data s = .next z) :
    z.fixed = s.fixed := by
  simp only [execResp] at hz; (repeat' split at hz) <;> (try simp at hz) <;> (try (obtain ⟨rfl, rfl⟩ := hz)) <;> (try subst hz) <;> (try simp)

theorem execTxnLimitExpiry_fixed (dev : U16) (tag : U32) (s : State) {z : State} (hz : execTxnLimitExpiry dev tag s = .next z) :
    z.fixed = s.fixed := by
  simp only [execTxnLimitExpiry] at hz; (repeat' split at hz) <;> (try simp at hz) <;> (try (obtain ⟨rfl, rfl⟩ := hz)) <;> (try subst hz) <;> (try simp)

theorem State.rerun_fixed (s : State) (c : Instr) {z : State} (hz : State.rerun s c = .next z) :
    z.fixed = s.fixed := by
  unfold State.rerun at hz; split at hz
  · exact execReadTxn_fixed _ _ hz
  · exact execWriteTxn_fixed _ _ _ hz
  · exact execAddF32_fixed _ _ _ hz
  · exact execAddBf16_fixed _ _ _ hz
  · exact execSetRow_fixed _ _ _ hz
  · exact execFadd64_fixed _ _ _ hz
  · exact execCas64_fixed _ _ _ hz
  · exact execCanvasData_fixed _ _ _ _ hz
  · exact execDesc_fixed _ _ _ _ _ hz
  · exact execMirrorRows_fixed _ _ _ _ _ _ hz
  · exact execMirrorCommit_fixed _ _ _ _ hz
  · exact execMirrorState_fixed _ _ _ _ _ _ hz
  · exact execOffer_fixed _ _ _ hz
  · exact execAccept_fixed _ _ _ _ _ hz
  · exact execRefuse_fixed _ _ _ _ _ hz
  · exact execAck_fixed _ _ _ _ hz
  · exact execCommitHandoff_fixed _ _ _ _ hz
  · exact execCommitted_fixed _ _ _ _ _ hz
  · exact execReleased_fixed _ _ _ _ hz
  · exact execResolve_fixed _ _ _ _ _ _ hz
  · exact execRecordQuery_fixed _ _ _ hz
  · exact execRingCmd_fixed _ _ _ hz
  · exact execPoolAlloc_fixed _ _ _ hz
  · exact execPoolFree_fixed _ _ _ hz
  · exact execPoolInfo_fixed _ _ hz
  · cases hz; rfl

theorem execEpochHoldExpiry_fixed (src : U16) (tag : U32) (s : State) {z : State} (hz : execEpochHoldExpiry src tag s = .next z) :
    z.fixed = s.fixed := by
  unfold execEpochHoldExpiry at hz; split at hz
  · cases hz; rfl
  · split at hz
    · cases hz; rfl
    · exact (State.rerun_fixed _ _ hz).trans rfl

end Sys2Proof.Machine

namespace Sys2Proof.Machine

@[simp] theorem State.reclaimOwner_fixed (s : State) (dev : Nat) :
    (State.reclaimOwner s dev).fixed = s.fixed := by
  simp [State.reclaimOwner]

@[simp] theorem State.objectsLost_fixed (s : State) (dev : Nat) :
    (State.objectsLost s dev).fixed = s.fixed := by
  simp [State.objectsLost]

@[simp] theorem State.sessionsLost_fixed (s : State) (dev : Nat) :
    (State.sessionsLost s dev).fixed = s.fixed := by
  simp [State.sessionsLost]

@[simp] theorem State.endRequests_fixed (s : State) (dev : Nat) :
    (State.endRequests s dev).fixed = s.fixed := by
  simp [State.endRequests]

@[simp] theorem State.memberGone_fixed (s : State) (dev : Nat) :
    (State.memberGone s dev).fixed = s.fixed := by
  simp [State.memberGone]

@[simp] theorem State.portsByMap_fixed (s : State) :
    (State.portsByMap s).fixed = s.fixed := by
  simp [State.portsByMap]

@[simp] theorem State.applyMap_fixed (s : State) (epoch : Nat) (id : U64) (quorum : List Nat) (members : Tab Member) :
    (State.applyMap s epoch id quorum members).fixed = s.fixed := by
  simp [State.applyMap]

@[simp] theorem State.setCsk_fixed (s : State) (k : U256) :
    (State.setCsk s k).fixed = s.fixed := by
  simp [State.setCsk]

@[simp] theorem State.sendKey_fixed (s : State) (dev : Nat) :
    (State.sendKey s dev).fixed = s.fixed := by
  simp only [State.sendKey]; (repeat' split) <;> (try simp)

@[simp] theorem State.drawKey_fixed (s : State) (epoch : Nat) :
    (State.drawKey s epoch).fixed = s.fixed := by
  simp [State.drawKey]

@[simp] theorem State.takeKey_fixed (s : State) (src : Nat) (blob : Bytes) :
    (State.takeKey s src blob).1.fixed = s.fixed := by
  simp only [State.takeKey]; (repeat' split) <;> (try simp)

theorem execSealKey_fixed (t : TxHdr) (blob : Bytes) (s : State) {z : State} (hz : execSealKey t blob s = .next z) :
    z.fixed = s.fixed := by
  cases hz; exact State.serve_fixed _ _ (by intro u; (try dsimp only); (repeat' split) <;> (try simp) <;> (repeat' split) <;> (try simp))

@[simp] theorem State.tellProposer_fixed (s : State) (p : Proposal) (status : Nat) :
    (State.tellProposer s p status).fixed = s.fixed := by
  simp only [State.tellProposer]; (repeat' split) <;> (try simp)

@[simp] theorem State.popProposal_fixed (s : State) :
    (State.popProposal s).fixed = s.fixed := by
  simp [State.popProposal]

@[simp] theorem State.prepareFront_fixed (s : State) (x0 : Nat) :
    (State.prepareFront s x0).fixed = s.fixed := by
  induction x0 generalizing s with | zero => (simp [State.prepareFront]) | succ n ih => (simp only [State.prepareFront]; (repeat' split) <;> (try simp [ih]))

@[simp] theorem State.tellMembers_fixed (s : State) (c : MapChange) :
    (State.tellMembers s c).fixed = s.fixed := by
  simp [State.tellMembers]

@[simp] theorem State.commitChange_fixed (s : State) (p : Proposal) :
    (State.commitChange s p).fixed = s.fixed := by
  simp [State.commitChange]

@[simp] theorem State.countVotes_fixed (s : State) :
    (State.countVotes s).fixed = s.fixed := by
  simp only [State.countVotes]; (repeat' split) <;> (try simp)

@[simp] theorem State.commitFirst_fixed (s : State) :
    (State.commitFirst s).fixed = s.fixed := by
  simp [State.commitFirst]

@[simp] theorem State.checkArbiter_fixed (s : State) :
    (State.checkArbiter s).fixed = s.fixed := by
  simp [State.checkArbiter]

@[simp] theorem State.enqueueChange_fixed (s : State) (p : Proposal) :
    (State.enqueueChange s p).fixed = s.fixed := by
  simp only [State.enqueueChange]; (repeat' split) <;> (try simp)

@[simp] theorem State.proposeSelf_fixed (s : State) (c : MapChange) :
    (State.proposeSelf s c).fixed = s.fixed := by
  simp only [State.proposeSelf]; (repeat' split) <;> (try simp)

@[simp] theorem State.proposeSlices_fixed (s : State) :
    (State.proposeSlices s).fixed = s.fixed := by
  simp only [State.proposeSlices]; (repeat' split) <;> (try simp)

theorem execCompChange_fixed (h : Hdr) (c : ChangeOps) (s : State) {z : State} (hz : execCompChange h c s = .next z) :
    z.fixed = s.fixed := by
  unfold execCompChange at hz; (try dsimp only at hz); refine hostCmd_fixed ?_ hz; intro u g; (try dsimp only); (repeat' split) <;> (try simp [withIndex]) <;> (repeat (first | rfl | refine Eq.trans (hostCmd_fixed (by assumption)) ?_)) <;> (try simp)

theorem execPropose_fixed (t : TxHdr) (c : ChangeOps) (s : State) {z : State} (hz : execPropose t c s = .next z) :
    z.fixed = s.fixed := by
  cases hz; exact State.serve_fixed _ _ (by intro u; (try dsimp only); (repeat' split) <;> (try simp) <;> (repeat' split) <;> (try simp))

theorem execPrepare_fixed (t : TxHdr) (epoch : U32) (c : ChangeOps) (s : State) {z : State} (hz : execPrepare t epoch c s = .next z) :
    z.fixed = s.fixed := by
  cases hz; exact State.serve_fixed _ _ (by intro u; (try dsimp only); (repeat' split) <;> (try simp) <;> (repeat' split) <;> (try simp))

theorem execVote_fixed (t : TxHdr) (epoch : U32) (yes : U1) (s : State) {z : State} (hz : execVote t epoch yes s = .next z) :
    z.fixed = s.fixed := by
  cases hz; exact State.serve_fixed _ _ (by intro u; (try dsimp only); (repeat' split) <;> (try simp) <;> (repeat' split) <;> (try simp))

theorem execCommitMap_fixed (t : TxHdr) (epoch : U32) (c : ChangeOps) (s : State) {z : State} (hz : execCommitMap t epoch c s = .next z) :
    z.fixed = s.fixed := by
  cases hz; exact State.serve_fixed _ _ (by intro u; (try dsimp only); (repeat' split) <;> (try simp) <;> (repeat' split) <;> (try simp))

@[simp] theorem State.takeMap_fixed (s : State) (m : MapOps) :
    (State.takeMap s m).fixed = s.fixed := by
  simp [State.takeMap]

theorem execMapUpdate_fixed (t : TxHdr) (m : MapOps) (s : State) {z : State} (hz : execMapUpdate t m s = .next z) :
    z.fixed = s.fixed := by
  cases hz; exact State.serve_fixed _ _ (by intro u; (try dsimp only); (repeat' split) <;> (try simp) <;> (repeat' split) <;> (try simp))

theorem execMapQuery_fixed (t : TxHdr) (s : State) {z : State} (hz : execMapQuery t s = .next z) :
    z.fixed = s.fixed := by
  cases hz; exact State.serve_fixed _ _ (by intro u; (try dsimp only); (repeat' split) <;> (try simp) <;> (repeat' split) <;> (try simp))

theorem execMapState_fixed (t : TxHdr) (m : MapOps) (vote : Option (U32 × ChangeOps)) (s : State) {z : State} (hz : execMapState t m vote s = .next z) :
    z.fixed = s.fixed := by
  cases hz; exact State.serve_fixed _ _ (by intro u; (try dsimp only); (repeat' split) <;> (try simp) <;> (repeat' split) <;> (try simp))

theorem execMapVoteTimeout_fixed (s : State) {z : State} (hz : execMapVoteTimeout s = .next z) :
    z.fixed = s.fixed := by
  simp only [execMapVoteTimeout] at hz; (repeat' split at hz) <;> (try simp at hz) <;> (try (obtain ⟨rfl, rfl⟩ := hz)) <;> (try subst hz) <;> (try simp)

theorem execLinkStateSend_fixed (s : State) {z : State} (hz : execLinkStateSend s = .next z) :
    z.fixed = s.fixed := by
  simp only [execLinkStateSend] at hz; (repeat' split at hz) <;> (try simp at hz) <;> (try (obtain ⟨rfl, rfl⟩ := hz)) <;> (try subst hz) <;> (try simp)

theorem execLinkState_fixed (t : TxHdr) (ports : List (BitVec 6 × U16 × BitVec 6)) (appliances : List U16) (s : State) {z : State} (hz : execLinkState t ports appliances s = .next z) :
    z.fixed = s.fixed := by
  cases hz; exact State.serve_fixed _ _ (by intro u; (try dsimp only); (repeat' split) <;> (try simp) <;> (repeat' split) <;> (try simp))

@[simp] theorem State.dropStale_fixed (s : State) (d : Nat) :
    (State.dropStale s d).fixed = s.fixed := by
  simp only [State.dropStale]; (repeat' split) <;> (try simp)

theorem execLiveLimitExpiry_fixed (dev : U16) (s : State) {z : State} (hz : execLiveLimitExpiry dev s = .next z) :
    z.fixed = s.fixed := by
  simp only [execLiveLimitExpiry] at hz; (repeat' split at hz) <;> (try simp at hz) <;> (try (obtain ⟨rfl, rfl⟩ := hz)) <;> (try subst hz) <;> (try simp)

end Sys2Proof.Machine
end

