-- ==== Sys2Proof/Laws/FixedControl.lean ====
section
/-! SUPPORT. Steps, resets, power, images, security, registers and the clock rows keep the bundled fields, where they do. -/

namespace Sys2Proof.Machine

@[simp] theorem State.commitRest_fixed (s : State) (sl : Nat) (rows : List BatchRow) :
    (State.commitRest s sl rows).fixed = s.fixed := by
  simp only [State.commitRest]; rw [foldl_fixed _ (by intro t x; (repeat' split) <;> (try simp))] <;> (try simp)

@[simp] theorem State.settleLengths_fixed (s : State) (i : Nat) (p : Prog) :
    (State.settleLengths s i p).fixed = s.fixed := by
  simp [State.settleLengths]

@[simp] theorem State.reserve_fixed (s : State) (i : Nat) (p : Prog) :
    (State.reserve s i p).fixed = s.fixed := by
  unfold State.reserve; split
  · rfl
  · (try dsimp only)
    split
    · simp
    · rename_i pa x h
      obtain ⟨a, ha, e⟩ := Option.bind_eq_some_iff.1 h
      obtain ⟨b, hb, e⟩ := Option.map_eq_some_iff.1 e
      have e1 := State.alloc_fixed _ _ _ _ _ _ (w := a.2) ha
      have e2 := State.reservePages_fixed _ _ _ _ _ _ _ _ _ (w := b.2) hb
      cases e
      simp [e1, e2]

@[simp] theorem State.mirrorEnd_fixed (s : State) (r : BatchRow) (step : Nat) :
    (State.mirrorEnd s r step).fixed = s.fixed := by
  simp [State.mirrorEnd]

@[simp] theorem State.rowEnd_fixed (s : State) (r : BatchRow) :
    (State.rowEnd s r).fixed = s.fixed := by
  simp [State.rowEnd]

@[simp] theorem State.seasonEnd_fixed (s : State) (i : Nat) (stop : Bool) :
    (State.seasonEnd s i stop).fixed = s.fixed := by
  simp [State.seasonEnd]

@[simp] theorem State.runReply_fixed (s : State) (t : Tag) (r : Reply) (h : r.keeps s.fixed) :
    (State.runReply s t r).fixed = s.fixed := by
  unfold State.runReply; split <;> simp_all

@[simp] theorem State.forksDue_fixed (s : State) (sl : Nat) :
    (State.forksDue s sl).fixed = s.fixed := by
  simp [State.forksDue]

@[simp] theorem State.extendsDue_fixed (s : State) (sl : Nat) :
    (State.extendsDue s sl).fixed = s.fixed := by
  unfold State.extendsDue; (try dsimp only)
  refine (foldl_fixed _ ?_ _ _).trans rfl
  intro t x
  exact State.runReply_fixed _ _ _ (checked_keeps _ _ _ (by simp))

@[simp] theorem State.closesDue_fixed (s : State) (sl : Nat) :
    (State.closesDue s sl).fixed = s.fixed := by
  simp [State.closesDue]

@[simp] theorem State.shareEnd_fixed (s : State) (sl : Nat) (j : Job) :
    (State.shareEnd s sl j).fixed = s.fixed := by
  simp [State.shareEnd]

@[simp] theorem State.ringsFree_fixed (s : State) (sl : Nat) :
    (State.ringsFree s sl).fixed = s.fixed := by
  simp [State.ringsFree]

@[simp] theorem State.stepCounted_fixed (s : State) (sl : Nat) (p : Prog) :
    (State.stepCounted s sl p).fixed = s.fixed := by
  simp only [State.stepCounted]; (repeat' split) <;> (try simp)

@[simp] theorem State.stepEnds_fixed (s : State) (sl : Nat) (j : Job) (p : Prog) :
    (State.stepEnds s sl j p).fixed = s.fixed := by
  simp [State.stepEnds]

theorem execStepEnd_fixed (slice : BitVec 6) (s : State) {z : State} (hz : execStepEnd slice s = .next z) :
    z.fixed = s.fixed := by
  simp only [execStepEnd] at hz; (repeat' split at hz) <;> (try simp at hz) <;> (try (obtain ⟨rfl, rfl⟩ := hz)) <;> (try subst hz) <;> (try simp)

end Sys2Proof.Machine

namespace Sys2Proof.Machine

@[simp] theorem State.makeReport_fixed (s : State) (nonce : U256) (auto : Bool) :
    (State.makeReport s nonce auto).fixed = s.fixed := by
  simp [State.makeReport]

@[simp] theorem State.eraseSlots_fixed (s : State) (p : Nat → Bool) :
    (State.eraseSlots s p).fixed = s.fixed := by
  simp [State.eraseSlots]

@[simp] theorem State.remeasure_fixed (s : State) (i : Nat) (v : U256) :
    (State.remeasure s i v).fixed = s.fixed := by
  simp [State.remeasure]

@[simp] theorem State.debugChanged_fixed (s : State) :
    (State.debugChanged s).fixed = s.fixed := by
  simp [State.debugChanged]

@[simp] theorem State.keygenChanged_fixed (s : State) :
    (State.keygenChanged s).fixed = s.fixed := by
  simp [State.keygenChanged]

@[simp] theorem State.diesChanged_fixed (s : State) :
    (State.diesChanged s).fixed = s.fixed := by
  simp [State.diesChanged]

@[simp] theorem State.consentOff_fixed (s : State) (sl : Nat) :
    (State.consentOff s sl).fixed = s.fixed := by
  simp [State.consentOff]

theorem execAutoReport_fixed (s : State) {z : State} (hz : execAutoReport s = .next z) :
    z.fixed = s.fixed := by
  simp only [execAutoReport] at hz; (repeat' split at hz) <;> (try simp at hz) <;> (try (obtain ⟨rfl, rfl⟩ := hz)) <;> (try subst hz) <;> (try simp)

end Sys2Proof.Machine

namespace Sys2Proof.Machine

@[simp] theorem State.resetRegs_fixed (s : State) (hit : Reg → Nat → Field → Bool) :
    (State.resetRegs s hit).fixed = s.fixed := by
  simp [State.resetRegs]

@[simp] theorem State.imageValues_fixed (s : State) (sl : Nat) :
    (State.imageValues s sl).fixed = s.fixed := by
  simp only [State.imageValues]; (repeat' split) <;> (try simp)

@[simp] theorem State.forget_fixed (s : State) (t : Option Tag) :
    (State.forget s t).fixed = s.fixed := by
  simp only [State.forget]; (repeat' split) <;> (try simp)

@[simp] theorem State.dropQueues_fixed (s : State) (fn : Nat) :
    (State.dropQueues s fn).fixed = s.fixed := by
  simp [State.dropQueues]

@[simp] theorem State.dropFnRequests_fixed (s : State) (fn i : Nat) :
    (State.dropFnRequests s fn i).fixed = s.fixed := by
  simp [State.dropFnRequests]

@[simp] theorem State.functionReset_fixed (s : State) (fn : Nat) :
    (State.functionReset s fn).fixed = s.fixed := by
  simp [State.functionReset]

@[simp] theorem State.endWaits_fixed (s : State) (i status : Nat) :
    (State.endWaits s i status).fixed = s.fixed := by
  unfold State.endWaits; (try dsimp only)
  rw [foldl_fixed _ (by intro t x; simp), foldl_fixed _ (by intro t x; simp)]; simp

@[simp] theorem State.dropOp_fixed (s : State) (i : Nat) :
    (State.dropOp s i).fixed = s.fixed := by
  simp only [State.dropOp]; (repeat' split) <;> (try simp)

@[simp] theorem State.forgetIndex_fixed (s : State) (i : Nat) :
    (State.forgetIndex s i).fixed = s.fixed := by
  simp [State.forgetIndex]

@[simp] theorem State.loseHandoff_fixed (s : State) (i : Nat) :
    (State.loseHandoff s i).fixed = s.fixed := by
  simp only [State.loseHandoff]; (repeat' split) <;> (try simp)

@[simp] theorem State.loseSession_fixed (s : State) (i : Nat) (whole : Bool) :
    (State.loseSession s i whole).fixed = s.fixed := by
  simp [State.loseSession]

@[simp] theorem State.keepWinter_fixed (s : State) (i : Nat) :
    (State.keepWinter s i).fixed = s.fixed := by
  simp [State.keepWinter]

@[simp] theorem State.resetSessions_fixed (s : State) (sl : Nat) (tenant : Bool) :
    (State.resetSessions s sl tenant).fixed = s.fixed := by
  simp only [State.resetSessions]; rw [foldl_fixed _ (by intro t x; (repeat' split) <;> (try simp))] <;> (try simp)

@[simp] theorem State.resetJob_fixed (s : State) (sl : Nat) :
    (State.resetJob s sl).fixed = s.fixed := by
  simp [State.resetJob]

@[simp] theorem State.resetRetrieval_fixed (s : State) (sl : Nat) :
    (State.resetRetrieval s sl).fixed = s.fixed := by
  simp [State.resetRetrieval]

@[simp] theorem State.resetObjects_fixed (s : State) (sl : Nat) :
    (State.resetObjects s sl).fixed = s.fixed := by
  simp only [State.resetObjects]; (repeat' split) <;> (try simp) <;> (rw [foldl_fixed _ (by intro t x; (repeat' split) <;> (try simp))]) <;> (try simp)

@[simp] theorem State.resetMemory_fixed (s : State) (sl : Nat) (tenant : Bool) :
    (State.resetMemory s sl tenant).fixed = s.fixed := by
  simp [State.resetMemory]

@[simp] theorem State.resetCkpt_fixed (s : State) (sl : Nat) (tenant : Bool) :
    (State.resetCkpt s sl tenant).fixed = s.fixed := by
  simp only [State.resetCkpt]; rw [foldl_fixed _ (by intro t x; (repeat' split) <;> (try simp))] <;> (try simp)

@[simp] theorem State.resetClassL_fixed (s : State) (sl : Nat) :
    (State.resetClassL s sl).fixed = s.fixed := by
  simp [State.resetClassL]

@[simp] theorem State.sliceClear_fixed (s : State) (sl : Nat) (tenant : Bool) :
    (State.sliceClear s sl tenant).fixed = s.fixed := by
  simp only [State.sliceClear]; (repeat' split) <;> (try simp)

@[simp] theorem State.sliceReset_fixed (s : State) (sl : Nat) (tenant : Bool) :
    (State.sliceReset s sl tenant).fixed = s.fixed := by
  simp [State.sliceReset]

@[simp] theorem State.cause_fixed (s : State) (kind cause : Nat) :
    (State.cause s kind cause).fixed = s.fixed := by
  simp [State.cause]

@[simp] theorem State.abortLoad_fixed (s : State) (complete : Bool) :
    (State.abortLoad s complete).fixed = s.fixed := by
  simp only [State.abortLoad]; (repeat' split) <;> (try simp)

@[simp] theorem State.portsDown_fixed (s : State) (n : Nat) :
    (State.portsDown s n).fixed = s.fixed := by
  simp [State.portsDown]

@[simp] theorem State.resetClassD_fixed (s : State) (d : Nat) :
    (State.resetClassD s d).fixed = s.fixed := by
  simp [State.resetClassD]

@[simp] theorem State.dieReset_fixed (s : State) (d cause : Nat) :
    (State.dieReset s d cause).fixed = s.fixed := by
  simp [State.dieReset]

end Sys2Proof.Machine

namespace Sys2Proof.Machine

@[simp] theorem State.bootRom_fixed (s : State) (forced : Bool) :
    (State.bootRom s forced).fixed = s.fixed := by
  simp only [State.bootRom]; (repeat' split) <;> (try simp)

@[simp] theorem State.clearWork_fixed (s : State) :
    (State.clearWork s).fixed = s.fixed := by
  simp [State.clearWork]

@[simp] theorem State.powerDies_fixed (s : State) (ds : List Nat) :
    (State.powerDies s ds).fixed = s.fixed := by
  simp [State.powerDies]

@[simp] theorem State.warmReset_fixed (s : State) (c : Nat) :
    (State.warmReset s c).fixed = s.fixed := by
  simp [State.warmReset]

@[simp] theorem State.packageReset_fixed (s : State) (c : Nat) :
    (State.packageReset s c).fixed = s.fixed := by
  simp [State.packageReset]

theorem execPerstNAssert_fixed (s : State) {z : State} (hz : execPerstNAssert s = .next z) :
    z.fixed = s.fixed := by
  simp only [execPerstNAssert] at hz; (repeat' split at hz) <;> (try simp at hz) <;> (try (obtain ⟨rfl, rfl⟩ := hz)) <;> (try subst hz) <;> (try simp)

theorem execPerstNDeassert_fixed (width speed : BitVec 4) (flit l0p : Bool) (s : State) {z : State} (hz : execPerstNDeassert width speed flit l0p s = .next z) :
    z.fixed = s.fixed := by
  simp only [execPerstNDeassert] at hz; (repeat' split at hz) <;> (try simp at hz) <;> (try (obtain ⟨rfl, rfl⟩ := hz)) <;> (try subst hz) <;> (try simp)

@[simp] theorem State.lockLost_fixed (s : State) (pll : Nat) :
    (State.lockLost s pll).fixed = s.fixed := by
  simp [State.lockLost]

theorem execPllLockLoss_fixed (pll : BitVec 5) (s : State) {z : State} (hz : execPllLockLoss pll s = .next z) :
    z.fixed = s.fixed := by
  simp only [execPllLockLoss] at hz; (repeat' split at hz) <;> (try simp at hz) <;> (try (obtain ⟨rfl, rfl⟩ := hz)) <;> (try subst hz) <;> (try simp)

theorem execRefclkStop_fixed (s : State) {z : State} (hz : execRefclkStop s = .next z) :
    z.fixed = s.fixed := by
  simp only [execRefclkStop] at hz; (repeat' split at hz) <;> (try simp at hz) <;> (try (obtain ⟨rfl, rfl⟩ := hz)) <;> (try subst hz) <;> (try simp)

theorem execRefclkRestart_fixed (s : State) {z : State} (hz : execRefclkRestart s = .next z) :
    z.fixed = s.fixed := by
  simp only [execRefclkRestart] at hz; (repeat' split at hz) <;> (try simp at hz) <;> (try (obtain ⟨rfl, rfl⟩ := hz)) <;> (try subst hz) <;> (try simp)

end Sys2Proof.Machine

namespace Sys2Proof.Machine

theorem execDieRelease_fixed (die : BitVec 5) (s : State) {z : State} (hz : execDieRelease die s = .next z) :
    z.fixed = s.fixed := by
  simp only [execDieRelease] at hz; (repeat' split at hz) <;> (try simp at hz) <;> (try (obtain ⟨rfl, rfl⟩ := hz)) <;> (try subst hz) <;> (try simp)

theorem execDieFirmwareMeasured_fixed (die : BitVec 5) (stage : Bytes) (s : State) {z : State} (hz : execDieFirmwareMeasured die stage s = .next z) :
    z.fixed = s.fixed := by
  simp only [execDieFirmwareMeasured] at hz; (repeat' split at hz) <;> (try simp at hz) <;> (try (obtain ⟨rfl, rfl⟩ := hz)) <;> (try subst hz) <;> (try simp)

theorem execSelftestDone_fixed (die : BitVec 5) (s : State) {z : State} (hz : execSelftestDone die s = .next z) :
    z.fixed = s.fixed := by
  simp only [execSelftestDone] at hz; (repeat' split at hz) <;> (try simp at hz) <;> (try (obtain ⟨rfl, rfl⟩ := hz)) <;> (try subst hz) <;> (try simp)

@[simp] theorem State.moduleError_fixed (s : State) (die test : Nat) :
    (State.moduleError s die test).fixed = s.fixed := by
  simp [State.moduleError]

theorem execSelftestFailure_fixed (die : BitVec 5) (test : U8) (s : State) {z : State} (hz : execSelftestFailure die test s = .next z) :
    z.fixed = s.fixed := by
  simp only [execSelftestFailure] at hz; (repeat' split at hz) <;> (try simp at hz) <;> (try (obtain ⟨rfl, rfl⟩ := hz)) <;> (try subst hz) <;> (try simp)

theorem execWatchdogExpiry_fixed (die : BitVec 5) (s : State) {z : State} (hz : execWatchdogExpiry die s = .next z) :
    z.fixed = s.fixed := by
  simp only [execWatchdogExpiry] at hz; (repeat' split at hz) <;> (try simp at hz) <;> (try (obtain ⟨rfl, rfl⟩ := hz)) <;> (try subst hz) <;> (try simp)

theorem execBridgeDown_fixed (bridge : BitVec 6) (s : State) {z : State} (hz : execBridgeDown bridge s = .next z) :
    z.fixed = s.fixed := by
  simp only [execBridgeDown] at hz; (repeat' split at hz) <;> (try simp at hz) <;> (try (obtain ⟨rfl, rfl⟩ := hz)) <;> (try subst hz) <;> (try simp)

@[simp] theorem State.thermalShutdown_fixed (s : State) (die : Nat) :
    (State.thermalShutdown s die).fixed = s.fixed := by
  simp [State.thermalShutdown]

theorem execThermalTrip_fixed (die : BitVec 5) (s : State) {z : State} (hz : execThermalTrip die s = .next z) :
    z.fixed = s.fixed := by
  simp only [execThermalTrip] at hz; (repeat' split at hz) <;> (try simp at hz) <;> (try (obtain ⟨rfl, rfl⟩ := hz)) <;> (try subst hz) <;> (try simp)

@[simp] theorem State.setThermDuty_fixed (s : State) (n : Nat) :
    (State.setThermDuty s n).fixed = s.fixed := by
  simp [State.setThermDuty]

theorem execSensorRead_fixed (die : BitVec 5) (celsius : U8) (s : State) {z : State} (hz : execSensorRead die celsius s = .next z) :
    z.fixed = s.fixed := by
  simp only [execSensorRead] at hz; (repeat' split at hz) <;> (try simp at hz) <;> (try (obtain ⟨rfl, rfl⟩ := hz)) <;> (try subst hz) <;> (try simp)

theorem execThrottlePeriod_fixed (s0 : State) {z : State} (hz : execThrottlePeriod s0 = .next z) :
    z.fixed = s0.fixed := by
  simp only [execThrottlePeriod] at hz; (repeat' split at hz) <;> (try simp at hz) <;> (try (obtain ⟨rfl, rfl⟩ := hz)) <;> (try subst hz) <;> (try simp)

theorem execPowerCapPeriod_fixed (watts : BitVec 12) (s : State) {z : State} (hz : execPowerCapPeriod watts s = .next z) :
    z.fixed = s.fixed := by
  simp only [execPowerCapPeriod] at hz; (repeat' split at hz) <;> (try simp at hz) <;> (try (obtain ⟨rfl, rfl⟩ := hz)) <;> (try subst hz) <;> (try simp)

theorem execThermalRecovery_fixed (s : State) {z : State} (hz : execThermalRecovery s = .next z) :
    z.fixed = s.fixed := by
  simp only [execThermalRecovery] at hz; (repeat' split at hz) <;> (try simp at hz) <;> (try (obtain ⟨rfl, rfl⟩ := hz)) <;> (try subst hz) <;> (try simp)

theorem execThermShutdown_fixed (h : Hdr) (s : State) {z : State} (hz : execThermShutdown h s = .next z) :
    z.fixed = s.fixed := by
  unfold execThermShutdown at hz; (try dsimp only at hz); refine hostCmd_fixed ?_ hz; intro u g; (try dsimp only); (repeat' split) <;> (try simp [withIndex]) <;> (repeat (first | rfl | refine Eq.trans (hostCmd_fixed (by assumption)) ?_)) <;> (try simp)

theorem execIdleEntry_fixed (s : State) {z : State} (hz : execIdleEntry s = .next z) :
    z.fixed = s.fixed := by
  simp only [execIdleEntry] at hz; (repeat' split at hz) <;> (try simp at hz) <;> (try (obtain ⟨rfl, rfl⟩ := hz)) <;> (try subst hz) <;> (try simp)

theorem execDozeEntry_fixed (s : State) {z : State} (hz : execDozeEntry s = .next z) :
    z.fixed = s.fixed := by
  simp only [execDozeEntry] at hz; (repeat' split at hz) <;> (try simp at hz) <;> (try (obtain ⟨rfl, rfl⟩ := hz)) <;> (try subst hz) <;> (try simp)

theorem execDozeExit_fixed (s : State) {z : State} (hz : execDozeExit s = .next z) :
    z.fixed = s.fixed := by
  simp only [execDozeExit] at hz; (repeat' split at hz) <;> (try simp at hz) <;> (try (obtain ⟨rfl, rfl⟩ := hz)) <;> (try subst hz) <;> (try simp)

theorem execPowerState_fixed (h : Hdr) (target force : U1) (s : State) {z : State} (hz : execPowerState h target force s = .next z) :
    z.fixed = s.fixed := by
  unfold execPowerState at hz; (try dsimp only at hz); refine hostCmd_fixed ?_ hz; intro u g; (try dsimp only); (repeat' split) <;> (try simp [withIndex]) <;> (repeat (first | rfl | refine Eq.trans (hostCmd_fixed (by assumption)) ?_)) <;> (try simp)

theorem execHibernateEntry_fixed (s : State) {z : State} (hz : execHibernateEntry s = .next z) :
    z.fixed = s.fixed := by
  simp only [execHibernateEntry] at hz; (repeat' split at hz) <;> (try simp at hz) <;> (try (obtain ⟨rfl, rfl⟩ := hz)) <;> (try subst hz) <;> (try simp)

theorem execWakeDone_fixed (s : State) {z : State} (hz : execWakeDone s = .next z) :
    z.fixed = s.fixed := by
  simp only [execWakeDone] at hz; (repeat' split at hz) <;> (try simp at hz) <;> (try (obtain ⟨rfl, rfl⟩ := hz)) <;> (try subst hz) <;> (try simp)

theorem execDevReset_fixed (h : Hdr) (scope : BitVec 2) (die : BitVec 5) (slice : BitVec 6) (s : State) {z : State} (hz : execDevReset h scope die slice s = .next z) :
    z.fixed = s.fixed := by
  unfold execDevReset at hz; (try dsimp only at hz); refine hostCmd_fixed ?_ hz; intro u g; (try dsimp only); (repeat' split) <;> (try simp [withIndex]) <;> (repeat (first | rfl | refine Eq.trans (hostCmd_fixed (by assumption)) ?_)) <;> (try simp)

theorem execPkgReset_fixed (h : Hdr) (s : State) {z : State} (hz : execPkgReset h s = .next z) :
    z.fixed = s.fixed := by
  unfold execPkgReset at hz; (try dsimp only at hz); refine hostCmd_fixed ?_ hz; intro u g; (try dsimp only); (repeat' split) <;> (try simp [withIndex]) <;> (repeat (first | rfl | refine Eq.trans (hostCmd_fixed (by assumption)) ?_)) <;> (try simp)

theorem execFunctionLevelReset_fixed (fn : BitVec 6) (s : State) {z : State} (hz : execFunctionLevelReset fn s = .next z) :
    z.fixed = s.fixed := by
  simp only [execFunctionLevelReset] at hz; (repeat' split at hz) <;> (try simp at hz) <;> (try (obtain ⟨rfl, rfl⟩ := hz)) <;> (try subst hz) <;> (try simp)

end Sys2Proof.Machine

namespace Sys2Proof.Machine

@[simp] theorem State.setStaged_fixed (s : State) (h : Option U256) :
    (State.setStaged s h).fixed = s.fixed := by
  simp [State.setStaged]

@[simp] theorem State.lastErr_fixed (s : State) (code : Nat) :
    (State.lastErr s code).fixed = s.fixed := by
  simp [State.lastErr]

@[simp] theorem State.portDrop_fixed (s : State) (p : Nat) :
    (State.portDrop s p).fixed = s.fixed := by
  simp [State.portDrop]

@[simp] theorem State.pcgGesso_fixed (s : State) (sl mask : Nat) :
    (State.pcgGesso s sl mask).fixed = s.fixed := by
  simp [State.pcgGesso]

@[simp] theorem State.loadReset_fixed (s : State) (n : Image) (sl : Nat) :
    (State.loadReset s n sl).fixed = s.fixed := by
  simp [State.loadReset]

@[simp] theorem State.startLoad_fixed (s : State) (i : Image) (t : Option Tag) (second : Bool) :
    (State.startLoad s i t second).fixed = s.fixed := by
  simp [State.startLoad]

@[simp] theorem State.stage_fixed (s : State) (b : Option Bytes) (len mode : Nat) (t : Tag) :
    (State.stage s b len mode t).keeps s.fixed := by
  unfold State.stage; generalize hi : (fun b : Bytes => imageOf b ((s.authorSlot b).getD 0)) = f; (try dsimp only)
  split
  · simp
  · split
    · simp
    · split <;> simp

theorem execImageLoad_fixed (h : Hdr) (srcAddr : U64) (srcLen : U32) (mode : BitVec 2) (s : State) {z : State} (hz : execImageLoad h srcAddr srcLen mode s = .next z) :
    z.fixed = s.fixed := by
  unfold execImageLoad at hz; (try dsimp only at hz); split at hz; exact (by cases hz; rfl); refine hostCmd_fixed ?_ hz; intro u g; (try dsimp only); (repeat' split) <;> (try simp [withIndex]) <;> (repeat (first | rfl | refine Eq.trans (hostCmd_fixed (by assumption)) ?_)) <;> (try simp)

@[simp] theorem State.discardWinter_fixed (s : State) (n : Image) (sl : Nat) :
    (State.discardWinter s n sl).fixed = s.fixed := by
  simp [State.discardWinter]

@[simp] theorem State.keepPool_fixed (s o : State) :
    (State.keepPool s o).fixed = s.fixed := by
  simp [State.keepPool]

@[simp] theorem State.measureImage_fixed (s : State) (n : Image) (ns : List Nat) :
    (State.measureImage s n ns).fixed = s.fixed := by
  simp [State.measureImage]

@[simp] theorem State.newValues_fixed (s : State) (ns : List Nat) :
    (State.newValues s ns).fixed = s.fixed := by
  simp [State.newValues]

@[simp] theorem State.newComp_fixed (s : State) :
    (State.newComp s).fixed = s.fixed := by
  simp [State.newComp]

@[simp] theorem State.newPorts_fixed (s : State) :
    (State.newPorts s).fixed = s.fixed := by
  simp [State.newPorts]

@[simp] theorem State.bootKeep_fixed (s : State) (n : Image) :
    (State.bootKeep s n).fixed = s.fixed := by
  simp only [State.bootKeep]; (repeat' split) <;> (try simp)

@[simp] theorem State.trialDone_fixed (s : State) :
    (State.trialDone s).fixed = s.fixed := by
  simp [State.trialDone]

theorem execTrialBootTimeout_fixed (s : State) {z : State} (hz : execTrialBootTimeout s = .next z) :
    z.fixed = s.fixed := by
  simp only [execTrialBootTimeout] at hz; (repeat' split at hz) <;> (try simp at hz) <;> (try (obtain ⟨rfl, rfl⟩ := hz)) <;> (try subst hz) <;> (try simp)

end Sys2Proof.Machine

namespace Sys2Proof.Machine

@[simp] theorem State.stageFw_fixed (s : State) (b : Option Bytes) :
    (State.stageFw s b).fixed = s.fixed := by
  simp only [State.stageFw]; (repeat' split) <;> (try simp)

@[simp] theorem State.fwStage_fixed (s : State) (b : Option Bytes) (len target : Nat) :
    (State.fwStage s b len target).keeps s.fixed := by
  simp only [State.fwStage]; (repeat' split) <;> (try simp)

@[simp] theorem State.fwActivate_fixed (s : State) :
    (State.fwActivate s).fixed = s.fixed := by
  simp [State.fwActivate]

theorem execFwLoad_fixed (h : Hdr) (srcAddr : U64) (srcLen : U32) (target : U1) (mode : BitVec 2) (s : State) {z : State} (hz : execFwLoad h srcAddr srcLen target mode s = .next z) :
    z.fixed = s.fixed := by
  unfold execFwLoad at hz; (try dsimp only at hz); split at hz; exact (by cases hz; rfl); refine hostCmd_fixed ?_ hz; intro u g; (try dsimp only); (repeat' split) <;> (try simp [withIndex]) <;> (repeat (first | rfl | refine Eq.trans (hostCmd_fixed (by assumption)) ?_)) <;> (try simp)

theorem execErrlogRead_fixed (h : Hdr) (first count : U32) (dstAddr : U64) (s : State) {z : State} (hz : execErrlogRead h first count dstAddr s = .next z) :
    z.fixed = s.fixed := by
  unfold execErrlogRead at hz; (try dsimp only at hz); refine hostCmd_fixed ?_ hz; intro u g; (try dsimp only); (repeat' split) <;> (try simp [withIndex]) <;> (repeat (first | rfl | refine Eq.trans (hostCmd_fixed (by assumption)) ?_)) <;> (try simp)

@[simp] theorem State.consume_fixed (s : State) (n : Nat) :
    (State.consume s n).fixed = s.fixed := by
  simp [State.consume]

end Sys2Proof.Machine

namespace Sys2Proof.Machine

@[simp] theorem State.sweepEnd_fixed (s : State) :
    (State.sweepEnd s).fixed = s.fixed := by
  simp [State.sweepEnd]

@[simp] theorem State.sweepUnit_fixed (s : State) (a : Nat) :
    (State.sweepUnit s a).fixed = s.fixed := by
  simp only [State.sweepUnit]; (repeat' split) <;> (try simp)

theorem execRekeySweepRegion_fixed (region : U64) (s : State) {z : State} (hz : execRekeySweepRegion region s = .next z) :
    z.fixed = s.fixed := by
  simp only [execRekeySweepRegion] at hz; (repeat' split at hz) <;> (try simp at hz) <;> (try (obtain ⟨rfl, rfl⟩ := hz)) <;> (try subst hz) <;> (try simp)

@[simp] theorem State.zeroizeEnd_fixed (s : State) :
    (State.zeroizeEnd s).fixed = s.fixed := by
  simp [State.zeroizeEnd]

@[simp] theorem State.zeroizeWrite_fixed (s : State) (fn : Nat) (t : State) (h : t.fixed = s.fixed) :
    (State.zeroizeWrite s fn t).fixed = s.fixed := by
  unfold State.zeroizeWrite; split <;> simp [h]

theorem execZeroizeArm_fixed (fn : BitVec 6) (s : State) {z : State} (hz : execZeroizeArm fn s = .next z) :
    z.fixed = s.fixed := by
  cases hz; exact State.zeroizeWrite_fixed _ _ _ rfl

theorem execZeroizeArmExpiry_fixed (s : State) {z : State} (hz : execZeroizeArmExpiry s = .next z) :
    z.fixed = s.fixed := by
  simp only [execZeroizeArmExpiry] at hz; (repeat' split at hz) <;> (try simp at hz) <;> (try (obtain ⟨rfl, rfl⟩ := hz)) <;> (try subst hz) <;> (try simp)

@[simp] theorem State.putKey_fixed (s : State) (sl slot : Nat) (key : Bytes) (pkg : U256) :
    (State.putKey s sl slot key pkg).fixed = s.fixed := by
  simp [State.putKey]

theorem execKeyRelease_fixed (h : Hdr) (blobAddr : U64) (s : State) {z : State} (hz : execKeyRelease h blobAddr s = .next z) :
    z.fixed = s.fixed := by
  unfold execKeyRelease at hz; (try dsimp only at hz); split at hz; exact (by cases hz; rfl); refine hostCmd_fixed ?_ hz; intro u g; (try dsimp only); (repeat' split) <;> (try simp [withIndex]) <;> (repeat (first | rfl | refine Eq.trans (hostCmd_fixed (by assumption)) ?_)) <;> (try simp)

theorem execBoundOpen_fixed (h : Hdr) (slice : BitVec 6) (slot : U32) (pkgAddr : U64) (s : State) {z : State} (hz : execBoundOpen h slice slot pkgAddr s = .next z) :
    z.fixed = s.fixed := by
  unfold execBoundOpen at hz; (try dsimp only at hz); split at hz; exact (by cases hz; rfl); refine hostCmd_fixed ?_ hz; intro u g; (try dsimp only); (repeat' split) <;> (try simp [withIndex]) <;> (repeat (first | rfl | refine Eq.trans (hostCmd_fixed (by assumption)) ?_)) <;> (try simp)

theorem State.decryptChunks_fixed (s : State) (hdr key : Bytes) (src sl : Nat) (x0 : List Nat) (x1 : Nat) {z : State} (hz : State.decryptChunks s hdr key src sl x0 x1 = .ok z) :
    z.fixed = s.fixed := by
  fun_induction State.decryptChunks s hdr key src sl x0 x1 <;> (try simp_all)

theorem execWeightDecrypt_fixed (h : Hdr) (slice : BitVec 6) (slot : U32) (src : U64) (first count : U32) (dstVa : U64) (s : State) {z : State} (hz : execWeightDecrypt h slice slot src first count dstVa s = .next z) :
    z.fixed = s.fixed := by
  unfold execWeightDecrypt at hz; split at hz
  · cases hz; rfl
  · refine hostCmd_fixed ?_ hz; intro u g; (try dsimp only)
    split
    · trivial
    · split
      · rename_i h; exact State.decryptChunks_fixed _ _ _ _ _ _ _ h
      · simp

theorem execConsentInstall_fixed (h : Hdr) (slice : BitVec 6) (recAddr : U64) (s : State) {z : State} (hz : execConsentInstall h slice recAddr s = .next z) :
    z.fixed = s.fixed := by
  unfold execConsentInstall at hz; (try dsimp only at hz); split at hz; exact (by cases hz; rfl); refine hostCmd_fixed ?_ hz; intro u g; (try dsimp only); (repeat' split) <;> (try simp [withIndex]) <;> (repeat (first | rfl | refine Eq.trans (hostCmd_fixed (by assumption)) ?_)) <;> (try simp)

theorem execConsentRemove_fixed (h : Hdr) (slice : BitVec 6) (s : State) {z : State} (hz : execConsentRemove h slice s = .next z) :
    z.fixed = s.fixed := by
  unfold execConsentRemove at hz; (try dsimp only at hz); refine hostCmd_fixed ?_ hz; intro u g; (try dsimp only); (repeat' split) <;> (try simp [withIndex]) <;> (repeat (first | rfl | refine Eq.trans (hostCmd_fixed (by assumption)) ?_)) <;> (try simp)

theorem execConsentExpiry_fixed (slice : BitVec 6) (s : State) {z : State} (hz : execConsentExpiry slice s = .next z) :
    z.fixed = s.fixed := by
  simp only [execConsentExpiry] at hz; (repeat' split at hz) <;> (try simp at hz) <;> (try (obtain ⟨rfl, rfl⟩ := hz)) <;> (try subst hz) <;> (try simp)

theorem execJtagAccess_fixed (instr : JtagInstr) (unit : JtagUnit) (s : State) {z : State} (hz : execJtagAccess instr unit s = .next z) :
    z.fixed = s.fixed := by
  simp only [execJtagAccess] at hz; (repeat' split at hz) <;> (try simp at hz) <;> (try (obtain ⟨rfl, rfl⟩ := hz)) <;> (try subst hz) <;> (try simp)

end Sys2Proof.Machine

namespace Sys2Proof.Machine

theorem execNop_fixed (h : Hdr) (s : State) {z : State} (hz : execNop h s = .next z) :
    z.fixed = s.fixed := by
  unfold execNop at hz; (try dsimp only at hz); refine hostCmd_fixed ?_ hz; intro u g; (try dsimp only); (repeat' split) <;> (try simp [withIndex]) <;> (repeat (first | rfl | refine Eq.trans (hostCmd_fixed (by assumption)) ?_)) <;> (try simp)

theorem execSqCreate_fixed (h : Hdr) (qid cqid : U16) (log2 : BitVec 5) (base : U64) (s : State) {z : State} (hz : execSqCreate h qid cqid log2 base s = .next z) :
    z.fixed = s.fixed := by
  unfold execSqCreate at hz; (try dsimp only at hz); refine hostCmd_fixed ?_ hz; intro u g; (try dsimp only); (repeat' split) <;> (try simp [withIndex]) <;> (repeat (first | rfl | refine Eq.trans (hostCmd_fixed (by assumption)) ?_)) <;> (try simp)

theorem execSqDelete_fixed (h : Hdr) (qid : U16) (s : State) {z : State} (hz : execSqDelete h qid s = .next z) :
    z.fixed = s.fixed := by
  unfold execSqDelete at hz; (try dsimp only at hz); refine hostCmd_fixed ?_ hz; intro u g; (try dsimp only); (repeat' split) <;> (try simp [withIndex]) <;> (repeat (first | rfl | refine Eq.trans (hostCmd_fixed (by assumption)) ?_)) <;> (try simp)

theorem execCqCreate_fixed (h : Hdr) (qid : U16) (log2 : BitVec 5) (vector : BitVec 11) (ien : U1) (base : U64) (s : State) {z : State} (hz : execCqCreate h qid log2 vector ien base s = .next z) :
    z.fixed = s.fixed := by
  unfold execCqCreate at hz; (try dsimp only at hz); refine hostCmd_fixed ?_ hz; intro u g; (try dsimp only); (repeat' split) <;> (try simp [withIndex]) <;> (repeat (first | rfl | refine Eq.trans (hostCmd_fixed (by assumption)) ?_)) <;> (try simp)

theorem execCqDelete_fixed (h : Hdr) (qid : U16) (s : State) {z : State} (hz : execCqDelete h qid s = .next z) :
    z.fixed = s.fixed := by
  unfold execCqDelete at hz; (try dsimp only at hz); refine hostCmd_fixed ?_ hz; intro u g; (try dsimp only); (repeat' split) <;> (try simp [withIndex]) <;> (repeat (first | rfl | refine Eq.trans (hostCmd_fixed (by assumption)) ?_)) <;> (try simp)

theorem execEqCreate_fixed (h : Hdr) (slice : BitVec 6) (device : U1) (log2 : BitVec 5) (base : U64) (vector : BitVec 11) (s : State) {z : State} (hz : execEqCreate h slice device log2 base vector s = .next z) :
    z.fixed = s.fixed := by
  unfold execEqCreate at hz; (try dsimp only at hz); refine hostCmd_fixed ?_ hz; intro u g; (try dsimp only); (repeat' split) <;> (try simp [withIndex]) <;> (repeat (first | rfl | refine Eq.trans (hostCmd_fixed (by assumption)) ?_)) <;> (try simp)

theorem execEqDelete_fixed (h : Hdr) (slice : BitVec 6) (device : U1) (s : State) {z : State} (hz : execEqDelete h slice device s = .next z) :
    z.fixed = s.fixed := by
  unfold execEqDelete at hz; (try dsimp only at hz); refine hostCmd_fixed ?_ hz; intro u g; (try dsimp only); (repeat' split) <;> (try simp [withIndex]) <;> (repeat (first | rfl | refine Eq.trans (hostCmd_fixed (by assumption)) ?_)) <;> (try simp)

@[simp] theorem State.dbIgnored_fixed (s : State) (fn : Nat) :
    (State.dbIgnored s fn).fixed = s.fixed := by
  simp [State.dbIgnored]

theorem execSqTailDoorbell_fixed (fn : BitVec 6) (q : BitVec 12) (value : U16) (s : State) {z : State} (hz : execSqTailDoorbell fn q value s = .next z) :
    z.fixed = s.fixed := by
  simp only [execSqTailDoorbell] at hz; (repeat' split at hz) <;> (try simp at hz) <;> (try (obtain ⟨rfl, rfl⟩ := hz)) <;> (try subst hz) <;> (try simp)

theorem execCqHeadDoorbell_fixed (fn : BitVec 6) (q : BitVec 12) (value : U16) (s : State) {z : State} (hz : execCqHeadDoorbell fn q value s = .next z) :
    z.fixed = s.fixed := by
  simp only [execCqHeadDoorbell] at hz; (repeat' split at hz) <;> (try simp at hz) <;> (try (obtain ⟨rfl, rfl⟩ := hz)) <;> (try subst hz) <;> (try simp)

theorem execEqHeadDoorbell_fixed (fn : BitVec 6) (q : BitVec 7) (value : U16) (s : State) {z : State} (hz : execEqHeadDoorbell fn q value s = .next z) :
    z.fixed = s.fixed := by
  simp only [execEqHeadDoorbell] at hz; (repeat' split at hz) <;> (try simp at hz) <;> (try (obtain ⟨rfl, rfl⟩ := hz)) <;> (try subst hz) <;> (try simp)

theorem execMsixUnmask_fixed (fn : BitVec 6) (vector : BitVec 11) (s : State) {z : State} (hz : execMsixUnmask fn vector s = .next z) :
    z.fixed = s.fixed := by
  simp only [execMsixUnmask] at hz; (repeat' split at hz) <;> (try simp at hz) <;> (try (obtain ⟨rfl, rfl⟩ := hz)) <;> (try subst hz) <;> (try simp)

theorem execPoisonedTlpReceived_fixed (fn : BitVec 6) (addr : U64) (s : State) {z : State} (hz : execPoisonedTlpReceived fn addr s = .next z) :
    z.fixed = s.fixed := by
  simp only [execPoisonedTlpReceived] at hz; (repeat' split at hz) <;> (try simp at hz) <;> (try (obtain ⟨rfl, rfl⟩ := hz)) <;> (try subst hz) <;> (try simp)

@[simp] theorem State.setTdi_fixed (s : State) (fn : Nat) (t : Tdi) :
    (State.setTdi s fn t).fixed = s.fixed := by
  simp [State.setTdi]

theorem execIdeFailure_fixed (fn : BitVec 6) (s : State) {z : State} (hz : execIdeFailure fn s = .next z) :
    z.fixed = s.fixed := by
  simp only [execIdeFailure] at hz; (repeat' split at hz) <;> (try simp at hz) <;> (try (obtain ⟨rfl, rfl⟩ := hz)) <;> (try subst hz) <;> (try simp)

theorem execIdeKm_fixed (message stream : BitVec 3) (fn : BitVec 6) (s : State) {z : State} (hz : execIdeKm message stream fn s = .next z) :
    z.fixed = s.fixed := by
  simp only [execIdeKm] at hz; (repeat' split at hz) <;> (try simp at hz) <;> (try (obtain ⟨rfl, rfl⟩ := hz)) <;> (try subst hz) <;> (try simp)

end Sys2Proof.Machine

namespace Sys2Proof.Machine

@[simp] theorem State.writeFields_fixed (s : State) (r : Reg) (u i v : Nat) :
    (State.writeFields s r u i v).fixed = s.fixed := by
  simp [State.writeFields]

@[simp] theorem State.commitPair_fixed (s : State) (lo hi : Reg) (u v : Nat) :
    (State.commitPair s lo hi u v).fixed = s.fixed := by
  simp only [State.commitPair]; (repeat' split) <;> (try simp)

@[simp] theorem State.writeHi_fixed (s : State) (lo hi : Reg) (u fn v : Nat) :
    (State.writeHi s lo hi u fn v).fixed = s.fixed := by
  simp [State.writeHi]

@[simp] theorem State.adminOn_fixed (s : State) (f : Nat) :
    (State.adminOn s f).fixed = s.fixed := by
  simp [State.adminOn]

@[simp] theorem State.adminOff_fixed (s : State) (f : Nat) :
    (State.adminOff s f).fixed = s.fixed := by
  simp [State.adminOff]

@[simp] theorem State.aqWrite_fixed (s : State) (f v : Nat) :
    (State.aqWrite s f v).fixed = s.fixed := by
  simp [State.aqWrite]

@[simp] theorem State.evcWrite_fixed (s : State) (sl k fn off v : Nat) :
    (State.evcWrite s sl k fn off v).fixed = s.fixed := by
  simp [State.evcWrite]

@[simp] theorem State.errlogWrite_fixed (s : State) (v : Nat) :
    (State.errlogWrite s v).fixed = s.fixed := by
  simp [State.errlogWrite]

@[simp] theorem State.portWrite_fixed (s : State) (p fn off v : Nat) :
    (State.portWrite s p fn off v).fixed = s.fixed := by
  simp [State.portWrite]

@[simp] theorem State.thermWrite_fixed (s : State) (v : Nat) :
    (State.thermWrite s v).fixed = s.fixed := by
  simp [State.thermWrite]

@[simp] theorem State.regRead_fixed (s : State) (fn off : Nat) :
    (State.regRead s fn off).1.fixed = s.fixed := by
  simp only [State.regRead]; (repeat' split) <;> (try simp)

@[simp] theorem State.readOut_fixed (s : State) (fn off : Nat) :
    (State.readOut s fn off).fixed = s.fixed := by
  simp [State.readOut]

theorem execPkcLoRead_fixed (fn : BitVec 6) (s : State) {z : State} (hz : execPkcLoRead fn s = .next z) :
    z.fixed = s.fixed := by
  simp only [execPkcLoRead] at hz; (repeat' split at hz) <;> (try simp at hz) <;> (try (obtain ⟨rfl, rfl⟩ := hz)) <;> (try subst hz) <;> (try simp)

theorem execLoReadLatch_fixed (fn : BitVec 6) (off : BitVec 26) (s : State) {z : State} (hz : execLoReadLatch fn off s = .next z) :
    z.fixed = s.fixed := by
  simp only [execLoReadLatch] at hz; (repeat' split at hz) <;> (try simp at hz) <;> (try (obtain ⟨rfl, rfl⟩ := hz)) <;> (try subst hz) <;> (try simp)

theorem execCounterSnapshot_fixed (s : State) {z : State} (hz : execCounterSnapshot s = .next z) :
    z.fixed = s.fixed := by
  simp only [execCounterSnapshot] at hz; (repeat' split at hz) <;> (try simp at hz) <;> (try (obtain ⟨rfl, rfl⟩ := hz)) <;> (try subst hz) <;> (try simp)

end Sys2Proof.Machine

namespace Sys2Proof.Machine

@[simp] theorem State.copyIn_fixed (s : State) (sl host va n : Nat) :
    (State.copyIn s sl host va n).keeps s.fixed := by
  simp [State.copyIn]

@[simp] theorem State.copyOut_fixed (s : State) (sl host va n : Nat) :
    (State.copyOut s sl host va n).keeps s.fixed := by
  simp [State.copyOut]

theorem State.accessWait_fixed (s : State) (sl va n : Nat) (write : Bool) {z : State} (hz : State.accessWait s sl va n write = some z) :
    z.fixed = s.fixed := by
  unfold State.accessWait at hz; split at hz
  · split at hz
    · cases hz; exact State.fetchFault_fixed _ _ _
    · cases hz; rfl
  · cases hz; rfl
  · split at hz
    · obtain ⟨a, ha, e⟩ := Option.map_eq_some_iff.1 hz; cases e; exact State.wantCopy_fixed _ _
    · cases hz
  · cases hz

theorem execCopy_fixed (h : Hdr) (slice : BitVec 6) (dir : U1) (len : U32) (hostAddr va : U64) (s : State) {z : State} (hz : execCopy h slice dir len hostAddr va s = .next z) :
    z.fixed = s.fixed := by
  unfold execCopy at hz; (try dsimp only at hz); split at hz
  · rename_i h
    cases hz
    split at h
    · exact State.accessWait_fixed _ _ _ _ _ h
    · cases h
  · refine hostCmd_fixed ?_ hz; intro u g; (try dsimp only)
    (repeat' split) <;> simp

@[simp] theorem State.bar4Refuse_fixed (s : State) (fn : Nat) (write : Bool) :
    (State.bar4Refuse s fn write).fixed = s.fixed := by
  simp [State.bar4Refuse]

@[simp] theorem State.bar4At_fixed (s : State) (fn sl va n : Nat) (write inIde : Bool) (data : Bytes) :
    (State.bar4At s fn sl va n write inIde data).fixed = s.fixed := by
  unfold State.bar4At; (try dsimp only)
  split
  · simp
  · split
    · simp
    · split
      · simp
      · split
        · rename_i h; exact State.accessWait_fixed _ _ _ _ _ h
        · (repeat' split) <;> simp

theorem execBar4Access_fixed (fn : BitVec 6) (write inIde : Bool) (off : BitVec 40) (len : BitVec 12) (data : Bytes) (s : State) {z : State} (hz : execBar4Access fn write inIde off len data s = .next z) :
    z.fixed = s.fixed := by
  simp only [execBar4Access] at hz; (repeat' split at hz) <;> (try simp at hz) <;> (try (obtain ⟨rfl, rfl⟩ := hz)) <;> (try subst hz) <;> (try simp)

end Sys2Proof.Machine

namespace Sys2Proof.Machine

@[simp] theorem State.spdmSend_fixed (s : State) (code : Nat) (body : Bytes) :
    (State.spdmSend s code body).fixed = s.fixed := by
  simp [State.spdmSend]

@[simp] theorem State.spdmError_fixed (s : State) (code : Nat) :
    (State.spdmError s code).fixed = s.fixed := by
  simp [State.spdmError]

@[simp] theorem State.setSpdm_fixed (s : State) (x : Spdm) :
    (State.setSpdm s x).fixed = s.fixed := by
  simp [State.setSpdm]

@[simp] theorem State.heard_fixed (s : State) (b : Bytes) :
    (State.heard s b).fixed = s.fixed := by
  simp [State.heard]

theorem spdmRequest_fixed {secured : Bool} {ready : Spdm → Bool} {s z : State} {f : State → State}
    (hf : (f s).fixed = s.fixed) (hz : spdmRequest secured ready s f = .next z) : z.fixed = s.fixed := by
  unfold spdmRequest at hz; (repeat' split at hz) <;> cases hz <;> simp [hf]

theorem execGetVersion_fixed (s : State) {z : State} (hz : execGetVersion s = .next z) :
    z.fixed = s.fixed := by
  simp only [execGetVersion] at hz; (repeat' split at hz) <;> (try simp at hz) <;> (try (obtain ⟨rfl, rfl⟩ := hz)) <;> (try subst hz) <;> (try simp)

theorem execGetCapabilities_fixed (secured : Bool) (s : State) {z : State} (hz : execGetCapabilities secured s = .next z) :
    z.fixed = s.fixed := by
  unfold execGetCapabilities at hz; refine spdmRequest_fixed ?_ hz; (try dsimp only); (repeat' split) <;> (try simp)

theorem execNegotiateAlgorithms_fixed (secured : Bool) (sha3 mldsa : Bool) (s : State) {z : State} (hz : execNegotiateAlgorithms secured sha3 mldsa s = .next z) :
    z.fixed = s.fixed := by
  unfold execNegotiateAlgorithms at hz; refine spdmRequest_fixed ?_ hz; (try dsimp only); (repeat' split) <;> (try simp)

theorem execGetDigests_fixed (secured : Bool) (s : State) {z : State} (hz : execGetDigests secured s = .next z) :
    z.fixed = s.fixed := by
  unfold execGetDigests at hz; refine spdmRequest_fixed ?_ hz; (try dsimp only); (repeat' split) <;> (try simp)

theorem execGetCertificate_fixed (secured : Bool) (slot : U8) (off len : U16) (s : State) {z : State} (hz : execGetCertificate secured slot off len s = .next z) :
    z.fixed = s.fixed := by
  unfold execGetCertificate at hz; refine spdmRequest_fixed ?_ hz; (try dsimp only); (repeat' split) <;> (try simp)

theorem execChallenge_fixed (secured : Bool) (slot : U8) (nonce : U256) (s : State) {z : State} (hz : execChallenge secured slot nonce s = .next z) :
    z.fixed = s.fixed := by
  unfold execChallenge at hz; refine spdmRequest_fixed ?_ hz; (try dsimp only); (repeat' split) <;> (try simp)

theorem execGetMeasurements_fixed (secured : Bool) (index : U8) (nonce : U256) (s : State) {z : State} (hz : execGetMeasurements secured index nonce s = .next z) :
    z.fixed = s.fixed := by
  unfold execGetMeasurements at hz; refine spdmRequest_fixed ?_ hz; (try dsimp only); (repeat' split) <;> (try simp)

theorem execEndSession_fixed (s : State) {z : State} (hz : execEndSession s = .next z) :
    z.fixed = s.fixed := by
  unfold execEndSession at hz; refine spdmRequest_fixed ?_ hz; (try dsimp only); (repeat' split) <;> (try simp)

theorem execHeartbeat_fixed (s : State) {z : State} (hz : execHeartbeat s = .next z) :
    z.fixed = s.fixed := by
  unfold execHeartbeat at hz; refine spdmRequest_fixed ?_ hz; (try dsimp only); (repeat' split) <;> (try simp)

theorem execKeyUpdate_fixed (s : State) {z : State} (hz : execKeyUpdate s = .next z) :
    z.fixed = s.fixed := by
  unfold execKeyUpdate at hz; refine spdmRequest_fixed ?_ hz; (try dsimp only); (repeat' split) <;> (try simp)

theorem execKemStart_fixed (ct : Bytes) (s : State) {z : State} (hz : execKemStart ct s = .next z) :
    z.fixed = s.fixed := by
  unfold execKemStart at hz; refine spdmRequest_fixed ?_ hz; (try dsimp only); (repeat' split) <;> (try simp)

theorem tdispRequest_fixed {fn : Nat} {s z : State} {f : State → State}
    (hf : (f s).fixed = s.fixed) (hz : tdispRequest fn s f = .next z) : z.fixed = s.fixed := by
  unfold tdispRequest at hz; (repeat' split at hz) <;> cases hz <;> simp [hf]

@[simp] theorem State.tdispState_fixed (s : State) :
    (State.tdispState s).fixed = s.fixed := by
  simp [State.tdispState]

theorem execLockInterface_fixed (fn : BitVec 6) (s : State) {z : State} (hz : execLockInterface fn s = .next z) :
    z.fixed = s.fixed := by
  unfold execLockInterface at hz; refine tdispRequest_fixed ?_ hz; (try dsimp only); (repeat' split) <;> (try simp)

theorem execStartInterfaceRequest_fixed (fn : BitVec 6) (s : State) {z : State} (hz : execStartInterfaceRequest fn s = .next z) :
    z.fixed = s.fixed := by
  unfold execStartInterfaceRequest at hz; refine tdispRequest_fixed ?_ hz; (try dsimp only); (repeat' split) <;> (try simp)

theorem execStopInterface_fixed (fn : BitVec 6) (s : State) {z : State} (hz : execStopInterface fn s = .next z) :
    z.fixed = s.fixed := by
  unfold execStopInterface at hz; refine tdispRequest_fixed ?_ hz; (try dsimp only); (repeat' split) <;> (try simp)

@[simp] theorem State.pldmDone_fixed (s : State) :
    (State.pldmDone s).fixed = s.fixed := by
  simp [State.pldmDone]

theorem execPldmPkgReset_fixed (s : State) {z : State} (hz : execPldmPkgReset s = .next z) :
    z.fixed = s.fixed := by
  simp only [execPldmPkgReset] at hz; (repeat' split at hz) <;> (try simp at hz) <;> (try (obtain ⟨rfl, rfl⟩ := hz)) <;> (try subst hz) <;> (try simp)

theorem execPldmThermalShutdown_fixed (s : State) {z : State} (hz : execPldmThermalShutdown s = .next z) :
    z.fixed = s.fixed := by
  simp only [execPldmThermalShutdown] at hz; (repeat' split at hz) <;> (try simp at hz) <;> (try (obtain ⟨rfl, rfl⟩ := hz)) <;> (try subst hz) <;> (try simp)

theorem execPldmPortDisable_fixed (port : BitVec 6) (s : State) {z : State} (hz : execPldmPortDisable port s = .next z) :
    z.fixed = s.fixed := by
  simp only [execPldmPortDisable] at hz; (repeat' split at hz) <;> (try simp at hz) <;> (try (obtain ⟨rfl, rfl⟩ := hz)) <;> (try subst hz) <;> (try simp)

theorem execPldmZeroizeArm_fixed (s : State) {z : State} (hz : execPldmZeroizeArm s = .next z) :
    z.fixed = s.fixed := by
  simp only [execPldmZeroizeArm] at hz; (repeat' split at hz) <;> (try simp at hz) <;> (try (obtain ⟨rfl, rfl⟩ := hz)) <;> (try subst hz) <;> (try simp)

theorem execPldmErrlogRead_fixed (first count : U32) (s : State) {z : State} (hz : execPldmErrlogRead first count s = .next z) :
    z.fixed = s.fixed := by
  simp only [execPldmErrlogRead] at hz; (repeat' split at hz) <;> (try simp at hz) <;> (try (obtain ⟨rfl, rfl⟩ := hz)) <;> (try subst hz) <;> (try simp)

end Sys2Proof.Machine

namespace Sys2Proof.Machine

end Sys2Proof.Machine
end

