-- ==== Sys2Proof/Laws/Kept.lean ====
section
/-! SUPPORT. The rows that do write a bundled field: what each keeps of the queue, the count, the fuses and the generation. -/

namespace Sys2Proof.Machine

/-- One command or operation took `s` to `t`: queue as it was, PKC as it was (or, after a cold reset,
started again), fuses only burnt, generation live. -/
structure Kept (cold : Prop) (s t : State) : Prop where
  pending : t.pending = s.pending
  clock : t.pkg.pkc = s.pkg.pkc ∨ (cold ∧ t.pkg.pkc = 0)
  burnt : Burnt s t
  live : GenerationLive s → GenerationLive t

variable {cold : Prop}

theorem burnt_refl (s : State) : Burnt s s := ⟨fun _ h => h, Nat.le_refl _, fun h => h, fun _ h => ⟨h, rfl⟩, fun _ h => h, fun _ => Nat.le_refl _⟩

theorem burnt_trans {a b c : State} (h : Burnt a b) (k : Burnt b c) : Burnt a c where
  retired g x := k.retired g (h.retired g x)
  zcount := Nat.le_trans h.zcount k.zcount
  returned x := k.returned (h.returned x)
  fused i x := by
    obtain ⟨h1, h2⟩ := h.fused i x
    obtain ⟨k1, k2⟩ := k.fused i h1
    exact ⟨k1, k2.trans h2⟩
  revoked i x := k.revoked i (h.revoked i x)
  minSvn i := Nat.le_trans (h.minSvn i) (k.minSvn i)

theorem Kept.refl (s : State) : Kept cold s s := ⟨rfl, .inl rfl, burnt_refl s, id⟩

theorem Kept.trans {a b c : State} (h : Kept cold a b) (k : Kept cold b c) : Kept cold a c where
  pending := k.pending.trans h.pending
  clock := by
    rcases k.clock with e | e
    · rcases h.clock with f | f
      · exact .inl (e.trans f)
      · exact .inr ⟨f.1, e.trans f.2⟩
    · exact .inr e
  burnt := burnt_trans h.burnt k.burnt
  live x := k.live (h.live x)

theorem fixed_ext {s t : State} (h : t.fixed = s.fixed) :
    t.pending = s.pending ∧ t.pkg.pkc = s.pkg.pkc ∧ t.sec.retired = s.sec.retired ∧ t.sec.zcount = s.sec.zcount ∧
    t.sec.lifecycle = s.sec.lifecycle ∧ t.sec.authors = s.sec.authors ∧ t.sec.current = s.sec.current := by
  have e : Fixed.mk t.pending t.pkg.pkc t.sec.retired t.sec.zcount t.sec.lifecycle t.sec.authors t.sec.current =
    Fixed.mk s.pending s.pkg.pkc s.sec.retired s.sec.zcount s.sec.lifecycle s.sec.authors s.sec.current := h
  simpa only [Fixed.mk.injEq] using e

theorem Kept.of_fixed {s t : State} (h : t.fixed = s.fixed) : Kept cold s t := by
  obtain ⟨h1, h2, h3, h4, h5, h6, h7⟩ := fixed_ext h
  refine ⟨h1, .inl h2, ⟨?_, ?_, ?_, ?_, ?_, ?_⟩, ?_⟩ <;> simp [GenerationLive, State.author, h3, h4, h5, h6, h7]

theorem Kept.then_fixed {s t u : State} (h : Kept cold s t) (e : u.fixed = t.fixed) : Kept cold s u := h.trans (.of_fixed e)

theorem bitAt_eq (n i : Nat) : bitAt n i = n.testBit i := by
  simp [bitAt, Nat.testBit_eq_decide_div_mod_eq, beq_eq_decide]

theorem bitAt_or (a b i : Nat) : bitAt (a ||| b) i = (bitAt a i || bitAt b i) := by simp [bitAt_eq]

theorem lowestUnretired_live (r : Nat) : bitAt r (lowestUnretired r) = false ∨ ∀ g < 16, bitAt r g = true := by
  unfold lowestUnretired
  cases h : (List.range 16).find? fun g => !bitAt r g with
  | some g => left; simpa using List.find?_some h
  | none =>
    right; intro g hg
    simpa using List.find?_eq_none.1 h g (List.mem_range.2 hg)

theorem all_retired {r : Nat} (h : r % 2 ^ 16 = 0xFFFF) : ∀ g < 16, bitAt r g = true := by
  intro g hg
  rw [bitAt_eq]
  have : (r % 2 ^ 16).testBit g = true := by
    rw [h]; interval_cases g <;> decide
  rw [Nat.testBit_mod_two_pow] at this
  simpa [hg] using this

theorem State.coldReset_kept (s : State) (k : Bool) : Kept True s (s.coldReset k) := by
  refine ⟨rfl, .inr ⟨trivial, rfl⟩, ⟨fun _ h => h, Nat.le_refl _, fun h => h, fun _ h => ⟨h, rfl⟩, fun _ h => h, fun _ => Nat.le_refl _⟩, ?_⟩
  intro _; exact lowestUnretired_live _

theorem State.zeroizeKeys_kept (s : State) : Kept cold s s.zeroizeKeys := by
  unfold State.zeroizeKeys
  have e : ((List.range 48).foldl (fun (t : State) p => if (t.port p).cipher then t.portFail p else t) s).fixed = s.fixed :=
    foldl_fixed _ (by intro t x; split <;> simp) _ _
  generalize (List.range 48).foldl (fun (t : State) p => if (t.port p).cipher then t.portFail p else t) s = t at e
  refine (Kept.of_fixed e).trans ?_
  dsimp only
  refine ⟨rfl, .inl rfl, ⟨?_, ?_, ?_, fun _ h => ⟨h, rfl⟩, fun _ h => h, fun _ => Nat.le_refl _⟩, ?_⟩
  · intro g h; simp [bitAt_or, h]
  · dsimp only; split <;> omega
  · intro h; dsimp only; split
    · rfl
    · exact h
  · intro _; exact lowestUnretired_live _

theorem State.zeroize_kept (s : State) : Kept cold s s.zeroize := by
  unfold State.zeroize; dsimp only
  refine Kept.trans (b := { s with sec := { s.sec with zeroizePending := true, armed := none, armedPldm := none } })
    (.of_fixed rfl) ?_
  split
  · exact Kept.refl _
  · exact (State.zeroizeKeys_kept _).then_fixed (by simp)

theorem State.powerOn_kept (s : State) : Kept cold s s.powerOn := by
  unfold State.powerOn; split
  · exact Kept.refl _
  · dsimp only
    refine Kept.trans (.of_fixed (t := ((State.powerDies { s with pkg := { s.pkg with
      conversion := true, coldPending := false, pcieLocked := s.pkg.refclk } } (List.range 20)).bootRom
        (bitAt s.pkg.straps.toNat 0))) (by simp)) ?_
    split
    · exact (State.zeroizeKeys_kept _).then_fixed (by simp)
    · exact Kept.refl _

theorem State.powerLost_kept (s : State) : Kept True s s.powerLost := by
  unfold State.powerLost; split
  · exact State.coldReset_kept _ _
  · exact Kept.refl _

theorem Kept.powerOn {s b : State} (h : Kept cold s b) : Kept cold s b.powerOn := h.trans (State.powerOn_kept b)

theorem Kept.powerLost {s b : State} (h : Kept True s b) : Kept True s b.powerLost := h.trans (State.powerLost_kept b)

theorem State.zeroizeCode_kept (s : State) (v : Nat) : Kept cold s (s.zeroizeCode v) := by
  unfold State.zeroizeCode; split
  · exact .of_fixed rfl
  · split
    · exact State.zeroize_kept _
    · exact Kept.refl _

theorem State.writeAt_kept (s : State) (r : Reg) (u i fn off v : Nat) : Kept cold s (s.writeAt r u i fn off v) := by
  unfold State.writeAt; split
  case h_11 => exact State.zeroizeCode_kept _ _
  case h_12 => exact .of_fixed (by
    split
    · rfl
    · split
      · simp
      · split
        · simp
        · split
          · rename_i h; exact State.qosWrite_fixed _ _ _ _ _ h
          · simp)
  all_goals first
  | exact .of_fixed (by simp)
  | (split <;> exact .of_fixed (by simp))

theorem State.writeReg_kept (s : State) (fn off v : Nat) : Kept cold s (s.writeReg fn off v) := by
  unfold State.writeReg; split
  · exact .of_fixed (by simp)
  · repeat' split
    all_goals first
    | exact .of_fixed (by simp)
    | exact Kept.refl _
    | exact State.writeAt_kept _ _ _ _ _ _ _
    | exact (Kept.of_fixed (by simp)).trans (State.writeAt_kept _ _ _ _ _ _ _)

theorem State.writeRegs_kept (s : State) (fn off : Nat) (l : List Nat) : Kept cold s (s.writeRegs fn off l) := by
  induction l generalizing s off with
  | nil => exact Kept.refl _
  | cons v l ih => exact (State.writeReg_kept _ _ _ _).trans (ih _ _)

theorem State.portBit_kept (s : State) (fn p bit : Nat) : Kept cold s (s.portBit fn p bit) := by
  unfold State.portBit; split
  · exact Kept.refl _
  · exact State.writeReg_kept _ _ _ _

theorem tabGet_tabPut_same {α : Type} (t : Tab α) (k : Nat) (v : α) : tabGet (tabPut t k v) k = some v := by
  induction t with
  | nil => simp [tabPut, tabGet]
  | cons x t ih =>
    obtain ⟨a, w⟩ := x
    simp only [tabPut]
    split
    · simp [tabGet]
    · split
      · simp [tabGet]
      · rename_i h1 h2
        simp [tabGet, ih, show a ≠ k from fun e => h2 e.symm]

theorem tabGet_tabPut_ne {α : Type} (t : Tab α) (k j : Nat) (v : α) (h : j ≠ k) : tabGet (tabPut t k v) j = tabGet t j := by
  induction t with
  | nil => simp [tabPut, tabGet, h.symm]
  | cons x t ih =>
    obtain ⟨a, w⟩ := x
    simp only [tabPut]
    split
    · simp [tabGet, h.symm]
    · split
      · rename_i h1 h2; subst h2; simp [tabGet, h.symm]
      · simp only [tabGet, ih]

/-- One author slot replaced by one that has at least its fuses. -/
theorem author_kept (s : State) (k : Nat) (a : Author)
    (h1 : (s.author k).fused = true → a.fused = true ∧ a.keyHash = (s.author k).keyHash)
    (h2 : (s.author k).revoked = true → a.revoked = true) (h3 : (s.author k).minSvn ≤ a.minSvn) :
    Kept cold s { s with sec := { s.sec with authors := tabPut s.sec.authors k a } } := by
  have same : State.author { s with sec := { s.sec with authors := tabPut s.sec.authors k a } } k = a := by
    simp [State.author, tabGetD, tabGet_tabPut_same]
  have other : ∀ j, j ≠ k → State.author { s with sec := { s.sec with authors := tabPut s.sec.authors k a } } j = s.author j := by
    intro j hj; simp [State.author, tabGetD, tabGet_tabPut_ne _ _ _ _ hj]
  refine ⟨rfl, .inl rfl, ⟨fun _ h => h, Nat.le_refl _, fun h => h, ?_, ?_, ?_⟩, id⟩
  · intro j hj
    by_cases e : j = k
    · subst e; rw [same]; exact h1 hj
    · rw [other j e]; exact ⟨hj, rfl⟩
  · intro j hj
    by_cases e : j = k
    · subst e; rw [same]; exact h2 hj
    · rw [other j e]; exact hj
  · intro j
    by_cases e : j = k
    · subst e; rw [same]; exact h3
    · rw [other j e]

theorem State.raiseSvn_kept (s : State) (i : Image) : Kept cold s (s.raiseSvn i) := by
  unfold State.raiseSvn; split
  · exact Kept.refl _
  · exact author_kept _ _ _ (fun h => ⟨h, rfl⟩) id (Nat.le_max_left _ _)

theorem State.install_kept (s : State) (i : Image) (ns : List Nat) (o : State) : Kept cold s (s.install i ns o) := by
  unfold State.install; dsimp only
  refine Kept.then_fixed (e := (State.genUp_fixed _).trans ((foldl_fixed _ (by intro t x; simp) _ _).trans (State.newPorts_fixed _))) ?_
  exact (Kept.of_fixed (by simp)).trans (State.raiseSvn_kept _ _)

theorem State.installFirst_kept (s : State) (i : Image) : Kept cold s (s.installFirst i) := by
  unfold State.installFirst; dsimp only
  exact (Kept.of_fixed (by simp)).trans (State.install_kept _ _ _ _)

/-- What an answer of a host command's own meaning leaves. -/
def Reply.kept (cold : Prop) (s : State) : Reply → Prop
  | .reject _ _ _ => True
  | .done t _ _ => Kept cold s t
  | .later t => Kept cold s t

theorem hostCmd_kept {c : CmdSpec} {h : Hdr} {body : State → Tag → Reply} {s t : State}
    (hb : ∀ u g, (body u g).kept cold u) (e : hostCmd c h body s = .next t) : Kept cold s t := by
  unfold hostCmd at e
  dsimp only at e
  split at e
  · cases e; exact Kept.refl _
  · split at e
    · cases e; exact .of_fixed (by simp)
    · split at e
      · cases e; exact Kept.refl _
      · have k := hb (s.fetch h).1 (s.fetch h).2
        split at e
        · cases e; exact .of_fixed (by simp)
        · rename_i hr; cases e; rw [hr] at k
          exact (Kept.of_fixed (by simp)).trans (k.then_fixed (by simp))
        · rename_i hr; cases e; rw [hr] at k
          exact (Kept.of_fixed (by simp)).trans k

theorem checked_kept {s : State} (l : List (Bool × Nat)) (r : Reply) (h : firstFail l = none → r.kept cold s) : (checked l r).kept cold s := by
  unfold checked; split
  · trivial
  · exact h (by assumption)

/-! ### Commands -/

theorem execAqCfgWrite_kept (fn target : BitVec 6) (value : U32) (s : State) {z : State} (hz : execAqCfgWrite fn target value s = .next z) : Kept cold s z := by
  cases hz; exact State.writeReg_kept _ _ _ _

theorem execErrlogCtrlConsume_kept (fn : BitVec 6) (value : U32) (s : State) {z : State} (hz : execErrlogCtrlConsume fn value s = .next z) : Kept cold s z := by
  cases hz; exact State.writeReg_kept _ _ _ _

theorem execEvcSelWrite_kept (fn slice : BitVec 6) (counter : BitVec 4) (value : U32) (s : State) {z : State} (hz : execEvcSelWrite fn slice counter value s = .next z) : Kept cold s z := by
  cases hz; exact State.writeReg_kept _ _ _ _

theorem execHiWriteCommit_kept (fn : BitVec 6) (off : BitVec 26) (value : U32) (s : State) {z : State} (hz : execHiWriteCommit fn off value s = .next z) : Kept cold s z := by
  cases hz; exact State.writeReg_kept _ _ _ _

theorem execMtrSelWrite_kept (fn slice entry : BitVec 6) (value : U32) (s : State) {z : State} (hz : execMtrSelWrite fn slice entry value s = .next z) : Kept cold s z := by
  cases hz; exact State.writeReg_kept _ _ _ _

theorem execRstCtrlPkgReset_kept (fn : BitVec 6) (value : U32) (s : State) {z : State} (hz : execRstCtrlPkgReset fn value s = .next z) : Kept cold s z := by
  cases hz; exact State.writeReg_kept _ _ _ _

theorem execThermCtrlShutdown_kept (fn : BitVec 6) (value : U32) (s : State) {z : State} (hz : execThermCtrlShutdown fn value s = .next z) : Kept cold s z := by
  cases hz; exact State.writeReg_kept _ _ _ _

theorem execPortCtrlDisable_kept (fn port : BitVec 6) (s : State) {z : State} (hz : execPortCtrlDisable fn port s = .next z) : Kept cold s z := by
  cases hz; exact State.portBit_kept _ _ _ _

theorem execPortCtrlRekey_kept (fn port : BitVec 6) (s : State) {z : State} (hz : execPortCtrlRekey fn port s = .next z) : Kept cold s z := by
  cases hz; exact State.portBit_kept _ _ _ _

theorem execPortCtrlRetrain_kept (fn port : BitVec 6) (s : State) {z : State} (hz : execPortCtrlRetrain fn port s = .next z) : Kept cold s z := by
  cases hz; exact State.portBit_kept _ _ _ _

theorem execRegCfgWrite_kept (fn slice : BitVec 6) (reg : BitVec 4) (value : U32) (s : State) {z : State} (hz : execRegCfgWrite fn slice reg value s = .next z) : Kept cold s z := by
  unfold execRegCfgWrite at hz; dsimp only at hz; split at hz <;> cases hz
  · exact Kept.refl _
  · exact State.writeReg_kept _ _ _ _

theorem execRegisterWrite_kept (fn : BitVec 6) (off : BitVec 26) (data : Bytes) (s : State) {z : State} (hz : execRegisterWrite fn off data s = .next z) : Kept cold s z := by
  unfold execRegisterWrite at hz; split at hz <;> cases hz
  · exact .of_fixed (by simp)
  · exact State.writeRegs_kept _ _ _ _

theorem execBootImageLoad_kept (s : State) {z : State} (hz : execBootImageLoad s = .next z) : Kept cold s z := by
  unfold execBootImageLoad at hz; dsimp only at hz; split at hz
  · cases hz; exact Kept.refl _
  · cases hz
    refine Kept.then_fixed (e := State.trialDone_fixed _) ?_
    split
    · exact Kept.trans (.of_fixed (by simp)) (State.installFirst_kept _ _)
    · exact .of_fixed (by simp)

theorem execImageCommit_kept (s : State) {z : State} (hz : execImageCommit s = .next z) : Kept cold s z := by
  unfold execImageCommit at hz; split at hz
  · cases hz; exact Kept.refl _
  · cases hz
    refine Kept.then_fixed (e := (State.completeOpt_fixed _ _ _ _).trans (State.lastErr_fixed _ _)) ?_
    split
    · exact State.installFirst_kept _ _
    · exact (Kept.of_fixed (foldl_fixed _ (by intro t x; simp) _ _)).trans (State.install_kept _ _ _ _)

theorem execEnrolAuthor_kept (h : Hdr) (tokenAddr : U64) (s : State) {z : State} (hz : execEnrolAuthor h tokenAddr s = .next z) : Kept cold s z := by
  unfold execEnrolAuthor at hz; split at hz
  · cases hz; exact Kept.refl _
  · refine hostCmd_kept ?_ hz; intro u g
    refine checked_kept _ _ fun _ => ?_
    split
    · trivial
    · split
      · trivial
      · split
        · trivial
        · rename_i k hk
          have h := List.find?_some hk
          simp only [Bool.and_eq_true, Bool.not_eq_true'] at h
          exact author_kept _ _ _ (by simp [h.1]) (by simp [h.2]) (Nat.le_refl _)

theorem execRevokeAuthor_kept (h : Hdr) (slot : U32) (s : State) {z : State} (hz : execRevokeAuthor h slot s = .next z) : Kept cold s z := by
  unfold execRevokeAuthor at hz
  refine hostCmd_kept ?_ hz; intro u g
  exact checked_kept _ _ fun _ => author_kept _ _ _ (fun h => ⟨h, rfl⟩) (fun _ => rfl) (Nat.le_refl _)

theorem execKeygenAdvance_kept (h : Hdr) (s : State) {z : State} (hz : execKeygenAdvance h s = .next z) : Kept cold s z := by
  unfold execKeygenAdvance at hz; split at hz
  · cases hz; exact Kept.refl _
  · refine hostCmd_kept ?_ hz; intro u g
    refine checked_kept _ _ fun h => ?_
    have hn : u.nextGen.isSome = true := by
      cases e : u.nextGen with
      | some k => rfl
      | none => simp [firstFail, e] at h; split at h <;> cases h
    obtain ⟨k, e⟩ := Option.isSome_iff_exists.1 hn
    refine Kept.then_fixed (e := State.keygenChanged_fixed _) ?_
    refine ⟨rfl, .inl rfl, ⟨fun _ h => h, Nat.le_refl _, fun h => h, fun _ h => ⟨h, rfl⟩, fun _ h => h, fun _ => Nat.le_refl _⟩, ?_⟩
    intro _; left
    have := List.find?_some e
    simp only [Bool.and_eq_true, Bool.not_eq_true'] at this
    simpa [e] using this.2

theorem execGenRetire_kept (h : Hdr) (gen : U32) (s : State) {z : State} (hz : execGenRetire h gen s = .next z) : Kept cold s z := by
  unfold execGenRetire at hz; split at hz
  · cases hz; exact Kept.refl _
  · refine hostCmd_kept ?_ hz; intro u g
    refine checked_kept _ _ fun h => ?_
    have hc : gen.toNat ≠ u.sec.current := by
      intro e; simp [firstFail, e] at h; (repeat' split at h) <;> cases h
    refine Kept.then_fixed (e := State.keygenChanged_fixed _) ?_
    refine ⟨rfl, .inl rfl, ⟨fun k hk => by simp [bitAt_or, hk], Nat.le_refl _, fun h => h, fun _ h => ⟨h, rfl⟩, fun _ h => h,
      fun _ => Nat.le_refl _⟩, ?_⟩
    rintro (hl | hl)
    · left
      simp only [bitAt_or, hl, Bool.false_or]
      simp only [bitAt_eq, Nat.testBit_two_pow]
      simpa using hc
    · right; intro k hk; simp [bitAt_or, hl k hk]

theorem execZeroize_kept (h : Hdr) (s : State) {z : State} (hz : execZeroize h s = .next z) : Kept cold s z := by
  refine hostCmd_kept ?_ hz; intro u g; exact State.zeroize_kept u

theorem execZeroizeFire_kept (fn : BitVec 6) (s : State) {z : State} (hz : execZeroizeFire fn s = .next z) : Kept cold s z := by
  cases hz; unfold State.zeroizeWrite; split
  · split
    · exact State.zeroize_kept _
    · exact Kept.refl _
  · exact .of_fixed (by simp)

theorem execPldmZeroizeFire_kept (s : State) {z : State} (hz : execPldmZeroizeFire s = .next z) : Kept cold s z := by
  cases hz; split
  · exact (Kept.of_fixed (by simp)).trans (State.zeroize_kept _)
  · exact .of_fixed (by simp)

theorem execVaux12Applied_kept (s : State) {z : State} (hz : execVaux12Applied s = .next z) : Kept True s z := by
  unfold execVaux12Applied at hz; split at hz
  · cases hz; exact Kept.refl _
  · cases hz
    exact Kept.powerOn ((State.coldReset_kept s false).trans (.of_fixed rfl))

theorem execVin48Applied_kept (s : State) {z : State} (hz : execVin48Applied s = .next z) : Kept cold s z := by
  cases hz; exact Kept.powerOn (.of_fixed rfl)

theorem execPwrgoodAssert_kept (straps : U8) (s : State) {z : State} (hz : execPwrgoodAssert straps s = .next z) : Kept cold s z := by
  unfold execPwrgoodAssert at hz; split at hz
  · cases hz; exact Kept.refl _
  · cases hz; exact Kept.powerOn (.of_fixed rfl)

theorem execPwrgoodDeassert_kept (s : State) {z : State} (hz : execPwrgoodDeassert s = .next z) : Kept True s z := by
  cases hz; exact Kept.powerLost (.of_fixed rfl)

theorem execVin48OutOfRange_kept (s : State) {z : State} (hz : execVin48OutOfRange s = .next z) : Kept True s z := by
  cases hz; exact Kept.powerLost (.of_fixed rfl)

theorem execVio18Low_kept (s : State) {z : State} (hz : execVio18Low s = .next z) : Kept True s z := by
  cases hz; exact Kept.powerLost (.of_fixed rfl)

theorem execVaux12Removed_kept (s : State) {z : State} (hz : execVaux12Removed s = .next z) : Kept True s z := by
  unfold execVaux12Removed at hz; split at hz
  · cases hz; exact Kept.refl _
  · cases hz; exact (State.coldReset_kept _ _).trans (Kept.of_fixed rfl)

theorem execVio18Restored_kept (s : State) {z : State} (hz : execVio18Restored s = .next z) : Kept cold s z := by
  unfold execVio18Restored at hz; split at hz
  · cases hz; exact Kept.powerOn (.of_fixed rfl)
  · cases hz; exact Kept.refl _

end Sys2Proof.Machine
end

