-- ==== Sys2Proof/Laws/Commands.lean ====
section
/-! SUPPORT. How a host command and a request of the link protocol end: one lemma per way. -/

namespace Sys2Proof.Machine

/-! ### Host commands -/

theorem hostCmd_done {c : CmdSpec} {h : Hdr} {body : State → Tag → Reply} {s u : State} {st : Nat} {r : List (Nat × Nat)}
    (ha : Accepts c h s) (hb : body (Fetched h s) (TagOf h s) = .done u st r) :
    hostCmd c h body s = .next (Ended u (TagOf h s) st r) := by
  obtain ⟨h1, h2, h3⟩ := ha
  unfold hostCmd; simp only [h1, not_true_eq_false, if_false, h2, h3, Bool.false_eq_true]
  simp only [Fetched, TagOf] at hb; rw [hb]; rfl

theorem hostCmd_later {c : CmdSpec} {h : Hdr} {body : State → Tag → Reply} {s u : State}
    (ha : Accepts c h s) (hb : body (Fetched h s) (TagOf h s) = .later u) : hostCmd c h body s = .next u := by
  obtain ⟨h1, h2, h3⟩ := ha
  unfold hostCmd; simp only [h1, not_true_eq_false, if_false, h2, h3, Bool.false_eq_true]
  simp only [Fetched, TagOf] at hb; rw [hb]

theorem hostCmd_reject {c : CmdSpec} {h : Hdr} {body : State → Tag → Reply} {s : State} {code info : Nat} {r : List (Nat × Nat)}
    (ha : Accepts c h s) (hb : body (Fetched h s) (TagOf h s) = .reject code info r) :
    hostCmd c h body s = .next ((Fetched h s).reject (TagOf h s) code info r) := by
  obtain ⟨h1, h2, h3⟩ := ha
  unfold hostCmd; simp only [h1, not_true_eq_false, if_false, h2, h3, Bool.false_eq_true]
  simp only [Fetched, TagOf] at hb; rw [hb]; rfl

theorem hostCmd_fails {c : CmdSpec} {h : Hdr} {body : State → Tag → Reply} {s : State} {code info : Nat}
    (ha : Fails c h s code info) : hostCmd c h body s = .next ((Fetched h s).reject (TagOf h s) code info []) := by
  obtain ⟨h1, h2⟩ := ha
  unfold hostCmd; simp only [h1, not_true_eq_false, if_false, h2]; rfl

theorem hostCmd_waits {c : CmdSpec} {h : Hdr} {body : State → Tag → Reply} {s : State} (h1 : s.fetchable h = true)
    (h2 : (s.fetch h).1.generalCheck c h = none) (h3 : s.entryWaits c.entry = true) : hostCmd c h body s = .next s := by
  unfold hostCmd; simp [h1, h2, h3]

theorem hostCmd_idle {c : CmdSpec} {h : Hdr} {body : State → Tag → Reply} {s : State} (hf : s.fetchable h = false) :
    hostCmd c h body s = .next s := by
  unfold hostCmd; simp [hf]

theorem checked_ok {l : List (Bool × Nat)} {r : Reply} (h : firstFail l = none) : checked l r = r := by simp [checked, h]

theorem checked_bad {l : List (Bool × Nat)} {r : Reply} {code : Nat} (h : firstFail l = some code) : checked l r = .reject code := by
  simp [checked, h]

/-- A host command always answers a next state. -/
theorem hostCmd_answers (c : CmdSpec) (h : Hdr) (body : State → Tag → Reply) (s : State) : ∃ t, hostCmd c h body s = .next t := by
  unfold hostCmd; dsimp only; (repeat' split) <;> exact ⟨_, rfl⟩

end Sys2Proof.Machine

namespace Sys2Proof.Machine

theorem withIndex_ok {r : Except Nat Nat} {i : Nat} {k : Nat → Reply} (h : r = .ok i) : withIndex r k = k i := by
  subst h; rfl

theorem inSlice_ok {s : State} {sl : Nat} {r : Reply} (h : s.defined sl = true) : s.inSlice sl r = r := by
  simp [State.inSlice, h]

/-- A table's frame comes out of the memory alone. -/
theorem State.takeTables_mem (sl : Nat) (l : List (Nat × Nat)) : ∀ {s z : State}, s.takeTables sl l = some z →
    z = { s with mem := z.mem } := by
  induction l with
  | nil => intro s z h; cases h; rfl
  | cons y ys ih =>
    intro s z h
    simp only [State.takeTables] at h
    split at h
    · exact ih h
    · obtain ⟨a, ha, hz⟩ := Option.bind_eq_some_iff.1 h
      obtain ⟨n, hn, e⟩ := List.exists_of_findSome?_eq_some ha
      obtain ⟨pa, _, e⟩ := Option.map_eq_some_iff.1 e
      have q := ih hz
      rw [← e] at q
      exact q

theorem State.freeAt_mem (s : State) (pa : Nat) : s.freeAt pa = { s with mem := (s.freeAt pa).mem } := by
  unfold State.freeAt; split <;> rfl

theorem State.freeAll_mem (l : List PtTable) : ∀ s : State,
    l.foldl (fun u t => u.freeAt t.pa) s = { s with mem := (l.foldl (fun u t => u.freeAt t.pa) s).mem } := by
  induction l with
  | nil => intro s; rfl
  | cons y ys ih =>
    intro s
    simp only [List.foldl_cons]
    have q := ih (s.freeAt y.pa)
    generalize List.foldl (fun u t => u.freeAt t.pa) (s.freeAt y.pa) ys = w at q
    rw [State.freeAt_mem s] at q
    exact q

/-- Setting the tables of a slice right changes the memory's own state and nothing else. -/
theorem State.remap_mem {s z : State} {sl : Nat} (h : s.remap sl = some z) : z = { s with mem := z.mem } := by
  obtain ⟨a, ha, e⟩ := Option.map_eq_some_iff.1 h
  have q := State.takeTables_mem _ _ ha
  subst e
  generalize hz : (a.dropUnneeded sl).invalidate sl = z
  unfold State.invalidate State.dropUnneeded at hz
  simp only [] at hz
  generalize hl : List.filter (fun t => t.slice == sl && !(a.tablesNeeded sl).contains (t.level, t.number)) a.mem.tables = l at hz
  have r := State.freeAll_mem l { a with mem := { a.mem with tables := a.mem.tables.filter fun t => !l.contains t } }
  generalize List.foldl (fun u t => u.freeAt t.pa)
    { a with mem := { a.mem with tables := a.mem.tables.filter fun t => !l.contains t } } l = w at hz r
  subst hz
  rw [r, q]

theorem State.freeAt_objects (s : State) (pa : Nat) : (s.freeAt pa).mem.objects = s.mem.objects := by
  unfold State.freeAt; split <;> rfl

theorem State.unmapped_objects (s : State) (sl : Nat) : (s.unmapped sl).mem.objects = s.mem.objects := by
  have h : ∀ (l : List PtTable) (t : State), (l.foldl (fun u t => u.freeAt t.pa) t).mem.objects = t.mem.objects := by
    intro l
    induction l with
    | nil => intro t; rfl
    | cons y ys ih => intro t; rw [List.foldl_cons, ih]; exact State.freeAt_objects t y.pa
  exact h _ _

@[simp] theorem tabGet_tabDel_same {α : Type} (t : Tab α) (k : Nat) : tabGet (tabDel t k) k = none := by
  induction t with
  | nil => rfl
  | cons x t ih => by_cases h : x.1 = k <;> simp [tabDel, tabGet, h, ih]

theorem tabGet_tabDel_ne {α : Type} (t : Tab α) (k j : Nat) (hj : j ≠ k) : tabGet (tabDel t k) j = tabGet t j := by
  induction t with
  | nil => rfl
  | cons x t ih => by_cases h : x.1 = k <;> simp [tabDel, tabGet, h, ih, hj.symm]

@[simp] theorem tabGetD_tabPut_same {α : Type} (t : Tab α) (d v : α) (k : Nat) : tabGetD (tabPut t k v) d k = v := by
  simp [tabGetD, tabGet_tabPut_same]

theorem tabGetD_tabPut_ne {α : Type} (t : Tab α) (d v : α) (k j : Nat) (h : j ≠ k) : tabGetD (tabPut t k v) d j = tabGetD t d j := by
  simp [tabGetD, tabGet_tabPut_ne _ _ _ _ h]

@[simp] theorem State.setD_d_same (s : State) (i : Nat) (x : Desc) : (s.setD i x).d i = x := by
  simp [State.setD, State.d]

theorem State.setD_d_ne (s : State) (i j : Nat) (x : Desc) (h : j ≠ i) : (s.setD i x).d j = s.d j := by
  simp [State.setD, State.d, tabGetD_tabPut_ne _ _ _ _ _ h]

@[simp] theorem State.setAx_ax_same (s : State) (i : Nat) (x : DescAux) : (s.setAx i x).ax i = x := by
  simp [State.setAx, State.ax]

@[simp] theorem State.setAx_d (s : State) (i j : Nat) (x : DescAux) : (s.setAx i x).d j = s.d j := rfl
@[simp] theorem State.setD_ax (s : State) (i j : Nat) (x : Desc) : (s.setD i x).ax j = s.ax j := rfl
@[simp] theorem State.setKv_d (s : State) (i j : Nat) (x : SessKv) : (s.setKv i x).d j = s.d j := rfl
@[simp] theorem State.setKv_kvOf_same (s : State) (i : Nat) (x : SessKv) : (s.setKv i x).kvOf i = x := by
  simp [State.setKv, State.kvOf]
@[simp] theorem State.setD_kvOf (s : State) (i j : Nat) (x : Desc) : (s.setD i x).kvOf j = s.kvOf j := rfl

end Sys2Proof.Machine

namespace Sys2Proof
open Machine

namespace Machine

theorem serve_ok {s : State} {r : Rule} (h : Admits r.t r.type r.op r.len r.exempt r.holds s) :
    s.serve r = (Requested r.t r.type r.op r.len s).execute r := by
  obtain ⟨h1, h2, h3, h4⟩ := h
  unfold State.serve
  rw [if_neg (by rw [h1]; decide)]
  dsimp only
  rw [h2, if_neg (by decide), h3]
  show State.judge (Requested r.t r.type r.op r.len s) r false = _
  unfold State.judge
  dsimp only
  rcases h4 with e | ⟨a, b, c⟩
  · rw [if_pos e]
  · rw [c]
    have q : ¬ ((State.member (Requested r.t r.type r.op r.len s) r.t.src.toNat).isNone = true ∨
        r.t.slice.toNat < 64 ∧ ¬ State.joined (Requested r.t r.type r.op r.len s) r.t.slice.toNat = true) := by
      rintro (e | ⟨e, e'⟩)
      · simp at e; exact a e
      · rcases b with b | b
        · omega
        · exact e' b
    by_cases e : r.exempt = true
    · rw [if_pos e]
    · rw [if_neg e, if_neg q]; rfl

theorem execute_ok {u : State} {r : Rule} (h : (r.eff u).2.reply = true) :
    u.execute r = Replied r.t r.type (r.eff u).1 (r.eff u).2 := by
  unfold State.execute; dsimp only; rw [if_pos h]; rfl

end Machine
end Sys2Proof
end

