-- ==== Sys2Proof/Laws/Memory.lean ====
section
/-! SUPPORT. Byte memories: every operation keeps the canonical form, a read after a write gives what was written, and other bytes stay. -/

namespace Sys2Proof.Machine

theorem memGet_nil (a : Nat) : memGet [] a = 0 := rfl

theorem memGet_cons (k : Nat) (v : U8) (m : Mem) (a : Nat) : memGet ((k, v) :: m) a = if k = a then v else memGet m a := by
  unfold memGet tabGetD; simp only [tabGet]; split <;> rfl

/-- The canonical form, entry by entry: no zero byte, and every later address above. -/
theorem wf_cons (a : Nat) (b : U8) (m : Mem) : Mem.wf ((a, b) :: m) = true ↔ b ≠ 0 ∧ Mem.wf m = true ∧ ∀ c ∈ m, a < c.1 := by
  induction m generalizing a b with
  | nil => simp [Mem.wf]
  | cons x m ih =>
    obtain ⟨k, v⟩ := x
    rw [show Mem.wf ((a, b) :: (k, v) :: m) = (b != 0 && decide (a < k) && Mem.wf ((k, v) :: m)) from rfl, Bool.and_eq_true,
      Bool.and_eq_true]
    constructor
    · rintro ⟨⟨h1, h2⟩, h3⟩
      have h2 : a < k := by simpa using h2
      refine ⟨by simpa using h1, h3, ?_⟩
      intro c hc
      rcases List.mem_cons.1 hc with e | e
      · subst e; exact h2
      · exact Nat.lt_trans h2 (((ih k v).1 h3).2.2 c e)
    · rintro ⟨h1, h2, h3⟩
      exact ⟨⟨by simpa using h1, by simpa using h3 (k, v) (List.mem_cons_self ..)⟩, h2⟩

theorem mem_tabDel {α : Type} {t : Tab α} {i : Nat} {c : Nat × α} (h : c ∈ tabDel t i) : c ∈ t := by
  induction t with
  | nil => cases h
  | cons x t ih =>
    obtain ⟨k, w⟩ := x
    simp only [tabDel] at h
    split at h
    · exact List.mem_cons_of_mem _ (ih h)
    · rcases List.mem_cons.1 h with e | e
      · subst e; exact List.mem_cons_self ..
      · exact List.mem_cons_of_mem _ (ih e)

theorem mem_tabPut {α : Type} {t : Tab α} {i : Nat} {v : α} {c : Nat × α} (h : c ∈ tabPut t i v) : c = (i, v) ∨ c ∈ t := by
  induction t with
  | nil => exact .inl (by simpa [tabPut] using h)
  | cons x t ih =>
    obtain ⟨k, w⟩ := x
    simp only [tabPut] at h
    split at h
    · rcases List.mem_cons.1 h with e | e
      · exact .inl e
      · exact .inr e
    · split at h
      · rcases List.mem_cons.1 h with e | e
        · exact .inl e
        · exact .inr (List.mem_cons_of_mem _ e)
      · rcases List.mem_cons.1 h with e | e
        · exact .inr (e ▸ List.mem_cons_self ..)
        · rcases ih e with g | g
          · exact .inl g
          · exact .inr (List.mem_cons_of_mem _ g)

theorem tabDel_wf {m : Mem} (i : Nat) (h : Mem.wf m = true) : Mem.wf (tabDel m i) = true := by
  induction m with
  | nil => rfl
  | cons x m ih =>
    obtain ⟨k, w⟩ := x
    obtain ⟨h1, h2, h3⟩ := (wf_cons k w m).1 h
    simp only [tabDel]
    split
    · exact ih h2
    · exact (wf_cons ..).2 ⟨h1, ih h2, fun c hc => h3 c (mem_tabDel hc)⟩

theorem tabPut_wf {m : Mem} (i : Nat) {v : U8} (hv : v ≠ 0) (h : Mem.wf m = true) : Mem.wf (tabPut m i v) = true := by
  induction m with
  | nil => exact (wf_cons ..).2 ⟨hv, rfl, by simp⟩
  | cons x m ih =>
    obtain ⟨k, w⟩ := x
    obtain ⟨h1, h2, h3⟩ := (wf_cons k w m).1 h
    simp only [tabPut]
    split
    · next e => exact (wf_cons ..).2 ⟨hv, h, fun c hc => by
        rcases List.mem_cons.1 hc with g | g
        · subst g; exact e
        · exact Nat.lt_trans e (h3 c g)⟩
    · split
      · next e => subst e; exact (wf_cons ..).2 ⟨hv, h2, h3⟩
      · next e e' => exact (wf_cons ..).2 ⟨h1, ih h2, fun c hc => by
          rcases mem_tabPut hc with g | g
          · subst g; show k < i; omega
          · exact h3 c g⟩

/-- Writing one byte keeps the canonical form. -/
theorem memPut_wf {m : Mem} (a : Nat) (b : U8) (h : Mem.wf m = true) : Mem.wf (memPut m a b) = true := by
  unfold memPut; split
  · exact tabDel_wf a h
  · next e => exact tabPut_wf a e h

/-- Writing bytes keeps the canonical form. -/
theorem memWrite_wf {m : Mem} (a : Nat) (b : Bytes) (h : Mem.wf m = true) : Mem.wf (memWrite m a b) = true := by
  induction b generalizing m a with
  | nil => exact h
  | cons x b ih => exact ih (a + 1) (memPut_wf a x h)

/-- The memories of the state after reset are canonical. -/
theorem reset_wf : Mem.wf State.reset.mem.data = true ∧ Mem.wf State.reset.host.mem = true := ⟨rfl, rfl⟩

theorem memGet_tabDel (m : Mem) (i a : Nat) : memGet (tabDel m i) a = if i = a then 0 else memGet m a := by
  induction m with
  | nil => simp [tabDel, memGet_nil]
  | cons x m ih =>
    obtain ⟨k, w⟩ := x
    simp only [tabDel]
    split
    · next e =>
      subst e; rw [ih, memGet_cons]
      split
      · rfl
      · rfl
    · next e =>
      rw [memGet_cons, memGet_cons, ih]
      split
      · next g => subst g; rw [if_neg (fun h => e h.symm)]
      · rfl

theorem memGet_tabPut (m : Mem) (i a : Nat) (v : U8) : memGet (tabPut m i v) a = if i = a then v else memGet m a := by
  induction m with
  | nil => simp only [tabPut, memGet_cons]
  | cons x m ih =>
    obtain ⟨k, w⟩ := x
    simp only [tabPut]
    split
    · simp only [memGet_cons]
    · split
      · next e => subst e; simp only [memGet_cons]; split <;> rfl
      · next e e' =>
        simp only [memGet_cons, ih]
        split
        · next g => subst g; rw [if_neg e']
        · rfl

/-- A byte after a write of one byte. -/
theorem memGet_memPut (m : Mem) (i a : Nat) (b : U8) : memGet (memPut m i b) a = if i = a then b else memGet m a := by
  unfold memPut; split
  · next e => rw [memGet_tabDel, e]
  · exact memGet_tabPut m i a b

/-- A byte outside the range written stays. -/
theorem memGet_memWrite_out (m : Mem) (i a : Nat) (b : Bytes) (h : a < i ∨ i + b.length ≤ a) : memGet (memWrite m i b) a = memGet m a := by
  induction b generalizing m i with
  | nil => rfl
  | cons x b ih =>
    simp only [List.length_cons] at h
    rw [memWrite, ih _ _ (by omega), memGet_memPut, if_neg (by omega)]

/-- A byte within the range written is the byte written. -/
theorem memGet_memWrite_in (m : Mem) (i k : Nat) (b : Bytes) (h : k < b.length) : memGet (memWrite m i b) (i + k) = b.getD k 0 := by
  induction b generalizing m i k with
  | nil => simp at h
  | cons x b ih =>
    cases k with
    | zero => rw [memWrite, memGet_memWrite_out _ _ _ _ (by omega), memGet_memPut, if_pos (by omega)]; rfl
    | succ k =>
      have := ih (memPut m i x) (i + 1) k (by simpa using h)
      rw [memWrite, show i + (k + 1) = i + 1 + k by omega, this]; rfl

theorem memRead_eq (m : Mem) (a n : Nat) : memRead m a n = (List.range n).map fun k => memGet m (a + k) := by
  induction n generalizing a with
  | zero => rfl
  | succ n ih =>
    rw [memRead, ih, List.range_succ_eq_map, List.map_cons, List.map_map]
    congr 1
    refine List.map_congr_left fun k _ => ?_
    show memGet m (a + 1 + k) = memGet m (a + (k + 1))
    rw [show a + 1 + k = a + (k + 1) by omega]

/-- What has been written reads back. -/
theorem memRead_memWrite (m : Mem) (a : Nat) (b : Bytes) : memRead (memWrite m a b) a b.length = b := by
  rw [memRead_eq]
  apply List.ext_getElem
  · simp
  · intro k h1 h2
    simp only [List.getElem_map, List.getElem_range]
    rw [memGet_memWrite_in _ _ _ _ h2]; simp [h2]

/-- A read of another range is as before. -/
theorem memRead_memWrite_out (m : Mem) (a i n : Nat) (b : Bytes) (h : a + n ≤ i ∨ i + b.length ≤ a) :
    memRead (memWrite m i b) a n = memRead m a n := by
  rw [memRead_eq, memRead_eq]
  refine List.map_congr_left fun k hk => ?_
  have := List.mem_range.1 hk
  exact memGet_memWrite_out _ _ _ _ (by omega)

end Sys2Proof.Machine
end

