-- ==== Sys2Proof/Laws/Helpers.lean ====
section
/-! SUPPORT. Facts about single operations that several rows share. -/

namespace Sys2Proof.Machine

theorem prefixLen_all (ok : Nat → Bool) : ∀ n, (∀ i, i < n → ok i = true) → prefixLen ok n = n
  | 0, _ => rfl
  | n + 1, h => by
    have := prefixLen_all ok n fun i hi => h i (by omega)
    simp [prefixLen, this, h n (by omega)]

theorem hostOk_one {s : State} {a n i : Nat} (h : s.hostOk a n = true) (hi : i < n) : s.hostOk (a + i) 1 = true := by
  unfold State.hostOk at *
  rw [List.all_eq_true] at *
  intro x hx
  have := h x hx
  simp only [Bool.or_eq_true, decide_eq_true_eq] at *
  omega

theorem vbad_one {s : State} {sl : Nat} : ∀ {n va i : Nat}, s.vbad sl va n = false → i < n → s.vbad sl (va + i) 1 = false
  | 0, _, _, _, hi => absurd hi (Nat.not_lt_zero _)
  | n + 1, va, 0, h, _ => by
    simp only [State.vbad, Bool.or_eq_false_iff] at h ⊢
    exact ⟨h.1, trivial⟩
  | n + 1, va, i + 1, h, hi => by
    simp only [State.vbad, Bool.or_eq_false_iff] at h
    have := vbad_one (i := i) h.2 (by omega)
    rw [show va + 1 + i = va + (i + 1) by omega] at this; exact this

theorem foldl_inv {α β : Type} (f : α → β → α) (P : α → Prop) (hf : ∀ a b, P a → P (f a b)) : ∀ (l : List β) (a : α), P a → P (l.foldl f a)
  | [], _, h => h
  | b :: l, a, h => foldl_inv f P hf l _ (hf a b h)

theorem setStaged_img (s : State) (h : Option U256) : (s.setStaged h).img = s.img := by
  unfold State.setStaged State.remeasure
  split
  · simp [State.setFld]
  · dsimp only; unfold State.eraseSlots; simp [State.setFld]

theorem fld1 {s : State} (h : s.fld .imgCtrl 0 0 0 1 = 0) : (s.fld .imgCtrl 0 0 0 1 == 1) = false := by rw [h]; rfl

theorem setMeas_cons (s : State) (i : Nat) (v : U256) : (s.setMeas i v).sec.consents = s.sec.consents := by
  unfold State.setMeas; split
  · rfl
  · unfold State.measChanged; split <;> rfl

theorem debugChanged_sec (s : State) : s.debugChanged.sec.consents = s.sec.consents := setMeas_cons _ _ _

theorem ctrlAddr : ∀ p : Fin 48, regAt (Reg.addr .portCtrl p.1 0) = some (.portCtrl, p.1, 0) := by decide

theorem writeReg_ok {s : State} {r : Reg} {u i fn off v : Nat} (ho : off = r.addr u i) (hw : Writable s r u i fn) :
    s.writeReg fn off v = s.writeAt r u i fn off v := by
  obtain ⟨h1, h2, h3, h4, h5, h6⟩ := hw
  subst ho
  unfold State.writeReg
  rw [h1]
  dsimp only
  rw [if_neg (by simp [h2]), if_neg h3, if_neg (by rcases h4 with e | e <;> simp [e]), if_neg (by rcases h4 with e | e <;> simp [e]),
    if_neg (by simpa using h5), h6]
  rfl

theorem writeAt_hi {hi lo : Reg} (h : hi.loOf = some lo) (s : State) (u fn off v : Nat) :
    s.writeAt hi u 0 fn off v = s.writeHi lo hi u fn (hi.covered v) := by
  unfold State.writeAt
  cases hi <;> simp only [Reg.loOf, reduceCtorEq, Option.some.injEq] at h <;> subst h <;> simp [Reg.waits, Reg.loOf]

theorem writeAt_sel (s : State) (u i fn off v : Nat) :
    s.writeAt .mtrSel u i fn off v = s.selWrite u i (Reg.mtrSel.covered v) := by
  simp [State.writeAt, Reg.waits, Reg.loOf, State.serveCheck, State.qosWrite]

theorem sel_ok (sl i n : Nat) (s : State) (h1 : s.meterCheck sl i n = none) :
  s.selWrite sl i n = ((s.setReg .mtrSel sl i n).commitMeter sl i n
      (s.reg .mtrCir sl i) (s.reg .mtrPir sl i) (s.reg .mtrBurst sl i)) := by
   unfold State.selWrite; rw [h1]

theorem spdm_ok {sec : Bool} {ready : Spdm → Bool} {s : State} {f : State → State} (h1 : s.module = 1)
    (h2 : sec = true → s.spdm.secured ≠ none) (h3 : ready s.spdm = true) : spdmRequest sec ready s f = .next (f s) := by
  unfold spdmRequest
  rw [if_neg (by rw [h1]; decide), if_neg (by rw [h1]; decide), if_neg (by rintro ⟨a, b⟩; exact h2 a (by simpa using b)), if_neg (by simp [h3])]

theorem tdisp_ok {fn : Nat} {s : State} {f : State → State} (h1 : s.module = 1) (h2 : s.spdm.secured ≠ none) (h3 : 2 ≤ fn) :
    tdispRequest fn s f = .next (f s) := by
  unfold tdispRequest
  rw [if_neg (by rw [h1]; decide), if_neg (by rw [h1]; decide), if_neg (by simpa using h2), if_neg (by omega)]

theorem countResults_core (s : State) (a b c : Nat) : (s.countResults a b).core c = s.core c := by
  have h : (s.countResults a b).srv = s.srv := by
    unfold State.countResults; dsimp only; (repeat' split) <;> simp
  unfold State.core; rw [h]

theorem withStore_ok {s : State} {c : Nat} {i : Inst} {rs ws : List (Nat × Nat)} {f : Core → State}
    (h1 : ∀ r ∈ rs ++ ws, s.inStore i r.1 r.2 = true) (h2 : ∀ r ∈ rs, (s.core c).bad r.1 r.2 = false) :
    s.withStore c i rs ws f = f (s.core c) := by
  unfold State.withStore
  rw [if_neg (by rw [List.all_eq_true.2 h1]; decide)]
  dsimp only
  rw [if_neg (by rw [List.any_eq_false.2 fun r hr => by simp [h2 r hr]]; decide)]

theorem tabGet_map_range (f : Nat → Nat) : ∀ n v, v < n → tabGet ((List.range n).map fun v => (v, f v)) v = some (f v) := by
  have key : ∀ (l : List Nat) v, v ∈ l → tabGet (l.map fun v => (v, f v)) v = some (f v) := by
    intro l
    induction l with
    | nil => intro v h; cases h
    | cons a l ih =>
      intro v h
      simp only [List.map_cons, tabGet]
      split
      · next e => rw [e]
      · next e => exact ih v ((List.mem_cons.1 h).resolve_left fun q => e q.symm)
  intro n v h; exact key _ _ (List.mem_range.2 h)

theorem serve_go {s : State} {r : Rule} (h : Admits r.t r.type r.op r.len r.exempt r.holds s) {e : State × Ans}
    (he : r.eff (Requested r.t r.type r.op r.len s) = e) (hr : e.2.reply = true) : s.serve r = Replied r.t r.type e.1 e.2 := by
  subst he; rw [serve_ok h, execute_ok hr]

theorem serve_go' {s v : State} {r : Rule} {x : Ans} (h : Admits r.t r.type r.op r.len r.exempt r.holds s)
    (he : r.eff (Requested r.t r.type r.op r.len s) = (v, x)) (hr : x.reply = true) : s.serve r = Replied r.t r.type v x := by
  rw [serve_ok h, execute_ok (by rw [he]; exact hr), he]

theorem row_go {s v : State} {t : TxHdr} {op : Nat} {data : Bytes} {cmd : Instr} {x : Ans} (hm : s.rowMiss t = none)
    (h : Admits t 3 op data.length false true s) (he : (Requested t 3 op data.length s).atomicRow t op data = (v, x))
    (hr : x.reply = true) : s.serveRow t (rowRule t op data cmd) = Replied t 3 v x := by
  unfold State.serveRow
  rw [hm]
  simp only [ite_self]
  exact serve_go' (r := rowRule t op data cmd) h he hr

theorem atomic_whole (u : State) (t : TxHdr) (op : Nat) (data : Bytes) (tb : Table)
    (h5 : u.sharedTable t.slice.toNat (t.addr.toNat / 2 ^ 56) = some tb) (h4 : t.aux.toNat % 65536 ≤ 1) (ho : op = 1 ∨ op = 2 ∨ op = 3)
    (h6 : op = 1 → tb.rformat = 2) (h7 : op = 2 → tb.rformat = 1) (h8 : tb.badRow (t.addr.toNat % 2 ^ 32) = false)
    (h9 : (u.rowRead tb tb.version (t.addr.toNat % 2 ^ 32)).lost = false)
    (h10 : (u.rowRead tb tb.version (t.addr.toNat % 2 ^ 32)).cut = false) :
    u.atomicRow t op data =
      ((if (t.poison == 1) = true then (u.rowUpdate tb.slice tb.num tb.version (t.addr.toNat % 2 ^ 32) t.src.toNat (op != 3) false
          (padTo tb.rowBytes data)).poisonRange tb.slice (tb.rowVa tb.version (t.addr.toNat % 2 ^ 32)) tb.rowBytes
        else u.rowUpdate tb.slice tb.num tb.version (t.addr.toNat % 2 ^ 32) t.src.toNat (op != 3) false
          (padTo tb.rowBytes data)).evc tb.slice 0x53 0xFF 1, {}) := by
  have e : decide (op ≠ 3) = (op != 3) := by rcases ho with e | e | e <;> subst e <;> rfl
  unfold State.atomicRow
  rw [h5]
  dsimp only
  generalize t.addr.toNat % 2 ^ 32 = row at *
  generalize t.aux.toNat % 65536 = k at *
  rw [if_neg, if_pos (by omega)]
  · unfold State.atomicWhole
    rw [if_neg (by rw [h8]; decide)]
    dsimp only
    rw [h9, h10, e]; rfl
  · rcases ho with e | e | e <;> subst e
    · have := h6 rfl; simp [this]
    · have := h7 rfl; simp [this]
    · simp

theorem serve_quiet {s : State} {r : Rule} (h : Admits r.t r.type r.op r.len r.exempt r.holds s) {e : State × Ans}
    (he : r.eff (Requested r.t r.type r.op r.len s) = e) (hr : e.2.reply = false) :
    s.serve r = e.1.tagRuns r.t.src.toNat r.t.tag.toNat := by
  subst he; rw [serve_ok h]; unfold State.execute; dsimp only; rw [if_neg (by rw [hr]; decide)]

theorem sess_go {s : State} {t : TxHdr} {type op : Nat} {data : Bytes} {cmd : Instr} {sid : U64} {epoch : Nat} {always : Bool}
    {eff : State → State × Ans} {e : State × Ans} (h : Admits t type op data.length false (always || s.holdsSession sid) s)
    (hs : (Requested t type op data.length s).staleOwner sid epoch = none)
    (he : eff (Requested t type op data.length s) = e) (hr : e.2.reply = true) :
    s.serve (s.sessRule t type op data cmd sid epoch always eff) = Replied t type e.1 e.2 := by
  refine serve_go (r := s.sessRule t type op data cmd sid epoch always eff) h ?_ hr
  show (match State.staleOwner (Requested t type op data.length s) sid epoch with
    | some sl => _
    | none => _) = e
  rw [hs]; exact he

theorem sess_go' {s v : State} {t : TxHdr} {type op : Nat} {data : Bytes} {cmd : Instr} {sid : U64} {epoch : Nat} {always : Bool}
    {eff : State → State × Ans} {x : Ans} (h : Admits t type op data.length false (always || s.holdsSession sid) s)
    (hs : (Requested t type op data.length s).staleOwner sid epoch = none)
    (he : eff (Requested t type op data.length s) = (v, x)) (hr : x.reply = true) :
    s.serve (s.sessRule t type op data cmd sid epoch always eff) = Replied t type v x := by
  exact serve_go' (r := s.sessRule t type op data cmd sid epoch always eff) h (by
    show (match State.staleOwner (Requested t type op data.length s) sid epoch with
      | some sl => _
      | none => _) = _
    rw [hs]; exact he) hr

theorem sess_quiet {s : State} {t : TxHdr} {type op : Nat} {data : Bytes} {cmd : Instr} {sid : U64} {epoch : Nat} {always : Bool}
    {eff : State → State × Ans} {e : State × Ans} (h : Admits t type op data.length false (always || s.holdsSession sid) s)
    (hs : (Requested t type op data.length s).staleOwner sid epoch = none)
    (he : eff (Requested t type op data.length s) = e) (hr : e.2.reply = false) :
    s.serve (s.sessRule t type op data cmd sid epoch always eff) = e.1.tagRuns t.src.toNat t.tag.toNat := by
  refine serve_quiet (r := s.sessRule t type op data cmd sid epoch always eff) h ?_ hr
  show (match State.staleOwner (Requested t type op data.length s) sid epoch with
    | some sl => _
    | none => _) = e
  rw [hs]; exact he

theorem ho_go {s : State} {t : TxHdr} {op : Nat} {cmd : Instr} {sid : U64} {epoch : Nat} {giver : Bool} {h : Handoff}
    {eff : State → Handoff → State} (a : Admits t 7 op 0 false (s.holdsSession sid) s)
    (hs : (Requested t 7 op 0 s).staleOwner sid epoch = none) (hh : (Requested t 7 op 0 s).hoOf sid giver = some h)
    (hp : h.peer = t.src.toNat) (he : h.epoch = epoch) :
    s.serve (s.hoRule t op cmd sid epoch giver eff) = Replied t 7 (eff (Requested t 7 op 0 s) h) {} := by
  unfold State.hoRule
  refine (sess_go (data := []) (e := (eff (Requested t 7 op 0 s) h, {})) (by simpa using a) hs ?_ rfl)
  show (match State.hoOf (Requested t 7 op 0 s) sid giver with
    | some h => _
    | none => _) = _
  rw [hh]; simp [hp, he]

theorem takeChunks_objects (sl va : Nat) (die : Option Nat) (prot : Bool) : ∀ (l : List (Nat × Nat)) (s : State)
    (acc : List (Nat × Nat × Nat)) (x : State × List (Nat × Nat × Nat)), s.takeChunks sl va die prot l acc = some x →
    x.1.mem.objects = s.mem.objects
  | [], s, acc, x, h => by cases h; rfl
  | (off, len) :: l, s, acc, x, h => by
    unfold State.takeChunks at h
    obtain ⟨y, hy, hx⟩ := Option.bind_eq_some_iff.1 h
    obtain ⟨pa, _, e⟩ := Option.map_eq_some_iff.1 hy
    rw [takeChunks_objects sl va die prot l _ _ _ hx, ← e]; rfl

theorem takeTables_objects (sl : Nat) : ∀ (l : List (Nat × Nat)) (s z : State), s.takeTables sl l = some z →
    z.mem.objects = s.mem.objects
  | [], s, z, h => by cases h; rfl
  | x :: l, s, z, h => by
    unfold State.takeTables at h
    split at h
    · exact takeTables_objects sl l s z h
    · obtain ⟨a, ha, hz⟩ := Option.bind_eq_some_iff.1 h
      obtain ⟨n, _, e⟩ := List.exists_of_findSome?_eq_some ha
      obtain ⟨pa, _, e⟩ := Option.map_eq_some_iff.1 e
      rw [takeTables_objects sl l _ _ hz, ← e]; rfl

theorem remap_objects {s z : State} {sl : Nat} (h : s.remap sl = some z) : z.mem.objects = s.mem.objects := by
  obtain ⟨a, ha, e⟩ := Option.map_eq_some_iff.1 h
  rw [← e]
  exact (State.unmapped_objects a sl).trans (takeTables_objects _ _ _ _ ha)

theorem freeAt_regions (s : State) (pa : Nat) : ∀ r ∈ (s.freeAt pa).mem.regions, r ∈ s.mem.regions ∧ r.pa ≠ pa := by
  intro r hr
  unfold State.freeAt at hr
  split at hr
  · next h => exact ⟨hr, fun e => absurd (List.find?_eq_none.1 h r hr) (by simp [e])⟩
  · simp only [List.mem_filter] at hr; exact ⟨hr.1, by simpa using hr.2⟩

theorem foldFree_regions {α : Type} (f : α → Nat) : ∀ (l : List α) (s : State), ∀ r ∈ (l.foldl (fun t p => t.freeAt (f p)) s).mem.regions,
    r ∈ s.mem.regions ∧ ∀ p ∈ l, r.pa ≠ f p
  | [], s, r, h => ⟨h, by simp⟩
  | x :: l, s, r, h => by
    obtain ⟨a, b⟩ := foldFree_regions f l _ r h
    obtain ⟨c, d⟩ := freeAt_regions _ _ r a
    exact ⟨c, by simpa using ⟨d, b⟩⟩

theorem judge_holds {w : State} {r : Rule} (he : r.exempt = false) (hm : w.member r.t.src.toNat ≠ none) (hs : 64 ≤ r.t.slice.toNat)
    (hh : r.holds = true) : w.judge r true = w.execute r := by
  unfold State.judge
  have a : ¬ ((w.member r.t.src.toNat).isNone = true ∨ r.t.slice.toNat < 64 ∧ ¬ w.joined r.t.slice.toNat = true) := by
    rintro (q | q)
    · exact hm (by simpa using q)
    · omega
  dsimp only; rw [he, if_neg (by decide), if_neg a, if_pos hh]

theorem judge_stale {w : State} {r : Rule} (he : r.exempt = false) (hm : w.member r.t.src.toNat ≠ none) (hs : 64 ≤ r.t.slice.toNat)
    (hh : r.holds = false) (hf : w.forwardOf r = none) : w.judge r true = (w.respCode r.t r.type 0x0703).bump .staleMapSent 0 1 := by
  unfold State.judge
  have a : ¬ ((w.member r.t.src.toNat).isNone = true ∨ r.t.slice.toNat < 64 ∧ ¬ w.joined r.t.slice.toNat = true) := by
    rintro (q | q)
    · exact hm (by simpa using q)
    · omega
  dsimp only; rw [he, if_neg (by decide), if_neg a, hh, if_neg (by decide), if_neg (by simp), hf]; rfl

end Sys2Proof.Machine
end

