-- ==== Sys2Proof/WellFormed.lean ====
section
/-! DEFINITION. Well-formed commands: operands that name a unit the package has and payloads that a message can carry. What the
spec makes the block itself check of an operand is no part of this: those commands are well formed and end with the error. -/

namespace Sys2Proof

/-- A die index of R12. -/
def dieOk (d : BitVec 5) : Bool := decide (d.toNat < 20)

/-- A port BX0..BX47 (R23). -/
def portOk (p : BitVec 6) : Bool := decide (p.toNat < 48)

/-- The payload of a transaction holds at most 16 KiB (R359). -/
def dataOk (b : Bytes) : Bool := decide (b.length ≤ 16384)

/-- A transaction arrives on a port. -/
def txOk (t : TxHdr) : Bool := portOk t.port

/-- A quorum of at most seven members, none named twice (R373). -/
def changeOk (c : ChangeOps) : Bool := decide (c.qlist.length ≤ 7) && decide c.qlist.Nodup

/-- Lanes and speed of the host link (R473): 1, 2, 4 or 8 lanes, speeds 1 to 6. -/
def linkOk (width speed : BitVec 4) : Bool := [1, 2, 4, 8].contains width.toNat && decide (1 ≤ speed.toNat) && decide (speed.toNat ≤ 6)

/-- The symbols of a sector codeword that are wrong (R309): positions below 136, none named twice, each changed. -/
def errsOk (errs : List (U8 × U8)) : Bool :=
  errs.all (fun e => decide (e.1.toNat < 136) && e.2 != 0) && decide (errs.map (·.1)).Nodup

/-- A unit that JTAG can name (R439). -/
def unitOk : JtagUnit → Bool
  | .core _ | .cluster _ | .pcg _ | .rt => true
  | .port p => portOk p
  | .die d => dieOk d
  | .cipherPipe d => dieOk d

/-- A well-formed command. -/
def Instr.wf : Instr → Bool
  | .nop _ => true
  | .sqCreate _ _ _ _ _ => true
  | .sqDelete _ _ => true
  | .cqCreate _ _ _ _ _ _ => true
  | .cqDelete _ _ => true
  | .eqCreate _ _ _ _ _ _ => true
  | .eqDelete _ _ _ => true
  | .copy _ _ _ _ _ _ => true
  | .request _ _ => true
  | .openSession _ _ => true
  | .closeSession _ _ => true
  | .park _ _ _ _ _ _ _ => true
  | .thaw _ _ _ => true
  | .migrate _ _ _ _ _ _ => true
  | .fork _ _ _ _ _ => true
  | .setSession _ _ => true
  | .sessionQuery _ _ _ => true
  | .cancel _ _ _ => true
  | .ringExtend _ _ _ _ => true
  | .tringCreate _ _ _ _ _ _ _ _ => true
  | .tringDestroy _ _ _ => true
  | .paletteLoad _ _ _ _ _ => true
  | .paletteUnload _ _ _ => true
  | .jobStart _ _ _ _ => true
  | .jobEnd _ _ => true
  | .memAlloc _ _ _ _ _ _ _ _ _ _ => true
  | .memFree _ _ _ => true
  | .apertureMap _ _ _ _ _ => true
  | .apertureUnmap _ _ _ => true
  | .poolReclaim _ _ => true
  | .indexCreate _ _ => true
  | .indexDestroy _ _ _ => true
  | .insertVec _ _ _ _ _ _ => true
  | .deleteVec _ _ _ _ => true
  | .indexCompact _ _ _ => true
  | .search _ _ => true
  | .searchNext _ _ _ _ => true
  | .cursorDrop _ _ _ => true
  | .tableCreate _ _ => true
  | .tableDestroy _ _ _ => true
  | .gather _ _ => true
  | .scatterAdd _ _ => true
  | .scatterSet _ _ => true
  | .tableStage _ _ _ => true
  | .tableSwitch _ _ _ => true
  | .hotPost _ _ _ _ _ => true
  | .compChange _ c => decide (c.qlist.length ≤ 7)
  | .portEnable _ _ => true
  | .portDisable _ _ => true
  | .portRekey _ _ => true
  | .ckptNow _ _ => true
  | .ckptRestore _ _ _ _ => true
  | .ckptRelease _ _ => true
  | .imageLoad _ _ _ _ => true
  | .enrolAuthor _ _ => true
  | .revokeAuthor _ _ => true
  | .keygenAdvance _ => true
  | .genRetire _ _ => true
  | .zeroize _ => true
  | .keyRelease _ _ => true
  | .boundOpen _ _ _ _ => true
  | .weightDecrypt _ _ _ _ _ _ _ => true
  | .consentInstall _ _ _ => true
  | .consentRemove _ _ => true
  | .devReset _ _ _ _ => true
  | .pkgReset _ => true
  | .powerState _ _ _ => true
  | .fwLoad _ _ _ _ _ => true
  | .errlogRead _ _ _ _ => true
  | .thermShutdown _ => true
  | .rstCtrlPkgReset _ _ => true
  | .thermCtrlShutdown _ _ => true
  | .zeroizeArm _ => true
  | .zeroizeFire _ => true
  | .portCtrlDisable _ p => portOk p
  | .portCtrlRekey _ p => portOk p
  | .portCtrlRetrain _ p => portOk p
  | .errlogCtrlConsume _ _ => true
  | .pkcLoRead _ => true
  | .loReadLatch _ _ => true
  | .hiWriteCommit _ _ _ => true
  | .regCfgWrite _ _ reg _ => decide (reg.toNat < 10)
  | .mtrSelWrite _ _ _ _ => true
  | .evcSelWrite _ _ _ _ => true
  | .aqCfgWrite _ _ _ => true
  | .registerWrite _ _ data => decide (data.length ≤ 4096)
  | .sqTailDoorbell _ _ _ => true
  | .cqHeadDoorbell _ _ _ => true
  | .eqHeadDoorbell _ _ _ => true
  | .tringCreditDoorbell _ _ _ _ => true
  | .bar4Access _ w _ _ len data => if w then decide (1 ≤ data.length) && decide (data.length ≤ 4096) else data.isEmpty && len != 0
  | .msixUnmask _ _ => true
  | .functionLevelReset _ => true
  | .poisonedTlpReceived _ _ => true
  | .ideFailure _ => true
  | .getVersion => true
  | .getCapabilities _ => true
  | .negotiateAlgorithms _ _ _ => true
  | .getDigests _ => true
  | .getCertificate _ _ _ _ => true
  | .challenge _ _ _ => true
  | .getMeasurements _ _ _ => true
  | .endSession => true
  | .heartbeat => true
  | .keyUpdate => true
  | .kemStart ct => ct.length == 1088
  | .ideKm _ _ _ => true
  | .lockInterface _ => true
  | .startInterfaceRequest _ => true
  | .stopInterface _ => true
  | .pldmPkgReset => true
  | .pldmThermalShutdown => true
  | .pldmPortDisable p => portOk p
  | .pldmZeroizeArm => true
  | .pldmZeroizeFire => true
  | .pldmErrlogRead _ _ => true
  | .vaux12Applied => true
  | .vin48Applied => true
  | .pwrgoodAssert _ => true
  | .pwrgoodDeassert => true
  | .perstNAssert => true
  | .perstNDeassert w v _ _ => linkOk w v
  | .vin48OutOfRange => true
  | .vaux12Removed => true
  | .vio18Low => true
  | .refclkStop => true
  | .refclkRestart => true
  | .pllLockLoss p => decide (p.toNat < 21)
  | .dieRelease d => dieOk d
  | .thermalTrip d => dieOk d
  | .selftestDone d => dieOk d
  | .selftestFailure d test => dieOk d && test != 0 && decide (test.toNat < 12)
  | .dieFirmwareMeasured d _ => dieOk d
  | .bootImageLoad => true
  | .trialBootTimeout => true
  | .watchdogExpiry d => dieOk d
  | .imageCommit => true
  | .stepStart _ => true
  | .instancePlace _ => true
  | .instanceEnd _ => true
  | .engineRecord _ => true
  | .waitRecord _ => true
  | .signalRecord _ => true
  | .loopRecord _ => true
  | .yieldRecord _ => true
  | .endRecord _ => true
  | .engineCommandDone _ _ => true
  | .mm _ _ _ => true
  | .accOut _ _ _ _ _ => true
  | .attn _ _ => true
  | .merge _ _ _ _ _ _ => true
  | .func _ _ => true
  | .append _ _ _ _ _ _ => true
  | .sample _ _ _ _ => true
  | .verify _ _ _ _ => true
  | .mvCopy _ _ _ _ _ => true
  | .mvGather _ _ _ _ _ => true
  | .priorityCopyDone _ => true
  | .stepEnd _ => true
  | .stagingDone _ _ => true
  | .ckptCommit _ => true
  | .restoreDone _ => true
  | .canvasWorkItem _ _ => true
  | .parkEnd _ => true
  | .idleParkCheck _ => true
  | .runaheadThawStart _ => true
  | .thawEnd _ => true
  | .streamPageArrival _ _ => true
  | .streamFault _ _ => true
  | .closeEnd _ => true
  | .paletteCompileDone _ => true
  | .translationMiss _ _ _ => true
  | .fetchDone _ _ => true
  | .gessoFillDone _ => true
  | .patrolRead pa errs => decide (pa.toNat < 2 ^ 40) && errsOk errs
  | .coreStoreRowReplace _ _ _ => true
  | .rekeySweepRegion _ => true
  | .regulatorAdmit _ reg _ _ _ => decide (reg.toNat < 10)
  | .rowMigration _ _ _ => true
  | .tableSwitchApply _ _ => true
  | .compactRelease _ _ => true
  | .bridgeDown b => decide (b.toNat < 34)
  | .laneFailure p _ => portOk p
  | .flitReceive p _ => portOk p
  | .portTrainingDone p _ => portOk p
  | .hello p _ => portOk p
  | .keyConfirm p _ _ => portOk p
  | .bringupRetry p => portOk p
  | .frameCountRekey p => portOk p
  | .rekeyDone p => portOk p
  | .readTxn t => txOk t
  | .writeTxn t data => txOk t && dataOk data
  | .addF32 t data => txOk t && dataOk data
  | .addBf16 t data => txOk t && dataOk data
  | .setRow t data => txOk t && dataOk data
  | .fadd64 t data => txOk t && dataOk data
  | .cas64 t data => txOk t && dataOk data
  | .query t data => txOk t && dataOk data
  | .result t data => txOk t && dataOk data
  | .canvasData t _ data => txOk t && dataOk data
  | .desc t data _ _ => txOk t && dataOk data
  | .mirrorRows t _ _ _ data => txOk t && dataOk data
  | .mirrorCommit t _ _ => txOk t
  | .mirrorState t _ a b c => txOk t && dataOk a && dataOk b && dataOk c
  | .propose t c => txOk t && changeOk c
  | .prepare t _ c => txOk t && changeOk c
  | .vote t _ _ => txOk t
  | .commitMap t _ c => txOk t && changeOk c
  | .mapUpdate t m => txOk t && decide (m.qmembers.length ≤ 7)
  | .mapQuery t => txOk t
  | .mapState t m _ => txOk t && decide (m.qmembers.length ≤ 7)
  | .sealKey t blob => txOk t && blob.length == 1136
  | .offer t _ => txOk t
  | .accept t _ _ _ => txOk t
  | .refuse t _ _ _ => txOk t
  | .ack t _ _ => txOk t
  | .commitHandoff t _ _ => txOk t
  | .committed t _ _ _ => txOk t
  | .released t _ _ => txOk t
  | .resolve t _ _ _ _ => txOk t
  | .recordQuery t _ => txOk t
  | .ringCmd t _ => txOk t
  | .poolAlloc t _ => txOk t
  | .poolFree t _ => txOk t
  | .poolInfo t => txOk t
  | .linkState t ports _ => txOk t && decide (ports.length ≤ 48)
  | .identify t => txOk t
  | .resp t _ data => txOk t && dataOk data
  | .drop t => txOk t
  | .unsupportedTransaction t _ _ => txOk t
  | .transitForward t _ _ _ data => txOk t && dataOk data
  | .canvasRepairDone _ => true
  | .handoffLimitExpiry _ => true
  | .arbiterRetry _ => true
  | .ringWaitLimitExpiry _ _ _ => true
  | .txnResend _ _ => true
  | .txnLimitExpiry _ _ => true
  | .epochHoldExpiry _ _ => true
  | .mapVoteTimeout => true
  | .linkStateSend => true
  | .liveLimitExpiry _ => true
  | .qosHoldoffExpiry _ _ => true
  | .deadlineCheck => true
  | .consentExpiry _ => true
  | .zeroizeArmExpiry => true
  | .autoReport => true
  | .counterSnapshot => true
  | .sensorRead d _ => dieOk d
  | .throttlePeriod => true
  | .powerCapPeriod _ => true
  | .idleEntry => true
  | .dozeEntry => true
  | .dozeExit => true
  | .hibernateEntry => true
  | .wakeDone => true
  | .thermalRecovery => true
  | .vio18Restored => true
  | .ackIntervalExpiry p => portOk p
  | .jtagAccess _ u => unitOk u
  | .retrievalOperationDone _ _ _ => true

end Sys2Proof
end

