-- ==== Sys2Proof/Tests/Slice0.lean ====
section
/-! SUPPORT. Tests: ill-formed commands that the checks refuse, one command at a time on a small state, and for every clause of
every statement a state and operands that meet what it asks. -/

namespace Sys2Proof.Tests
open Sys2Proof Sys2Proof.Machine
set_option maxRecDepth 20000

/-- A host with an admin queue pair for PF0, one for PF1 and one for VF1, one command waiting in each. -/
def hostSt : HostSt :=
  { sqs := [(0, ⟨0, 0, 4, 0, 0, 1⟩), (1, ⟨1, 1, 4, 0, 0, 1⟩), (2, ⟨2, 2, 4, 0, 0, 1⟩)]
    cqs := [(0, ⟨0, 4, 0x1000, 0, true, 0, true, 0, false, 0⟩), (1, ⟨1, 4, 0x1000, 0, true, 0, true, 0, false, 0⟩),
      (2, ⟨2, 4, 0x1000, 0, true, 0, true, 0, false, 0⟩)] }

/-- An image with one slice, slice 0: cluster 0 and channel group 0. -/
def img0 : Image := { slices := [(0, ⟨1, 1, 0⟩)] }

/-- Every die powered, locked, released and measured. -/
def dies0 : Tab Die := (List.range 20).map fun d => (d, { powered := true, locked := true, released := true, measured := true })

/-- A device that is ready and runs that image. -/
def st : State := { pkg := { ready := true, dies := dies0 }, host := hostSt, img := { running := some img0 } }

/-- A command of PF0, one of PF1 and one of VF1. -/
def h0 : Hdr := { fn := 0, sq := 0, cid := 5 }
def h1 : Hdr := { fn := 1, sq := 1, cid := 5 }
def h2 : Hdr := { fn := 2, sq := 2, cid := 5 }

/-- A model program of one layer, one key head, one query head and 64 dimensions, with a vocabulary of 256. -/
def prog0 : Bytes := [1, 0, 1, 0, 1, 0, 64, 0, 64, 0, 0, 0, 0, 0, 0, 0, 64, 0, 0, 0, 64, 0, 0, 0, 0, 1, 0, 0, 0, 0, 0, 0, 0, 0, 0, 0, 0, 0, 0, 0]

/-- The image with that program, a tier map of slice 0 with one Winter unit, and state for KV. -/
def img1 : Image := { img0 with sections := [⟨7, 0, 0, prog0⟩, ⟨3, 0, 0, [0, 0, 0, 0, 1, 0, 0, 0]⟩] }

/-- The device with that image. -/
def st1 : State := { st with img := { running := some img1 } }

/-- A session at index 0 of slice 0, its tail here. -/
def sx (d : Desc) : State := { st1 with desc := [(0, { d with tail := true })] }

/-- The handle of that session. -/
def hd : U64 := 0x1000000

/-- A token ring of PF1 with 64 entries. -/
def ring0 : TRing := ⟨1, 6, 0x2000, 0x3000, 0, true, 0, 0, false⟩

/-- That session, raw, needs no more than 16 units. -/
theorem rawUnits_sx : (Fetched h1 (sx { season := .autumn })).rawUnits 0 false ≤ 16 := by
  have h : (((Fetched h1 (sx { season := .autumn })).kvOf 0).ordered 1) = [] := by
    have k : (Fetched h1 (sx { season := .autumn })).kvOf 0 = {} := by decide
    rw [k]; simp [SessKv.ordered]
  have e : (Fetched h1 (sx { season := .autumn })).curProg 0 = some (progOf prog0) := by decide
  unfold State.rawUnits; simp only
  have d : ((Fetched h1 (sx { season := .autumn })).d 0).slice = 0 := by decide
  rw [d, e]; simp only
  have l : (progOf prog0).layers = 1 := by decide
  rw [l, h]; decide

/-- A whole canvas of an empty session of that program. -/
def canvas0 : Canvas := { complete := true, modelHash := Config.sha3 prog0, sessionId := 7, desc := { sessionId := 7 } }

/-- A session whose canvas stands in the Winter area. -/
def stW : State := { sx { season := .winter, sessionId := 7, canvasTier := 1 } with cnv := { stored := [⟨1, 0, 0, canvas0, [], 0, none, 0⟩] } }

theorem thawChecks_stW : (Fetched h1 stW).thawChecks 0 = .ok canvas0 := by
  unfold State.thawChecks
  have e0 : ((Fetched h1 stW).curProg ((Fetched h1 stW).d 0).slice).isNone = false := by decide
  have e1 : (Fetched h1 stW).canvasLost ((Fetched h1 stW).d 0) = false := by decide
  have e2 : (Fetched h1 stW).canvasFor ((Fetched h1 stW).d 0) = some canvas0 := rfl
  have e3 : (Fetched h1 stW).modelHash ((Fetched h1 stW).d 0).slice = some canvas0.modelHash := rfl
  have e4 : firstFail ([(!canvas0.complete || canvas0.len != ((Fetched h1 stW).d 0).canvasLen, eCanvasFormat), (!(Fetched h1 stW).sealOk canvas0, eCanvasSeal),
      (!canvas0.hashOk, eCanvasHash)] ++ (Fetched h1 stW).canvasCheck ((Fetched h1 stW).d 0).slice ((Fetched h1 stW).d 0).sessionId canvas0 ++
      [(((Fetched h1 stW).freeWindow ((Fetched h1 stW).d 0).slice).isNone, eNoWindow),
       (((Fetched h1 stW).thawRoom 0 canvas0).isNone || (((Fetched h1 stW).d 0).pageBudget != 0 && ((Fetched h1 stW).d 0).pageBudget < canvas0.pages.length), eThawNoRoom)]) = none := by
    unfold State.canvasCheck; rw [e3]; simp only [bne_self_eq_false]; decide
  simp only [e0, e1, e2, e4, Bool.false_eq_true, if_false]

/-- A table of four rows of 64 bytes . -/
def tab0 : Table := ⟨0, 0, 8, 4, 64, 1, false, 1, false, 4, 0, 0, 0, 0, 1, none, none, none, [], none, [], [], false, none, []⟩

/-- The device as number 1 of a composition of devices 1 and 2, which port BX0 joins and slice 0 may use. -/
def img2 : Image := { img1 with slices := [(0, ⟨1, 1, 1⟩)], sections := img1.sections ++ [⟨4, 0xFF, 0, [0, 0, 0, 0, 0, 0, 0, 0, 1, 0, 0, 0]⟩] }
def comp0 : CompSt := { id := 9, epoch := 1, quorum := [1, 2], members := [(1, ⟨1, 1, 1, 256, 0, 0⟩), (2, ⟨1, 1, 1, 256, 0, 0⟩)], links := [(1, ⟨0, [(0, 2, 0)], []⟩), (2, ⟨0, [(0, 1, 0)], []⟩)] }
def stC : State := { st with img := { running := some img2 }, comp := comp0, ret := { tables := [{ tab0 with tier := 2 }] } }

/-- A session of that device, its tail here. -/
def sc (d : Desc) : State := { stC with desc := [(0, { d with tail := true })] }

/-- The members a stripe of one would take: device 2. -/
theorem stripe_stC (n : Nat) (h : n = 1 ∨ n = 128) : (Fetched h1 stC).stripeMembers 0 false n = [2] := by
  unfold State.stripeMembers State.canvasMembers; simp only
  have e : (Fetched h1 stC).comp.members.filter (fun m => m.2.state == 1 && m.2.pool != 0 && (Fetched h1 stC).reachable 0 m.1 &&
      (!false || m.2.kind == 1) && decide (n + (Fetched h1 stC).cnv.stored.foldl (fun n c =>
        n + ((c.members.filter (·.1 == m.1)).length * divUp (c.canvas.len * 4096) 65536)) 0 ≤ m.2.pool) &&
      (Fetched h1 stC).devNo != some m.1) = [(2, ⟨1, 1, 1, 256, 0, 0⟩)] := by
    rcases h with h | h <;> subst h <;> decide
  rw [e]; simp only [List.mergeSort_singleton, List.map_cons, List.map_nil, List.filter_cons, List.filter_nil]
  rw [if_pos (by rcases h with h | h <;> subst h <;> decide), List.mergeSort_singleton]

/-- An object of one unit at address 0 of slice 0. -/
def obj0 : Obj := { type := 0, slice := 0, va := 0, units := 1, tier := 1, prot := false, pieces := [(0, 0, 4096)] }

/-- An index of one vector in an object of 8 MiB, and the device that holds it. -/
def idx0 : Index := { indexOf { capacity := 1 } 0 8 0x200000 with capacity := 1 }
def objI : Obj := { type := 2, slice := 0, va := 0x200000, units := 2048, tier := 1, prot := false, pieces := [(0, 0, 0x800000)] }
def stI : State := { st1 with mem := { objects := [objI] }, ret := { indexes := [idx0] } }

/-- A device with a table and its object. -/
def stT : State := { st1 with mem := { objects := [obj0] }, ret := { tables := [tab0] } }

/-- What a T2 allocation of `units` makes of that device: the object, and a request to device 2. -/
def t2 (type va units need : Nat) : State :=
  { Fetched h1 stC with mem := { (Fetched h1 stC).mem with objects := [⟨type, 0, va, units, 2, false, 0, [], [(2, 0)], [2], some (TagOf h1 stC), []⟩] } }.send
    2 7 0x20 0 [need] [] (.objAlloc 0 va)

theorem allocT2_stC (type va units : Nat) (h : stripeUnits (units * 4096) 1 = 1 ∨ stripeUnits (units * 4096) 1 = 128) :
    (Fetched h1 stC).allocT2 0 type va units 0 1 false (some (TagOf h1 stC)) = some (t2 type va units (stripeUnits (units * 4096) 1)) := by
  unfold State.allocT2; simp only
  rw [stripe_stC _ h, if_neg (by decide)]; rfl

theorem takeObj_stC : (Fetched h1 stC).takeObj 0 2 2 0x4000000000000 2048 none false (some (TagOf h1 stC)) =
    .ok (t2 2 0x4000000000000 2048 128, 0x4000000000000) := by
  unfold State.takeObj; simp only
  rw [if_neg (by decide), if_neg (by decide : ¬ (0x4000000000000 : Nat) = 0)]; simp only
  rw [if_neg (by decide), if_neg (by decide), if_neg (by decide), show max 1 (le ((Fetched h1 stC).tierMap 0) 2 2) = 1 from by decide,
    allocT2_stC 2 _ 2048 (Or.inr (by decide))]; rfl

theorem lowest_of {s : State} {sl tier n al : Nat} {l : List Nat} (e : candidates (tierRange tier).1 al (s.objRanges sl) = l)
    (hs : l.Pairwise fun a b => decide (a ≤ b) = true) :
    s.lowestRange sl tier n al = l.find? fun a => inTier tier a n && (s.objRanges sl).all fun r => !overlaps a n r := by
  unfold State.lowestRange; simp only
  rw [e, List.mergeSort_of_pairwise hs]

/-- An object of one unit beside the table. -/
def tStage : State := ((Fetched h1 stT).allocT1 0 3 0x1000 1 none false (some (TagOf h1 stT))).get (by decide)

theorem takeObj_stT : (Fetched h1 stT).takeObj 0 3 1 0 1 none false (some (TagOf h1 stT)) = .ok (tStage, 0x1000) := by
  unfold State.takeObj; simp only
  rw [if_neg (by decide), if_pos trivial, show 1 * 4096 = 4096 from rfl, lowest_of (l := [0, 0x1000, 0x1000]) (by decide) (by decide),
    show ([0, 0x1000, 0x1000].find? fun a => inTier 1 a 4096 && ((Fetched h1 stT).objRanges 0).all fun r => !overlaps a 4096 r) = some 0x1000 from by decide]
  simp only
  rw [if_neg (by decide), if_neg (by decide), if_pos trivial,
    show (Fetched h1 stT).allocT1 0 3 0x1000 1 none false (some (TagOf h1 stT)) = some tStage from (Option.some_get (by decide)).symm]

theorem takeObj_stC' : (Fetched h1 stC).takeObj 0 3 2 0 1 none false (some (TagOf h1 stC)) =
    .ok (t2 3 0x4000000000000 1 1, 0x4000000000000) := by
  unfold State.takeObj; simp only
  rw [if_neg (by decide), if_pos trivial, lowest_of (l := [0x4000000000000, 0x4000000001000]) (by decide) (by decide),
    show ([0x4000000000000, 0x4000000001000].find? fun a => inTier 2 a (1 * 4096) && ((Fetched h1 stC).objRanges 0).all fun r => !overlaps a (1 * 4096) r) = some 0x4000000000000 from by decide]
  simp only
  rw [if_neg (by decide), if_neg (by decide), if_neg (by decide), show max 1 (le ((Fetched h1 stC).tierMap 0) 2 2) = 1 from by decide,
    allocT2_stC 3 _ 1 (Or.inl (by decide))]; rfl
/-- A table created in T1, and its default row beside it. -/
def tOps : TableOps := { va := 0x2000 }
def tMade : State := ((Fetched h1 st1).allocT1 0 3 0x2000 1 none false (some (TagOf h1 st1))).get (by decide)
def tDflt : State := (tMade.allocT1 0 3 0 1 (some 0) false (some (TagOf h1 st1))).get (by decide)

theorem makeTable_st1 : ∃ t st l, (Fetched h1 st1).makeTable tOps 0 0 (zeros 64) (TagOf h1 st1) = .done t st l := by
  have a : (Fetched h1 st1).takeObj 0 3 1 0x2000 1 none false (some (TagOf h1 st1)) = .ok (tMade, 0x2000) := by
    unfold State.takeObj; simp only
    rw [if_neg (by decide), if_neg (by decide : ¬ (0x2000 : Nat) = 0)]; simp only
    rw [if_neg (by decide), if_neg (by decide), if_pos trivial,
      show (Fetched h1 st1).allocT1 0 3 0x2000 1 none false (some (TagOf h1 st1)) = some tMade from (Option.some_get (by decide)).symm]
  have d : tMade.takeObj 0 3 1 0 1 (some 0) false (some (TagOf h1 st1)) = .ok (tDflt, 0) := by
    unfold State.takeObj; simp only
    rw [if_neg (by decide), if_pos trivial, lowest_of (l := [0, 0x1000, 0x3000]) (by decide) (by decide),
      show ([0, 0x1000, 0x3000].find? fun a => inTier 1 a (1 * 4096) && (tMade.objRanges 0).all fun r => !overlaps a (1 * 4096) r) = some 0 from by decide]
    simp only
    rw [if_neg (by decide), if_neg (by decide), if_pos trivial,
      show tMade.allocT1 0 3 0 1 (some 0) false (some (TagOf h1 st1)) = some tDflt from (Option.some_get (by decide)).symm]
  have z (s : State) (n : Nat) (hn : n = 0) (k : Option Nat) : s.takeObj 0 3 1 0 n k false (some (TagOf h1 st1)) = .ok (s, 0) := by
    subst hn; unfold State.takeObj; exact if_pos rfl
  unfold State.makeTable; simp only
  rw [show (Fetched h1 st1).protFor 0 (tOps.protect == 1) = false from by decide, show (Fetched h1 st1).tierFor 0 3 tOps.tier.toNat = 1 from by decide,
    show tOps.va.toNat = 0x2000 from by decide, show units4 ((if tOps.rows = 0 then 2 ^ 32 else tOps.rows.toNat) * tOps.rowBytes.toNat) = 1 from by decide, a]
  simp only [Except.bind]
  rw [z _ _ (by decide)]; simp only
  rw [z _ _ (by decide)]; simp only
  rw [show units4 tOps.rowBytes.toNat = 1 from by decide, d]; simp only [Except.map, objThen]
  exact ⟨_, _, _, if_pos (by decide)⟩

/-- A table created in T2, whose object awaits device 2. -/
def tOps2 : TableOps := { table := 1, va := 0x4000000000000, tier := 2 }
def tMade2 : State := t2 3 0x4000000000000 1 1
def tDflt2 : State := (tMade2.allocT1 0 3 0 1 (some 0) false (some (TagOf h1 stC))).get (by decide)

theorem makeTable_stC : ∃ t, (Fetched h1 stC).makeTable tOps2 0 0 (zeros 64) (TagOf h1 stC) = .later t := by
  have a : (Fetched h1 stC).takeObj 0 3 2 0x4000000000000 1 none false (some (TagOf h1 stC)) = .ok (tMade2, 0x4000000000000) := by
    unfold State.takeObj; simp only
    rw [if_neg (by decide), if_neg (by decide : ¬ (0x4000000000000 : Nat) = 0)]; simp only
    rw [if_neg (by decide), if_neg (by decide), if_neg (by decide), show max 1 (le ((Fetched h1 stC).tierMap 0) 2 2) = 1 from by decide,
      allocT2_stC 3 _ 1 (Or.inl (by decide))]; rfl
  have d : tMade2.takeObj 0 3 1 0 1 (some 0) false (some (TagOf h1 stC)) = .ok (tDflt2, 0) := by
    unfold State.takeObj; simp only
    rw [if_neg (by decide), if_pos trivial, lowest_of (l := [0, 0x1000, 0x4000000001000]) (by decide) (by decide),
      show ([0, 0x1000, 0x4000000001000].find? fun a => inTier 1 a (1 * 4096) && (tMade2.objRanges 0).all fun r => !overlaps a (1 * 4096) r) = some 0 from by decide]
    simp only
    rw [if_neg (by decide), if_neg (by decide), if_pos trivial,
      show tMade2.allocT1 0 3 0 1 (some 0) false (some (TagOf h1 stC)) = some tDflt2 from (Option.some_get (by decide)).symm]
  have z (s : State) (n : Nat) (hn : n = 0) (k : Option Nat) : s.takeObj 0 3 1 0 n k false (some (TagOf h1 stC)) = .ok (s, 0) := by
    subst hn; unfold State.takeObj; exact if_pos rfl
  unfold State.makeTable; simp only
  rw [show (Fetched h1 stC).protFor 0 (tOps2.protect == 1) = false from by decide, show (Fetched h1 stC).tierFor 0 3 tOps2.tier.toNat = 2 from by decide,
    show tOps2.va.toNat = 0x4000000000000 from by decide, show units4 ((if tOps2.rows = 0 then 2 ^ 32 else tOps2.rows.toNat) * tOps2.rowBytes.toNat) = 1 from by decide, a]
  simp only [Except.bind]
  rw [z _ _ (by decide)]; simp only
  rw [z _ _ (by decide)]; simp only
  rw [show units4 tOps2.rowBytes.toNat = 1 from by decide, d]; simp only [Except.map, objThen]
  exact ⟨_, if_neg (by decide)⟩

/-- The composition without a model program. -/
def stD : State := { stC with img := { running := some { img2 with sections := [⟨4, 0xFF, 0, [0, 0, 0, 0, 0, 0, 0, 0, 1, 0, 0, 0]⟩] } } }

/-- A checkpoint of slice 0 on device 2. -/
def ck0 : CkImage := { slice := 0, ckpt := 3, step := 0, pkc := 0, clusters := 1, pcgs := 1, tableLog2 := 16, device := 1, count := 2, modelHash := none, committed := true }

/-- The module approved, and a policy of slice 0 that allows what one can allow. -/
def stM : State :=
  { (st1.setFld .secStatus 0 0 12 2 1) with
    img := { running := some { img1 with sections := img1.sections ++ [⟨8, 0, 0, [0x0E]⟩] } } }

/-- That device with bytes in host memory. -/
def hm (m : Mem) : State := { stM with host := { hostSt with mem := m } }

theorem all_ok (l : List (Option Xlate)) (h : l.all (fun x => x.all fun y => !y.prot && !y.ro) = true) :
    ∀ x ∈ l, ∀ y, x = some y → y.prot = false ∧ y.ro = false := by
  intro x hx y e
  have := List.all_eq_true.1 h x hx
  subst e; simpa using this

/-- A secure session stands, and the host's power is on. -/
def stS : State := { stM with pkg := { stM.pkg with conversion := true }, host := { hostSt with spdm := { version := true, capabilities := true, algorithms := true, secured := some [] }, ide := [(0, 2)] } }

/-- A kernel library of one kernel with all engines, 6 MiB of store and two records, the first of which starts with `b`. -/
def klib0 (b : Bytes) : Bytes :=
  [0, 0, 0, 0, 8, 0, 0, 0, 0x7F, 0, 0, 0, 40, 0, 0, 0, 64, 0, 0, 0, 0, 0, 0x60, 0] ++ zeros 16 ++ b ++ zeros (64 - b.length)

/-- An instance of that kernel on core 0, for the session at index 0, with what engine `e` has queued. -/
def inst0 : Inst := { slice := 0, kernel := 0, cls := .lc, sessions := [0] }
def stR (b : Bytes) (e : Nat) (q : List EngCmd) : State :=
  { st1 with
    img := { running := some { img1 with sections := img1.sections ++ [⟨6, 0, 0, klib0 b⟩, ⟨2, 0, 0, [0x7F]⟩] } }
    srv := { cores := [(0, { inst := some inst0, queues := [(e, q)] })], jobs := [(0, { program := 0, inStep := true, batch := [{ index := 0 }] })] } }

/-- One command of opcode `op` at the head of engine `e`. -/
def stE (e op : Nat) : State := stR [] e [{ op := op, setMask := 0 }]
def cmdE (op : Nat) : EngCmd := { op := op, setMask := 0 }

/-- A key and value page of 16 tokens of layer 0. -/
def page0 : KvPage := { layer := 0, log2 := 0, first := 0, elem := 0x10000, scale := 0, side := 0 }

/-- A job whose one waiting instance goes to core 0. -/
def jobP : Job := { program := 0, inStep := true, lcWait := [inst0] }
def stP : State := { stR [] 0 [] with srv := { jobs := [(0, jobP)] } }

theorem nextPlace_stP : stP.nextPlace jobP = some (inst0, 0, { jobP with lcWait := [] }) := by
  have c : stP.coreFor jobP inst0 = some 0 := by
    unfold State.coreFor; simp only
    rw [show stP.freeCores inst0.slice inst0.kernel = [0] from by decide, List.mergeSort_singleton]; decide
  unfold State.nextPlace
  rw [if_neg (by decide), show stP.firstPlace jobP jobP.partialWait = none from rfl,
    show stP.firstPlace jobP jobP.lcWait = some (inst0, 0, []) from by
      show stP.firstPlace jobP [inst0] = _
      unfold State.firstPlace; rw [c]]

/-- The same session with a request, every die released. -/
def stWa : State := { stW with pkg := stM.pkg, desc := [(0, { season := .winter, sessionId := 7, canvasTier := 1, active := { opcode := 1 } })] }

theorem thawChecks_stWa : stWa.thawChecks 0 = .ok canvas0 := by
  unfold State.thawChecks
  have e0 : (stWa.curProg (stWa.d 0).slice).isNone = false := by decide
  have e1 : stWa.canvasLost (stWa.d 0) = false := by decide
  have e2 : stWa.canvasFor (stWa.d 0) = some canvas0 := rfl
  have e3 : stWa.modelHash (stWa.d 0).slice = some canvas0.modelHash := rfl
  have e4 : firstFail ([(!canvas0.complete || canvas0.len != (stWa.d 0).canvasLen, eCanvasFormat), (!stWa.sealOk canvas0, eCanvasSeal),
      (!canvas0.hashOk, eCanvasHash)] ++ stWa.canvasCheck (stWa.d 0).slice (stWa.d 0).sessionId canvas0 ++
      [((stWa.freeWindow (stWa.d 0).slice).isNone, eNoWindow),
       ((stWa.thawRoom 0 canvas0).isNone || ((stWa.d 0).pageBudget != 0 && (stWa.d 0).pageBudget < canvas0.pages.length), eThawNoRoom)]) = none := by
    unfold State.canvasCheck; rw [e3]; simp only [bne_self_eq_false]; decide
  simp only [e0, e1, e2, e4, Bool.false_eq_true, if_false]

/-- A canvas operation at index 0, and the device that has it under way, its session in the season given. -/
def op0 (kind tier : Nat) : CanvasOp := { index := 0, kind := kind, lc := true, canvas := { sessionId := 7 }, tier := tier, addr := 0, todo := [], small := false }
def stO (d : Season) (o : CanvasOp) : State := { stM with desc := [(0, { season := d, sessionId := 7, windowBase := 0x8000000000000 })], cnv := { ops := [o] } }
def hand0 (giver : Bool) : Handoff := { index := 0, giver := giver, peer := 2, peerSlice := 0, epoch := 1, step := 4, since := 0, sid := 7 }

/-- A thaw that streams one page of 16 tokens. -/
def cpage : CanvasPage := ⟨0, 0, 0, 16, false, false, [], false⟩
def opS : CanvasOp := { op0 2 1 with canvas := { sessionId := 7, pages := [cpage] }, todo := [0], streaming := true }

/-- A checkpoint of slice 0 in a phase, its target beside it. -/
def ckp (p : CkPhase) : Ckpt := { slice := 0, num := 3, phase := p, pcgs := [0], image := ck0 }
def stK (p : CkPhase) : State := { stM with ck := { flight := [ckp p], targets := [{ slice := 0, members := [(2, some 0)] }] } }

/-- The composition with port BX0 active towards device 2, a pool range of four units that device 2 owns and a shared table. -/
def tabS : Table := { tab0 with shared := true }
def stX : State := { stC with net := { ports := [(0, { state := 3, peerDev := 2 })] }, pool := [⟨2, 4, 2, 0, 0, false⟩], mem := { objects := [obj0] }, ret := { tables := [tabS] } }

/-- A header from device 2 that names no slice, and one that names slice 0. -/
def tx : TxHdr := { src := 2, tag := 1, epoch := 1 }
def tx0 : TxHdr := { tx with slice := 0 }

/-- A request of this device to device 2 that is outstanding. -/
def out0 : Txn := { dev := 2, tag := 1, type := 1, op := 0, slice := 0, args := [], payload := [], first := 0, last := 0, purpose := .none }

/-- That device with a session of identifier 7 at index 0. -/
def stXs (d : Desc) : State := { stX with desc := [(0, { d with sessionId := 7 })] }

/-- The same device with 2 MiB of its memory in the pool. -/
def stXp : State := { stX with pool := [], img := { running := some { img2 with sections := [⟨4, 0xFF, 0, [0, 0, 0, 0, 0, 0, 0, 0, 1, 0, 0, 0]⟩, ⟨4, 0, 0, [2]⟩, ⟨3, 0, 0, [0, 0, 0, 0, 1, 0, 0, 0, 0, 0, 0, 0, 1, 0, 0, 0]⟩] } } }

/-- What the general checks ask of a command of parameters of the given widths. -/
def csI (ws : List Nat) : CmdSpec := { widths := ws }

/-- An event queue of 16 records whose tail is given. -/
def stEq (tail : Nat) : State := { st with host := { hostSt with eqs := [(0, ⟨0, 4, 0x4000, 0, tail, true, 0, false, false⟩)] } }

/-- A device that nothing is allocated on, its module loaded. -/
def stN : State := st1.setFld .secStatus 0 0 12 2 1

theorem leafAt_stN (sl a : Nat) : stN.leafAt sl a = none := by
  unfold State.leafAt
  split
  · rfl
  · rfl
  · split <;> rfl

theorem xlate_stN (sl a : Nat) : stN.xlate sl a = none := by
  unfold State.xlate
  split
  · rfl
  · rw [leafAt_stN]; rfl

theorem accessWait_stN (sl a n : Nat) (w : Bool) : stN.accessWait sl a n w = none := by
  have f : ∀ (l : List Nat) (b : Access), b = .ok ∨ (∃ v c, b = .fault v c) →
      ((l.map (stN.accessAt sl w)).foldl (fun a b => if a = .ok then b else a) b = .ok ∨
        ∃ v c, (l.map (stN.accessAt sl w)).foldl (fun a b => if a = .ok then b else a) b = .fault v c) := by
    intro l
    induction l with
    | nil => exact fun b h => h
    | cons x l ih =>
      intro b h
      refine ih _ ?_
      dsimp only
      split
      · refine Or.inr ⟨x, eXlate, ?_⟩
        unfold State.accessAt; rw [xlate_stN]
      · exact h
  have g : stN.guarded sl a n = none := by
    unfold State.guarded
    rw [List.findSome?_eq_none_iff]
    intro x _
    split
    · rfl
    · rfl
  have u : stN.unshare sl a n = some stN := by
    unfold State.unshare
    generalize ((unitsOf a n).filterMap windowOf).eraseDups = l
    induction l with
    | nil => rfl
    | cons x l ih => rw [List.foldl_cons]; exact ih
  unfold State.accessWait State.access
  rcases f (unitsOf a n) .ok (Or.inl rfl) with e | ⟨v, c, e⟩ <;> simp only [e, u, Option.isNone_some, Bool.false_eq_true, and_false, if_false]
  · rw [g]; split <;> rfl

/-- A park at index 0 whose one page a writer waits for, its engines without power. -/
def opG : CanvasOp := { op0 1 1 with todo := [0] }
def stG : State :=
  { stO .autumn opG with pkg := { ready := true }, mem := { kv := [(0, { pages := [page0] })] }, cnv := { ops := [opG], prio := [0x10000] } }

theorem copySets_stG :
    let v := stG.ceFill
    (((v.copySets 0x10000).filter fun x => v.ceHolds x.1 (x.2 + 1)).foldl (fun v x => v.prioCopied 0x10000 x) v).copySets 0x10000 ≠ [] := by
  have e : stG.ceFill = stG := rfl
  simp only [e]
  have c : stG.copySets 0x10000 = [(opG, 0)] := by
    unfold State.copySets
    rw [show stG.cnv.ops.filter (fun o => (o.kind == 1 || o.kind == 3) && !o.waiting) = [opG] from rfl]
    simp only [List.flatMap_cons, List.flatMap_nil, List.append_nil]
    have k : (stG.kvOf opG.index).ordered (((stG.curProg (stG.d opG.index).slice).map (·.layers)).getD 0) = [page0] := by
      rw [show ((stG.curProg (stG.d opG.index).slice).map (·.layers)).getD 0 = 1 from by decide]
      unfold SessKv.ordered
      rw [show List.range 1 = [0] from rfl]
      simp only [List.flatMap_cons, List.flatMap_nil, List.append_nil]
      rw [show (stG.kvOf opG.index).pages.filter (fun p => p.layer == 0) = [page0] from by decide, List.mergeSort_singleton]
    rw [k]; rfl
  rw [c, show [(opG, 0)].filter (fun x => stG.ceHolds x.1 (x.2 + 1)) = [] from rfl, List.foldl_nil, c]
  exact List.cons_ne_nil _ _

/-- A session with one page of 16 tokens, and an APPEND at the head of core 0's quantisation engine. -/
def stA : State := { stE 4 1 with pkg := stM.pkg, mem := { kv := [(0, { pages := [page0] })] } }

theorem cutAt_stA : ∀ k < (1 : U16).toNat, ∀ pg, (stA.kvOf (0 : BitVec 24).toNat).pageOf (0 : U8).toNat
    (stA.appendFrom (0 : BitVec 24).toNat (0 : U16).toNat + k) = some pg → stA.cutAt ((0 : BitVec 9).toNat / 64) pg.elem = false := by
  intro k hk pg h
  obtain rfl : k = 0 := by simpa using hk
  have e : pg = page0 := Option.some.inj (h.symm.trans rfl)
  subst e; decide

/-! ## Well-formed commands: each check refuses an ill-formed one -/

theorem test_die_20_refused : Instr.wf (.thermalTrip 20) = false ∧ Instr.wf (.thermalTrip 19) = true := by decide
theorem test_port_48_refused : Instr.wf (.rekeyDone 48) = false ∧ Instr.wf (.rekeyDone 47) = true := by decide
theorem test_pll_21_refused : Instr.wf (.pllLockLoss 21) = false ∧ Instr.wf (.pllLockLoss 20) = true := by decide
theorem test_bridge_34_refused : Instr.wf (.bridgeDown 34) = false ∧ Instr.wf (.bridgeDown 33) = true := by decide
theorem test_tx_port_refused : Instr.wf (.readTxn { port := 48 }) = false ∧ Instr.wf (.readTxn {}) = true := by decide
theorem test_quorum_twice_refused :
    Instr.wf (.propose {} { op := 1, qlist := [3, 3] }) = false ∧ Instr.wf (.propose {} { op := 1, qlist := [3, 4] }) = true := by decide
theorem test_link_width_3_refused :
    Instr.wf (.perstNDeassert 3 5 true true) = false ∧ Instr.wf (.perstNDeassert 8 6 true true) = true := by decide
theorem test_link_speed_7_refused : Instr.wf (.perstNDeassert 8 7 true true) = false := by decide
theorem test_symbol_136_refused : Instr.wf (.patrolRead 0 [(136, 1)]) = false ∧ Instr.wf (.patrolRead 0 [(135, 1)]) = true := by decide
theorem test_symbol_unchanged_refused : Instr.wf (.patrolRead 0 [(1, 0)]) = false := by decide
theorem test_symbol_twice_refused : Instr.wf (.patrolRead 0 [(1, 1), (1, 2)]) = false := by decide
theorem test_jtag_unit_refused : Instr.wf (.jtagAccess .bypass (.cipherPipe 20)) = false ∧ Instr.wf (.jtagAccess .bypass .rt) = true := by decide
theorem test_selftest_0_refused : Instr.wf (.selftestFailure 0 0) = false ∧ Instr.wf (.selftestFailure 0 11) = true := by decide
theorem test_kem_length_refused : Instr.wf (.kemStart []) = false := by decide
theorem test_regulator_10_refused : Instr.wf (.regCfgWrite 0 0 10 0) = false ∧ Instr.wf (.regCfgWrite 0 0 9 0) = true := by decide
theorem test_bar4_empty_write_refused : Instr.wf (.bar4Access 1 true 0 0 0 []) = false := by decide

/-- A payload of more than 16 KiB is none (R359). -/
theorem test_payload_refused (b : Bytes) (h : b.length = 16385) : Instr.wf (.writeTxn {} b) = false := by
  simp [Instr.wf, dataOk, h]

/-! ## The spec's worked examples -/

/-- The BAR0 offsets of the example in the register map chapter. -/
theorem test_bar0_offsets : Reg.heldLimit.addr 2 0 = 0x090094 ∧ Reg.mtrSel.addr 2 5 = 0x101150 ∧ Reg.portStatus.addr 37 0 = 0x2200504 ∧
    Reg.mcCe1.addr 6 0 = 0x160001C ∧ Reg.ceBytesLo.addr 5 0 = 0x1510014 := by decide

/-- The PARK descriptor of the example: operands from byte 0x08 on, to byte 0x24. -/
theorem test_park_operands : (packBytes [(64, 0x02051300_1234), (2, 1), (1, 0), (1, 1)]).take 9 = [0x34, 0x12, 0, 0x13, 5, 2, 0, 0, 9] ∧
    packLen [64, 2, 1, 1, 64, 32] = 0x24 - 8 := by decide

/-- COMP_CHANGE packs 70 bytes, and IMAGE_LOAD has MODE at byte 0x14. -/
theorem test_comp_change_length : packLen [3, 16, 6, 2, 256, 64, 1, 112] = 70 ∧ packLen [64, 32, 2] = 0x14 - 8 + 1 := by decide

/-- The windows of D-88: element, scale and sidecar bytes of a token, and the areas of layer 5. -/
theorem test_d88_geometry : ({ Prog.geom ⟨88, 8, 64, 128, 128, 0, false, 8, 0, 8192, 0, 0, 0, 0, 0⟩ with cap := stretchCap (88 * 1120) } : Geom) = ⟨88, 1024, 64, 32, 2 ^ 20⟩ := by decide
theorem test_d88_areas : let g : Geom := ⟨88, 1024, 64, 32, 2 ^ 20⟩
    g.areaAt 0 5 = 0x1_4500_0000 ∧ g.areaAt 0 5 + 4096 * 1024 = 0x1_4540_0000 ∧ g.areaAt 0 5 + 6016 * 1024 = 0x1_455E_0000 ∧
      g.areaAt 1 5 + 4096 * 64 = 0x16_6C54_0000 := by decide

/-- The growth pages of a D-88 layer under a maximum of 4,096 tokens. -/
theorem test_growth_pages : (List.range 11).map (pageFirst · 8) = [0, 16, 48, 112, 240, 496, 1008, 2032, 4080, 8176, 12272] ∧ pagesFor 32768 8 = 16 := by decide

/-- An MXFP4 block whose largest element is 7.0, and a 5.0 in it. -/
theorem test_mxfp4_block : let b := quantBlock 0 (fun _ => false) (fun _ => rne) [.fin 7 0, .fin 5 0]
    b = ⟨0x7F, [7, 6], 1⟩ := by decide

/-- The packed block of a BF16 weight row. -/
def packEx : List Nat := (List.range 64).map fun i =>
  if i = 9 then 0xBF20 else if i = 17 then 0 else if i = 40 then 113 * 128 else if i = 5 then 0x3CCA else (120 + i % 4) * 128
theorem test_packed_block : let b := packBlock packEx
    b.length = 88 ∧ b.take 2 = [0x78, 0x0C] ∧ (b.drop 2)[5]? = some 0x4A ∧ (b.drop 2)[9]? = some 0xA0 ∧
      [b[66]?, b[68]?, b[70]?, b[76]?] = [some 0xE4, some 0xE0, some 0xE0, some 0xE4] ∧
      b.drop 82 = [0x89, 0x5F, 0x04, 0x80, 0xC6, 0x01] := by decide
theorem test_packed_block_back : unpackBlock (packBlock packEx) = some packEx := by decide

/-- The colours of the fifteen requests at one BE meter, 40 ns apart, and what the first four leave in the buckets. -/
def meterRun (n : Nat) : List (Nat × Int × Int) :=
  ((List.range n).foldl (fun (a : List (Nat × Int × Int) × Bucket × Bucket) k =>
    let r := colourOf false 0 4096 (a.2.1.fill 20000 16384000 (40 * k)) (a.2.2.fill 40000 32768000 (40 * k))
    (a.1 ++ [(r.1, r.2.1.level, r.2.2.level)], r.2.1, r.2.2)) ([], fullBucket 16384000 0, fullBucket 32768000 0)).1
theorem test_meter_colours : (meterRun 15).map (·.1) = [0, 0, 0, 0, 1, 1, 0, 1, 1, 1, 1, 0, 2, 1, 2] := by decide
theorem test_meter_levels : ((meterRun 15).map (·.2)).drop 11 =
    [(608000, 1216000), (1408000, 2816000), (2208000, 320000), (3008000, 1920000)] := by decide

/-- A slice of all 64 clusters and PCGs, 2^24 descriptors in the session table. -/
def stF : State := { st with img := { running := some { slices := [(0, ⟨2 ^ 64 - 1, 2 ^ 64 - 1, 0⟩)], tableLog2 := 24 } } }

/-- The prefill share of that slice under the default bounds. -/
theorem test_prefill_share : stF.shareMin 0 = 6 ∧ stF.shareMax 0 = 45 ∧ stF.prefillRanks 0 6 = [63, 62, 61, 60, 59, 58] ∧
    judgeShare 6 6 45 40000 52000 900 120 0 = 7 := by decide

/-- Parts 37 and 150 of the stage that is placed over the 58 decode clusters: cores 5.4.0 and 2.4.2. -/
theorem test_dispatch_ranks : dispatchRank 352 = 37 ∧ dispatchRank 162 = 64 * 2 + 34 ∧ clusterRank 162 = 34 := by decide

/-- The reserve of a PCG, and the stack of a physical address. -/
theorem test_reserve : reservePerPcg 24 = 66 * 2 ^ 20 ∧ 32 * (pcgGeneral - reservePerPcg 24) = 341952 * 2 ^ 20 := by decide
theorem test_stack_of : stF.stackOf 0xA123456A00 = 1 := by decide

/-- The image of one checkpoint of a slice with all 64 PCGs: frames, parts and size in 64 KiB units. -/
theorem test_checkpoint_size : ckTableBytes 175079424 = 5343 * 2 ^ 20 ∧ ckMetaBytes 24 = 4352 * 2 ^ 20 ∧ 1000 * ckUnits 175079424 24 = 693599125 * 16 := by decide

/-- The arrays of memory index M-1. -/
def m1 : Index := indexOf { dims := 1024, vformat := 0, rformat := 8, metric := 1, degree0 := 32, degree := 16, levels := 8, attrBytes := 8, capacity := 0x10000000, upperCap := 0x2000000 } 0 8 0
theorem test_index_arrays : m1.sizes = [128 * 2 ^ 30, 8 * 2 ^ 30, 4 * 2 ^ 30, 2 * 2 ^ 30, 32 * 2 ^ 30, 2 * 2 ^ 30] ∧ m1.bytes = 176 * 2 ^ 30 ∧ m1.rbytes = 512 * 2 ^ 30 := by decide

/-! ## One command each -/

/-- The state after a command. -/
def nxt : Host.Outcome State Fault Refusal → State
  | .next t => t
  | _ => State.reset

/-- A read of PKC_LO answers the low half of PKC, and the read of PKC_HI after it the half that stood then (R30). -/
def stPkc : State := { st with pkg := { pkc := 0x500000007 } }
def stRead : State := nxt (exec (.pkcLoRead 0) stPkc)
theorem test_pkc_lo_read : stRead.host.out.head? = some (.readData 0 [7, 0, 0, 0]) := by decide
theorem test_pkc_hi_latched :
    (nxt (exec (.loReadLatch 0 (BitVec.ofNat 26 (Reg.pkcHi.addr 0 0))) { stRead with pkg := { pkc := 0x900000000 } })).host.out.head? =
      some (.readData 0 [5, 0, 0, 0]) := by decide

/-- NOP of PF1 completes: SQ 1, its head now 1, CID 5, STATUS and INFO 0, PHASE 1 (R461). -/
theorem test_nop_completes : memRead (nxt (exec (.nop h1) st)).host.mem 0x1010 16 = [1, 0, 1, 0, 5, 0, 0, 0, 0, 0, 0, 0, 1, 0, 0, 0] := by decide

/-- NOP with a reserved bit set is rejected with E_RESERVED_SET and the bit's offset in INFO (R454). -/
theorem test_nop_reserved : memRead (nxt (exec (.nop { h1 with rsvd := some 3 }) st)).host.mem 0x1014 8 =
    [5, 0] ++ bytesOf 2 eReservedSet ++ [3, 0, 0, 0] := by decide

/-- A step takes the front of the queue and leaves the rest. -/
theorem test_step_takes_front : (nxt (step { stPkc with pending := [.pkcLoRead 0, .pkcLoRead 1] })).pending = [.pkcLoRead 1] := by decide

/-! ## What the statements ask can be met -/

/-- What clause 1 of `QueueCommandsComplete` asks can be met. -/
theorem witness_queue_commands_complete_1 :
    ∃ (h : Hdr) (s : State),
    Accepts { fns := .any, hibernate := true, noImage := true, recovery := true } h s :=
  ⟨h0, st, by decide⟩

/-- What clause 2 of `QueueCommandsComplete` asks can be met. -/
theorem witness_queue_commands_complete_2 :
    ∃ (h : Hdr) (qid cqid : U16) (log2 : BitVec 5) (base : U64) (s : State) (c : Cq),
    Accepts { fns := .any, admin := true, widths := [16, 16, 5, 64], hibernate := true, noImage := true } h s ∧
    64 ≤ qid.toNat ∧
    qid.toNat ≤ 4095 ∧
    4 ≤ log2.toNat ∧
    log2.toNat ≤ 16 ∧
    base.toNat % 4096 = 0 ∧
    tabGet (Fetched h s).host.cqs cqid.toNat = some c ∧
    c.fn = h.fn.toNat ∧
    tabGet (Fetched h s).host.sqs qid.toNat = none :=
  ⟨h0, 64, 0, 4, 0x1000, st, ⟨0, 4, 0x1000, 0, true, 0, true, 0, false, 1⟩, by decide⟩

/-- What clause 3 of `QueueCommandsComplete` asks can be met. -/
theorem witness_queue_commands_complete_3 :
    ∃ (h : Hdr) (qid : U16) (s : State) (q : Sq),
    Accepts { fns := .any, admin := true, widths := [16], hibernate := true, noImage := true } h s ∧
    64 ≤ qid.toNat ∧
    qid.toNat ≤ 4095 ∧
    tabGet (Fetched h s).host.sqs qid.toNat = some q ∧
    q.fn = h.fn.toNat :=
  ⟨h0, 64, { st with host := { hostSt with sqs := hostSt.sqs ++ [(64, ⟨0, 0, 4, 0, 0, 0⟩)] } }, ⟨0, 0, 4, 0, 0, 0⟩, by decide⟩

/-- What clause 4 of `QueueCommandsComplete` asks can be met. -/
theorem witness_queue_commands_complete_4 :
    ∃ (h : Hdr) (qid : U16) (log2 : BitVec 5) (vector : BitVec 11) (ien : U1) (base : U64) (s : State),
    Accepts { fns := .any, admin := true, widths := [16, 5, 11, 1, 64], hibernate := true, noImage := true } h s ∧
    64 ≤ qid.toNat ∧
    qid.toNat ≤ 4095 ∧
    4 ≤ log2.toNat ∧
    log2.toNat ≤ 16 ∧
    base.toNat % 4096 = 0 ∧
    vector.toNat < (if h.fn.toNat < 2 then 2048 else 256) ∧
    tabGet (Fetched h s).host.cqs qid.toNat = none :=
  ⟨h0, 4095, 16, 2047, 1, 0, st, by decide⟩

/-- What clause 5 of `QueueCommandsComplete` asks can be met. -/
theorem witness_queue_commands_complete_5 :
    ∃ (h : Hdr) (qid : U16) (s : State) (c : Cq),
    Accepts { fns := .any, admin := true, widths := [16], hibernate := true, noImage := true } h s ∧
    64 ≤ qid.toNat ∧
    qid.toNat ≤ 4095 ∧
    tabGet (Fetched h s).host.cqs qid.toNat = some c ∧
    c.fn = h.fn.toNat ∧
    c.outstanding = 0 ∧
    (∀ x ∈ (Fetched h s).host.sqs, x.2.cq ≠ qid.toNat) :=
  ⟨h0, 4095, { st with host := { hostSt with cqs := hostSt.cqs ++ [(4095, ⟨0, 4, 0, 0, true, 0, true, 0, false, 0⟩)] } },
    ⟨0, 4, 0, 0, true, 0, true, 0, false, 0⟩, by decide⟩

/-- What clause 6 of `QueueCommandsComplete` asks can be met. -/
theorem witness_queue_commands_complete_6 :
    ∃ (h : Hdr) (slice : BitVec 6) (device : U1) (log2 : BitVec 5) (base : U64) (vector : BitVec 11) (s : State) (q : Nat),
    Accepts { fns := .any, admin := true, widths := [6, 1, 5, 64, 11], hibernate := true, noImage := true } h s ∧
    eqNumber h.fn.toNat slice.toNat device.toNat = some q ∧
    (device = 0 → (Fetched h s).defined q = true) ∧
    6 ≤ log2.toNat ∧
    log2.toNat ≤ 16 ∧
    base.toNat % 4096 = 0 ∧
    vector.toNat < (if h.fn.toNat < 2 then 2048 else 256) ∧
    tabGet (Fetched h s).host.eqs q = none :=
  ⟨h0, 0, 1, 6, 0x1000, 2047, st, 64, by decide⟩

/-- What clause 7 of `QueueCommandsComplete` asks can be met. -/
theorem witness_queue_commands_complete_7 :
    ∃ (h : Hdr) (slice : BitVec 6) (device : U1) (s : State) (q : Nat) (e : Evq),
    Accepts { fns := .any, admin := true, widths := [6, 1], hibernate := true, noImage := true } h s ∧
    eqNumber h.fn.toNat slice.toNat device.toNat = some q ∧
    (device = 0 → (Fetched h s).defined q = true) ∧
    tabGet (Fetched h s).host.eqs q = some e ∧
    e.fn = h.fn.toNat :=
  ⟨h0, 0, 1, { st with host := { hostSt with eqs := [(64, ⟨0, 6, 0, 0, 0, true, 0, false, false⟩)] } }, 64,
    ⟨0, 6, 0, 0, 0, true, 0, false, false⟩, by decide⟩

/-- What clause 1 of `SessionCommandsComplete` asks can be met. -/
theorem witness_session_commands_complete_1 :
    ∃ (h : Hdr) (r : ReqOps) (s : State) (i : Nat) (q : TRing),
    let u := Fetched h s
    let d := u.d i
    Accepts { entry := handleNode r.handle } h s ∧
    u.tailHandle h.fn.toNat r.handle = .ok i ∧
    u.closing i = false ∧
    (¬ (d.active.requestId = r.requestId ∧ d.active ≠ {})) ∧
    (¬ (d.pending.live = true ∧ d.pending.requestId = r.requestId ∧ d.pending ≠ {})) ∧
    (¬ (d.active.live = true ∧ d.pending.live = true)) ∧
    r.rflags.toNat < 8 ∧
    kindBad r = false ∧
    u.tring d.slice r.tokenRing.toNat = some q ∧
    u.ringOfOther d.slice i r.tokenRing.toNat = false ∧
    (d.active.names r.tokenRing.toNat = true → 2 ≤ q.credit) ∧
    samplerBad r.temp r.topP r.topK.toNat = false ∧
    (r.deadline = 0 ∨ u.pkc < r.deadline.toNat) ∧
    (¬ (d.season = .autumn ∧ d.op = .parkOwn)) :=
  ⟨h1, { kind := 2, maxNew := 1, rflags := 7, handle := hd, requestId := 1, topP := 0x3C00, topK := 1024 },
    { sx { season := .autumn } with srv := { rings := [(0, ring0)] } }, 0, ring0, by decide⟩

/-- What clause 2 of `SessionCommandsComplete` asks can be met. -/
theorem witness_session_commands_complete_2 :
    ∃ (h : Hdr) (r : ReqOps) (s : State) (i : Nat) (q : TRing),
    let u := Fetched h s
    let d := u.d i
    Accepts { entry := handleNode r.handle } h s ∧
    u.tailHandle h.fn.toNat r.handle = .ok i ∧
    u.closing i = false ∧
    (¬ (d.active.requestId = r.requestId ∧ d.active ≠ {})) ∧
    (¬ (d.pending.live = true ∧ d.pending.requestId = r.requestId ∧ d.pending ≠ {})) ∧
    (¬ (d.active.live = true ∧ d.pending.live = true)) ∧
    r.rflags.toNat < 8 ∧
    kindBad r = false ∧
    u.tring d.slice r.tokenRing.toNat = some q ∧
    u.ringOfOther d.slice i r.tokenRing.toNat = false ∧
    (d.active.names r.tokenRing.toNat = true → 2 ≤ q.credit) ∧
    samplerBad r.temp r.topP r.topK.toNat = false ∧
    (r.deadline = 0 ∨ u.pkc < r.deadline.toNat) ∧
    (d.season = .autumn ∧ d.op = .parkOwn) :=
  ⟨h1, { kind := 1, inputLen := 1, inputAddr := 4, handle := hd, requestId := 1, topP := 0x3C00, deadline := 1 },
    { sx { season := .autumn, op := .parkOwn } with srv := { rings := [(0, ring0)] } }, 0, ring0, by decide⟩

/-- What clause 3 of `SessionCommandsComplete` asks can be met. -/
theorem witness_session_commands_complete_3 :
    ∃ (u : State) (i : Nat) (r : Request),
    (u.d i).active.live = true :=
  ⟨sx { active := { opcode := 1 } }, 0, {}, by decide⟩

/-- What clause 4 of `SessionCommandsComplete` asks can be met. -/
theorem witness_session_commands_complete_4 :
    ∃ (u : State) (i : Nat) (r : Request),
    (u.d i).active.live = false :=
  ⟨st, 0, {}, by decide⟩

/-- What clause 5 of `SessionCommandsComplete` asks can be met. -/
theorem witness_session_commands_complete_5 :
    ∃ (h : Hdr) (o : OpenOps) (s : State) (i : Nat),
    let u := Fetched h s
    let sl := cmdSlice h.fn.toNat o.slice.toNat
    s.gessoWaits sl = false ∧
    Accepts { widths := [6, 1, 64, 16, 16, 32, 16, 64, 32, 8], entry := s.openNode } h s ∧
    u.defined sl = true ∧
    u.loading sl = false ∧
    firstFail (u.openChecks sl o) = none ∧
    u.emptyIndex = some i :=
  ⟨h1, { sessionId := 7 }, st1, 0, by decide⟩

/-- What clause 6 of `SessionCommandsComplete` asks can be met. -/
theorem witness_session_commands_complete_6 :
    ∃ (h : Hdr) (handle : U64) (s : State) (i : Nat),
    let u := Fetched h s
    let d := u.d i
    Accepts { widths := [64], entry := handleNode handle } h s ∧
    u.closeHandle h.fn.toNat handle = .ok i ∧
    u.closing i = false ∧
    ((d.season = .autumn ∧ (d.op = .none ∨ d.op = .parkHost ∨ d.op = .parkOwn)) ∨ d.season = .summer ∨ (d.season = .spring ∧ d.op = .thaw) ∨ (d.season = .winter ∧ d.op = .none)) ∧
    d.season = .autumn ∧
    d.op = .none :=
  ⟨h1, hd, sx { season := .autumn }, 0, by decide⟩

/-- What clause 7 of `SessionCommandsComplete` asks can be met. -/
theorem witness_session_commands_complete_7 :
    ∃ (h : Hdr) (handle : U64) (s : State) (i : Nat),
    let u := Fetched h s
    let d := u.d i
    Accepts { widths := [64], entry := handleNode handle } h s ∧
    u.closeHandle h.fn.toNat handle = .ok i ∧
    u.closing i = false ∧
    ((d.season = .autumn ∧ (d.op = .none ∨ d.op = .parkHost ∨ d.op = .parkOwn)) ∨ d.season = .summer ∨ (d.season = .spring ∧ d.op = .thaw) ∨ (d.season = .winter ∧ d.op = .none)) ∧
    d.season = .autumn ∧
    d.op = .parkHost :=
  ⟨h1, hd, sx { season := .autumn, op := .parkHost }, 0, by decide⟩

/-- What clause 8 of `SessionCommandsComplete` asks can be met. -/
theorem witness_session_commands_complete_8 :
    ∃ (h : Hdr) (handle : U64) (s : State) (i : Nat),
    let u := Fetched h s
    let d := u.d i
    Accepts { widths := [64], entry := handleNode handle } h s ∧
    u.closeHandle h.fn.toNat handle = .ok i ∧
    u.closing i = false ∧
    ((d.season = .autumn ∧ (d.op = .none ∨ d.op = .parkHost ∨ d.op = .parkOwn)) ∨ d.season = .summer ∨ (d.season = .spring ∧ d.op = .thaw) ∨ (d.season = .winter ∧ d.op = .none)) ∧
    d.season = .autumn ∧
    d.op = .parkOwn :=
  ⟨h1, hd, sx { season := .autumn, op := .parkOwn }, 0, by decide⟩

/-- What clause 9 of `SessionCommandsComplete` asks can be met. -/
theorem witness_session_commands_complete_9 :
    ∃ (h : Hdr) (handle : U64) (s : State) (i : Nat),
    let u := Fetched h s
    let d := u.d i
    Accepts { widths := [64], entry := handleNode handle } h s ∧
    u.closeHandle h.fn.toNat handle = .ok i ∧
    u.closing i = false ∧
    ((d.season = .autumn ∧ (d.op = .none ∨ d.op = .parkHost ∨ d.op = .parkOwn)) ∨ d.season = .summer ∨ (d.season = .spring ∧ d.op = .thaw) ∨ (d.season = .winter ∧ d.op = .none)) ∧
    d.season = .summer :=
  ⟨h1, hd, sx { season := .summer }, 0, by decide⟩

/-- What clause 10 of `SessionCommandsComplete` asks can be met. -/
theorem witness_session_commands_complete_10 :
    ∃ (h : Hdr) (handle : U64) (s : State) (i : Nat),
    let u := Fetched h s
    let d := u.d i
    Accepts { widths := [64], entry := handleNode handle } h s ∧
    u.closeHandle h.fn.toNat handle = .ok i ∧
    u.closing i = false ∧
    ((d.season = .autumn ∧ (d.op = .none ∨ d.op = .parkHost ∨ d.op = .parkOwn)) ∨ d.season = .summer ∨ (d.season = .spring ∧ d.op = .thaw) ∨ (d.season = .winter ∧ d.op = .none)) ∧
    d.season = .spring :=
  ⟨h1, hd, sx { season := .spring, op := .thaw }, 0, by decide⟩

/-- What clause 11 of `SessionCommandsComplete` asks can be met. -/
theorem witness_session_commands_complete_11 :
    ∃ (h : Hdr) (handle : U64) (s : State) (i : Nat),
    let u := Fetched h s
    let d := u.d i
    Accepts { widths := [64], entry := handleNode handle } h s ∧
    u.closeHandle h.fn.toNat handle = .ok i ∧
    u.closing i = false ∧
    ((d.season = .autumn ∧ (d.op = .none ∨ d.op = .parkHost ∨ d.op = .parkOwn)) ∨ d.season = .summer ∨ (d.season = .spring ∧ d.op = .thaw) ∨ (d.season = .winter ∧ d.op = .none)) ∧
    d.season = .winter :=
  ⟨h1, hd, sx { season := .winter }, 0, by decide⟩

/-- What clause 12 of `SessionCommandsComplete` asks can be met. -/
theorem witness_session_commands_complete_12 :
    ∃ (h : Hdr) (handle : U64) (tier : BitVec 2) (deep compress : U1) (hostAddr : U64) (hostLen : U32) (s : State) (i : Nat) (x : U64 × List Nat),
    let u := Fetched h s
    let d := u.d i
    let tr := if tier = 0 then u.winterTier d.slice else tier.toNat
    Accepts { widths := [64, 2, 1, 1, 64, 32], entry := handleNode handle } h s ∧
    u.tailHandle h.fn.toNat handle = .ok i ∧
    u.closing i = false ∧
    d.season = .autumn ∧
    d.op = .none ∧
    d.liveReq = false ∧
    (tr = 3 → hostAddr.toNat % 4096 = 0 ∧ u.rawUnits i (deep == 1) ≤ hostLen.toNat) ∧
    u.parkTarget i tr (deep == 1) hostAddr = .ok x :=
  ⟨h1, hd, 3, 0, 0, 0x1000, 16, sx { season := .autumn }, 0, (0x1000, []), by exact ⟨by decide, by decide, by decide, by decide, by decide, by decide, fun _ => ⟨by decide, rawUnits_sx⟩, by decide⟩⟩

/-- What clause 13 of `SessionCommandsComplete` asks can be met. -/
theorem witness_session_commands_complete_13 :
    ∃ (u : State) (i : Nat) (o : RingOps) (f : State → Nat → State),
    (u.d i).ringPos = 0 :=
  ⟨sx {}, 0, { kind := 1, sid := 7 }, fun s _ => s, by decide⟩

/-- What clause 14 of `SessionCommandsComplete` asks can be met. -/
theorem witness_session_commands_complete_14 :
    ∃ (h : Hdr) (handle : U64) (stream : U1) (s : State) (i : Nat),
    let u := Fetched h s
    let d := u.d i
    Accepts { widths := [64, 1], entry := handleNode handle } h s ∧
    u.tailHandle h.fn.toNat handle = .ok i ∧
    u.closing i = false ∧
    u.loading d.slice = false ∧
    d.season = .autumn ∧
    d.op = .parkHost :=
  ⟨h1, hd, 0, sx { season := .autumn, op := .parkHost }, 0, by decide⟩

/-- What clause 15 of `SessionCommandsComplete` asks can be met. -/
theorem witness_session_commands_complete_15 :
    ∃ (h : Hdr) (handle : U64) (stream : U1) (s : State) (i : Nat),
    let u := Fetched h s
    let d := u.d i
    Accepts { widths := [64, 1], entry := handleNode handle } h s ∧
    u.tailHandle h.fn.toNat handle = .ok i ∧
    u.closing i = false ∧
    u.loading d.slice = false ∧
    d.season = .autumn ∧
    d.op = .parkOwn :=
  ⟨h1, hd, 0, sx { season := .autumn, op := .parkOwn }, 0, by decide⟩

/-- What clause 16 of `SessionCommandsComplete` asks can be met. -/
theorem witness_session_commands_complete_16 :
    ∃ (h : Hdr) (handle : U64) (stream : U1) (s : State) (i : Nat),
    let u := Fetched h s
    let d := u.d i
    Accepts { widths := [64, 1], entry := handleNode handle } h s ∧
    u.tailHandle h.fn.toNat handle = .ok i ∧
    u.closing i = false ∧
    u.loading d.slice = false ∧
    d.season = .spring ∧
    d.op = .thaw ∧
    d.runahead = true :=
  ⟨h1, hd, 0, sx { season := .spring, op := .thaw, runahead := true }, 0, by decide⟩

/-- What clause 17 of `SessionCommandsComplete` asks can be met. -/
theorem witness_session_commands_complete_17 :
    ∃ (h : Hdr) (handle : U64) (stream : U1) (s : State) (i : Nat),
    let u := Fetched h s
    let d := u.d i
    Accepts { widths := [64, 1], entry := handleNode handle } h s ∧
    u.tailHandle h.fn.toNat handle = .ok i ∧
    u.closing i = false ∧
    u.loading d.slice = false ∧
    ∃ c,
    d.season = .winter ∧
    d.op = .none ∧
    u.thawChecks i = .ok c :=
  ⟨h1, hd, 0, stW, 0, by exact ⟨by decide, by decide, by decide, by decide, canvas0, by decide, by decide, thawChecks_stW⟩⟩

/-- What clause 1 of `SessionControlCompletes` asks can be met. -/
theorem witness_session_control_completes_1 :
    ∃ (h : Hdr) (o : SetOps) (s : State) (i : Nat),
    let u := Fetched h s
    let d := u.d i
    let f := o.flags.toNat
    let dc := f / 4 % 4
    let mir := if dc = 1 then o.mirrorDev.toNat else 0xFFFF
    let t := u.setPolicy i f o.pageBudget.toNat dc mir
    Accepts { widths := [64, 16, 32, 16], entry := handleNode o.handle } h s ∧
    u.handle h.fn.toNat o.handle = .ok i ∧
    d.used = true ∧
    d.season ≠ .closing ∧
    d.tail = true ∧
    (u.ax i).closeAtEnd = false ∧
    flagsReserved f = false ∧
    dc ≠ 3 ∧
    (¬ (11 ≤ f / 4096 ∧ f / 4096 ≤ 14)) ∧
    (dc = d.dclass ∧ mir = d.mirrorDev ∨ d.season = .autumn ∧ d.op = .none ∧ (dc = 1 → u.reachable d.slice mir = true)) ∧
    ∃ j,
    j ≠ i :=
  ⟨h1, { handle := hd, flags := 0x0004, mirrorDev := 2 }, sc { season := .autumn }, 0, by exact ⟨by decide, by decide, by decide, by decide, by decide, by decide, by decide, by decide, by decide, by decide, 1, by decide⟩⟩

/-- What clause 2 of `SessionControlCompletes` asks can be met. -/
theorem witness_session_control_completes_2 :
    ∃ (h : Hdr) (handle outAddr : U64) (s : State) (i : Nat),
    let u := Fetched h s
    Accepts { widths := [64, 64], entry := handleNode handle } h s ∧
    u.handle h.fn.toNat handle = .ok i ∧
    (u.d i).used = true ∧
    u.hostOk outAddr.toNat 256 = true :=
  ⟨h1, hd, 0x1000, sx { season := .winter }, 0, by decide⟩

/-- What clause 3 of `SessionControlCompletes` asks can be met. -/
theorem witness_session_control_completes_3 :
    ∃ (h : Hdr) (handle requestId : U64) (s : State) (i : Nat),
    let u := Fetched h s
    let d := u.d i
    Accepts { widths := [64, 64], entry := handleNode handle } h s ∧
    u.tailHandle h.fn.toNat handle = .ok i ∧
    (u.ax i).closeAtEnd = false ∧
    d.pending.live = true ∧
    d.pending.requestId = requestId :=
  ⟨h1, hd, 3, sx { season := .summer, pending := { opcode := 1, requestId := 3 } }, 0, by decide⟩

/-- What clause 4 of `SessionControlCompletes` asks can be met. -/
theorem witness_session_control_completes_4 :
    ∃ (h : Hdr) (handle requestId : U64) (s : State) (i : Nat),
    let u := Fetched h s
    let d := u.d i
    Accepts { widths := [64, 64], entry := handleNode handle } h s ∧
    u.tailHandle h.fn.toNat handle = .ok i ∧
    (u.ax i).closeAtEnd = false ∧
    (¬ (d.pending.live = true ∧ d.pending.requestId = requestId)) ∧
    d.active.requestId = requestId ∧
    d.active ≠ {} ∧
    d.active.live = false :=
  ⟨h1, hd, 3, sx { season := .autumn, active := { requestId := 3 } }, 0, by decide⟩

/-- What clause 5 of `SessionControlCompletes` asks can be met. -/
theorem witness_session_control_completes_5 :
    ∃ (h : Hdr) (handle requestId : U64) (s : State) (i : Nat),
    let u := Fetched h s
    let d := u.d i
    Accepts { widths := [64, 64], entry := handleNode handle } h s ∧
    u.tailHandle h.fn.toNat handle = .ok i ∧
    (u.ax i).closeAtEnd = false ∧
    (¬ (d.pending.live = true ∧ d.pending.requestId = requestId)) ∧
    d.active.requestId = requestId ∧
    d.active ≠ {} ∧
    d.active.live = true ∧
    d.season ≠ .summer :=
  ⟨h1, hd, 3, sx { season := .autumn, active := { requestId := 3, opcode := 1 } }, 0, by decide⟩

/-- What clause 6 of `SessionControlCompletes` asks can be met. -/
theorem witness_session_control_completes_6 :
    ∃ (h : Hdr) (handle requestId : U64) (s : State) (i : Nat),
    let u := Fetched h s
    let d := u.d i
    Accepts { widths := [64, 64], entry := handleNode handle } h s ∧
    u.tailHandle h.fn.toNat handle = .ok i ∧
    (u.ax i).closeAtEnd = false ∧
    (¬ (d.pending.live = true ∧ d.pending.requestId = requestId)) ∧
    d.active.requestId = requestId ∧
    d.active ≠ {} ∧
    d.active.live = true ∧
    d.season = .summer :=
  ⟨h1, hd, 3, sx { season := .summer, active := { requestId := 3, opcode := 1 }, pending := { opcode := 1, requestId := 4 } }, 0, by decide⟩

/-- What clause 7 of `SessionControlCompletes` asks can be met. -/
theorem witness_session_control_completes_7 :
    ∃ (h : Hdr) (handle : U64) (member : BitVec 6) (dev : U16) (slice : BitVec 6) (tier : BitVec 2) (s : State) (i : Nat) (n : Nat),
    let u := Fetched h s
    let d := u.d i
    Accepts { widths := [64, 6, 16, 6, 2], entry := handleNode handle } h s ∧
    u.tailHandle h.fn.toNat handle = .ok i ∧
    u.closing i = false ∧
    (d.season = .autumn ∧ d.op = .none ∧ d.liveReq = false ∨ d.season = .winter ∧ d.op = .none ∨ d.season = .spring ∧ d.op = .thaw ∧ d.runahead = true) ∧
    member.toNat = d.ringPos ∧
    d.ringPos < d.ringSize ∧
    u.devNo = some n ∧
    u.inRing i dev.toNat = false ∧
    tier ≠ 3 ∧
    u.reachable d.slice dev.toNat = true ∧
    (¬ (d.prot = true ∧ u.sec.csk = none)) ∧
    (d.season = .winter ∨ d.season = .spring → ∃ c, u.canvasFor d = some c ∧ c.complete = true ∧ c.sealMode ≠ 1) ∧
    d.ownerEpoch < 0xFFFFFFFF :=
  ⟨h1, hd, 0, 2, 0, 1, sc { season := .autumn, ringSize := 1 }, 0, 1, by exact ⟨by decide, by decide, by decide, by decide, by decide, by decide, by decide, by decide, by decide, by decide, by decide, fun a => by rcases a with a | a <;> exact absurd a (by decide), by decide⟩⟩

/-- What clause 8 of `SessionControlCompletes` asks can be met. -/
theorem witness_session_control_completes_8 :
    ∃ (h : Hdr) (handle : U64) (count : U32) (ids out : U64) (s : State) (i : Nat),
    let u := Fetched h s
    let d := u.d i
    Accepts { widths := [64, 32, 64, 64], entry := handleNode handle } h s ∧
    u.tailHandle h.fn.toNat handle = .ok i ∧
    u.closing i = false ∧
    1 ≤ count.toNat ∧
    count.toNat ≤ 64 ∧
    d.season = .summer :=
  ⟨h1, hd, 64, 0, 0, sx { season := .summer }, 0, by decide⟩

/-- What clause 9 of `SessionControlCompletes` asks can be met. -/
theorem witness_session_control_completes_9 :
    ∃ (h : Hdr) (handle : U64) (count : U32) (ids out : U64) (s : State) (i : Nat),
    let u := Fetched h s
    let d := u.d i
    Accepts { widths := [64, 32, 64, 64], entry := handleNode handle } h s ∧
    u.tailHandle h.fn.toNat handle = .ok i ∧
    u.closing i = false ∧
    1 ≤ count.toNat ∧
    count.toNat ≤ 64 ∧
    ∃ t st r,
    d.season = .autumn ∧
    d.op = .none ∧
    u.forkCore i count.toNat ids.toNat out.toNat (TagOf h s) = .done t st r :=
  ⟨h1, hd, 1, 0, 0, sx { season := .autumn, sessionId := 5 }, 0, by exact ⟨by decide, by decide, by decide, by decide, by decide, _, _, _, by decide, by decide, rfl⟩⟩

/-- What clause 10 of `SessionControlCompletes` asks can be met. -/
theorem witness_session_control_completes_10 :
    ∃ (h : Hdr) (handle : U64) (count : U32) (ids out : U64) (s : State) (i : Nat),
    let u := Fetched h s
    let d := u.d i
    Accepts { widths := [64, 32, 64, 64], entry := handleNode handle } h s ∧
    u.tailHandle h.fn.toNat handle = .ok i ∧
    u.closing i = false ∧
    1 ≤ count.toNat ∧
    count.toNat ≤ 64 ∧
    ∃ t,
    d.season = .autumn ∧
    d.op = .none ∧
    u.forkCore i count.toNat ids.toNat out.toNat (TagOf h s) = .later t :=
  ⟨h1, hd, 1, 0, 0, sx { season := .autumn, sessionId := 5, ringSize := 2 }, 0, by exact ⟨by decide, by decide, by decide, by decide, by decide, _, by decide, by decide, rfl⟩⟩

/-- What clause 11 of `SessionControlCompletes` asks can be met. -/
theorem witness_session_control_completes_11 :
    ∃ (h : Hdr) (handle : U64) (dev : U16) (slice : BitVec 6) (s : State) (i n : Nat),
    let u := Fetched h s
    let d := u.d i
    Accepts { widths := [64, 16, 6], entry := handleNode handle } h s ∧
    u.tailHandle h.fn.toNat handle = .ok i ∧
    u.closing i = false ∧
    d.ringNext = 0xFFFF ∧
    (∀ r ∈ u.comp.relays, ¬ (r.kind = 3 ∧ r.index = i)) ∧
    d.ringSize ≠ 64 ∧
    u.devNo = some n ∧
    u.inRing i dev.toNat = false ∧
    u.reachable d.slice dev.toNat = true ∧
    d.season = .summer :=
  ⟨h1, hd, 2, 0, sc { season := .summer, ringSize := 1 }, 0, 1, by decide⟩

/-- What clause 12 of `SessionControlCompletes` asks can be met. -/
theorem witness_session_control_completes_12 :
    ∃ (h : Hdr) (handle : U64) (dev : U16) (slice : BitVec 6) (s : State) (i n : Nat),
    let u := Fetched h s
    let d := u.d i
    Accepts { widths := [64, 16, 6], entry := handleNode handle } h s ∧
    u.tailHandle h.fn.toNat handle = .ok i ∧
    u.closing i = false ∧
    d.ringNext = 0xFFFF ∧
    (∀ r ∈ u.comp.relays, ¬ (r.kind = 3 ∧ r.index = i)) ∧
    d.ringSize ≠ 64 ∧
    u.devNo = some n ∧
    u.inRing i dev.toNat = false ∧
    u.reachable d.slice dev.toNat = true ∧
    d.season = .autumn ∧
    d.op = .none :=
  ⟨h1, hd, 2, 0, sc { season := .autumn, ringSize := 63 }, 0, 1, by decide⟩

/-- What clause 1 of `RingPaletteAndJobCommandsComplete` asks can be met. -/
theorem witness_ring_palette_and_job_commands_complete_1 :
    ∃ (h : Hdr) (slice : BitVec 6) (ring : U16) (log2 : BitVec 5) (base tailAddr : U64) (vector : BitVec 11) (ien : U1) (s : State),
    let u := Fetched h s
    let sl := cmdSlice h.fn.toNat slice.toNat
    Accepts { widths := [6, 16, 5, 64, 64, 11, 1] } h s ∧
    u.defined sl = true ∧
    ring.toNat < 16384 ∧
    6 ≤ log2.toNat ∧
    log2.toNat ≤ 16 ∧
    base.toNat % max 4096 (16 * 2 ^ log2.toNat) = 0 ∧
    tailAddr.toNat % 8 = 0 ∧
    vector.toNat < (if h.fn.toNat < 2 then 2048 else 256) ∧
    u.tring sl ring.toNat = none ∧
    u.srv.rings.length < 65536 :=
  ⟨h1, 0, 16383, 16, 0x100000, 8, 2047, 1, st1, by decide⟩

/-- What clause 2 of `RingPaletteAndJobCommandsComplete` asks can be met. -/
theorem witness_ring_palette_and_job_commands_complete_2 :
    ∃ (h : Hdr) (slice : BitVec 6) (ring : U16) (s : State) (q : TRing),
    let u := Fetched h s
    let sl := cmdSlice h.fn.toNat slice.toNat
    Accepts { widths := [6, 16] } h s ∧
    u.defined sl = true ∧
    u.tring sl ring.toNat = some q ∧
    q.fn = h.fn.toNat ∧
    u.ringReserve sl ring.toNat = 0 :=
  ⟨h1, 0, 0, { st1 with srv := { rings := [(0, ring0)] } }, ring0, by decide⟩

/-- What clause 3 of `RingPaletteAndJobCommandsComplete` asks can be met. -/
theorem witness_ring_palette_and_job_commands_complete_3 :
    ∃ (h : Hdr) (slice : BitVec 6) (program : BitVec 4) (tokens : U16) (src : U64) (s t : State) (b : Bytes) (e : Nat) (bytes : Bytes) (x : State × List (Nat × Nat × Nat)) (q : Pal),
    let u := Fetched h s
    let sl := cmdSlice h.fn.toNat slice.toNat
    let n := tokens.toNat
    Accepts { widths := [6, 4, 16, 64] } h s ∧
    u.defined sl = true ∧
    n ≠ 0 ∧
    n ≤ 8192 ∧
    u.sect 7 sl program.toNat = some b ∧
    palSize (progOf b).geom n ≤ 2 ^ 32 ∧
    src.toNat % 4096 = 0 ∧
    u.hostRead src.toNat (palSource (progOf b) n) = some bytes ∧
    u.palDup sl (Config.sha3 b) (Config.sha3 bytes) = none ∧
    u.freePalIndex = some e ∧
    u.takeParts sl (u.confidential sl) (palParts (progOf b).geom n) [] = some x ∧
    q = { slice := sl, program := Config.sha3 b, index := program.toNat, content := Config.sha3 bytes, src := src, tokens := n, prot := u.confidential sl, parts := x.2, tag := some (TagOf h s) } ∧
    { x.1 with srv := { x.1.srv with pals := tabPut x.1.srv.pals e q } }.remap sl = some t :=
  ⟨h1, 0, 0, 1, 0x1000, st1, _, prog0, 0, _, _, _, by exact ⟨by decide, by decide, by decide, by decide, by decide, by decide, by decide, rfl, by decide, by decide, rfl, rfl, rfl⟩⟩

/-- What clause 4 of `RingPaletteAndJobCommandsComplete` asks can be met. -/
theorem witness_ring_palette_and_job_commands_complete_4 :
    ∃ (h : Hdr) (slice : BitVec 6) (index : U16) (s : State) (q : Pal),
    let u := Fetched h s
    Accepts { widths := [6, 16] } h s ∧
    tabGet u.srv.pals index.toNat = some q ∧
    q.slice = cmdSlice h.fn.toNat slice.toNat ∧
    u.defined q.slice = true ∧
    q.ready = true ∧
    q.refs = 0 :=
  ⟨h1, 0, 4095, { st1 with srv := { pals := [(4095, { slice := 0, program := 0, index := 0, content := 0, src := 0, tokens := 1, ready := true })] } },
    { slice := 0, program := 0, index := 0, content := 0, src := 0, tokens := 1, ready := true }, by decide⟩

/-- What clause 5 of `RingPaletteAndJobCommandsComplete` asks can be met. -/
theorem witness_ring_palette_and_job_commands_complete_5 :
    ∃ (h : Hdr) (slice : BitVec 6) (program : BitVec 4) (first : U64) (s : State),
    let u := Fetched h s
    let sl := cmdSlice h.fn.toNat slice.toNat
    s.gessoWaits sl = false ∧
    (∀ c ∈ s.ck.flight, ¬ (c.slice = sl ∧ c.resumed = true)) ∧
    Accepts { widths := [6, 4, 64], entry := s.computeNodes sl } h s ∧
    firstFail (u.jobChecks sl program.toNat) = none :=
  ⟨h1, 0, 0, 0, st1, by decide⟩

/-- What clause 6 of `RingPaletteAndJobCommandsComplete` asks can be met. -/
theorem witness_ring_palette_and_job_commands_complete_6 :
    ∃ (h : Hdr) (slice : BitVec 6) (s : State) (j : Job),
    let u := Fetched h s
    let sl := cmdSlice h.fn.toNat slice.toNat
    Accepts { widths := [6], entry := s.computeNodes sl } h s ∧
    u.defined sl = true ∧
    tabGet u.srv.jobs sl = some j ∧
    j.state ≠ .ending :=
  ⟨h1, 0, { st1 with srv := { jobs := [(0, { program := 0 })] } }, { program := 0 }, by decide⟩

/-- What clause 7 of `RingPaletteAndJobCommandsComplete` asks can be met. -/
theorem witness_ring_palette_and_job_commands_complete_7 :
    ∃ (h : Hdr) (slice : BitVec 6) (dir : U1) (len : U32) (hostAddr va : U64) (s : State),
    let u := Fetched h s
    let sl := cmdSlice h.fn.toNat slice.toNat
    let n := len.toNat
    let a := va.toNat
    Accepts { fns := .any, widths := [6, 1, 32, 64, 64] } h s ∧
    0 < n ∧
    u.defined sl = true ∧
    u.access sl (dir == 0) a n = .ok ∧
    s.accessWait sl a n (dir == 0) = none ∧
    u.cutFrom 19 sl a n = false ∧
    (¬ (s.anyProt sl a n = true ∧ s.protClosed h.fn.toNat sl = true)) ∧
    dir = 0 ∧
    u.hostOk hostAddr.toNat n = true :=
  ⟨h1, 0, 0, 1, 0x1000, 0, { st1 with mem := { objects := [{ type := 0, slice := 0, va := 0, units := 1, tier := 1, prot := false, pieces := [(0, 0, 4096)] }] } }, by decide⟩

/-- What clause 8 of `RingPaletteAndJobCommandsComplete` asks can be met. -/
theorem witness_ring_palette_and_job_commands_complete_8 :
    ∃ (h : Hdr) (slice : BitVec 6) (dir : U1) (len : U32) (hostAddr va : U64) (s : State),
    let u := Fetched h s
    let sl := cmdSlice h.fn.toNat slice.toNat
    let n := len.toNat
    let a := va.toNat
    Accepts { fns := .any, widths := [6, 1, 32, 64, 64] } h s ∧
    0 < n ∧
    u.defined sl = true ∧
    u.access sl (dir == 0) a n = .ok ∧
    s.accessWait sl a n (dir == 0) = none ∧
    u.cutFrom 19 sl a n = false ∧
    (¬ (s.anyProt sl a n = true ∧ s.protClosed h.fn.toNat sl = true)) ∧
    dir = 1 ∧
    u.hostOk hostAddr.toNat n = true ∧
    u.vbad sl a n = false :=
  ⟨h1, 0, 1, 1, 0x1000, 0xFFF, { st1 with mem := { objects := [{ type := 0, slice := 0, va := 0, units := 1, tier := 1, prot := false, pieces := [(0, 0, 4096)] }] } }, by decide⟩

/-- What clause 1 of `MemoryObjectCommandsComplete` asks can be met. -/
theorem witness_memory_object_commands_complete_1 :
    ∃ (h : Hdr) (slice : BitVec 6) (type : BitVec 3) (tier : BitVec 2) (protect : U1) (die fetchLog2 : BitVec 4) (stripe : BitVec 5) (size : U32) (va : U64) (s : State) (a : Nat),
    let u := Fetched h s
    let sl := cmdSlice h.fn.toNat slice.toNat
    let n := size.toNat * 4096
    let ti := u.tierFor sl type.toNat tier.toNat
    let prot := u.protFor sl (protect == 1)
    let w0 := if stripe = 0 then max 1 (le (u.tierMap sl) 2 2) else stripe.toNat
    s.gessoWaits sl = false ∧
    Accepts { widths := [6, 3, 2, 1, 4, 4, 5, 32, 64] } h s ∧
    u.defined sl = true ∧
    type.toNat < 2 ∧
    tier ≠ 3 ∧
    size ≠ 0 ∧
    fetchLog2.toNat ≤ 9 ∧
    stripe.toNat ≤ 16 ∧
    (die = 15 ∨ die.toNat < (u.dieList sl).length) ∧
    (tier = 0 ∨ u.objectMode sl = false) ∧
    (va = 0 → u.lowestRange sl ti n 4096 = some a) ∧
    (va ≠ 0 → a = va.toNat ∧ va.toNat % 4096 = 0 ∧ inTier ti a n = true) ∧
    (u.objRanges sl).any (overlaps a n) = false ∧
    (ti = 2 → prot = true → u.stripeFormable sl w0 = true) ∧
    ∃ t,
    ti = 1 ∧
    u.allocT1 sl type.toNat a size.toNat (if die = 15 then none else some die.toNat) prot = some t :=
  ⟨h1, 0, 1, 0, 1, 15, 9, 16, 1, 0x2000, st1, 0x2000, by exact ⟨by decide, by decide, by decide, by decide, by decide, by decide, by decide,
    by decide, by decide, by decide, by decide, by decide, by decide, by decide, _, by decide, (Option.some_get (by decide)).symm⟩⟩

/-- What clause 2 of `MemoryObjectCommandsComplete` asks can be met. -/
theorem witness_memory_object_commands_complete_2 :
    ∃ (h : Hdr) (slice : BitVec 6) (type : BitVec 3) (tier : BitVec 2) (protect : U1) (die fetchLog2 : BitVec 4) (stripe : BitVec 5) (size : U32) (va : U64) (s : State) (a : Nat),
    let u := Fetched h s
    let sl := cmdSlice h.fn.toNat slice.toNat
    let n := size.toNat * 4096
    let ti := u.tierFor sl type.toNat tier.toNat
    let prot := u.protFor sl (protect == 1)
    let w0 := if stripe = 0 then max 1 (le (u.tierMap sl) 2 2) else stripe.toNat
    s.gessoWaits sl = false ∧
    Accepts { widths := [6, 3, 2, 1, 4, 4, 5, 32, 64] } h s ∧
    u.defined sl = true ∧
    type.toNat < 2 ∧
    tier ≠ 3 ∧
    size ≠ 0 ∧
    fetchLog2.toNat ≤ 9 ∧
    stripe.toNat ≤ 16 ∧
    (die = 15 ∨ die.toNat < (u.dieList sl).length) ∧
    (tier = 0 ∨ u.objectMode sl = false) ∧
    (va = 0 → u.lowestRange sl ti n 4096 = some a) ∧
    (va ≠ 0 → a = va.toNat ∧ va.toNat % 4096 = 0 ∧ inTier ti a n = true) ∧
    (u.objRanges sl).any (overlaps a n) = false ∧
    (ti = 2 → prot = true → u.stripeFormable sl w0 = true) ∧
    ∃ t,
    ti ≠ 1 ∧
    u.allocT2 sl type.toNat a size.toNat fetchLog2.toNat w0 prot (some (TagOf h s)) = some t :=
  ⟨h1, 0, 0, 2, 0, 0, 0, 0, 1, 0x4000000000000, stC, 0x4000000000000, by
    exact ⟨by decide, by decide, by decide, by decide, by decide, by decide, by decide, by decide, by decide, by decide, by decide, by decide,
    by decide, by decide, t2 0 0x4000000000000 1 1, by decide, allocT2_stC 0 _ 1 (Or.inl (by decide))⟩⟩

/-- What clause 3 of `MemoryObjectCommandsComplete` asks can be met. -/
theorem witness_memory_object_commands_complete_3 :
    ∃ (h : Hdr) (slice : BitVec 6) (va : U64) (s : State) (o : Obj),
    let u := Fetched h s
    Accepts { widths := [6, 64] } h s ∧
    u.defined (cmdSlice h.fn.toNat slice.toNat) = true ∧
    u.objStart (cmdSlice h.fn.toNat slice.toNat) va.toNat = some o ∧
    u.objInUse o = false ∧
    o.type < 2 ∧
    o.members = [] :=
  ⟨h1, 0, 0, { st1 with mem := { objects := [obj0] } }, obj0, by decide⟩

/-- What clause 4 of `MemoryObjectCommandsComplete` asks can be met. -/
theorem witness_memory_object_commands_complete_4 :
    ∃ (h : Hdr) (slice : BitVec 6) (va : U64) (member : U16) (size : U32) (s : State) (m : Member),
    let u := Fetched h s
    let sl := cmdSlice h.fn.toNat slice.toNat
    let a := va.toNat
    let n := size.toNat
    Accepts { widths := [6, 64, 16, 32] } h s ∧
    u.defined sl = true ∧
    apertureRange a n = true ∧
    (u.objRanges sl).any (overlaps a (65536 * n)) = false ∧
    (∀ x ∈ u.apertures, x.slice = sl → overlaps a (65536 * n) (x.va, 65536 * x.units) = false) ∧
    u.member member.toNat = some m ∧
    m.pool ≠ 0 ∧
    n ≤ m.pool ∧
    (¬ (u.confidential sl = true ∧ m.kind = 2)) :=
  ⟨h1, 0, 0x7000000000000, 2, 256, stC, ⟨1, 1, 1, 256, 0, 0⟩, by decide⟩

/-- What clause 5 of `MemoryObjectCommandsComplete` asks can be met. -/
theorem witness_memory_object_commands_complete_5 :
    ∃ (h : Hdr) (slice : BitVec 6) (va : U64) (s : State) (x : Aperture) (b : Nat),
    let u := Fetched h s
    let sl := cmdSlice h.fn.toNat slice.toNat
    Accepts { widths := [6, 64] } h s ∧
    u.defined sl = true ∧
    (u.apertures.find? (fun x => x.slice == sl && x.va == va.toNat && x.base.isSome) = some x) ∧
    x.base = some b ∧
    let v := { u with apertures := u.apertures.filter (· != x) }
    u.member x.member = none :=
  ⟨h1, 0, 0x7000000000000, { stC with apertures := [⟨0, 0x7000000000000, 1, 3, some 3, none⟩] }, ⟨0, 0x7000000000000, 1, 3, some 3, none⟩, 3, by decide⟩

/-- What clause 6 of `MemoryObjectCommandsComplete` asks can be met. -/
theorem witness_memory_object_commands_complete_6 :
    ∃ (h : Hdr) (slice : BitVec 6) (va : U64) (s : State) (x : Aperture) (b : Nat),
    let u := Fetched h s
    let sl := cmdSlice h.fn.toNat slice.toNat
    Accepts { widths := [6, 64] } h s ∧
    u.defined sl = true ∧
    (u.apertures.find? (fun x => x.slice == sl && x.va == va.toNat && x.base.isSome) = some x) ∧
    x.base = some b ∧
    let v := { u with apertures := u.apertures.filter (· != x) }
    u.member x.member ≠ none :=
  ⟨h1, 0, 0x7000000000000, { stC with apertures := [⟨0, 0x7000000000000, 1, 2, some 3, none⟩] }, ⟨0, 0x7000000000000, 1, 2, some 3, none⟩, 3, by decide⟩

/-- What clause 7 of `MemoryObjectCommandsComplete` asks can be met. -/
theorem witness_memory_object_commands_complete_7 :
    ∃ (h : Hdr) (locator : U64) (s : State) (r : PoolRange),
    let u := Fetched h s
    Accepts { fns := .pf0, priv := 0x070D, widths := [64], noImage := true } h s ∧
    (u.pool.find? (fun r => r.kept && 65536 * r.base == locator.toNat % 2 ^ 48) = some r) ∧
    u.devNo = some (locator.toNat / 2 ^ 48) :=
  ⟨h0, 0x1000000020000, { stC with pool := [⟨2, 1, 2, 0, 0, true⟩] }, ⟨2, 1, 2, 0, 0, true⟩, by decide⟩

/-- What clause 1 of `IndexAndSearchCommandsComplete` asks can be met. -/
theorem witness_index_and_search_commands_complete_1 :
    ∃ (h : Hdr) (o : IndexOps) (s : State) (a b : State × Nat),
    let u := Fetched h s
    let sl := cmdSlice h.fn.toNat o.slice.toNat
    let x := indexOf o sl ((u.dieList sl).getD o.die.toNat 0) 0
    let prot := u.protFor sl (o.protect == 1)
    let ti := u.tierFor sl 2 o.tier.toNat
    Accepts { widths := indexWidths } h s ∧
    u.defined sl = true ∧
    o.die.toNat < (u.dieList sl).length ∧
    indexBad o = false ∧
    (o.va = 0 ∨ o.va.toNat % 2 ^ 21 = 0 ∧ inTier ti o.va.toNat x.bytes = true) ∧
    u.index sl o.index.toNat = none ∧
    u.ret.indexes.length < 256 ∧
    (o.tier = 0 ∧ o.rtier = 0 ∨ u.objectMode sl = false) ∧
    u.takeObj sl 2 ti o.va.toNat (x.bytes / 4096) none prot (some (TagOf h s)) = .ok a ∧
    a.1.takeObj sl 2 (u.tierFor sl 2 o.rtier.toNat) 0 (if x.rformat = 0xFF then 0 else x.rbytes / 4096) none prot (some (TagOf h s)) = .ok b ∧
    let v := { b.1 with ret := { b.1.ret with indexes := b.1.ret.indexes ++ [{ x with va := a.2, rva := b.2 }] } }
    (v.createdBy (some (TagOf h s))).all (·.awaited.isEmpty) = true :=
  ⟨h1, { capacity := 1, va := 0x200000 }, st1, _, _, by exact ⟨by decide, by decide, by decide, by decide, by decide, by decide, by decide,
    by decide, rfl, rfl, by decide⟩⟩

/-- What clause 2 of `IndexAndSearchCommandsComplete` asks can be met. -/
theorem witness_index_and_search_commands_complete_2 :
    ∃ (h : Hdr) (o : IndexOps) (s : State) (a b : State × Nat),
    let u := Fetched h s
    let sl := cmdSlice h.fn.toNat o.slice.toNat
    let x := indexOf o sl ((u.dieList sl).getD o.die.toNat 0) 0
    let prot := u.protFor sl (o.protect == 1)
    let ti := u.tierFor sl 2 o.tier.toNat
    Accepts { widths := indexWidths } h s ∧
    u.defined sl = true ∧
    o.die.toNat < (u.dieList sl).length ∧
    indexBad o = false ∧
    (o.va = 0 ∨ o.va.toNat % 2 ^ 21 = 0 ∧ inTier ti o.va.toNat x.bytes = true) ∧
    u.index sl o.index.toNat = none ∧
    u.ret.indexes.length < 256 ∧
    (o.tier = 0 ∧ o.rtier = 0 ∨ u.objectMode sl = false) ∧
    u.takeObj sl 2 ti o.va.toNat (x.bytes / 4096) none prot (some (TagOf h s)) = .ok a ∧
    a.1.takeObj sl 2 (u.tierFor sl 2 o.rtier.toNat) 0 (if x.rformat = 0xFF then 0 else x.rbytes / 4096) none prot (some (TagOf h s)) = .ok b ∧
    let v := { b.1 with ret := { b.1.ret with indexes := b.1.ret.indexes ++ [{ x with va := a.2, rva := b.2 }] } }
    (v.createdBy (some (TagOf h s))).all (·.awaited.isEmpty) = false :=
  ⟨h1, { capacity := 1, tier := 2, va := 0x4000000000000 }, stC, (t2 2 0x4000000000000 2048 128, 0x4000000000000), (t2 2 0x4000000000000 2048 128, 0), by
    exact ⟨by decide, by decide, by decide, by decide, by decide, by decide, by decide, by decide, takeObj_stC, rfl, by decide⟩⟩

/-- What clause 3 of `IndexAndSearchCommandsComplete` asks can be met. -/
theorem witness_index_and_search_commands_complete_3 :
    ∃ (h : Hdr) (slice : BitVec 6) (index : U8) (s : State) (x : Index),
    let u := Fetched h s
    let sl := cmdSlice h.fn.toNat slice.toNat
    Accepts { widths := [6, 8], entry := s.indexNode h slice index } h s ∧
    u.defined sl = true ∧
    u.openIndex sl index.toNat = some x :=
  ⟨h1, 0, 0, stI, idx0, by decide⟩

/-- What clause 4 of `IndexAndSearchCommandsComplete` asks can be met. -/
theorem witness_index_and_search_commands_complete_4 :
    ∃ (h : Hdr) (slice : BitVec 6) (index : U8) (id : U32) (src attr : U64) (s : State) (x : Index) (e a : Bytes),
    let u := Fetched h s
    let sl := cmdSlice h.fn.toNat slice.toNat
    Accepts { widths := [6, 8, 32, 64, 64], entry := s.indexNode h slice index } h s ∧
    u.defined sl = true ∧
    u.openIndex sl index.toNat = some x ∧
    id.toNat < x.capacity ∧
    (u.node x id.toNat).used = false ∧
    x.freeUpper (x.levelOf id.toNat) ≠ none ∧
    u.hostRead src.toNat (2 * x.dims) = some e ∧
    u.hostRead attr.toNat x.attrBytes = some a :=
  ⟨h1, 0, 0, 0, 0x1000, 0, stI, idx0, _, [], by exact ⟨by decide, by decide, by decide, by decide, by decide, by decide, rfl, by decide⟩⟩

/-- What clause 5 of `IndexAndSearchCommandsComplete` asks can be met. -/
theorem witness_index_and_search_commands_complete_5 :
    ∃ (h : Hdr) (slice : BitVec 6) (index : U8) (id : U32) (s : State) (x : Index),
    let u := Fetched h s
    let sl := cmdSlice h.fn.toNat slice.toNat
    Accepts { widths := [6, 8, 32], entry := s.indexNode h slice index } h s ∧
    u.defined sl = true ∧
    u.openIndex sl index.toNat = some x ∧
    id.toNat < x.capacity ∧
    (u.node x id.toNat).used = true ∧
    (u.node x id.toNat).tomb = false :=
  ⟨h1, 0, 0, 0, { stI with mem := { stI.mem with data := [(0x400001, 1)] } }, idx0, by decide⟩

/-- What clause 6 of `IndexAndSearchCommandsComplete` asks can be met. -/
theorem witness_index_and_search_commands_complete_6 :
    ∃ (h : Hdr) (o : SearchOps) (s : State) (sl : Nat) (x : Index) (save : Option (Nat × Nat × Nat)) (q f : Bytes),
    let u := Fetched h s
    Accepts { widths := [8, 8, 16, 16, 16, 16, 16, 64, 64, 64, 64, 6, 20], entry := s.searchNode h o } h s ∧
    fnSlice h.fn.toNat = some sl ∧
    u.defined sl = true ∧
    u.openIndex sl o.index.toNat = some x ∧
    searchBad o x = false ∧
    (if o.filterAddr = 0 then some [] else u.hostRead o.filterAddr.toNat 64) = some f ∧
    filterBad f x.attrBytes = false ∧
    u.saveCheck h.fn.toNat o x = .ok save ∧
    u.hostRead o.queryAddr.toNat (2 * x.dims) = some q :=
  ⟨h2, { k := 1, beam := 1, cand := 1 }, stI, 0, idx0, none, _, [], by exact ⟨by decide, by decide, by decide, by decide, by decide, by decide, by decide, by decide, rfl⟩⟩

/-- What clause 7 of `IndexAndSearchCommandsComplete` asks can be met. -/
theorem witness_index_and_search_commands_complete_7 :
    ∃ (h : Hdr) (handle : U64) (cursor : BitVec 6) (addr : U64) (s : State) (i : Nat) (x : Index),
    let u := Fetched h s
    let b := u.cursorSlot i cursor.toNat
    Accepts { widths := [64, 6, 64], entry := handleNode handle } h s ∧
    u.cursorSession 0x0207 h.fn.toNat handle = .ok i ∧
    byteAt b 1 % 2 = 1 ∧
    u.openIndex (u.d i).slice (byteAt b 0) = some x ∧
    x.serial.toNat = le b 0x10 8 :=
  ⟨h1, hd, 63, 0, { stI with desc := [(0, { season := .autumn, tail := true })], mem := { stI.mem with kv := [(0, { cursorPa := 0x1000000 })], data := [(0x1000FC1, 1)] } }, 0, idx0, by decide⟩

/-- What clause 8 of `IndexAndSearchCommandsComplete` asks can be met. -/
theorem witness_index_and_search_commands_complete_8 :
    ∃ (h : Hdr) (handle : U64) (cursor : BitVec 6) (s : State) (i : Nat),
    let u := Fetched h s
    let b := u.cursorSlot i cursor.toNat
    Accepts { widths := [64, 6], entry := handleNode handle } h s ∧
    u.cursorSession 0x0207 h.fn.toNat handle = .ok i ∧
    byteAt b 1 % 2 = 1 :=
  ⟨h1, hd, 63, { stI with desc := [(0, { season := .summer, tail := true })], mem := { stI.mem with kv := [(0, { cursorPa := 0x1000000 })], data := [(0x1000FC1, 1)] } }, 0, by decide⟩

/-- What clause 1 of `TableCommandsComplete` asks can be met. -/
theorem witness_table_commands_complete_1 :
    ∃ (h : Hdr) (o : TableOps) (s : State) (d : Bytes) (r : Reply),
    let u := Fetched h s
    let sl := cmdSlice h.fn.toNat o.slice.toNat
    let rb := o.rowBytes.toNat
    let rows := if o.rows = 0 then 2 ^ 32 else o.rows.toNat
    Accepts { widths := [6, 8, 4, 32, 32, 2, 1, 2, 1, 64, 32, 64] } h s ∧
    u.defined sl = true ∧
    64 ≤ rb ∧
    rb ≤ 65536 ∧
    rb % 64 = 0 ∧
    o.rformat ≠ 3 ∧
    o.hotMax.toNat ≤ 1048576 ∧
    o.tier ≠ 3 ∧
    o.die.toNat < (u.dieList sl).length ∧
    (o.va = 0 ∨ o.va.toNat % 4096 = 0 ∧ inTier (u.tierFor sl 3 o.tier.toNat) o.va.toNat (rows * rb) = true) ∧
    u.table sl o.table.toNat = none ∧
    u.ret.tables.length < 256 ∧
    (o.tier = 0 ∨ u.objectMode sl = false) ∧
    (if o.defaultAddr = 0 then some (zeros rb) else u.hostRead o.defaultAddr.toNat rb) = some d ∧
    u.makeTable o sl o.die.toNat d (TagOf h s) = r ∧
    ∃ t st l,
    r = .done t st l :=
  ⟨h1, tOps, st1, _, _, by exact ⟨by decide, by decide, by decide, by decide, by decide, by decide, by decide, by decide, by decide, by decide, by decide,
    by decide, by decide, rfl, rfl, makeTable_st1⟩⟩

/-- What clause 2 of `TableCommandsComplete` asks can be met. -/
theorem witness_table_commands_complete_2 :
    ∃ (h : Hdr) (o : TableOps) (s : State) (d : Bytes) (r : Reply),
    let u := Fetched h s
    let sl := cmdSlice h.fn.toNat o.slice.toNat
    let rb := o.rowBytes.toNat
    let rows := if o.rows = 0 then 2 ^ 32 else o.rows.toNat
    Accepts { widths := [6, 8, 4, 32, 32, 2, 1, 2, 1, 64, 32, 64] } h s ∧
    u.defined sl = true ∧
    64 ≤ rb ∧
    rb ≤ 65536 ∧
    rb % 64 = 0 ∧
    o.rformat ≠ 3 ∧
    o.hotMax.toNat ≤ 1048576 ∧
    o.tier ≠ 3 ∧
    o.die.toNat < (u.dieList sl).length ∧
    (o.va = 0 ∨ o.va.toNat % 4096 = 0 ∧ inTier (u.tierFor sl 3 o.tier.toNat) o.va.toNat (rows * rb) = true) ∧
    u.table sl o.table.toNat = none ∧
    u.ret.tables.length < 256 ∧
    (o.tier = 0 ∨ u.objectMode sl = false) ∧
    (if o.defaultAddr = 0 then some (zeros rb) else u.hostRead o.defaultAddr.toNat rb) = some d ∧
    u.makeTable o sl o.die.toNat d (TagOf h s) = r ∧
    ∃ t,
    r = .later t :=
  ⟨h1, tOps2, stC, _, _, by exact ⟨by decide, by decide, by decide, by decide, by decide, by decide, by decide, by decide, by decide, by decide, by decide,
    by decide, by decide, rfl, rfl, makeTable_stC⟩⟩

/-- What clause 3 of `TableCommandsComplete` asks can be met. -/
theorem witness_table_commands_complete_3 :
    ∃ (h : Hdr) (slice : BitVec 6) (table : U8) (s : State) (x : Table),
    let u := Fetched h s
    let sl := cmdSlice h.fn.toNat slice.toNat
    Accepts { widths := [6, 8], entry := s.tableNode h slice table } h s ∧
    u.defined sl = true ∧
    u.openTable sl table.toNat = some x ∧
    x.staged ≠ none ∧
    x.switching = none :=
  ⟨h1, 0, 0, { stT with ret := { tables := [{ tab0 with staged := some 0x1000 }] } }, { tab0 with staged := some 0x1000 }, by decide⟩

/-- What clause 4 of `TableCommandsComplete` asks can be met. -/
theorem witness_table_commands_complete_4 :
    ∃ (h : Hdr) (slice : BitVec 6) (table : U8) (s : State) (x : Table),
    let u := Fetched h s
    let sl := cmdSlice h.fn.toNat slice.toNat
    Accepts { widths := [6, 8], entry := s.tableNode h slice table } h s ∧
    u.defined sl = true ∧
    u.openTable sl table.toNat = some x ∧
    ∃ t va,
    x.staged = none ∧
    u.takeObj sl 3 x.tier 0 (units4 (x.rows * x.rowBytes)) none x.prot (some (TagOf h s)) = .ok (t, va) ∧
    let v := t.setTable { x with staged := some va }
    (v.createdBy (some (TagOf h s))).all (·.awaited.isEmpty) = true :=
  ⟨h1, 0, 0, stT, tab0, by exact ⟨by decide, by decide, by decide, tStage, 0x1000, by decide, takeObj_stT, by decide⟩⟩

/-- What clause 5 of `TableCommandsComplete` asks can be met. -/
theorem witness_table_commands_complete_5 :
    ∃ (h : Hdr) (slice : BitVec 6) (table : U8) (s : State) (x : Table),
    let u := Fetched h s
    let sl := cmdSlice h.fn.toNat slice.toNat
    Accepts { widths := [6, 8], entry := s.tableNode h slice table } h s ∧
    u.defined sl = true ∧
    u.openTable sl table.toNat = some x ∧
    ∃ t va,
    x.staged = none ∧
    u.takeObj sl 3 x.tier 0 (units4 (x.rows * x.rowBytes)) none x.prot (some (TagOf h s)) = .ok (t, va) ∧
    let v := t.setTable { x with staged := some va }
    (v.createdBy (some (TagOf h s))).all (·.awaited.isEmpty) = false :=
  ⟨h1, 0, 0, stC, { tab0 with tier := 2 }, by exact ⟨by decide, by decide, by decide, t2 3 0x4000000000000 1 1, 0x4000000000000, by decide, takeObj_stC', by decide⟩⟩

/-- What clause 6 of `TableCommandsComplete` asks can be met. -/
theorem witness_table_commands_complete_6 :
    ∃ (h : Hdr) (o : BatchOps) (s : State) (x : Table) (b : Bytes) (rows : List Bytes),
    let u := Fetched h s
    let sl := cmdSlice h.fn.toNat o.slice.toNat
    let n := o.count.toNat
    let op := fun (kind : RetKind) (rs : List Bytes) => ({ id := 0, kind := kind, slice := sl, num := o.table.toNat, die := x.die, lc := o.lc == 1, tag := some (TagOf h s), addr := o.addr.toNat, isVa := o.isVa == 1, list := listEntries n b, owner := 0xFFFF, rows := rs } : RetOp)
    Accepts { widths := batchWidths, entry := s.batchNode h o } h s ∧
    o.owner = 0xFFFF ∧
    u.defined sl = true ∧
    u.openTable sl o.table.toNat = some x ∧
    u.table sl o.table.toNat = some x ∧
    0 < n ∧
    n ≤ 65536 ∧
    u.hostRead o.listAddr.toNat (8 * n) = some b ∧
    u.batchRows o x.rowBytes = some rows ∧
    x.rformat ≠ 0 :=
  ⟨h1, { count := 1 }, stT, tab0, _, _, by exact ⟨by decide, by decide, by decide, by decide, by decide, by decide, by decide, rfl, rfl, by decide⟩⟩

/-- What clause 7 of `TableCommandsComplete` asks can be met. -/
theorem witness_table_commands_complete_7 :
    ∃ (h : Hdr) (slice : BitVec 6) (table : U8) (addr : U64) (count : U32) (s : State) (x : Table) (b : Bytes),
    let u := Fetched h s
    let sl := cmdSlice h.fn.toNat slice.toNat
    let n := count.toNat
    let l := listEntries n b
    let x1 := { x with pendingHot := some ((l.filter fun e => !x.badRow e).eraseDups) }
    Accepts { widths := [6, 8, 64, 32], entry := s.tableNode h slice table } h s ∧
    u.defined sl = true ∧
    u.openTable sl table.toNat = some x ∧
    n ≤ x.hotMax ∧
    u.hostRead addr.toNat (8 * n) = some b ∧
    badEntries x.rows l = 0 :=
  ⟨h1, 0, 0, 0, 4, stT, tab0, _, by exact ⟨by decide, by decide, by decide, by decide, rfl, by decide⟩⟩

/-- What clause 1 of `CompositionPortAndCheckpointCommandsComplete` asks can be met. -/
theorem witness_composition_port_and_checkpoint_commands_complete_1 :
    ∃ (h : Hdr) (c : ChangeOps) (s : State) (n a : Nat),
    let u := Fetched h s
    let x := { changeOf c with proposer := n }
    let id := tabFresh u.comp.waiting 0
    let v := { u with comp := { u.comp with waiting := tabPut u.comp.waiting id (TagOf h s) } }
    Accepts { fns := .pf0, priv := 0x070D, widths := [3, 16, 6, 2, 256, 64, 1, 112], noImage := true } h s ∧
    u.devNo = some n ∧
    u.changeBad x = false ∧
    u.changeBusy x = false ∧
    u.arbiter = some a ∧
    u.ownNo = some a :=
  ⟨{ h0 with indirect := true, indLen := 72 }, { op := 1, device := 4094 }, stC, 1, 1, by decide⟩

/-- What clause 2 of `CompositionPortAndCheckpointCommandsComplete` asks can be met. -/
theorem witness_composition_port_and_checkpoint_commands_complete_2 :
    ∃ (h : Hdr) (c : ChangeOps) (s : State) (n a : Nat),
    let u := Fetched h s
    let x := { changeOf c with proposer := n }
    let id := tabFresh u.comp.waiting 0
    let v := { u with comp := { u.comp with waiting := tabPut u.comp.waiting id (TagOf h s) } }
    Accepts { fns := .pf0, priv := 0x070D, widths := [3, 16, 6, 2, 256, 64, 1, 112], noImage := true } h s ∧
    u.devNo = some n ∧
    u.changeBad x = false ∧
    u.changeBusy x = false ∧
    u.arbiter = some a ∧
    u.ownNo ≠ some a :=
  ⟨{ h0 with indirect := true, indLen := 72 }, { op := 3, device := 1, slice := 63 },
    { stC with comp := { comp0 with quorum := [2] } }, 1, 2, by decide⟩

/-- What clause 3 of `CompositionPortAndCheckpointCommandsComplete` asks can be met. -/
theorem witness_composition_port_and_checkpoint_commands_complete_3 :
    ∃ (h : Hdr) (port : BitVec 6) (s : State),
    let u := Fetched h s
    let v := u.setFld .portCtrl port.toNat 0 0 1 0
    Accepts { fns := .pf0, priv := 0x070D, widths := [6], noImage := true, entry := portNode port } h s ∧
    badPort port = false ∧
    ((v.port port.toNat).state = 0 ∨ (v.port port.toNat).state = 6) :=
  ⟨h0, 47, st, by decide⟩

/-- What clause 4 of `CompositionPortAndCheckpointCommandsComplete` asks can be met. -/
theorem witness_composition_port_and_checkpoint_commands_complete_4 :
    ∃ (h : Hdr) (port : BitVec 6) (s : State),
    let u := Fetched h s
    let v := u.setFld .portCtrl port.toNat 0 0 1 0
    Accepts { fns := .pf0, priv := 0x070D, widths := [6], noImage := true, entry := portNode port } h s ∧
    badPort port = false ∧
    (v.port port.toNat).state ≠ 0 ∧
    (v.port port.toNat).state ≠ 6 :=
  ⟨h0, 0, { st with net := { ports := [(0, { state := 5 })] } }, by decide⟩

/-- What clause 5 of `CompositionPortAndCheckpointCommandsComplete` asks can be met. -/
theorem witness_composition_port_and_checkpoint_commands_complete_5 :
    ∃ (h : Hdr) (port : BitVec 6) (s : State),
    badPort port = false ∧
    Accepts { fns := .pf0, priv := 0x070D, widths := [6], wedge := true, noImage := true } h s :=
  ⟨h0, 47, st, by decide⟩

/-- What clause 6 of `CompositionPortAndCheckpointCommandsComplete` asks can be met. -/
theorem witness_composition_port_and_checkpoint_commands_complete_6 :
    ∃ (h : Hdr) (port : BitVec 6) (s : State),
    badPort port = false ∧
    Accepts { fns := .pf0, priv := 0x070D, widths := [6], noImage := true, entry := portNode port } h s :=
  ⟨h0, 47, st, by decide⟩

/-- What clause 7 of `CompositionPortAndCheckpointCommandsComplete` asks can be met. -/
theorem witness_composition_port_and_checkpoint_commands_complete_7 :
    ∃ (h : Hdr) (slice : BitVec 6) (s : State),
    let u := Fetched h s
    let sl := cmdSlice h.fn.toNat slice.toNat
    Accepts { widths := [6], entry := s.stateNodes sl } h s ∧
    u.defined sl = true ∧
    byteAt (u.ckPolicy sl) 0 = 1 ∧
    tabGet u.ck.now sl = none ∧
    let v : State := { u with ck := { u.ck with now := tabPut u.ck.now sl (TagOf h s) } }
    (¬ (tabGet u.srv.jobs sl = none ∧ u.ckDefers sl = true)) :=
  ⟨h1, 0, { st with img := { running := some { img0 with sections := [⟨0x000A, 0, 0, [1]⟩] } } }, by decide⟩

/-- What clause 8 of `CompositionPortAndCheckpointCommandsComplete` asks can be met. -/
theorem witness_composition_port_and_checkpoint_commands_complete_8 :
    ∃ (h : Hdr) (slice : BitVec 6) (s : State),
    let u := Fetched h s
    let sl := cmdSlice h.fn.toNat slice.toNat
    Accepts { widths := [6], entry := s.stateNodes sl } h s ∧
    u.defined sl = true ∧
    byteAt (u.ckPolicy sl) 0 = 1 ∧
    tabGet u.ck.now sl = none ∧
    let v : State := { u with ck := { u.ck with now := tabPut u.ck.now sl (TagOf h s) } }
    tabGet u.srv.jobs sl = none ∧
    u.ckDefers sl = true :=
  ⟨h1, 0, { st with img := { running := some { img0 with sections := [⟨0x000A, 0, 0, [1]⟩] } }, ck := { flight := [ckp .staging] } }, by decide⟩

/-- What clause 9 of `CompositionPortAndCheckpointCommandsComplete` asks can be met. -/
theorem witness_composition_port_and_checkpoint_commands_complete_9 :
    ∃ (h : Hdr) (slice : BitVec 6) (s : State),
    let u := Fetched h s
    let sl := cmdSlice h.fn.toNat slice.toNat
    Accepts { widths := [6], entry := s.stateNodes sl } h s ∧
    u.defined sl = true ∧
    (∀ c ∈ u.ck.flight, c.slice ≠ sl) :=
  ⟨h1, 0, st, by decide⟩

/-- What clause 10 of `CompositionPortAndCheckpointCommandsComplete` asks can be met. -/
theorem witness_composition_port_and_checkpoint_commands_complete_10 :
    ∃ (h : Hdr) (slice : BitVec 6) (locator ckpt : U64) (s : State) (x : CkTarget) (i : CkImage),
    let u := Fetched h s
    let sl := cmdSlice h.fn.toNat slice.toNat
    Accepts { widths := [6, 64, 64], entry := s.stateNodes sl } h s ∧
    firstFail (u.restoreChecks sl locator.toNat ckpt.toNat) = none ∧
    u.targetAt locator.toNat = some x ∧
    x.pick ckpt.toNat = some i :=
  ⟨h1, 0, 0x2000000000000, 0, { stD with ck := { targets := [{ slice := 0, members := [(2, some 0)], even := some ck0 }] } },
    { slice := 0, members := [(2, some 0)], even := some ck0 }, ck0, by decide⟩

/-- What clause 1 of `ImageAndGenerationCommandsComplete` asks can be met, but for what an uninterpreted constant of Config decides. -/
theorem witness_image_and_generation_commands_complete_1 :
    ∃ (h : Hdr) (src : U64) (len : U32) (mode : BitVec 2) (s : State),
    let u := Fetched h s
    s.module ≠ 0 ∧
    Accepts { fns := .pf0, priv := 0x0A0F, widths := [64, 32, 2], noImage := true } h s ∧
    u.fld .imgCtrl 0 0 0 1 = 0 ∧
    u.img.load = none ∧
    u.spent = false ∧
    ∃ b,
    mode.toNat < 2 ∧
    u.hostRead src.toNat len.toNat = some b ∧
    len.toNat ≤ 2 ^ 26 ∧
    mode = 1 :=
  ⟨h0, 0, 4096, 1, stM, by exact ⟨by decide, by decide, by decide, by decide, by decide, _, by decide, rfl, by decide, by decide⟩⟩

/-- What clause 2 of `ImageAndGenerationCommandsComplete` asks can be met, but for what an uninterpreted constant of Config decides. -/
theorem witness_image_and_generation_commands_complete_2 :
    ∃ (h : Hdr) (src : U64) (len : U32) (mode : BitVec 2) (s : State),
    let u := Fetched h s
    s.module ≠ 0 ∧
    Accepts { fns := .pf0, priv := 0x0A0F, widths := [64, 32, 2], noImage := true } h s ∧
    u.fld .imgCtrl 0 0 0 1 = 0 ∧
    u.img.load = none ∧
    u.spent = false ∧
    ∃ b,
    mode.toNat < 2 ∧
    u.hostRead src.toNat len.toNat = some b ∧
    len.toNat ≤ 2 ^ 26 ∧
    mode = 0 :=
  ⟨h0, 0, 4096, 0, stM, by exact ⟨by decide, by decide, by decide, by decide, by decide, _, by decide, rfl, by decide, by decide⟩⟩

/-- What clause 3 of `ImageAndGenerationCommandsComplete` asks can be met. -/
theorem witness_image_and_generation_commands_complete_3 :
    ∃ (h : Hdr) (src : U64) (len : U32) (mode : BitVec 2) (s : State),
    let u := Fetched h s
    s.module ≠ 0 ∧
    Accepts { fns := .pf0, priv := 0x0A0F, widths := [64, 32, 2], noImage := true } h s ∧
    u.fld .imgCtrl 0 0 0 1 = 0 ∧
    u.img.load = none ∧
    u.spent = false ∧
    ∃ i,
    mode = 2 ∧
    u.img.staged = some i ∧
    firstFail (u.acceptChecks i) = none :=
  ⟨h0, 0, 0, 2, { stM with img := { stM.img with staged := some img1 } }, by exact ⟨by decide, by decide, by decide, by decide, by decide, img1, by decide, by decide, by decide⟩⟩

/-- What clause 4 of `ImageAndGenerationCommandsComplete` asks can be met, but for what an uninterpreted constant of Config decides. -/
theorem witness_image_and_generation_commands_complete_4 :
    ∃ (h : Hdr) (tokenAddr : U64) (s : State) (b : Bytes) (k : Nat),
    let u := Fetched h s
    s.module ≠ 0 ∧
    Accepts { fns := .pf0, priv := 0x0A0F, widths := [64], noImage := true } h s ∧
    u.fld .imgCtrl 0 0 0 1 = 0 ∧
    u.hostRead tokenAddr.toNat tokenLen = some b ∧
    ((List.range 7).find? (fun k => !(u.author (k + 1)).fused && !(u.author (k + 1)).revoked) = some k) :=
  ⟨h0, 0, stM, _, 0, by exact ⟨by decide, by decide, by decide, rfl, by decide⟩⟩

/-- What clause 5 of `ImageAndGenerationCommandsComplete` asks can be met. -/
theorem witness_image_and_generation_commands_complete_5 :
    ∃ (h : Hdr) (slot : U32) (s : State),
    let u := Fetched h s
    Accepts { fns := .pf0, priv := 0x0A0F, widths := [32], noImage := true } h s ∧
    u.fld .imgCtrl 0 0 0 1 = 0 ∧
    1 ≤ slot.toNat ∧
    slot.toNat ≤ 7 :=
  ⟨h0, 7, st, by decide⟩

/-- What clause 6 of `ImageAndGenerationCommandsComplete` asks can be met. -/
theorem witness_image_and_generation_commands_complete_6 :
    ∃ (h : Hdr) (s : State) (g : Nat),
    let u := Fetched h s
    s.module ≠ 0 ∧
    u.module = 1 ∧
    Accepts { fns := .pf0, priv := 0x0910, noImage := true } h s ∧
    u.nextGen = some g ∧
    countBits u.inUse 16 < 4 :=
  ⟨h0, stM, 1, by decide⟩

/-- What clause 7 of `ImageAndGenerationCommandsComplete` asks can be met. -/
theorem witness_image_and_generation_commands_complete_7 :
    ∃ (h : Hdr) (gen : U32) (s : State),
    let u := Fetched h s
    let g := gen.toNat
    s.module ≠ 0 ∧
    u.module = 1 ∧
    Accepts { fns := .pf0, priv := 0x0910, widths := [32], noImage := true } h s ∧
    g ≤ 15 ∧
    bitAt u.sec.retired g = false ∧
    g ≠ u.sec.current ∧
    bitAt u.inUse g = false :=
  ⟨h0, 15, stM, by decide⟩

/-- What clause 8 of `ImageAndGenerationCommandsComplete` asks can be met. -/
theorem witness_image_and_generation_commands_complete_8 :
    ∃ (h : Hdr) (s : State),
    Accepts { fns := .pf0, priv := 0x0910, hibernate := true, wedge := true, noImage := true, recovery := true } h s :=
  ⟨h0, st, by decide⟩

/-- What clause 1 of `KeyAndConsentCommandsComplete` asks can be met, but for what an uninterpreted constant of Config decides. -/
theorem witness_key_and_consent_commands_complete_1 :
    ∃ (h : Hdr) (addr : U64) (s : State) (b key : Bytes),
    let u := Fetched h s
    let sl := byteAt b 8
    s.module ≠ 0 ∧
    u.module = 1 ∧
    Accepts { fns := .any, priv := 0x0910, widths := [64] } h s ∧
    u.readBlob addr.toNat = some b ∧
    roleBad h.fn.toNat sl = false ∧
    u.defined sl = true ∧
    le b 0 4 = 0x4C455251 ∧
    le b 4 2 = 1 ∧
    le b 6 2 < 2 ∧
    zeroAt b 0xA 6 = true ∧
    byteAt b 9 ≤ 15 ∧
    u.unmeasured = false ∧
    bitAt (byteAt (u.policy sl) 0) 2 = true ∧
    u.nonceStale b = false :=
  ⟨h1, 0, { hm [(0, 0x51), (1, 0x52), (2, 0x45), (3, 0x4C), (4, 1)] with sec := { stM.sec with nonces := [(0, 0)] } }, _, [], by exact ⟨by decide, by decide,
    by decide, rfl, by decide, by decide, by decide, by decide, by decide, by decide, by decide, by decide, by decide, by decide⟩⟩

/-- What clause 2 of `KeyAndConsentCommandsComplete` asks can be met, but for what an uninterpreted constant of Config decides. -/
theorem witness_key_and_consent_commands_complete_2 :
    ∃ (h : Hdr) (slice : BitVec 6) (slot : U32) (addr : U64) (s : State) (b0 b e key : Bytes),
    let u := Fetched h s
    let sl := cmdSlice h.fn.toNat slice.toNat
    s.module ≠ 0 ∧
    u.module = 1 ∧
    Accepts { fns := .any, priv := 0x0910, widths := [6, 32, 64] } h s ∧
    u.defined sl = true ∧
    u.hostRead addr.toNat 256 = some b0 ∧
    u.hostRead addr.toNat (256 + 1168 * byteAt b0 0x3C) = some b ∧
    slot.toNat ≤ 15 ∧
    weightHeaderBad b = false ∧
    u.unmeasured = false ∧
    bitAt (byteAt (u.policy sl) 0) 3 = true ∧
    tabGet u.sec.consents sl = none ∧
    bitAt (le b 6 2) 0 = true :=
  ⟨h1, 0, 15, 0, hm [(0, 0x51), (1, 0x57), (2, 0x50), (3, 0x4B), (4, 1), (6, 1), (0x3C, 1)], _, _, [], [], by exact ⟨by decide, by decide, by decide, by decide,
    rfl, rfl, by decide, by decide, by decide, by decide, by decide, by decide⟩⟩

/-- What clause 3 of `KeyAndConsentCommandsComplete` asks can be met. -/
theorem witness_key_and_consent_commands_complete_3 :
    ∃ (h : Hdr) (slice : BitVec 6) (slot : U32) (src : U64) (first count : U32) (dst : U64) (s t : State) (b : Bytes) (k : KeySlot),
    let u := Fetched h s
    let sl := cmdSlice h.fn.toNat slice.toNat
    let n := min (65536 * count.toNat) (le b 0x30 8 - 65536 * first.toNat)
    s.module ≠ 0 ∧
    u.module = 1 ∧
    Accepts { fns := .any, priv := 0x0910, widths := [6, 32, 64, 32, 32, 64] } h s ∧
    u.defined sl = true ∧
    u.hostRead src.toNat 256 = some b ∧
    slot.toNat < 16 ∧
    tabGet u.sec.slots (16 * sl + slot.toNat) = some k ∧
    k.packageId = hashAt b 8 ∧
    first.toNat + count.toNat ≤ le b 0x38 4 ∧
    u.inProtected sl dst.toNat n = true ∧
    u.decryptChunks b k.key src.toNat sl ((List.range count.toNat).map (· + first.toNat)) dst.toNat = .ok t :=
  ⟨h1, 0, 15, 0, 0, 0, 0, { stM with mem := { objects := [{ obj0 with prot := true }] }, sec := { stM.sec with slots := [(15, ⟨[], 0⟩)] } }, _, _, ⟨[], 0⟩, by
    exact ⟨by decide, by decide, by decide, by decide, rfl, by decide, by decide, by decide, by decide, by decide, rfl⟩⟩

/-- What clause 4 of `KeyAndConsentCommandsComplete` asks can be met, but for what an uninterpreted constant of Config decides. -/
theorem witness_key_and_consent_commands_complete_4 :
    ∃ (h : Hdr) (slice : BitVec 6) (addr : U64) (s : State) (b : Bytes),
    let u := Fetched h s
    let sl := cmdSlice h.fn.toNat slice.toNat
    let v := u.consentOff sl
    let c : Consent := { cflags := le b 6 2, expiry := BitVec.ofNat 64 (le b 0x50 8), hash := Config.sha3 b }
    let w := ({ v with sec := { v.sec with consents := tabPut v.sec.consents sl c } } : State)
    s.module ≠ 0 ∧
    Accepts { fns := .any, priv := 0x0910, widths := [6, 64] } h s ∧
    u.defined sl = true ∧
    bitAt (byteAt (u.policy sl) 0) 1 = true ∧
    u.hostRead addr.toNat 3828 = some b :=
  ⟨h1, 0, 0, stM, _, by exact ⟨by decide, by decide, by decide, by decide, rfl⟩⟩

/-- What clause 5 of `KeyAndConsentCommandsComplete` asks can be met. -/
theorem witness_key_and_consent_commands_complete_5 :
    ∃ (h : Hdr) (slice : BitVec 6) (s : State),
    let u := Fetched h s
    let sl := cmdSlice h.fn.toNat slice.toNat
    Accepts { fns := .any, priv := 0x0910, widths := [6] } h s ∧
    u.defined sl = true :=
  ⟨h1, 0, st, by decide⟩

/-- What clause 1 of `ResetPowerAndFirmwareCommandsComplete` asks can be met. -/
theorem witness_reset_power_and_firmware_commands_complete_1 :
    ∃ (h : Hdr) (scope : BitVec 2) (die : BitVec 5) (slice : BitVec 6) (s : State),
    let u := Fetched h s
    let d := die.toNat
    Accepts { fns := .pf0, widths := [2, 5, 6], hibernate := scope == 0, noImage := true } h s ∧
    scope = 0 :=
  ⟨h0, 0, 0, 0, st, by decide⟩

/-- What clause 2 of `ResetPowerAndFirmwareCommandsComplete` asks can be met. -/
theorem witness_reset_power_and_firmware_commands_complete_2 :
    ∃ (h : Hdr) (scope : BitVec 2) (die : BitVec 5) (slice : BitVec 6) (s : State),
    let u := Fetched h s
    let d := die.toNat
    Accepts { fns := .pf0, widths := [2, 5, 6], hibernate := scope == 0, noImage := true } h s ∧
    scope = 1 ∧
    d ≤ 18 ∧
    (u.die d).powered = true ∧
    u.hibernating = false ∧
    u.pkg.shutdown = false :=
  ⟨h0, 1, 18, 0, stM, by decide⟩

/-- What clause 3 of `ResetPowerAndFirmwareCommandsComplete` asks can be met. -/
theorem witness_reset_power_and_firmware_commands_complete_3 :
    ∃ (h : Hdr) (scope : BitVec 2) (die : BitVec 5) (slice : BitVec 6) (s : State),
    let u := Fetched h s
    let d := die.toNat
    Accepts { fns := .pf0, widths := [2, 5, 6], hibernate := scope == 0, noImage := true } h s ∧
    scope = 2 ∧
    u.defined slice.toNat = true :=
  ⟨h0, 2, 0, 0, st, by decide⟩

/-- What clause 4 of `ResetPowerAndFirmwareCommandsComplete` asks can be met. -/
theorem witness_reset_power_and_firmware_commands_complete_4 :
    ∃ (h : Hdr) (s : State),
    Accepts { fns := .pf0, wedge := true, hibernate := true, noImage := true, recovery := true } h s :=
  ⟨h0, st, by decide⟩

/-- What clause 5 of `ResetPowerAndFirmwareCommandsComplete` asks can be met. -/
theorem witness_reset_power_and_firmware_commands_complete_5 :
    ∃ (h : Hdr) (target force : U1) (s : State),
    let u := Fetched h s
    Accepts { fns := .pf0, widths := [1, 1], hibernate := true, noImage := true } h s ∧
    target = 1 ∧
    u.pkg.hib = .awake ∧
    u.img.load = none ∧
    u.sec.zeroizePending = false ∧
    u.pkg.shutdown = false ∧
    (force = 1 ∨ u.heldInComp = false) :=
  ⟨h0, 1, 1, st, by decide⟩

/-- What clause 6 of `ResetPowerAndFirmwareCommandsComplete` asks can be met. -/
theorem witness_reset_power_and_firmware_commands_complete_6 :
    ∃ (h : Hdr) (target force : U1) (s : State),
    let u := Fetched h s
    Accepts { fns := .pf0, widths := [1, 1], hibernate := true, noImage := true } h s ∧
    target = 0 ∧
    u.pkg.hib = .asleep :=
  ⟨h0, 0, 0, { st with pkg := { st.pkg with hib := .asleep } }, by decide⟩

/-- What clause 7 of `ResetPowerAndFirmwareCommandsComplete` asks can be met. -/
theorem witness_reset_power_and_firmware_commands_complete_7 :
    ∃ (h : Hdr) (target force : U1) (s : State),
    let u := Fetched h s
    Accepts { fns := .pf0, widths := [1, 1], hibernate := true, noImage := true } h s ∧
    target = 0 ∧
    u.pkg.hib = .waking :=
  ⟨h0, 0, 0, { st with pkg := { st.pkg with hib := .waking } }, by decide⟩

/-- What clause 8 of `ResetPowerAndFirmwareCommandsComplete` asks can be met. -/
theorem witness_reset_power_and_firmware_commands_complete_8 :
    ∃ (h : Hdr) (target force : U1) (s : State),
    let u := Fetched h s
    Accepts { fns := .pf0, widths := [1, 1], hibernate := true, noImage := true } h s ∧
    target = 0 ∧
    u.pkg.hib = .awake :=
  ⟨h0, 0, 0, st, by decide⟩

/-- What clause 9 of `ResetPowerAndFirmwareCommandsComplete` asks can be met, but for what an uninterpreted constant of Config decides. -/
theorem witness_reset_power_and_firmware_commands_complete_9 :
    ∃ (h : Hdr) (src : U64) (len : U32) (target : U1) (mode : BitVec 2) (s : State) (b : Bytes),
    let u := Fetched h s
    s.module ≠ 0 ∧
    Accepts { fns := .pf0, widths := [64, 32, 1, 2], noImage := true, recovery := true } h s ∧
    u.img.load = none ∧
    mode = 0 ∧
    target = 0 ∧
    len.toNat ≤ 48 * 2 ^ 20 ∧
    u.hostRead src.toNat len.toNat = some b :=
  ⟨h0, 0, 4096, 0, 0, stM, _, by exact ⟨by decide, by decide, by decide, by decide, by decide, by decide, rfl⟩⟩

/-- What clause 10 of `ResetPowerAndFirmwareCommandsComplete` asks can be met, but for what an uninterpreted constant of Config decides. -/
theorem witness_reset_power_and_firmware_commands_complete_10 :
    ∃ (h : Hdr) (src : U64) (len : U32) (target : U1) (mode : BitVec 2) (s : State) (b : Bytes),
    let u := Fetched h s
    s.module ≠ 0 ∧
    Accepts { fns := .pf0, widths := [64, 32, 1, 2], noImage := true, recovery := true } h s ∧
    u.img.load = none ∧
    mode = 0 ∧
    target = 1 ∧
    len.toNat ≤ 2 ^ 26 ∧
    u.hostRead src.toNat len.toNat = some b :=
  ⟨h0, 0, 4096, 1, 0, stM, _, by exact ⟨by decide, by decide, by decide, by decide, by decide, by decide, rfl⟩⟩

/-- What clause 11 of `ResetPowerAndFirmwareCommandsComplete` asks can be met. -/
theorem witness_reset_power_and_firmware_commands_complete_11 :
    ∃ (h : Hdr) (src : U64) (len : U32) (target : U1) (mode : BitVec 2) (s : State) (b : Bytes),
    let u := Fetched h s
    s.module ≠ 0 ∧
    Accepts { fns := .pf0, widths := [64, 32, 1, 2], noImage := true, recovery := true } h s ∧
    u.img.load = none ∧
    mode = 1 ∧
    target = 0 ∧
    u.flash.staged = true :=
  ⟨h0, 0, 0, 0, 1, { stM with flash := { staged := true } }, [], by decide⟩

/-- What clause 12 of `ResetPowerAndFirmwareCommandsComplete` asks can be met. -/
theorem witness_reset_power_and_firmware_commands_complete_12 :
    ∃ (h : Hdr) (src : U64) (len : U32) (target : U1) (mode : BitVec 2) (s : State) (b : Bytes),
    let u := Fetched h s
    s.module ≠ 0 ∧
    Accepts { fns := .pf0, widths := [64, 32, 1, 2], noImage := true, recovery := true } h s ∧
    u.img.load = none ∧
    mode = 2 ∧
    target = 0 ∧
    u.flash.staged = true :=
  ⟨h0, 0, 0, 0, 2, { stM with flash := { staged := true } }, [], by decide⟩

/-- What clause 13 of `ResetPowerAndFirmwareCommandsComplete` asks can be met. -/
theorem witness_reset_power_and_firmware_commands_complete_13 :
    ∃ (h : Hdr) (first count : U32) (dst : U64) (s : State),
    let u := Fetched h s
    let l := u.logFrom first.toNat count.toNat
    Accepts { fns := .pf0, widths := [32, 32, 64], hibernate := true, wedge := true, noImage := true, recovery := true } h s ∧
    1 ≤ count.toNat ∧
    count.toNat ≤ 1024 ∧
    u.hostOk dst.toNat (l.flatMap LogEntry.bytes).length = true :=
  ⟨h0, 0, 1024, 0x1000, st, by decide⟩

/-- What clause 1 of `ControlRegisterRowsComplete` asks can be met. -/
theorem witness_control_register_rows_complete_1 :
    ∃ (v : U32) (s : State),
    s.fieldsRefuse .rstCtrl 0 0 = false ∧
    v.toNat / 2 ^ 16 = 0x5053 ∧
    v.toNat % 2 = 1 :=
  ⟨0x50530001, st, by decide⟩

/-- What clause 2 of `ControlRegisterRowsComplete` asks can be met. -/
theorem witness_control_register_rows_complete_2 :
    ∃ (v : U32) (s : State),
    s.fieldsRefuse .thermCtrl 0 0 = false ∧
    v.toNat / 2 ^ 16 = 0x5448 ∧
    v.toNat % 2 = 1 :=
  ⟨0x54480001, st, by decide⟩

/-- What clause 3 of `ControlRegisterRowsComplete` asks can be met. -/
theorem witness_control_register_rows_complete_3 :
    ∃ (s : State) (p : U64),
    s.sec.armed = some p ∧
    s.pkc - p.toNat ≤ 2 ^ 20 :=
  ⟨{ st with pkg := { st.pkg with pkc := 0x100000 }, sec := { armed := some 0 } }, 0, by decide⟩

/-- What clause 4 of `ControlRegisterRowsComplete` asks can be met. -/
theorem witness_control_register_rows_complete_4 :
    ∃ (port : BitVec 6) (s : State),
    port.toNat < 48 ∧
    s.seqDown (16 + port.toNat / 16) = false ∧
    s.fld .portCtrl port.toNat 0 0 1 = 0 ∧
    let v := s.setFld .portCtrl port.toNat 0 0 1 0
    v.portSlice port.toNat ≠ none :=
  ⟨0, { stM with img := { running := some img2 } }, by decide⟩

/-- What clause 5 of `ControlRegisterRowsComplete` asks can be met. -/
theorem witness_control_register_rows_complete_5 :
    ∃ (v : U32) (s : State),
    s.fieldsRefuse .errlogCtrl 0 0 = false ∧
    let t := s.writeFields .errlogCtrl 0 0 v.toNat
    let seqs := (t.log.slots.filter fun x => x.1 / 64 == t.fld .errlogCtrl 0 0 0 4 && t.reg .errlogHead 0 0 ≤ x.2.seq).map (·.2.seq)
    v.toNat / 16 % 2 = 1 ∧
    seqs ≠ [] :=
  ⟨16, { st with log := { slots := [(0, ⟨0, 1, 0, 0xFF, 0, 0, 1, 1, 0, 0, []⟩)] } }, by decide⟩

/-- What clause 6 of `ControlRegisterRowsComplete` asks can be met. -/
theorem witness_control_register_rows_complete_6 :
    ∃ (v : U32) (s : State),
    s.fieldsRefuse .errlogCtrl 0 0 = false ∧
    let t := s.writeFields .errlogCtrl 0 0 v.toNat
    let seqs := (t.log.slots.filter fun x => x.1 / 64 == t.fld .errlogCtrl 0 0 0 4 && t.reg .errlogHead 0 0 ≤ x.2.seq).map (·.2.seq)
    v.toNat / 16 % 2 = 0 :=
  ⟨0, st, by decide⟩

/-- What clause 7 of `ControlRegisterRowsComplete` asks can be met. -/
theorem witness_control_register_rows_complete_7 :
    ∃ (fn : BitVec 6) (s : State),
    tabGet s.host.latches (latchKey fn.toNat (Reg.pkcLo.addr 0 0)) = none :=
  ⟨0, st, by decide⟩

/-- What clause 8 of `ControlRegisterRowsComplete` asks can be met. -/
theorem witness_control_register_rows_complete_8 :
    ∃ (fn : BitVec 6) (off : BitVec 26) (s : State) (r hi : Reg) (u i : Nat),
    regAt (off.toNat / 4 * 4) = some (r, u, i) ∧
    r.reach u i fn.toNat false = true ∧
    r.row.fields.all (·.acc == .wo) = false ∧
    (r.row.wedge = true ∨ s.seqDown (r.die u) = false) ∧
    r.coarse = false ∧
    tabGet s.host.latches (latchKey fn.toNat (off.toNat / 4 * 4)) = none ∧
    r.latches = none :=
  ⟨0, 131072, stM, .imgCtrl, .imgCtrl, 0, 0, by decide⟩

/-- What clause 9 of `ControlRegisterRowsComplete` asks can be met. -/
theorem witness_control_register_rows_complete_9 :
    ∃ (fn : BitVec 6) (off : BitVec 26) (s : State) (r hi : Reg) (u i : Nat),
    regAt (off.toNat / 4 * 4) = some (r, u, i) ∧
    r.reach u i fn.toNat false = true ∧
    r.row.fields.all (·.acc == .wo) = false ∧
    (r.row.wedge = true ∨ s.seqDown (r.die u) = false) ∧
    r.coarse = false ∧
    tabGet s.host.latches (latchKey fn.toNat (off.toNat / 4 * 4)) = none ∧
    r.latches = some hi :=
  ⟨0, 65536, stM, .pkcLo, .pkcHi, 0, 0, by decide⟩

/-- What clause 1 of `ConfigurationRegisterRowsComplete` asks can be met. -/
theorem witness_configuration_register_rows_complete_1 :
    ∃ (fn slice : BitVec 6) (reg : BitVec 4) (v : U32) (s : State) (k : Nat),
    let sl := slice.toNat
    let g := (regulRegs reg.toNat).2
    let rate := s.reg (regulRegs reg.toNat).1.1 sl (regulRegs reg.toNat).1.2
    reg.toNat < 10 ∧
    Writable s g.1 sl g.2 fn.toNat ∧
    regulOf g.1 g.2 = some k ∧
    k = reg.toNat ∧
    s.regulCheck sl k rate (g.1.covered v.toNat) = none :=
  ⟨1, 0, 9, 0, stM, 9, by decide⟩

/-- What clause 2 of `ConfigurationRegisterRowsComplete` asks can be met. -/
theorem witness_configuration_register_rows_complete_2 :
    ∃ (fn slice entry : BitVec 6) (v : U32) (s : State),
    let sl := slice.toNat
    let i := entry.toNat
    let w := Reg.mtrSel.covered v.toNat
    Writable s .mtrSel sl i fn.toNat ∧
    s.meterCheck sl i w = none :=
  ⟨1, 0, 63, 0, stM, by decide⟩

/-- What clause 3 of `ConfigurationRegisterRowsComplete` asks can be met. -/
theorem witness_configuration_register_rows_complete_3 :
    ∃ (fn slice : BitVec 6) (c : BitVec 4) (v : U32) (s : State),
    let sl := slice.toNat
    let k := c.toNat
    Writable s .evcSel sl k fn.toNat ∧
    counterBad (v.toNat % 256) (v.toNat / 256 % 256) = false ∧
    ((s.sliceEnt sl).getD {}).lacks (v.toNat % 256) (v.toNat / 256 % 256) = false :=
  ⟨1, 0, 7, 0xFF01, stM, by decide⟩

/-- What clause 4 of `ConfigurationRegisterRowsComplete` asks can be met. -/
theorem witness_configuration_register_rows_complete_4 :
    ∃ (fn target : BitVec 6) (v : U32) (s : State),
    let f := target.toNat
    Writable s .aqCfg f 0 fn.toNat ∧
    s.fld .aqCfg f 0 31 1 = 0 ∧
    v.toNat / 2 ^ 31 % 2 = 1 :=
  ⟨0, 0, 0x80000000, stM, by decide⟩

/-- What clause 5 of `ConfigurationRegisterRowsComplete` asks can be met. -/
theorem witness_configuration_register_rows_complete_5 :
    ∃ (fn target : BitVec 6) (v : U32) (s : State),
    let f := target.toNat
    Writable s .aqCfg f 0 fn.toNat ∧
    s.fld .aqCfg f 0 31 1 = 0 ∧
    v.toNat / 2 ^ 31 % 2 = 0 :=
  ⟨0, 0, 0, stM, by decide⟩

/-- What clause 6 of `ConfigurationRegisterRowsComplete` asks can be met. -/
theorem witness_configuration_register_rows_complete_6 :
    ∃ (fn target : BitVec 6) (v : U32) (s : State),
    let f := target.toNat
    Writable s .aqCfg f 0 fn.toNat ∧
    s.fld .aqCfg f 0 31 1 = 1 ∧
    v.toNat / 2 ^ 31 % 2 = 0 :=
  ⟨0, 0, 0, stM.setFld .aqCfg 0 0 31 1 1, by decide⟩

/-- What clause 7 of `ConfigurationRegisterRowsComplete` asks can be met. -/
theorem witness_configuration_register_rows_complete_7 :
    ∃ (fn : BitVec 6) (off : BitVec 26) (v : U32) (s : State) (hi lo : Reg) (u : Nat),
    off.toNat = hi.addr u 0 ∧
    Writable s hi u 0 fn.toNat ∧
    hi.loOf = some lo :=
  ⟨0, 983068, 0, stM, .bar4BaseHi, .bar4BaseLo, 0, by decide⟩

/-- What clause 8 of `ConfigurationRegisterRowsComplete` asks can be met. -/
theorem witness_configuration_register_rows_complete_8 :
    ∃ (fn : BitVec 6) (off : BitVec 26) (data : Bytes) (s : State) (r : Reg) (u i : Nat),
    off.toNat % 4 = 0 ∧
    data.length = 4 ∧
    off.toNat = r.addr u i ∧
    Writable s r u i fn.toNat :=
  ⟨0, 131072, [1, 0, 0, 0], stM, .imgCtrl, 0, 0, by decide⟩

/-- What clause 1 of `DoorbellWindowAndVectorRowsComplete` asks can be met. -/
theorem witness_doorbell_window_and_vector_rows_complete_1 :
    ∃ (fn : BitVec 6) (q : BitVec 12) (v : U16) (s : State) (x : Sq),
    tabGet s.host.sqs q.toNat = some x ∧
    x.fn = fn.toNat ∧
    v.toNat < 2 ^ x.log2 :=
  ⟨1, 1, 15, st, ⟨1, 1, 4, 0, 0, 1⟩, by decide⟩

/-- What clause 2 of `DoorbellWindowAndVectorRowsComplete` asks can be met. -/
theorem witness_doorbell_window_and_vector_rows_complete_2 :
    ∃ (fn : BitVec 6) (q : BitVec 12) (v : U16) (s : State) (c : Cq),
    let n := 2 ^ c.log2
    let c' := { c with head := v.toNat, msgSent := c.ien && v.toNat != c.tail }
    let t := { s with host := { s.host with cqs := tabPut s.host.cqs q.toNat c' } }
    tabGet s.host.cqs q.toNat = some c ∧
    c.fn = fn.toNat ∧
    v.toNat < n ∧
    (v.toNat + n - c.head) % n ≤ (c.tail + n - c.head) % n ∧
    c.ien = true ∧
    v.toNat ≠ c.tail :=
  ⟨1, 1, 1, { st with host := { cqs := [(1, ⟨1, 4, 0x1000, 0, true, 2, true, 0, true, 0⟩)] } }, ⟨1, 4, 0x1000, 0, true, 2, true, 0, true, 0⟩, by decide⟩

/-- What clause 3 of `DoorbellWindowAndVectorRowsComplete` asks can be met. -/
theorem witness_doorbell_window_and_vector_rows_complete_3 :
    ∃ (fn : BitVec 6) (q : BitVec 12) (v : U16) (s : State) (c : Cq),
    let n := 2 ^ c.log2
    let c' := { c with head := v.toNat, msgSent := c.ien && v.toNat != c.tail }
    let t := { s with host := { s.host with cqs := tabPut s.host.cqs q.toNat c' } }
    tabGet s.host.cqs q.toNat = some c ∧
    c.fn = fn.toNat ∧
    v.toNat < n ∧
    (v.toNat + n - c.head) % n ≤ (c.tail + n - c.head) % n ∧
    (c.ien = false ∨ v.toNat = c.tail) :=
  ⟨1, 1, 2, { st with host := { cqs := [(1, ⟨1, 4, 0x1000, 0, true, 2, true, 0, true, 0⟩)] } }, ⟨1, 4, 0x1000, 0, true, 2, true, 0, true, 0⟩, by decide⟩

/-- What clause 4 of `DoorbellWindowAndVectorRowsComplete` asks can be met. -/
theorem witness_doorbell_window_and_vector_rows_complete_4 :
    ∃ (fn : BitVec 6) (q : BitVec 7) (v : U16) (s : State) (e : Evq),
    let n := 2 ^ e.log2
    let used := (e.tail + 2 * n - e.head) % (2 * n)
    let adv := (v.toNat + n - e.head % n) % n
    let t := fun left => { s with host := { s.host with eqs := tabPut s.host.eqs q.toNat { e with head := (e.head + adv) % (2 * n), msgSent := left } } }
    tabGet s.host.eqs q.toNat = some e ∧
    e.fn = fn.toNat ∧
    v.toNat < n ∧
    adv ≤ used ∧
    (¬ (adv = 0 ∧ used = n)) ∧
    adv ≠ used :=
  ⟨0, 64, 1, { st with host := { eqs := [(64, ⟨0, 6, 0, 0, 2, true, 0, true, false⟩)] } }, ⟨0, 6, 0, 0, 2, true, 0, true, false⟩, by decide⟩

/-- What clause 5 of `DoorbellWindowAndVectorRowsComplete` asks can be met. -/
theorem witness_doorbell_window_and_vector_rows_complete_5 :
    ∃ (fn : BitVec 6) (q : BitVec 7) (v : U16) (s : State) (e : Evq),
    let n := 2 ^ e.log2
    let used := (e.tail + 2 * n - e.head) % (2 * n)
    let adv := (v.toNat + n - e.head % n) % n
    let t := fun left => { s with host := { s.host with eqs := tabPut s.host.eqs q.toNat { e with head := (e.head + adv) % (2 * n), msgSent := left } } }
    tabGet s.host.eqs q.toNat = some e ∧
    e.fn = fn.toNat ∧
    v.toNat < n ∧
    adv ≤ used ∧
    (¬ (adv = 0 ∧ used = n)) ∧
    adv = used :=
  ⟨0, 64, 2, { st with host := { eqs := [(64, ⟨0, 6, 0, 0, 2, true, 0, true, false⟩)] } }, ⟨0, 6, 0, 0, 2, true, 0, true, false⟩, by decide⟩

/-- What clause 6 of `DoorbellWindowAndVectorRowsComplete` asks can be met. -/
theorem witness_doorbell_window_and_vector_rows_complete_6 :
    ∃ (fn slice : BitVec 6) (ring : BitVec 14) (v : U32) (s : State) (q : TRing),
    s.tring slice.toNat ring.toNat = some q ∧
    q.fn = fn.toNat ∧
    (2 ^ 32 + v.toNat - q.c) % 2 ^ 32 ≤ (2 ^ 32 + q.p - q.c) % 2 ^ 32 :=
  ⟨1, 0, 16383, 64, { st with srv := { rings := [(16383, { ring0 with p := 64 })] } }, { ring0 with p := 64 }, by decide⟩

/-- What clause 7 of `DoorbellWindowAndVectorRowsComplete` asks can be met. -/
theorem witness_doorbell_window_and_vector_rows_complete_7 :
    ∃ (fn : BitVec 6) (write inIde : Bool) (off : BitVec 40) (len : BitVec 12) (data : Bytes) (s : State),
    let f := fn.toNat
    let n := if write = true then data.length else len.toNat
    let sl := (fnSlice f).getD (s.fld .bar4Slice f 0 0 6)
    let va := s.reg64 .bar4BaseLo .bar4BaseHi f + off.toNat
    let xs := (unitsOf va n).map (s.xlate sl)
    off.toNat < 2 ^ s.bar4Size f ∧
    s.hibernating = false ∧
    s.pkg.shutdown = false ∧
    s.pkg.conversion = true ∧
    s.defined sl = true ∧
    (∀ x ∈ xs, x ≠ none) ∧
    (∀ x ∈ xs, ∀ y, x = some y → y.prot = false ∧ y.ro = false) ∧
    s.accessWait sl va n write = none ∧
    write = true ∧
    s.cutTo 19 sl va n = false :=
  ⟨2, true, false, 0xFFF, 0, [1], { stS with mem := { objects := [obj0] } }, by exact ⟨by decide, by decide, by decide, by decide, by decide, by decide, all_ok _ (by decide), by decide, by decide, by decide⟩⟩

/-- What clause 8 of `DoorbellWindowAndVectorRowsComplete` asks can be met. -/
theorem witness_doorbell_window_and_vector_rows_complete_8 :
    ∃ (fn : BitVec 6) (write inIde : Bool) (off : BitVec 40) (len : BitVec 12) (data : Bytes) (s : State),
    let f := fn.toNat
    let n := if write = true then data.length else len.toNat
    let sl := (fnSlice f).getD (s.fld .bar4Slice f 0 0 6)
    let va := s.reg64 .bar4BaseLo .bar4BaseHi f + off.toNat
    let xs := (unitsOf va n).map (s.xlate sl)
    off.toNat < 2 ^ s.bar4Size f ∧
    s.hibernating = false ∧
    s.pkg.shutdown = false ∧
    s.pkg.conversion = true ∧
    s.defined sl = true ∧
    (∀ x ∈ xs, x ≠ none) ∧
    (∀ x ∈ xs, ∀ y, x = some y → y.prot = false ∧ y.ro = false) ∧
    s.accessWait sl va n write = none ∧
    write = false ∧
    s.cutFrom 19 sl va n = false ∧
    s.vbad sl va n = false :=
  ⟨2, false, false, 0xFFF, 1, [], { stS with mem := { objects := [obj0] } }, by exact ⟨by decide, by decide, by decide, by decide, by decide, by decide, all_ok _ (by decide), by decide, by decide, rfl, by decide⟩⟩

/-- What clause 9 of `DoorbellWindowAndVectorRowsComplete` asks can be met. -/
theorem witness_doorbell_window_and_vector_rows_complete_9 :
    ∃ (fn : BitVec 6) (vector : BitVec 11) (s : State),
    let k := 2048 * fn.toNat + vector.toNat
    let t := { s with host := { s.host with msixOn := setInsert s.host.msixOn k } }
    vector.toNat < (if fn.toNat < 2 then 2048 else 256) ∧
    s.host.msixPending.contains k = true :=
  ⟨1, 2047, { st with host := { msixPending := [4095] } }, by decide⟩

/-- What clause 10 of `DoorbellWindowAndVectorRowsComplete` asks can be met. -/
theorem witness_doorbell_window_and_vector_rows_complete_10 :
    ∃ (fn : BitVec 6) (vector : BitVec 11) (s : State),
    let k := 2048 * fn.toNat + vector.toNat
    let t := { s with host := { s.host with msixOn := setInsert s.host.msixOn k } }
    vector.toNat < (if fn.toNat < 2 then 2048 else 256) ∧
    s.host.msixPending.contains k = false :=
  ⟨2, 255, st, by decide⟩

/-- What clause 1 of `SecureSessionAndManagementRowsComplete` asks can be met. -/
theorem witness_secure_session_and_management_rows_complete_1 :
    ∃ (fn : BitVec 6) (s : State),
    s.pkg.conversion = true :=
  ⟨63, stS, by decide⟩

/-- What clause 2 of `SecureSessionAndManagementRowsComplete` asks can be met. -/
theorem witness_secure_session_and_management_rows_complete_2 :
    ∃ (fn : BitVec 6) (s : State),
    2 ≤ fn.toNat ∧
    s.tdiLocked fn.toNat = true :=
  ⟨2, { stS with host := { stS.host with tdis := [(2, .run)] } }, by decide⟩

/-- What clause 3 of `SecureSessionAndManagementRowsComplete` asks can be met. -/
theorem witness_secure_session_and_management_rows_complete_3 :
    ∃ (sec : Bool) (s : State),
    s.module = 1 ∧
    (sec = true → s.spdm.secured ≠ none) ∧
    s.spdm.version = true :=
  ⟨true, stS, by decide⟩

/-- What clause 4 of `SecureSessionAndManagementRowsComplete` asks can be met. -/
theorem witness_secure_session_and_management_rows_complete_4 :
    ∃ (sec sha mldsa : Bool) (s : State),
    s.module = 1 ∧
    (sec = true → s.spdm.secured ≠ none) ∧
    s.spdm.capabilities = true :=
  ⟨false, true, true, stM.setSpdm { capabilities := true }, by decide⟩

/-- What clause 5 of `SecureSessionAndManagementRowsComplete` asks can be met, but for what an uninterpreted constant of Config decides. -/
theorem witness_secure_session_and_management_rows_complete_5 :
    ∃ (sec : Bool) (s : State),
    s.module = 1 ∧
    (sec = true → s.spdm.secured ≠ none) ∧
    s.spdm.algorithms = true :=
  ⟨true, stS, by decide⟩

/-- What clause 6 of `SecureSessionAndManagementRowsComplete` asks can be met. -/
theorem witness_secure_session_and_management_rows_complete_6 :
    ∃ (sec : Bool) (s : State),
    s.module = 1 ∧
    (sec = true → s.spdm.secured ≠ none) ∧
    s.spdm.algorithms = true ∧
    ∃ (i : U8) (nonce : U256),
    let b := hashBytes (s.measValue i.toNat) ++ hashBytes nonce
    1 ≤ i.toNat ∧
    i.toNat ≤ 154 :=
  ⟨true, stS, by exact ⟨by decide, by decide, by decide, 154, 0, by decide, by decide⟩⟩

/-- What clause 7 of `SecureSessionAndManagementRowsComplete` asks can be met. -/
theorem witness_secure_session_and_management_rows_complete_7 :
    ∃ s : State,
    s.module = 1 ∧
    s.spdm.secured ≠ none :=
  ⟨stS, by decide⟩

/-- What clause 8 of `SecureSessionAndManagementRowsComplete` asks can be met, but for what an uninterpreted constant of Config decides. -/
theorem witness_secure_session_and_management_rows_complete_8 :
    ∃ (ct ss : Bytes) (s : State),
    s.module = 1 ∧
    s.spdm.algorithms = true ∧
    s.spdm.secured = none :=
  ⟨[], [], stM.setSpdm { algorithms := true }, by decide⟩

/-- What clause 9 of `SecureSessionAndManagementRowsComplete` asks can be met. -/
theorem witness_secure_session_and_management_rows_complete_9 :
    ∃ (m stream : BitVec 3) (fn : BitVec 6) (s : State),
    s.host.spdm.secured ≠ none ∧
    let t := fun ide => ({ s with host := { s.host with ide := ide } } : State).emit
    m = 5 :=
  ⟨5, 0, 0, stS, by decide⟩

/-- What clause 10 of `SecureSessionAndManagementRowsComplete` asks can be met. -/
theorem witness_secure_session_and_management_rows_complete_10 :
    ∃ (m stream : BitVec 3) (fn : BitVec 6) (s : State),
    s.host.spdm.secured ≠ none ∧
    let t := fun ide => ({ s with host := { s.host with ide := ide } } : State).emit
    m ≠ 4 ∧
    m ≠ 5 :=
  ⟨0, 0, 0, stS, by decide⟩

/-- What clause 11 of `SecureSessionAndManagementRowsComplete` asks can be met. -/
theorem witness_secure_session_and_management_rows_complete_11 :
    ∃ (fn : BitVec 6) (s : State),
    let f := fn.toNat
    s.module = 1 ∧
    s.spdm.secured ≠ none ∧
    2 ≤ f ∧
    s.tdi f = .unlocked ∧
    s.defined (f - 2) = true ∧
    s.ideBound f = true :=
  ⟨2, stS, by decide⟩

/-- What clause 12 of `SecureSessionAndManagementRowsComplete` asks can be met. -/
theorem witness_secure_session_and_management_rows_complete_12 :
    ∃ (fn : BitVec 6) (s : State),
    let f := fn.toNat
    s.module = 1 ∧
    s.spdm.secured ≠ none ∧
    2 ≤ f ∧
    s.tdi f = .locked :=
  ⟨2, { stS with host := { stS.host with tdis := [(2, .locked)] } }, by decide⟩

/-- What clause 13 of `SecureSessionAndManagementRowsComplete` asks can be met. -/
theorem witness_secure_session_and_management_rows_complete_13 :
    ∃ (fn : BitVec 6) (s : State),
    let f := fn.toNat
    s.module = 1 ∧
    s.spdm.secured ≠ none ∧
    2 ≤ f ∧
    s.tdi f ≠ .unlocked :=
  ⟨2, { stS with host := { stS.host with tdis := [(2, .error)] } }, by decide⟩

/-- What clause 14 of `SecureSessionAndManagementRowsComplete` asks can be met. -/
theorem witness_secure_session_and_management_rows_complete_14 :
    ∃ s : State,
    ∃ p,
    s.sec.armedPldm = some p ∧
    s.pkc - p.toNat ≤ 2 ^ 20 :=
  ⟨{ st with sec := { armedPldm := some 0 } }, 0, by decide⟩

/-- What clause 15 of `SecureSessionAndManagementRowsComplete` asks can be met. -/
theorem witness_secure_session_and_management_rows_complete_15 :
    ∃ s : State,
    ∃ port : BitVec 6,
    port.toNat < 48 :=
  ⟨stM, 47, by decide⟩

/-- What clause 1 of `SupplyResetAndClockRowsComplete` asks can be met. -/
theorem witness_supply_reset_and_clock_rows_complete_1 :
    ∃ s : State,
    s.pkg.vaux12 = false :=
  ⟨{ st with pkg := { vaux12 := false } }, by decide⟩

/-- What clause 2 of `SupplyResetAndClockRowsComplete` asks can be met. -/
theorem witness_supply_reset_and_clock_rows_complete_2 :
    ∃ (straps : U8) (s : State),
    s.pkg.pwrgood = false ∧
    s.pkg.coldPending = true ∧
    s.pkg.vaux12 = true ∧
    s.pkg.vio18 = true :=
  ⟨0, .reset, by decide⟩

/-- What clause 3 of `SupplyResetAndClockRowsComplete` asks can be met. -/
theorem witness_supply_reset_and_clock_rows_complete_3 :
    ∃ s : State,
    s.pkg.vaux12 = true :=
  ⟨.reset, by decide⟩

/-- What clause 4 of `SupplyResetAndClockRowsComplete` asks can be met. -/
theorem witness_supply_reset_and_clock_rows_complete_4 :
    ∃ s : State,
    s.pkg.perst = false ∧
    s.goodPower = true :=
  ⟨{ st with pkg := { perst := false, vin48 := true, pwrgood := true } }, by decide⟩

/-- What clause 5 of `SupplyResetAndClockRowsComplete` asks can be met. -/
theorem witness_supply_reset_and_clock_rows_complete_5 :
    ∃ (width speed : BitVec 4) (flit l0p : Bool) (s : State),
    s.pkg.conversion = true ∧
    s.pkg.pcieLocked = true ∧
    s.pkg.vio18 = true :=
  ⟨8, 6, true, true, { st with pkg := { conversion := true, pcieLocked := true } }, by decide⟩

/-- What clause 6 of `SupplyResetAndClockRowsComplete` asks can be met. -/
theorem witness_supply_reset_and_clock_rows_complete_6 :
    ∃ s : State,
    s.pkg.refclk = true ∧
    s.pkg.conversion = true :=
  ⟨stS, by decide⟩

/-- What clause 7 of `SupplyResetAndClockRowsComplete` asks can be met. -/
theorem witness_supply_reset_and_clock_rows_complete_7 :
    ∃ s : State,
    s.pkg.refclk = false :=
  ⟨{ st with pkg := { refclk := false } }, by decide⟩

/-- What clause 8 of `SupplyResetAndClockRowsComplete` asks can be met. -/
theorem witness_supply_reset_and_clock_rows_complete_8 :
    ∃ (pll : BitVec 5) (s : State),
    let n := pll.toNat
    s.pkg.conversion = true ∧
    n ≤ 20 ∧
    19 ≤ n :=
  ⟨20, stS, by decide⟩

/-- What clause 9 of `SupplyResetAndClockRowsComplete` asks can be met. -/
theorem witness_supply_reset_and_clock_rows_complete_9 :
    ∃ (pll : BitVec 5) (s : State),
    let n := pll.toNat
    s.pkg.conversion = true ∧
    n ≤ 20 ∧
    n < 19 ∧
    (s.die n).powered = true ∧
    (s.die n).locked = true :=
  ⟨18, stS, by decide⟩

/-- What clause 1 of `BootAndHealthRowsComplete` asks can be met. -/
theorem witness_boot_and_health_rows_complete_1 :
    ∃ (die : BitVec 5) (s : State),
    let d := die.toNat
    let x := s.die d
    let t := s.setDie d { x with released := true, pkc := s.pkg.pkc }
    s.pkg.conversion = true ∧
    d < 20 ∧
    x.powered = true ∧
    x.locked = true ∧
    x.released = false ∧
    655360 ≤ s.pkc - x.lockPkc.toNat ∧
    (d = 19 ∨ (s.die 19).released = true ∧ s.fld .fwStatus 0 0 7 1 = 0 ∧ s.pkg.shutdown = false ∧ (s.pkg.ready = true ∨ s.earlierHeld d = false)) :=
  ⟨19, { st with pkg := { conversion := true, pkc := 655360, dies := [(19, { powered := true, locked := true })] } }, by decide⟩

/-- What clause 2 of `BootAndHealthRowsComplete` asks can be met. -/
theorem witness_boot_and_health_rows_complete_2 :
    ∃ (die : BitVec 5) (s : State),
    let d := die.toNat
    let t := s.setDie d { s.die d with pipeTested := true }
    8 ≤ d ∧
    d ≤ 19 ∧
    (s.die d).released = true ∧
    s.module ≠ 2 ∧
    t.module = 0 ∧
    (∀ k < 12, (t.die (8 + k)).pipeTested = true) :=
  ⟨19, { (stM.setFld .secStatus 0 0 12 2 0) with pkg := { stM.pkg with dies := (List.range 20).map fun d => (d, { released := true, pipeTested := d != 19 }) } }, by decide⟩

/-- What clause 3 of `BootAndHealthRowsComplete` asks can be met. -/
theorem witness_boot_and_health_rows_complete_3 :
    ∃ (die : BitVec 5) (s : State),
    let d := die.toNat
    let t := s.setDie d { s.die d with pipeTested := true }
    8 ≤ d ∧
    d ≤ 19 ∧
    (s.die d).released = true ∧
    s.module ≠ 2 ∧
    (t.module ≠ 0 ∨ (∃ k < 12, (t.die (8 + k)).pipeTested = false)) :=
  ⟨8, stM, by decide⟩

/-- What clause 4 of `BootAndHealthRowsComplete` asks can be met. -/
theorem witness_boot_and_health_rows_complete_4 :
    ∃ (die : BitVec 5) (test : U8) (s : State),
    s.pkg.conversion = true ∧
    s.module ≠ 2 :=
  ⟨0, 1, stS, by decide⟩

/-- What clause 5 of `BootAndHealthRowsComplete` asks can be met, but for what an uninterpreted constant of Config decides. -/
theorem witness_boot_and_health_rows_complete_5 :
    ∃ (die : BitVec 5) (stage : Bytes) (s : State),
    let d := die.toNat
    let x := s.die d
    let h := hashAt s.flash.running (0x10 + 40 * stageKind d + 8)
    d ≤ 19 ∧
    x.released = true ∧
    x.measured = false ∧
    s.flash.running ≠ [] :=
  ⟨0, [], { st with pkg := { dies := [(0, { released := true })] }, flash := { running := [1] } }, by decide⟩

/-- What clause 6 of `BootAndHealthRowsComplete` asks can be met, but for what an uninterpreted constant of Config decides. -/
theorem witness_boot_and_health_rows_complete_6 :
    ∃ s : State,
    s.pkg.conversion = true ∧
    s.pkg.ready = false ∧
    s.flash.running ≠ [] ∧
    s.diesReleased = true ∧
    s.module ≠ 0 :=
  ⟨{ stM with pkg := { stM.pkg with conversion := true, ready := false }, flash := { running := [1] } }, by decide⟩

/-- What clause 7 of `BootAndHealthRowsComplete` asks can be met. -/
theorem witness_boot_and_health_rows_complete_7 :
    ∃ s : State,
    s.pkg.conversion = true ∧
    s.pkg.ready = false ∧
    s.flash.running ≠ [] ∧
    s.diesReleased = true ∧
    s.module ≠ 0 ∧
    let i := imageOf s.flash.image ((s.authorSlot s.flash.image).getD 0)
    let t : State := { s with pkg := { s.pkg with hbmLost := false, selfRefresh := false, ready := true } }
    let take := s.fld .imgCtrl 0 0 1 1 = 0 ∧ s.spent = false ∧ s.img.running = none ∧ firstFail (s.imageChecks s.flash.image s.flash.image.length ++ [(i.partial_, 0x0A0B)]) = none
    ¬ take :=
  ⟨{ (stM.setFld .imgCtrl 0 0 1 1 1) with pkg := { stM.pkg with conversion := true, ready := false }, flash := { running := [1] } }, by
    exact ⟨by decide, by decide, by decide, by decide, by decide, fun h => absurd h.1 (by decide)⟩⟩

/-- What clause 8 of `BootAndHealthRowsComplete` asks can be met. -/
theorem witness_boot_and_health_rows_complete_8 :
    ∃ s : State,
    s.pkg.conversion = true ∧
    s.fld .fwStatus 0 0 2 1 = 1 ∧
    2 ^ 32 ≤ s.pkc - s.flash.trialPkc.toNat :=
  ⟨{ (stM.setFld .fwStatus 0 0 2 1 1) with pkg := { stM.pkg with conversion := true, pkc := 0x100000000 } }, by decide⟩

/-- What clause 9 of `BootAndHealthRowsComplete` asks can be met. -/
theorem witness_boot_and_health_rows_complete_9 :
    ∃ (die : BitVec 5) (s : State),
    let d := die.toNat
    let x := s.die d
    d ≤ 19 ∧
    x.wdArmed = true ∧
    x.halted = false ∧
    2 ^ 27 ≤ x.pkc.toNat - x.wdPkc.toNat ∧
    d = 19 :=
  ⟨19, { st with pkg := { dies := [(19, { wdArmed := true, pkc := 0x8000000 })] } }, by decide⟩

/-- What clause 10 of `BootAndHealthRowsComplete` asks can be met. -/
theorem witness_boot_and_health_rows_complete_10 :
    ∃ (die : BitVec 5) (s : State),
    let d := die.toNat
    let x := s.die d
    d ≤ 19 ∧
    x.wdArmed = true ∧
    x.halted = false ∧
    2 ^ 27 ≤ x.pkc.toNat - x.wdPkc.toNat ∧
    d ≠ 19 :=
  ⟨18, { st with pkg := { dies := [(18, { wdArmed := true, pkc := 0x8000000 })] } }, by decide⟩

/-- What clause 11 of `BootAndHealthRowsComplete` asks can be met. -/
theorem witness_boot_and_health_rows_complete_11 :
    ∃ (s : State) (l : Load),
    s.img.load = some l ∧
    s.img.running = none :=
  ⟨{ st with img := { load := some ⟨img0, [], none, false⟩ } }, ⟨img0, [], none, false⟩, by decide⟩

/-- What clause 12 of `BootAndHealthRowsComplete` asks can be met. -/
theorem witness_boot_and_health_rows_complete_12 :
    ∃ (s : State) (l : Load),
    s.img.load = some l ∧
    s.img.running ≠ none :=
  ⟨{ st with img := { load := some ⟨img0, [], none, false⟩, running := some img0 } }, ⟨img0, [], none, false⟩, by decide⟩

/-- What clause 1 of `StepInstanceAndRecordRowsComplete` asks can be met. -/
theorem witness_step_instance_and_record_rows_complete_1 :
    ∃ (slice : BitVec 6) (s : State) (j : Job) (p : Prog),
    let sl := slice.toNat
    tabGet s.srv.jobs sl = some j ∧
    s.curProg sl = some p ∧
    j.state = .running ∧
    j.inStep = false ∧
    s.loading sl = false ∧
    s.pkg.hib = .awake ∧
    s.clocksOff = false ∧
    s.batchOf sl ≠ [] :=
  ⟨0, { st1 with desc := [(0, { season := .summer })], srv := { jobs := [(0, { program := 0 })] } }, { program := 0 }, progOf prog0, by decide⟩

/-- What clause 2 of `StepInstanceAndRecordRowsComplete` asks can be met. -/
theorem witness_step_instance_and_record_rows_complete_2 :
    ∃ (slice : BitVec 6) (s : State) (j : Job) (p : Prog),
    let sl := slice.toNat
    tabGet s.srv.jobs sl = some j ∧
    s.curProg sl = some p ∧
    s.stepOver j = true :=
  ⟨0, { st1 with srv := { jobs := [(0, { program := 0, inStep := true })] } }, { program := 0, inStep := true }, progOf prog0, by decide⟩

/-- What clause 3 of `StepInstanceAndRecordRowsComplete` asks can be met. -/
theorem witness_step_instance_and_record_rows_complete_3 :
    ∃ (slice : BitVec 6) (s : State) (j : Job) (p : Prog),
    let sl := slice.toNat
    tabGet s.srv.jobs sl = some j ∧
    s.curProg sl = some p ∧
    ∃ i c j',
    s.nextPlace j = some (i, c, j') :=
  ⟨0, stP, jobP, progOf prog0, by exact ⟨by decide, by decide, inst0, 0, { jobP with lcWait := [] }, nextPlace_stP⟩⟩

/-- What clause 4 of `StepInstanceAndRecordRowsComplete` asks can be met. -/
theorem witness_step_instance_and_record_rows_complete_4 :
    ∃ (core : BitVec 9) (s : State) (i : Inst),
    let c := core.toNat
    (s.core c).inst = some i ∧
    (i.ending = true ∨ i.faulted = true) ∧
    (s.core c).drained = true :=
  ⟨0, { st1 with srv := { cores := [(0, { inst := some { inst0 with ending := true } })] } }, { inst0 with ending := true }, by decide⟩

/-- What clause 5 of `StepInstanceAndRecordRowsComplete` asks can be met. -/
theorem witness_step_instance_and_record_rows_complete_5 :
    ∃ (core : BitVec 9) (s : State) (i : Inst) (r : Rec),
    let c := core.toNat
    let k := kernelOf (s.klib i.slice) i.kernel
    s.nextRec c = some (i, r) ∧
    (¬ (2 ≤ r.kind ∧ r.kind ≤ 6)) ∧
    32 * i.pos < k.len ∧
    r.kind ≠ 0 ∧
    r.kind < 7 ∧
    opcodeKnown r.engine r.op = true ∧
    bitAt (s.engines i.slice c) r.engine = true ∧
    ((s.core c).queue r.engine).length < queueDepth r.engine :=
  ⟨0, stR [1, 0, 1] 0 [], inst0, _, by exact ⟨rfl, by decide, by decide, by decide, by decide, by decide, by decide, by decide⟩⟩

/-- What clause 6 of `StepInstanceAndRecordRowsComplete` asks can be met. -/
theorem witness_step_instance_and_record_rows_complete_6 :
    ∃ (core : BitVec 9) (s : State) (i : Inst) (r : Rec),
    let c := core.toNat
    let k := kernelOf (s.klib i.slice) i.kernel
    s.nextRec c = some (i, r) ∧
    flagsSet i.flags r.waitMask = true ∧
    r.kind = 2 :=
  ⟨0, stR [2] 0 [], inst0, _, by exact ⟨rfl, by decide, by decide⟩⟩

/-- What clause 7 of `StepInstanceAndRecordRowsComplete` asks can be met. -/
theorem witness_step_instance_and_record_rows_complete_7 :
    ∃ (core : BitVec 9) (s : State) (i : Inst) (r : Rec),
    let c := core.toNat
    let k := kernelOf (s.klib i.slice) i.kernel
    s.nextRec c = some (i, r) ∧
    flagsSet i.flags r.waitMask = true ∧
    r.kind = 3 :=
  ⟨0, stR [3] 0 [], inst0, _, by exact ⟨rfl, by decide, by decide⟩⟩

/-- What clause 8 of `StepInstanceAndRecordRowsComplete` asks can be met. -/
theorem witness_step_instance_and_record_rows_complete_8 :
    ∃ (core : BitVec 9) (s : State) (i : Inst) (r : Rec),
    let c := core.toNat
    let k := kernelOf (s.klib i.slice) i.kernel
    s.nextRec c = some (i, r) ∧
    flagsSet i.flags r.waitMask = true ∧
    let v := (2 ^ 32 + i.loops.getD r.op 0 - 1) % 2 ^ 32
    let back := le r.operands 0 2
    r.kind = 4 ∧
    r.op < 8 ∧
    (v = 0 ∨ back ≤ i.pos) :=
  ⟨0, stR [4, 0, 7] 0 [], inst0, _, by exact ⟨rfl, by decide, by decide, by decide, by decide⟩⟩

/-- What clause 9 of `StepInstanceAndRecordRowsComplete` asks can be met. -/
theorem witness_step_instance_and_record_rows_complete_9 :
    ∃ (core : BitVec 9) (s : State) (i : Inst) (r : Rec),
    let c := core.toNat
    let k := kernelOf (s.klib i.slice) i.kernel
    s.nextRec c = some (i, r) ∧
    flagsSet i.flags r.waitMask = true ∧
    r.kind = 5 ∧
    i.cls ≠ .be :=
  ⟨0, stR [5] 0 [], inst0, _, by exact ⟨rfl, by decide, by decide, by decide⟩⟩

/-- What clause 10 of `StepInstanceAndRecordRowsComplete` asks can be met. -/
theorem witness_step_instance_and_record_rows_complete_10 :
    ∃ (core : BitVec 9) (s : State) (i : Inst) (r : Rec),
    let c := core.toNat
    let k := kernelOf (s.klib i.slice) i.kernel
    s.nextRec c = some (i, r) ∧
    flagsSet i.flags r.waitMask = true ∧
    r.kind = 6 :=
  ⟨0, stR [6] 0 [], inst0, _, by exact ⟨rfl, by decide, by decide⟩⟩

/-- What clause 11 of `StepInstanceAndRecordRowsComplete` asks can be met. -/
theorem witness_step_instance_and_record_rows_complete_11 :
    ∃ (core : BitVec 9) (e : BitVec 3) (s : State) (q : EngCmd) (rest : List EngCmd),
    let x := s.core core.toNat
    x.queue e.toNat = q :: rest ∧
    q.done = true :=
  ⟨0, 6, stR [] 6 [{ cmdE 1 with done := true }], { cmdE 1 with done := true }, [], by decide⟩

/-- What clause 1 of `EngineCommandRowsComplete` asks can be met. -/
theorem witness_engine_command_rows_complete_1 :
    ∃ (core : BitVec 9) (me : U1) (o : MmOps) (s : State) (i : Inst) (q : EngCmd),
    let c := core.toNat
    let x := s.core c
    let fa := s.promotedFormat i.slice i.layer o.fa.toNat (o.monitored == 1)
    let fb := o.fb.toNat
    let rs := (o.a.flatten.flatMap fun r => blkRanges r fa (o.aSide == 1) false x) ++ (o.b.flatten.flatMap fun r => blkRanges r fb (o.bSide == 1) (o.bPacked == 1) x)
    s.engHead c me.toNat 1 = some (i, q) ∧
    pairSupported fa fb = true ∧
    (∀ r ∈ rs, s.inStore i r.1 r.2 = true ∧ x.bad r.1 r.2 = false) ∧
    let va := x.operand o.a fa (o.aSide == 1) false
    let vb := x.operand o.b fb (o.bSide == 1) (o.bPacked == 1)
    illegalIn va = 0 ∧
    illegalIn vb = 0 :=
  ⟨0, 1, { a := [[{}]], b := [[{}]], fa := 8, fb := 8 }, stE 1 1, inst0, cmdE 1, by exact ⟨by decide, by decide, by decide, by decide, by decide⟩⟩

/-- What clause 2 of `EngineCommandRowsComplete` asks can be met. -/
theorem witness_engine_command_rows_complete_2 :
    ∃ (core : BitVec 9) (me : U1) (bank : BitVec 2) (dst : BitVec 23) (s : State) (i : Inst) (q : EngCmd),
    let c := core.toNat
    let x := s.core c
    let w := x.bank me.toNat bank.toNat
    s.engHead c me.toNat 2 = some (i, q) ∧
    s.inStore i dst.toNat 16384 = true :=
  ⟨0, 0, 3, 0x5FC000, stE 0 2, inst0, cmdE 2, by decide⟩

/-- What clause 3 of `EngineCommandRowsComplete` asks can be met. -/
theorem witness_engine_command_rows_complete_3 :
    ∃ (core : BitVec 9) (me : U1) (bank : BitVec 2) (dst : BitVec 23) (s : State) (i : Inst) (q : EngCmd),
    let c := core.toNat
    let x := s.core c
    let w := x.bank me.toNat bank.toNat
    s.engHead c me.toNat 2 = some (i, q) ∧
    s.inStore i dst.toNat 8192 = true :=
  ⟨0, 0, 3, 0x5FE000, stE 0 2, inst0, cmdE 2, by decide⟩

/-- What clause 4 of `EngineCommandRowsComplete` asks can be met. -/
theorem witness_engine_command_rows_complete_4 :
    ∃ (core : BitVec 9) (o : AttnOps) (s : State) (i : Inst) (q : EngCmd) (p : Prog),
    let c := core.toNat
    s.engHead c 2 1 = some (i, q) ∧
    s.curProg i.slice = some p ∧
    s.geom i.slice = some p.geom ∧
    s.attnWaits o p.geom = false ∧
    s.inStore i o.query.toNat (o.rows.toNat * o.heads.toNat * p.headDim * 2) = true ∧
    s.inStore i o.out.toNat (o.rows.toNat * o.heads.toNat * (8 + 4 * p.headDim)) = true ∧
    (s.core c).bad o.query.toNat (o.rows.toNat * o.heads.toNat * p.headDim * 2) = false ∧
    (∀ qb ∈ queryBlocks o.rows.toNat, ∀ b ∈ s.attnBlocks o p.geom qb, ∀ x ∈ b, ∃ r die, x.2 = .row r false die ∧ s.pathOk (c / 64) die = true) :=
  ⟨0, {}, stE 2 1, inst0, cmdE 1, progOf prog0, by exact ⟨by decide, by decide, by decide, by decide, by decide, by decide, by decide, fun qb _ => by rw [show (stE 2 1).attnBlocks {} (progOf prog0).geom qb = [] from rfl]; simp⟩⟩

/-- What clause 5 of `EngineCommandRowsComplete` asks can be met. -/
theorem witness_engine_command_rows_complete_5 :
    ∃ (core : BitVec 9) (list : BitVec 23) (count rows heads : U16) (out : BitVec 23) (s : State) (i : Inst) (q : EngCmd) (p : Prog),
    let c := core.toNat
    let n := rows.toNat * heads.toNat
    let d := p.headDim
    let sz := 8 + 4 * d
    s.engHead c 2 2 = some (i, q) ∧
    s.curProg i.slice = some p ∧
    s.ringMissing i = false ∧
    s.inStore i list.toNat (count.toNat * n * sz) = true ∧
    (s.core c).bad list.toNat (count.toNat * n * sz) = false ∧
    s.inStore i out.toNat (n * (outputBytes (s.attnFormat i.slice i.layer) (List.replicate d 0)).length) = true :=
  ⟨0, 0, 1, 1, 1, 0x1000, stE 2 2, inst0, cmdE 2, progOf prog0, by decide⟩

/-- What clause 6 of `EngineCommandRowsComplete` asks can be met. -/
theorem witness_engine_command_rows_complete_6 :
    ∃ (core : BitVec 9) (o : FuncOps) (s : State) (i : Inst) (q : EngCmd),
    let c := core.toNat
    let code := o.code.toNat
    s.engHead c 3 1 = some (i, q) ∧
    code ≠ 0 ∧
    code < 0x10 :=
  ⟨0, { code := 15 }, stE 3 1, inst0, cmdE 1, by decide⟩

/-- What clause 7 of `EngineCommandRowsComplete` asks can be met. -/
theorem witness_engine_command_rows_complete_7 :
    ∃ (core : BitVec 9) (index : BitVec 24) (layer : U8) (src : BitVec 23) (first rows : U16) (s : State) (i : Inst) (q : EngCmd) (p : Prog) (t : State),
    let c := core.toNat
    let n := index.toNat
    let f := s.appendFrom n first.toNat
    s.engHead c 4 1 = some (i, q) ∧
    s.curProg i.slice = some p ∧
    s.appendMeets n layer.toNat f rows.toNat = .ok ∧
    s.inStore i src.toNat (rows.toNat * 4 * p.kvHeads * p.headDim) = true ∧
    (s.core c).bad src.toNat (rows.toNat * 4 * p.kvHeads * p.headDim) = false ∧
    (∀ k < rows.toNat, ∀ pg, (s.kvOf n).pageOf layer.toNat (f + k) = some pg → s.cutAt (c / 64) pg.elem = false) ∧
    s.appendAll (c / 64) (s.core c) n layer.toNat src.toNat f p rows.toNat = some t :=
  ⟨0, 0, 0, 0, 0, 1, stA, inst0, cmdE 1, progOf prog0, _, by exact ⟨by decide, by decide, by decide, by decide, by decide, cutAt_stA, (Option.some_get (by decide)).symm⟩⟩

/-- What clause 8 of `EngineCommandRowsComplete` asks can be met. -/
theorem witness_engine_command_rows_complete_8 :
    ∃ (core : BitVec 9) (logits : MvAddr) (index : BitVec 24) (vocab : U32) (drafts : BitVec 4) (s : State) (i : Inst) (q : EngCmd) (r : BatchRow),
    let c := core.toNat
    let n := index.toNat
    s.mirrorWaits n = false ∧
    s.openRow i.slice n = some r ∧
    i.sessions.contains n = true ∧
    s.engHead c 5 1 = some (i, q) :=
  ⟨0, .core 0, 0, 256, 0, stE 5 1, inst0, cmdE 1, { index := 0 }, by decide⟩

/-- What clause 9 of `EngineCommandRowsComplete` asks can be met. -/
theorem witness_engine_command_rows_complete_9 :
    ∃ (core : BitVec 9) (logits : MvAddr) (index : BitVec 24) (vocab : U32) (drafts : BitVec 4) (s : State) (i : Inst) (q : EngCmd) (r : BatchRow),
    let c := core.toNat
    let n := index.toNat
    s.mirrorWaits n = false ∧
    s.openRow i.slice n = some r ∧
    i.sessions.contains n = true ∧
    s.engHead c 5 2 = some (i, q) :=
  ⟨0, .core 0, 0, 256, 1, stE 5 2, inst0, cmdE 2, { index := 0 }, by decide⟩

/-- What clause 10 of `EngineCommandRowsComplete` asks can be met. -/
theorem witness_engine_command_rows_complete_10 :
    ∃ (core : BitVec 9) (src dst : MvAddr) (len : U32) (bc : U1) (s : State) (i : Inst) (q : EngCmd),
    let c := core.toNat
    let sl := i.slice
    let a := s.mvReach sl src
    let b := s.mvReach sl dst
    let n := len.toNat
    s.engHead c 6 1 = some (i, q) ∧
    s.moving c = false ∧
    (bc = 1 → (s.broadcast c).any s.moving = false) ∧
    (∀ r ∈ mvStore a n ++ mvStore b n, s.inStore i r.1 r.2 = true) ∧
    s.mvGuard sl b n = none ∧
    s.mvAccess sl a false n = .ok ∧
    s.mvAccess sl b true n = .ok :=
  ⟨0, .core 0, .core 64, 64, 0, stE 6 1, inst0, cmdE 1, by decide⟩

/-- What clause 11 of `EngineCommandRowsComplete` asks can be met. -/
theorem witness_engine_command_rows_complete_11 :
    ∃ (core : BitVec 9) (list : BitVec 23) (size count : U32) (dst : MvAddr) (s : State) (i : Inst) (q : EngCmd),
    let c := core.toNat
    let sl := i.slice
    let rows := (List.range count.toNat).map fun k => (s.mvReach sl (.slice (BitVec.ofNat 52 (le ((s.core c).read (list.toNat + 8 * k) 8) 0 8))), s.mvReach sl (MvPlus dst (size.toNat * k)))
    s.engHead c 6 2 = some (i, q) ∧
    s.moving c = false ∧
    (∀ r ∈ (list.toNat, 8 * count.toNat) :: mvStore dst (size.toNat * count.toNat), s.inStore i r.1 r.2 = true) ∧
    (s.core c).bad list.toNat (8 * count.toNat) = false ∧
    (∀ r ∈ rows, s.mvGuard sl r.2 size.toNat = none ∧ s.mvAccess sl r.1 false size.toNat = .ok ∧ s.mvAccess sl r.2 true size.toNat = .ok) :=
  ⟨0, 0, 64, 1, .core 64, { stE 6 2 with mem := { objects := [obj0] } }, inst0, cmdE 2, by decide⟩

/-- What clause 12 of `EngineCommandRowsComplete` asks can be met. -/
theorem witness_engine_command_rows_complete_12 :
    ∃ (pa : U64) (s : State),
    s.cnv.prio.contains pa.toNat = true ∧
    let v := s.ceFill
    let t := ((v.copySets pa.toNat).filter fun x => v.ceHolds x.1 (x.2 + 1)).foldl (fun v x => v.prioCopied pa.toNat x) v
    t.copySets pa.toNat = [] :=
  ⟨5, { st with cnv := { prio := [5] } }, by decide⟩

/-- What clause 13 of `EngineCommandRowsComplete` asks can be met. -/
theorem witness_engine_command_rows_complete_13 :
    ∃ (pa : U64) (s : State),
    s.cnv.prio.contains pa.toNat = true ∧
    let v := s.ceFill
    let t := ((v.copySets pa.toNat).filter fun x => v.ceHolds x.1 (x.2 + 1)).foldl (fun v x => v.prioCopied pa.toNat x) v
    t.copySets pa.toNat ≠ [] :=
  ⟨0x10000, stG, by exact ⟨by decide, copySets_stG⟩⟩

/-- What clause 1 of `CanvasStreamAndCheckpointRowsComplete` asks can be met. -/
theorem witness_canvas_stream_and_checkpoint_rows_complete_1 :
    ∃ (index : BitVec 24) (item : BitVec 20) (s : State) (o : CanvasOp),
    let n := item.toNat
    s.opOf index.toNat = some o ∧
    s.ceFill.ceHolds o n = true ∧
    s.ceFill.itemCut o n = false ∧
    s.ceFill.itemBad o n = false :=
  ⟨0, 0, stO .autumn { op0 1 1 with small := true }, { op0 1 1 with small := true }, by decide⟩

/-- What clause 2 of `CanvasStreamAndCheckpointRowsComplete` asks can be met. -/
theorem witness_canvas_stream_and_checkpoint_rows_complete_2 :
    ∃ (index : BitVec 24) (s : State) (o : CanvasOp),
    s.opOf index.toNat = some o ∧
    o.waiting = false ∧
    o.placed = true ∧
    s.dieUp (homeDie o.index) = true ∧
    o.items = [] ∧
    o.kind = 3 :=
  ⟨0, stO .autumn (op0 3 1), op0 3 1, by decide⟩

/-- What clause 3 of `CanvasStreamAndCheckpointRowsComplete` asks can be met. -/
theorem witness_canvas_stream_and_checkpoint_rows_complete_3 :
    ∃ (index : BitVec 24) (s : State) (o : CanvasOp),
    s.opOf index.toNat = some o ∧
    o.waiting = false ∧
    o.placed = true ∧
    s.dieUp (homeDie o.index) = true ∧
    o.items = [] ∧
    o.kind = 1 ∧
    o.tier ≠ 2 :=
  ⟨0, stO .autumn (op0 1 3), op0 1 3, by decide⟩

/-- What clause 4 of `CanvasStreamAndCheckpointRowsComplete` asks can be met. -/
theorem witness_canvas_stream_and_checkpoint_rows_complete_4 :
    ∃ (index : BitVec 24) (s : State) (o : CanvasOp),
    s.opOf index.toNat = some o ∧
    o.waiting = false ∧
    o.placed = true ∧
    s.dieUp (homeDie o.index) = true ∧
    o.items = [] ∧
    o.kind = 1 ∧
    o.tier = 2 ∧
    o.sent = false :=
  ⟨0, stO .autumn (op0 1 2), op0 1 2, by decide⟩

/-- What clause 5 of `CanvasStreamAndCheckpointRowsComplete` asks can be met. -/
theorem witness_canvas_stream_and_checkpoint_rows_complete_5 :
    ∃ (index : BitVec 24) (s : State) (o : CanvasOp),
    s.opOf index.toNat = some o ∧
    o.waiting = false ∧
    o.placed = true ∧
    s.dieUp (homeDie o.index) = true ∧
    o.items = [] ∧
    o.kind = 1 ∧
    o.tier = 2 ∧
    o.sent = true ∧
    s.canvasOut o.index = false ∧
    o.status = 0 :=
  ⟨0, stO .autumn { op0 1 2 with sent := true }, { op0 1 2 with sent := true }, by decide⟩

/-- What clause 6 of `CanvasStreamAndCheckpointRowsComplete` asks can be met. -/
theorem witness_canvas_stream_and_checkpoint_rows_complete_6 :
    ∃ (index : BitVec 24) (s : State) (o : CanvasOp),
    s.opOf index.toNat = some o ∧
    o.waiting = false ∧
    o.placed = true ∧
    s.dieUp (homeDie o.index) = true ∧
    o.items = [] ∧
    ∃ h,
    o.kind = 5 ∧
    s.hoOf o.canvas.sessionId false = some h ∧
    o.tier ≠ 2 :=
  ⟨0, { stO .autumn (op0 5 1) with handoffs := [hand0 false] }, op0 5 1, by exact ⟨by decide, by decide, by decide, by decide, by decide, hand0 false, by decide, by decide, by decide⟩⟩

/-- What clause 7 of `CanvasStreamAndCheckpointRowsComplete` asks can be met. -/
theorem witness_canvas_stream_and_checkpoint_rows_complete_7 :
    ∃ (die : BitVec 3) (s : State),
    s.dieUp die.toNat = true ∧
    tabGetD s.cnv.idleChecked 0 die.toNat < s.pkc / 2 ^ 26 :=
  ⟨7, { stM with pkg := { stM.pkg with pkc := 0x8000000 } }, by decide⟩

/-- What clause 8 of `CanvasStreamAndCheckpointRowsComplete` asks can be met. -/
theorem witness_canvas_stream_and_checkpoint_rows_complete_8 :
    ∃ (index : BitVec 24) (s : State) (c : Canvas),
    let i := index.toNat
    let d := s.d i
    d.season = .winter ∧
    d.op = .none ∧
    d.active.live = true ∧
    s.loading d.slice = false ∧
    s.dieUp (homeDie i) = true ∧
    s.locked (homeDie i) < 65536 ∧
    s.ceFree (homeDie i) = true ∧
    s.lcWaits (homeDie i) = false ∧
    s.thawChecks i = .ok c :=
  ⟨0, stWa, canvas0, by exact ⟨by decide, by decide, by decide, by decide, by decide, by decide, by decide, by decide, thawChecks_stWa⟩⟩

/-- What clause 9 of `CanvasStreamAndCheckpointRowsComplete` asks can be met. -/
theorem witness_canvas_stream_and_checkpoint_rows_complete_9 :
    ∃ (index : BitVec 24) (s : State) (o : CanvasOp),
    let i := index.toNat
    s.opOf i = some o ∧
    o.small = false ∧
    o.todo = [] ∧
    o.kind = 2 ∧
    (s.d i).season = .spring :=
  ⟨0, stO .spring (op0 2 1), op0 2 1, by decide⟩

/-- What clause 10 of `CanvasStreamAndCheckpointRowsComplete` asks can be met. -/
theorem witness_canvas_stream_and_checkpoint_rows_complete_10 :
    ∃ (index : BitVec 24) (s : State) (o : CanvasOp),
    let i := index.toNat
    s.opOf i = some o ∧
    o.small = false ∧
    o.todo = [] ∧
    ∃ h,
    o.kind = 4 ∧
    o.waiting = false ∧
    o.status = 0 ∧
    s.hoOf o.canvas.sessionId false = some h :=
  ⟨0, { stO .spring (op0 4 1) with handoffs := [hand0 false] }, op0 4 1, by exact ⟨by decide, by decide, by decide, hand0 false, by decide, by decide, by decide, by decide⟩⟩

/-- What clause 11 of `CanvasStreamAndCheckpointRowsComplete` asks can be met. -/
theorem witness_canvas_stream_and_checkpoint_rows_complete_11 :
    ∃ (index : BitVec 24) (page : BitVec 20) (s : State) (o : CanvasOp) (q : CanvasPage),
    let i := index.toNat
    let n := page.toNat
    s.streamOf i = some o ∧
    o.todo.head? = some n ∧
    o.canvas.pages[n]? = some q ∧
    (s.ax i).streamFailed = false ∧
    s.dieUp (s.itemDie o (n + 1)) = true ∧
    s.itemCut o (n + 1) = false ∧
    q.bad = false :=
  ⟨0, 0, stO .autumn opS, opS, cpage, by decide⟩

/-- What clause 12 of `CanvasStreamAndCheckpointRowsComplete` asks can be met. -/
theorem witness_canvas_stream_and_checkpoint_rows_complete_12 :
    ∃ (slice : BitVec 6) (va : BitVec 52) (s : State) (w i k : Nat) (d : Desc) (g : Geom) (o : CanvasOp),
    windowOf va.toNat = some w ∧
    s.windowOwner slice.toNat w = some (i, d) ∧
    s.geom slice.toNat = some g ∧
    s.streamOf i = some o ∧
    streamPageAt g d o (va.toNat - windowBase w) = some k :=
  ⟨0, 0x8000000000500, stO .autumn opS, 0, 0, 0, { season := .autumn, sessionId := 7, windowBase := 0x8000000000000 }, (progOf prog0).geom, opS, by
    exact ⟨by decide, by decide, by decide, by decide, by decide +kernel⟩⟩

/-- What clause 13 of `CanvasStreamAndCheckpointRowsComplete` asks can be met. -/
theorem witness_canvas_stream_and_checkpoint_rows_complete_13 :
    ∃ (index : BitVec 24) (s : State),
    (s.d index.toNat).season = .closing :=
  ⟨0, stO .closing (op0 1 1), by decide⟩

/-- What clause 14 of `CanvasStreamAndCheckpointRowsComplete` asks can be met. -/
theorem witness_canvas_stream_and_checkpoint_rows_complete_14 :
    ∃ (index : BitVec 12) (s : State) (q : Pal) (b : Bytes),
    let sect := (s.sect 0x0007 q.slice q.index).getD []
    let t := s.palWrite q sect b
    tabGet s.srv.pals index.toNat = some q ∧
    q.ready = false ∧
    s.hostRead q.src.toNat (palSource (progOf sect) q.tokens) = some b :=
  ⟨0, { st1 with srv := { pals := [(0, { slice := 0, program := 0, index := 0, content := 0, src := 0, tokens := 1 })] } }, { slice := 0, program := 0, index := 0, content := 0, src := 0, tokens := 1 }, _, by exact ⟨by decide, by decide, rfl⟩⟩

/-- What clause 15 of `CanvasStreamAndCheckpointRowsComplete` asks can be met. -/
theorem witness_canvas_stream_and_checkpoint_rows_complete_15 :
    ∃ (slice pcg : BitVec 6) (s : State) (c : Ckpt),
    (s.ck.flight.find? (fun c => c.slice == slice.toNat && c.phase == .staging && c.pcgs.contains pcg.toNat) = some c) :=
  ⟨0, 0, stK .staging, ckp .staging, by decide⟩

/-- What clause 16 of `CanvasStreamAndCheckpointRowsComplete` asks can be met. -/
theorem witness_canvas_stream_and_checkpoint_rows_complete_16 :
    ∃ (slice : BitVec 6) (s : State) (c : Ckpt) (x : CkTarget),
    let sl := slice.toNat
    (s.ck.flight.find? (fun c => c.slice == sl && c.phase != .target && c.phase != .staging && !s.ckOut sl c.num) = some c) ∧
    s.ckTarget sl = some x ∧
    c.phase = .zeroing ∧
    (∀ d ∈ s.dieList sl, s.netCut (8 + d) sl = false) :=
  ⟨0, stK .zeroing, ckp .zeroing, { slice := 0, members := [(2, some 0)] }, by decide⟩

/-- What clause 17 of `CanvasStreamAndCheckpointRowsComplete` asks can be met. -/
theorem witness_canvas_stream_and_checkpoint_rows_complete_17 :
    ∃ (slice : BitVec 6) (s : State) (c : Ckpt) (x : CkTarget),
    let sl := slice.toNat
    (s.ck.flight.find? (fun c => c.slice == sl && c.phase != .target && c.phase != .staging && !s.ckOut sl c.num) = some c) ∧
    s.ckTarget sl = some x ∧
    c.phase = .draining :=
  ⟨0, stK .draining, ckp .draining, { slice := 0, members := [(2, some 0)] }, by decide⟩

/-- What clause 18 of `CanvasStreamAndCheckpointRowsComplete` asks can be met. -/
theorem witness_canvas_stream_and_checkpoint_rows_complete_18 :
    ∃ (slice : BitVec 6) (s : State) (c : Ckpt) (x : CkTarget),
    let sl := slice.toNat
    (s.ck.flight.find? (fun c => c.slice == sl && c.phase != .target && c.phase != .staging && !s.ckOut sl c.num) = some c) ∧
    s.ckTarget sl = some x ∧
    c.phase = .committing :=
  ⟨0, stK .committing, ckp .committing, { slice := 0, members := [(2, some 0)] }, by decide⟩

/-- What clause 19 of `CanvasStreamAndCheckpointRowsComplete` asks can be met. -/
theorem witness_canvas_stream_and_checkpoint_rows_complete_19 :
    ∃ (slice : BitVec 6) (s : State) (r : CkRestore),
    let sl := slice.toNat
    let t := { s with ck := { s.ck with restores := s.ck.restores.filter (· != r) } }
    let v := ((t.ckRebuild r.image).ckFill sl 3).ckRaise sl
    s.ck.restores.find? (·.slice == sl) = some r ∧
    r.image.hashOk = true :=
  ⟨0, { stM with ck := { restores := [⟨0, ck0, none⟩] } }, ⟨0, ck0, none⟩, by decide⟩

/-- What clause 1 of `MemoryAndRetrievalBackgroundRowsComplete` asks can be met. -/
theorem witness_memory_and_retrieval_background_rows_complete_1 :
    ∃ (core : BitVec 9) (va : BitVec 52) (write : U1) (s : State) (sl : Nat),
    s.coreSlice core.toNat = some sl ∧
    s.apertureAt sl va.toNat ≠ none :=
  ⟨0, 0x7000000000000, 0, { stC with apertures := [⟨0, 0x7000000000000, 1, 2, some 3, none⟩] }, 0, by decide⟩

/-- What clause 2 of `MemoryAndRetrievalBackgroundRowsComplete` asks can be met. -/
theorem witness_memory_and_retrieval_background_rows_complete_2 :
    ∃ (core : BitVec 9) (va : BitVec 52) (write : U1) (s : State) (sl : Nat),
    s.coreSlice core.toNat = some sl ∧
    s.apertureAt sl va.toNat = none :=
  ⟨7, 0, 0, st, 0, by decide⟩

/-- What clause 3 of `MemoryAndRetrievalBackgroundRowsComplete` asks can be met. -/
theorem witness_memory_and_retrieval_background_rows_complete_3 :
    ∃ (slice : BitVec 6) (va : BitVec 52) (s : State) (f : FetchGran),
    let sl := slice.toNat
    (s.mem.fetched.find? (fun f => f.slice == sl && f.va == va.toNat && f.inflight) = some f) ∧
    s.fetching sl f.va = false :=
  ⟨0, 0x4000000000000, { st with mem := { fetched := [⟨0, 0x4000000000000, 4096, 0, true, 0, 0, false, 0⟩] } }, ⟨0, 0x4000000000000, 4096, 0, true, 0, 0, false, 0⟩, by decide⟩

/-- What clause 4 of `MemoryAndRetrievalBackgroundRowsComplete` asks can be met. -/
theorem witness_memory_and_retrieval_background_rows_complete_4 :
    ∃ (pa : U64) (s : State) (g : Gesso),
    (s.mem.gesso.find? (fun g => g.pa == pa.toNat) = some g) :=
  ⟨0x1000, { st with mem := { gesso := [{ pa := 0x1000, size := 4096, slice := 0 }] } }, { pa := 0x1000, size := 4096, slice := 0 }, by decide⟩

/-- What clause 5 of `MemoryAndRetrievalBackgroundRowsComplete` asks can be met. -/
theorem witness_memory_and_retrieval_background_rows_complete_5 :
    ∃ (pa : U64) (errs : List (U8 × U8)) (s : State),
    let n := pa.toNat / 2 ^ 37
    8 ≤ n :=
  ⟨0x10000000000, [], st, by decide⟩

/-- What clause 6 of `MemoryAndRetrievalBackgroundRowsComplete` asks can be met. -/
theorem witness_memory_and_retrieval_background_rows_complete_6 :
    ∃ (pa : U64) (errs : List (U8 × U8)) (s : State),
    let n := pa.toNat / 2 ^ 37
    n < 8 ∧
    s.fld .mcEccCtrl n 0 3 1 ≠ 0 ∧
    s.reg64 .mcPatrolLo .mcPatrolHi n ≠ 0 :=
  ⟨0xFFFFFFFFFF, [], { st with regs := [(Reg.addr .mcPatrolLo 7 0, 1)] }, by decide⟩

/-- What clause 7 of `MemoryAndRetrievalBackgroundRowsComplete` asks can be met. -/
theorem witness_memory_and_retrieval_background_rows_complete_7 :
    ∃ (core : BitVec 9) (bank : BitVec 5) (row : BitVec 12) (s : State),
    let c := core.toNat
    let d := c / 64
    let key := 2 ^ 17 * c + 2 ^ 12 * bank.toNat + row.toNat
    let n := tabGetD s.mem.rowErrs 0 key + 1
    let t := { s.bump .csCe d 1 with mem := { s.mem with rowErrs := tabPut s.mem.rowErrs key n } }
    row.toNat < 3072 :=
  ⟨0, 0, 3071, st, by decide⟩

/-- What clause 8 of `MemoryAndRetrievalBackgroundRowsComplete` asks can be met. -/
theorem witness_memory_and_retrieval_background_rows_complete_8 :
    ∃ (region : U64) (s : State),
    s.sec.sweep.active = true ∧
    s.fld .secSweep 0 0 0 1 = 0 ∧
    s.pkg.conversion = true ∧
    s.hibernating = false :=
  ⟨0, { stS with sec := { sweep := { active := true } } }, by decide⟩

/-- What clause 9 of `MemoryAndRetrievalBackgroundRowsComplete` asks can be met. -/
theorem witness_memory_and_retrieval_background_rows_complete_9 :
    ∃ (slice : BitVec 6) (reg : BitVec 4) (bytes : U32) (lc idle : U1) (s : State),
    reg.toNat < 10 ∧
    s.defined slice.toNat = true :=
  ⟨0, 9, 0, 0, 0, st, by decide⟩

/-- What clause 10 of `MemoryAndRetrievalBackgroundRowsComplete` asks can be met. -/
theorem witness_memory_and_retrieval_background_rows_complete_10 :
    ∃ (slice : BitVec 6) (table : U8) (row : U32) (s : State) (t : Table) (m : Migration) (k : Nat),
    s.table slice.toNat table.toNat = some t ∧
    (t.migrations.find? (fun m => m.row == row.toNat) = some m) ∧
    s.freeEngine t.die false ≠ none ∧
    t.discarded = none ∧
    (if m.into then s.freeSlot t else some m.slot) = some k :=
  ⟨0, 0, 1, { stT with ret := { tables := [{ tab0 with migrations := [⟨1, 0, true⟩] }] } }, { tab0 with migrations := [⟨1, 0, true⟩] }, ⟨1, 0, true⟩, 0, by decide⟩

/-- What clause 11 of `MemoryAndRetrievalBackgroundRowsComplete` asks can be met. -/
theorem witness_memory_and_retrieval_background_rows_complete_11 :
    ∃ (slice : BitVec 6) (table : U8) (s : State) (t : Table),
    s.table slice.toNat table.toNat = some t ∧
    t.discarded ≠ none :=
  ⟨0, 0, { stT with ret := { tables := [{ tab0 with discarded := some (0, [], none) }] } }, { tab0 with discarded := some (0, [], none) }, by decide⟩

/-- What clause 12 of `MemoryAndRetrievalBackgroundRowsComplete` asks can be met. -/
theorem witness_memory_and_retrieval_background_rows_complete_12 :
    ∃ (slice : BitVec 6) (table : U8) (s : State) (t : Table),
    s.table slice.toNat table.toNat = some t ∧
    t.discarded = none ∧
    t.switching ≠ none ∧
    s.switchDue t = true :=
  ⟨0, 0, { stT with ret := { tables := [{ tab0 with staged := some 0x2000, switching := some none }] } }, { tab0 with staged := some 0x2000, switching := some none }, by decide⟩

/-- What clause 13 of `MemoryAndRetrievalBackgroundRowsComplete` asks can be met. -/
theorem witness_memory_and_retrieval_background_rows_complete_13 :
    ∃ (slice : BitVec 6) (index : U8) (s : State) (x : Index) (o : RetOp),
    let sl := slice.toNat
    s.index sl index.toNat = some x ∧
    (s.ret.ops.find? (fun o => o.kind == .compact && o.slice == sl && o.num == index.toNat && o.released.isSome) = some o) ∧
    (∀ q ∈ s.ret.ops, (o.released.getD []).contains q.id = false) ∧
    let gone := o.list.map fun id => (id, s.node x id)
    let ups := (gone.filter fun g => g.2.level != 0).map fun g => (g.2.upper, g.2.level)
    let clear : Plan := { writes := gone.flatMap fun g => (x.at_ 2 16 g.1, zeros 16) :: (List.range g.2.level).map fun k => ((x.listAt g.1 (k + 1) g.2.upper).1, zeros (4 * (x.listAt g.1 (k + 1) g.2.upper).2)) }
    let t := (s.runPlan x.die sl clear).setIndex { x with uppers := x.uppers.filter fun u => !ups.contains u }
    o.status = 0 ∧
    s.pathCode x [] clear.writes = 0 :=
  ⟨0, 0, { stI with ret := { indexes := [idx0], ops := [{ id := 1, kind := .compact, slice := 0, num := 0, die := 8, released := some [] }] } }, idx0, { id := 1, kind := .compact, slice := 0, num := 0, die := 8, released := some [] }, by decide⟩

/-- What clause 14 of `MemoryAndRetrievalBackgroundRowsComplete` asks can be met. -/
theorem witness_memory_and_retrieval_background_rows_complete_14 :
    ∃ (die : BitVec 3) (g : U1) (e : BitVec 2) (s : State) (o : RetOp),
    s.engineOp die.toNat e.toNat (g == 0) = some o :=
  ⟨0, 0, 3, { st with ret := { ops := [{ id := 1, kind := .search, slice := 0, num := 0, die := 0, engine := some 3 }] } }, { id := 1, kind := .search, slice := 0, num := 0, die := 0, engine := some 3 }, by decide⟩

/-- What clause 1 of `BridgeAndPortRowsComplete` asks can be met. -/
theorem witness_bridge_and_port_rows_complete_1 :
    ∃ (bridge : BitVec 6) (s : State),
    let b := bridge.toNat
    let t : State := { s with pkg := { s.pkg with bridgesDown := setInsert s.pkg.bridgesDown b } }
    b < 34 ∧
    s.pkg.bridgesDown.contains b = false ∧
    s.pkg.conversion = true :=
  ⟨33, stS, by decide⟩

/-- What clause 2 of `BridgeAndPortRowsComplete` asks can be met. -/
theorem witness_bridge_and_port_rows_complete_2 :
    ∃ (port : BitVec 6) (good : U8) (s : State),
    let p := port.toNat
    let x := s.port p
    3 ≤ x.state ∧
    x.state ≤ 5 ∧
    good ≠ 0xFF ∧
    lanesOf good.toNat = 0 :=
  ⟨47, 0xEE, { st with net := { ports := [(47, { state := 3 })] } }, by decide⟩

/-- What clause 3 of `BridgeAndPortRowsComplete` asks can be met. -/
theorem witness_bridge_and_port_rows_complete_3 :
    ∃ (port : BitVec 6) (good : U8) (s : State),
    let p := port.toNat
    let x := s.port p
    3 ≤ x.state ∧
    x.state ≤ 5 ∧
    good ≠ 0xFF ∧
    lanesOf good.toNat ≠ 0 :=
  ⟨47, 0x0F, { st with net := { ports := [(47, { state := 5 })] } }, by decide⟩

/-- What clause 4 of `BridgeAndPortRowsComplete` asks can be met. -/
theorem witness_bridge_and_port_rows_complete_4 :
    ∃ (port : BitVec 6) (f : Flit) (s : State),
    (s.port port.toNat).state ≠ 0 :=
  ⟨0, {}, { st with net := { ports := [(0, { state := 6 })] } }, by decide⟩

/-- What clause 5 of `BridgeAndPortRowsComplete` asks can be met. -/
theorem witness_bridge_and_port_rows_complete_5 :
    ∃ (port : BitVec 6) (good : U8) (s : State),
    let p := port.toNat
    let x := s.port p
    x.step = 1 ∧
    (x.state = 1 ∨ x.state = 6) ∧
    lanesOf good.toNat ≠ 0 :=
  ⟨0, 0xF0, { st with net := { ports := [(0, { state := 6, step := 1 })] } }, by decide⟩

/-- What clause 6 of `BridgeAndPortRowsComplete` asks can be met. -/
theorem witness_bridge_and_port_rows_complete_6 :
    ∃ (port : BitVec 6) (o : HelloOps) (s : State),
    let p := port.toNat
    let x := s.port p
    x.step = 2 ∧
    x.state = 1 ∧
    o.compId = s.comp.id ∧
    o.cipher = 1 ∧
    s.module ≠ 2 :=
  ⟨0, { compId := 9, cipher := 1 }, { stC with net := { ports := [(0, { state := 1, step := 2 })] } }, by decide⟩

/-- What clause 7 of `BridgeAndPortRowsComplete` asks can be met. -/
theorem witness_bridge_and_port_rows_complete_7 :
    ∃ (port : BitVec 6) (identity : U256) (sig : U1) (s : State),
    let p := port.toNat
    let x := s.port p
    let m := s.member x.peerDev
    x.state = 2 ∧
    (x.step = 4 ∨ x.step = 3 ∧ sig = 1 ∧ ∀ y, m = some y → y.identity = identity) :=
  ⟨0, 0, 0, { stC with net := { ports := [(0, { state := 2, step := 4 })] } }, by exact ⟨by decide, Or.inl (by decide)⟩⟩

/-- What clause 8 of `BridgeAndPortRowsComplete` asks can be met. -/
theorem witness_bridge_and_port_rows_complete_8 :
    ∃ (port : BitVec 6) (s : State),
    let x := s.port port.toNat
    x.state = 6 ∧
    x.step = 0 ∧
    2 ^ 20 ≤ s.pkc - x.failedAt.toNat :=
  ⟨0, { st with pkg := { pkc := 0x100000 }, net := { ports := [(0, { state := 6 })] } }, by decide⟩

/-- What clause 9 of `BridgeAndPortRowsComplete` asks can be met. -/
theorem witness_bridge_and_port_rows_complete_9 :
    ∃ (port : BitVec 6) (s : State),
    let x := s.port port.toNat
    2 ^ 32 - 2 ^ 24 ≤ x.txFrames :=
  ⟨0, { st with net := { ports := [(0, { txFrames := 0xFF000000 })] } }, by decide⟩

/-- What clause 10 of `BridgeAndPortRowsComplete` asks can be met. -/
theorem witness_bridge_and_port_rows_complete_10 :
    ∃ (port : BitVec 6) (s : State),
    let x := s.port port.toNat
    x.rekeying = true :=
  ⟨0, { st with net := { ports := [(0, { rekeying := true })] } }, by decide⟩

/-- What clause 11 of `BridgeAndPortRowsComplete` asks can be met. -/
theorem witness_bridge_and_port_rows_complete_11 :
    ∃ (port : BitVec 6) (s : State),
    let x := s.port port.toNat
    3 ≤ x.state ∧
    x.state ≤ 5 ∧
    128 ≤ s.pkc - x.lastAck.toNat :=
  ⟨0, { st with pkg := { pkc := 128 }, net := { ports := [(0, { state := 3 })] } }, by decide⟩

/-- What clause 1 of `MemoryTransactionsComplete` asks can be met. -/
theorem witness_memory_transactions_complete_1 :
    ∃ (t : TxHdr) (s : State) (r : PoolRange),
    s.poolAt t.addr.toNat = some r ∧
    Admits t 1 0 0 false true s ∧
    64 ≤ t.slice.toNat :=
  ⟨{ tx with addr := 0x20000 }, stX, ⟨2, 4, 2, 0, 0, false⟩, by decide⟩

/-- What clause 2 of `MemoryTransactionsComplete` asks can be met. -/
theorem witness_memory_transactions_complete_2 :
    ∃ (t : TxHdr) (s : State) (tb : Table),
    Admits t 1 0 0 false true s ∧
    t.slice.toNat < 64 ∧
    s.rowMiss t = none ∧
    let u := Requested t 1 0 0 s
    let row := t.addr.toNat % 2 ^ 32
    u.sharedTable t.slice.toNat (t.addr.toNat / 2 ^ 56) = some tb ∧
    tb.badRow row = false ∧
    let x := u.rowRead tb tb.version row
    let y : Ans := { data := sub x.bytes (16384 * (t.aux.toNat / 65536)) (t.aux.toNat % 65536) }
    x.lost = false ∧
    x.cut = false ∧
    x.bad = false :=
  ⟨{ tx0 with addr := 3, aux := 64 }, stX, tabS, by decide⟩

/-- What clause 3 of `MemoryTransactionsComplete` asks can be met. -/
theorem witness_memory_transactions_complete_3 :
    ∃ (t : TxHdr) (s : State) (tb : Table),
    Admits t 1 0 0 false true s ∧
    t.slice.toNat < 64 ∧
    s.rowMiss t = none ∧
    let u := Requested t 1 0 0 s
    let row := t.addr.toNat % 2 ^ 32
    u.sharedTable t.slice.toNat (t.addr.toNat / 2 ^ 56) = some tb ∧
    tb.badRow row = false ∧
    let x := u.rowRead tb tb.version row
    let y : Ans := { data := sub x.bytes (16384 * (t.aux.toNat / 65536)) (t.aux.toNat % 65536) }
    x.lost = false ∧
    x.cut = false ∧
    x.bad = true :=
  ⟨tx0, { stX with mem := { objects := [obj0], poison := [0] } }, tabS, by decide⟩

/-- What clause 4 of `MemoryTransactionsComplete` asks can be met. -/
theorem witness_memory_transactions_complete_4 :
    ∃ (t : TxHdr) (data : Bytes) (s : State),
    64 ≤ t.slice.toNat ∧
    Admits t 2 0 data.length false true s ∧
    (∃ r, s.poolAt t.addr.toNat = some r ∧ t.addr.toNat + data.length ≤ 0x1_0000 * (r.base + r.units)) :=
  ⟨{ tx with addr := 0x5FFFF }, [1], stX, by exact ⟨by decide, by decide, ⟨2, 4, 2, 0, 0, false⟩, by decide, by decide⟩⟩

/-- What clause 5 of `MemoryTransactionsComplete` asks can be met. -/
theorem witness_memory_transactions_complete_5 :
    ∃ (t : TxHdr) (data : Bytes) (s : State),
    t.slice.toNat < 64 ∧
    Admits t 2 0 data.length false true s ∧
    let u := Requested t 2 0 data.length s
    let a := t.addr.toNat
    let src := t.src.toNat
    ((u.handedSid t data).bind (fun sid => u.staleOwner sid t.aux.toNat) = none) :=
  ⟨tx0, [], stX, by decide⟩

/-- What clause 6 of `MemoryTransactionsComplete` asks can be met. -/
theorem witness_memory_transactions_complete_6 :
    ∃ (c : Instr) (op : Nat) (t : TxHdr) (data : Bytes) (s : State) (tb : Table),
    (c = .addF32 t data ∧ op = 1 ∨ c = .addBf16 t data ∧ op = 2 ∨ c = .setRow t data ∧ op = 3) ∧
    Admits t 3 op data.length false true s ∧
    t.slice.toNat < 64 ∧
    s.rowMiss t = none ∧
    t.aux.toNat % 65536 ≤ 1 ∧
    let u := Requested t 3 op data.length s
    let row := t.addr.toNat % 2 ^ 32
    let va := tb.rowVa tb.version row
    u.sharedTable t.slice.toNat (t.addr.toNat / 2 ^ 56) = some tb ∧
    (op = 1 → tb.rformat = 2) ∧
    (op = 2 → tb.rformat = 1) ∧
    tb.badRow row = false ∧
    (u.rowRead tb tb.version row).lost = false ∧
    (u.rowRead tb tb.version row).cut = false ∧
    let v := u.rowUpdate tb.slice tb.num tb.version row t.src.toNat (op != 3) false (padTo tb.rowBytes data)
    t.poison = 0 :=
  ⟨.setRow tx0 [], 3, tx0, [], stX, tabS, by exact ⟨Or.inr (Or.inr ⟨rfl, rfl⟩), by decide, by decide, by decide, by decide, by decide, by decide, by decide, by decide, by decide, by decide⟩⟩

/-- What clause 7 of `MemoryTransactionsComplete` asks can be met. -/
theorem witness_memory_transactions_complete_7 :
    ∃ (c : Instr) (op : Nat) (t : TxHdr) (data : Bytes) (s : State) (tb : Table),
    (c = .addF32 t data ∧ op = 1 ∨ c = .addBf16 t data ∧ op = 2 ∨ c = .setRow t data ∧ op = 3) ∧
    Admits t 3 op data.length false true s ∧
    t.slice.toNat < 64 ∧
    s.rowMiss t = none ∧
    t.aux.toNat % 65536 ≤ 1 ∧
    let u := Requested t 3 op data.length s
    let row := t.addr.toNat % 2 ^ 32
    let va := tb.rowVa tb.version row
    u.sharedTable t.slice.toNat (t.addr.toNat / 2 ^ 56) = some tb ∧
    (op = 1 → tb.rformat = 2) ∧
    (op = 2 → tb.rformat = 1) ∧
    tb.badRow row = false ∧
    (u.rowRead tb tb.version row).lost = false ∧
    (u.rowRead tb tb.version row).cut = false ∧
    let v := u.rowUpdate tb.slice tb.num tb.version row t.src.toNat (op != 3) false (padTo tb.rowBytes data)
    t.poison = 1 :=
  ⟨.addBf16 { tx0 with poison := 1 } [], 2, { tx0 with poison := 1 }, [], stX, tabS, by exact ⟨Or.inr (Or.inl ⟨rfl, rfl⟩), by decide, by decide, by decide, by decide, by decide, by decide, by decide, by decide, by decide, by decide⟩⟩

/-- What clause 8 of `MemoryTransactionsComplete` asks can be met. -/
theorem witness_memory_transactions_complete_8 :
    ∃ (t : TxHdr) (data : Bytes) (s : State) (r r' : PoolRange),
    s.poolAt t.addr.toNat = some r ∧
    s.poolAt (t.addr.toNat + 7) = some r' ∧
    Admits t 3 4 data.length false true s :=
  ⟨{ tx with addr := 0x20000 }, zeros 8, stX, ⟨2, 4, 2, 0, 0, false⟩, ⟨2, 4, 2, 0, 0, false⟩, by decide⟩

/-- What clause 9 of `MemoryTransactionsComplete` asks can be met. -/
theorem witness_memory_transactions_complete_9 :
    ∃ (t : TxHdr) (data : Bytes) (s : State) (r r' : PoolRange),
    s.poolAt t.addr.toNat = some r ∧
    s.poolAt (t.addr.toNat + 7) = some r' ∧
    Admits t 3 5 data.length false true s :=
  ⟨{ tx with addr := 0x5FFF8 }, zeros 16, stX, ⟨2, 4, 2, 0, 0, false⟩, ⟨2, 4, 2, 0, 0, false⟩, by decide⟩

/-- What clause 1 of `PoolTransactionsComplete` asks can be met. -/
theorem witness_pool_transactions_complete_1 :
    ∃ (t : TxHdr) (units : U64) (s : State),
    Admits t 7 0x20 8 false true s ∧
    let u := Requested t 7 0x20 8 s
    let n := units.toNat
    ∃ a,
    n ≠ 0 ∧
    u.poolFit n = some a :=
  ⟨tx, 32, stXp, by exact ⟨by decide, 0, by decide, by decide⟩⟩

/-- What clause 2 of `PoolTransactionsComplete` asks can be met. -/
theorem witness_pool_transactions_complete_2 :
    ∃ (t : TxHdr) (units : U64) (s : State),
    Admits t 7 0x20 8 false true s ∧
    let u := Requested t 7 0x20 8 s
    let n := units.toNat
    u.poolFit n = none :=
  ⟨tx, 1, stX, by decide⟩

/-- What clause 3 of `PoolTransactionsComplete` asks can be met. -/
theorem witness_pool_transactions_complete_3 :
    ∃ (t : TxHdr) (base : U64) (s : State) (r : PoolRange),
    Admits t 7 0x21 8 false true s ∧
    s.poolAt base.toNat ≠ none ∧
    let u := Requested t 7 0x21 8 s
    (u.pool.find? (fun r => 0x1_0000 * r.base == base.toNat) = some r) :=
  ⟨tx, 0x20000, stX, ⟨2, 4, 2, 0, 0, false⟩, by decide⟩

/-- What clause 4 of `PoolTransactionsComplete` asks can be met. -/
theorem witness_pool_transactions_complete_4 :
    ∃ (t : TxHdr) (s : State),
    Admits t 7 0x22 0 false true s :=
  ⟨tx, stX, by decide⟩

/-- What clause 5 of `PoolTransactionsComplete` asks can be met. -/
theorem witness_pool_transactions_complete_5 :
    ∃ (t : TxHdr) (s : State),
    Admits t 7 0x38 0 true true s :=
  ⟨tx, stX, by decide⟩

/-- What clause 1 of `QueryResponseAndTransitComplete` asks can be met. -/
theorem witness_query_response_and_transit_complete_1 :
    ∃ (t : TxHdr) (data : Bytes) (s : State),
    let a := s.arrive t 4 1 data.length 2 true
    a.2 = true ∧
    a.1.member t.src.toNat ≠ none :=
  ⟨tx0, [], stX, by decide⟩

/-- What clause 2 of `QueryResponseAndTransitComplete` asks can be met. -/
theorem witness_query_response_and_transit_complete_2 :
    ∃ (t : TxHdr) (data : Bytes) (s : State),
    let a := s.arrive t 4 2 data.length 2 true
    a.2 = true ∧
    a.1.member t.src.toNat ≠ none :=
  ⟨tx0, [], stX, by decide⟩

/-- What clause 3 of `QueryResponseAndTransitComplete` asks can be met. -/
theorem witness_query_response_and_transit_complete_3 :
    ∃ (t : TxHdr) (status : U16) (data : Bytes) (s : State) (x : Txn),
    let a := s.arriveResp t 8 data.length
    a.2 = true ∧
    a.1.respTo t = some x ∧
    (status.toNat ≠ 0x0703 ∨ x.type = 6) :=
  ⟨tx, 0, [], { stX with comp := { comp0 with outst := [out0] } }, out0, by decide⟩

/-- What clause 4 of `QueryResponseAndTransitComplete` asks can be met. -/
theorem witness_query_response_and_transit_complete_4 :
    ∃ (t : TxHdr) (status : U16) (data : Bytes) (s : State) (x : Txn),
    let a := s.arriveResp t 8 data.length
    a.2 = true ∧
    a.1.respTo t = some x ∧
    status.toNat = 0x0703 ∧
    x.type ≠ 6 ∧
    t.epoch.toNat ≤ a.1.comp.epoch :=
  ⟨tx, 0x0703, [], { stX with comp := { comp0 with outst := [out0] } }, out0, by decide⟩

/-- What clause 5 of `QueryResponseAndTransitComplete` asks can be met. -/
theorem witness_query_response_and_transit_complete_5 :
    ∃ (t : TxHdr) (status : U16) (data : Bytes) (s : State) (x : Txn),
    let a := s.arriveResp t 8 data.length
    a.2 = true ∧
    a.1.respTo t = some x ∧
    status.toNat = 0x0703 ∧
    x.type ≠ 6 ∧
    a.1.comp.epoch < t.epoch.toNat :=
  ⟨{ tx with epoch := 2 }, 0x0703, [], { stX with comp := { comp0 with outst := [out0] } }, out0, by decide⟩

/-- What clause 6 of `QueryResponseAndTransitComplete` asks can be met. -/
theorem witness_query_response_and_transit_complete_6 :
    ∃ (t : TxHdr) (s : State) (x : Txn),
    let a := s.arriveResp t 9 0
    a.2 = true ∧
    a.1.txn t.src.toNat t.tag.toNat = some x :=
  ⟨tx, { stX with comp := { comp0 with outst := [out0] } }, out0, by decide⟩

/-- What clause 7 of `QueryResponseAndTransitComplete` asks can be met. -/
theorem witness_query_response_and_transit_complete_7 :
    ∃ (t : TxHdr) (type op : U8) (s : State),
    let a := s.arrive t type.toNat op.toNat 0 (laneOf (queueOf t type.toNat) false) true
    a.2 = true :=
  ⟨tx, 0x0F, 0, stX, by decide⟩

/-- What clause 8 of `QueryResponseAndTransitComplete` asks can be met. -/
theorem witness_query_response_and_transit_complete_8 :
    ∃ (t : TxHdr) (dst : U16) (type op : U8) (data : Bytes) (s : State) (o : Nat),
    let ty := type.toNat
    let q := queueOf t ty
    let p := t.port.toNat
    let n := flitsOf data.length
    let req := ty ≠ 8 ∧ ty ≠ 9
    let vl := laneOf q (!decide req)
    let m := if req ∧ 4 ≤ q then s.metered p vl t.src.toNat n (t.lc == 1) t.colour.toNat else (s, t.colour.toNat, true)
    let v := m.1.leaveBuffer p vl n
    3 ≤ (s.port p).state ∧
    (s.port p).state ≤ 4 ∧
    (t.tagOk = 1 ∨ (s.port p).cipher = false) ∧
    m.2.2 = true ∧
    t.hops.toNat ≤ 1 ∧
    req ∧
    ty ≠ 4 :=
  ⟨{ tx with hops := 1 }, 2, 1, 0, [], stX, 0, by decide⟩

/-- What clause 9 of `QueryResponseAndTransitComplete` asks can be met. -/
theorem witness_query_response_and_transit_complete_9 :
    ∃ (t : TxHdr) (dst : U16) (type op : U8) (data : Bytes) (s : State) (o : Nat),
    let ty := type.toNat
    let q := queueOf t ty
    let p := t.port.toNat
    let n := flitsOf data.length
    let req := ty ≠ 8 ∧ ty ≠ 9
    let vl := laneOf q (!decide req)
    let m := if req ∧ 4 ≤ q then s.metered p vl t.src.toNat n (t.lc == 1) t.colour.toNat else (s, t.colour.toNat, true)
    let v := m.1.leaveBuffer p vl n
    3 ≤ (s.port p).state ∧
    (s.port p).state ≤ 4 ∧
    (t.tagOk = 1 ∨ (s.port p).cipher = false) ∧
    m.2.2 = true ∧
    2 ≤ t.hops.toNat ∧
    v.route 0xFF dst.toNat ty op.toNat = some o :=
  ⟨{ tx with hops := 2 }, 2, 1, 0, [], stX, 0, by decide⟩

/-- What clause 1 of `SessionTransactionsComplete` asks can be met. -/
theorem witness_session_transactions_complete_1 :
    ∃ (t : TxHdr) (sid : U64) (data : Bytes) (s : State),
    t.slice.toNat < 64 ∧
    Admits t 5 1 data.length false (s.holdsSession sid) s ∧
    let u := Requested t 5 1 data.length s
    u.staleOwner sid t.aux.toNat = none ∧
    ∃ h,
    u.hoOf sid false = some h ∧
    h.peer = t.src.toNat ∧
    h.epoch = t.aux.toNat ∧
    h.step ≤ 4 :=
  ⟨{ tx0 with aux := 1 }, 7, [], { stXs { season := .spring } with handoffs := [hand0 false] }, by exact ⟨by decide, by decide, by decide, hand0 false, by decide, by decide, by decide, by decide⟩⟩

/-- What clause 2 of `SessionTransactionsComplete` asks can be met. -/
theorem witness_session_transactions_complete_2 :
    ∃ (t : TxHdr) (sid : U64) (data : Bytes) (s : State),
    t.slice.toNat < 64 ∧
    Admits t 5 1 data.length false (s.holdsSession sid) s ∧
    let u := Requested t 5 1 data.length s
    u.staleOwner sid t.aux.toNat = none ∧
    ∃ v h,
    u.hoOf sid false = none ∧
    u.standbyRecord t sid = some (v, h) :=
  ⟨tx0, 7, [], stXs { season := .autumn, ringSize := 1, ringPos := 1 }, by exact ⟨by decide, by decide, by decide, _, _, by decide, rfl⟩⟩

/-- What clause 3 of `SessionTransactionsComplete` asks can be met. -/
theorem witness_session_transactions_complete_3 :
    ∃ (t : TxHdr) (sid : U64) (data : Bytes) (s : State) (r : PoolRange),
    64 ≤ t.slice.toNat ∧
    Admits t 5 1 data.length false true s ∧
    let u := Requested t 5 1 data.length s
    s.poolAt t.addr.toNat = some r ∧
    t.addr.toNat + data.length ≤ 0x1_0000 * (r.base + r.units) ∧
    u.staleOwner sid t.aux.toNat = none :=
  ⟨{ tx with addr := 0x5FFFF }, 7, [0], stX, ⟨2, 4, 2, 0, 0, false⟩, by decide⟩

/-- What clause 4 of `SessionTransactionsComplete` asks can be met. -/
theorem witness_session_transactions_complete_4 :
    ∃ (t : TxHdr) (data : Bytes) (loc : U64) (len : U32) (s : State) (h : Handoff),
    let x := descOfBytes data
    let u := Requested t 5 2 data.length s
    Admits t 5 2 data.length false (s.holdsSession x.sessionId) s ∧
    u.staleOwner x.sessionId t.aux.toNat = none ∧
    u.hoOf x.sessionId false = some h ∧
    h.descOnly = true ∧
    h.peer = t.src.toNat :=
  ⟨tx0, zeros 256, 0, 0, { stX with desc := [(0, { season := .spring })], handoffs := [{ hand0 false with sid := 0, descOnly := true }] }, { hand0 false with sid := 0, descOnly := true }, by decide⟩

/-- What clause 5 of `SessionTransactionsComplete` asks can be met. -/
theorem witness_session_transactions_complete_5 :
    ∃ (t : TxHdr) (sid : U64) (layer : U8) (first : U32) (data : Bytes) (s : State),
    Admits t 5 3 data.length false true s ∧
    let u := Requested t 5 3 data.length s
    let x := u.takeRows t sid layer.toNat first.toNat data
    u.staleOwner sid t.aux.toNat = none :=
  ⟨tx0, 7, 0, 0, [], stX, by decide⟩

/-- What clause 6 of `SessionTransactionsComplete` asks can be met. -/
theorem witness_session_transactions_complete_6 :
    ∃ (t : TxHdr) (sid : U64) (n : U32) (s : State),
    Admits t 5 4 0 false true s ∧
    let u := Requested t 5 4 0 s
    let x := u.commitMirror t sid n.toNat
    u.staleOwner sid t.aux.toNat = none :=
  ⟨tx0, 7, 0, stX, by decide⟩

/-- What clause 7 of `SessionTransactionsComplete` asks can be met. -/
theorem witness_session_transactions_complete_7 :
    ∃ (t : TxHdr) (sid : U64) (sampler scratch cursors : Bytes) (s : State) (m : Mirror),
    let u := Requested t 5 5 (sampler ++ scratch ++ cursors).length s
    Admits t 5 5 (sampler ++ scratch ++ cursors).length false true s ∧
    u.staleOwner sid t.aux.toNat = none ∧
    u.mirrorFrom sid t.src.toNat = some m ∧
    m.epoch ≤ t.aux.toNat :=
  ⟨{ tx0 with aux := 1 }, 7, [], [], [], { stX with mirrors := [{ sessionId := 7, ringPos := 0, epoch := 1, offset := 0, committed := 0, tentative := 0, slice := 0, window := 0, primary := 2 }] },
    { sessionId := 7, ringPos := 0, epoch := 1, offset := 0, committed := 0, tentative := 0, slice := 0, window := 0, primary := 2 }, by decide⟩

/-- What clause 8 of `SessionTransactionsComplete` asks can be met. -/
theorem witness_session_transactions_complete_8 :
    ∃ (t : TxHdr) (o : OfferOps) (s : State),
    Admits t 7 1 0 false true s ∧
    let u := Requested t 7 1 0 s
    u.staleOwner o.sid o.epoch.toNat = none :=
  ⟨tx0, { sid := 7, epoch := 1 }, stX, by decide⟩

/-- What clause 9 of `SessionTransactionsComplete` asks can be met. -/
theorem witness_session_transactions_complete_9 :
    ∃ (i : Instr) (op : Nat) (giver : Bool) (t : TxHdr) (sid : U64) (epoch : U32) (x : U64) (code : U16) (s : State) (h : Handoff),
    (i = .accept t sid epoch x ∧ op = 2 ∧ giver = true ∨ i = .refuse t sid epoch code ∧ op = 3 ∧ giver = true ∨ i = .ack t sid epoch ∧ op = 4 ∧ giver = true ∨ i = .commitHandoff t sid epoch ∧ op = 5 ∧ giver = false ∨ i = .committed t sid epoch x ∧ op = 6 ∧ giver = true ∨ i = .released t sid epoch ∧ op = 7 ∧ giver = false) ∧
    Admits t 7 op 0 false (s.holdsSession sid) s ∧
    let u := Requested t 7 op 0 s
    let d := u.d h.index
    u.staleOwner sid epoch.toNat = none ∧
    u.hoOf sid giver = some h ∧
    h.peer = t.src.toNat ∧
    h.epoch = epoch.toNat ∧
    (op = 5 → d.ownerState = .prepared ∨ d.ownerState = .committed) ∧
    (op = 7 → d.ownerState = .committed) :=
  ⟨.released tx 7 1, 7, false, tx, 7, 1, 0, 0, { stXs { season := .spring, ownerState := .committed } with handoffs := [hand0 false] }, hand0 false, by
    exact ⟨Or.inr (Or.inr (Or.inr (Or.inr (Or.inr ⟨rfl, rfl, rfl⟩)))), by decide, by decide, by decide, by decide, by decide, by decide, by decide⟩⟩

/-- What clause 10 of `SessionTransactionsComplete` asks can be met. -/
theorem witness_session_transactions_complete_10 :
    ∃ (t : TxHdr) (sid : U64) (epoch : U32) (receiver : U1) (x : U64) (s : State),
    Admits t 7 8 24 false true s :=
  ⟨tx, 7, 1, 0, 0, stX, by decide⟩

/-- What clause 11 of `SessionTransactionsComplete` asks can be met. -/
theorem witness_session_transactions_complete_11 :
    ∃ (t : TxHdr) (sid : U64) (s : State),
    Admits t 7 9 8 false true s ∧
    let u := Requested t 7 9 8 s
    let a := t.addr.toNat
    a = 0 :=
  ⟨tx, 7, stX, by decide⟩

/-- What clause 12 of `SessionTransactionsComplete` asks can be met. -/
theorem witness_session_transactions_complete_12 :
    ∃ (t : TxHdr) (sid : U64) (s : State),
    Admits t 7 9 8 false true s ∧
    let u := Requested t 7 9 8 s
    let a := t.addr.toNat
    a ≠ 0 :=
  ⟨{ tx with addr := 1 }, 7, stX, by decide⟩

/-- What clause 13 of `SessionTransactionsComplete` asks can be met. -/
theorem witness_session_transactions_complete_13 :
    ∃ (t : TxHdr) (o : RingOps) (s : State),
    Admits t 7 0x10 0 false (o.kind == 3 || o.kind == 5 || s.holdsSession o.sid) s ∧
    let u := Requested t 7 0x10 0 s
    let x := u.takeRing t o
    u.staleOwner o.sid o.epoch.toNat = none ∧
    x.2.reply = true :=
  ⟨tx0, { kind := 3, sid := 7 }, stX, by decide⟩

/-- What clause 14 of `SessionTransactionsComplete` asks can be met. -/
theorem witness_session_transactions_complete_14 :
    ∃ (t : TxHdr) (o : RingOps) (s : State),
    Admits t 7 0x10 0 false (o.kind == 3 || o.kind == 5 || s.holdsSession o.sid) s ∧
    let u := Requested t 7 0x10 0 s
    let x := u.takeRing t o
    u.staleOwner o.sid o.epoch.toNat = none ∧
    x.2.reply = false :=
  ⟨tx0, { kind := 4, sid := 7, pos := 0 }, stXs { season := .autumn, ringSize := 3, ringPos := 1, ringPrev := 2, ringNext := 2 }, by decide⟩

/-- What clause 15 of `SessionTransactionsComplete` asks can be met. -/
theorem witness_session_transactions_complete_15 :
    ∃ (t : TxHdr) (o : RingOps) (s : State),
    Admits t 7 0x10 0 false (o.kind == 3 || o.kind == 5 || s.holdsSession o.sid) s ∧
    let u := Requested t 7 0x10 0 s
    let x := u.takeRing t o
    u.staleOwner o.sid o.epoch.toNat = none ∧
    o.kind = 2 :=
  ⟨tx0, { kind := 2, sid := 7 }, stXs { season := .autumn }, by decide⟩

/-- What clause 16 of `SessionTransactionsComplete` asks can be met. -/
theorem witness_session_transactions_complete_16 :
    ∃ (index : BitVec 24) (s : State) (c : Stored) (r : Repair),
    let i := index.toNat
    let d := s.d i
    let ms := r.members c.members
    let addr : U64 := match ms.find? fun m => (s.member m.1).isSome with | some m => BitVec.ofNat 64 (0x1_0000_0000_0000 * m.1 + m.2) | none => c.addr
    s.storedAt d = some c ∧
    c.repair = some r ∧
    r.step = 2 ∧
    s.repairOut c.key = false :=
  ⟨0, { stX with desc := [(0, { season := .winter, canvasTier := 2, canvasAddr := 0x2000000000005 })], cnv := { stored := [⟨2, 0, 0x2000000000005, {}, [(2, 5)], 0, some ⟨[], 2⟩, 0⟩] } },
    ⟨2, 0, 0x2000000000005, {}, [(2, 5)], 0, some ⟨[], 2⟩, 0⟩, ⟨[], 2⟩, by decide⟩

/-- What clause 1 of `CompositionTransactionsComplete` asks can be met. -/
theorem witness_composition_transactions_complete_1 :
    ∃ (t : TxHdr) (c : ChangeOps) (s : State),
    Admits t 6 1 0 true true s ∧
    let u := Requested t 6 1 0 s
    let x : MapChange := { changeOf c with proposer := t.src.toNat }
    u.inQuorum = true ∧
    u.changeCheck x = none :=
  ⟨tx, { op := 1, device := 7 }, stX, by decide⟩

/-- What clause 2 of `CompositionTransactionsComplete` asks can be met. -/
theorem witness_composition_transactions_complete_2 :
    ∃ (t : TxHdr) (c : ChangeOps) (s : State),
    Admits t 6 1 0 true true s ∧
    let u := Requested t 6 1 0 s
    let x : MapChange := { changeOf c with proposer := t.src.toNat }
    ∃ code,
    u.inQuorum = true ∧
    u.changeCheck x = some code :=
  ⟨tx, { op := 0 }, stX, by exact ⟨by decide, eCompParam, by decide, by decide⟩⟩

/-- What clause 3 of `CompositionTransactionsComplete` asks can be met. -/
theorem witness_composition_transactions_complete_3 :
    ∃ (t : TxHdr) (epoch : U32) (c : ChangeOps) (s : State),
    Admits t 6 2 0 true true s ∧
    let u := Requested t 6 2 0 s
    let x := changeOf c
    let e := epoch.toNat
    u.votes e x = true :=
  ⟨tx, 2, { op := 3, device := 2 }, stX, by decide⟩

/-- What clause 4 of `CompositionTransactionsComplete` asks can be met. -/
theorem witness_composition_transactions_complete_4 :
    ∃ (t : TxHdr) (epoch : U32) (c : ChangeOps) (s : State),
    Admits t 6 2 0 true true s ∧
    let u := Requested t 6 2 0 s
    let x := changeOf c
    let e := epoch.toNat
    u.votes e x = false :=
  ⟨tx, 5, { op := 3, device := 2 }, stX, by decide⟩

/-- What clause 5 of `CompositionTransactionsComplete` asks can be met. -/
theorem witness_composition_transactions_complete_5 :
    ∃ (t : TxHdr) (epoch : U32) (s : State),
    Admits t 6 3 0 true true s ∧
    let u := Requested t 6 3 0 s
    let src := t.src.toNat
    ∃ since,
    u.comp.prepared = some since ∧
    epoch.toNat = u.comp.epoch + 1 ∧
    src ∈ u.comp.quorum ∧
    src ∉ u.comp.votes :=
  ⟨tx, 2, { stX with comp := { comp0 with prepared := some 0 } }, by exact ⟨by decide, 0, by decide, by decide, by decide, by decide⟩⟩

/-- What clause 6 of `CompositionTransactionsComplete` asks can be met. -/
theorem witness_composition_transactions_complete_6 :
    ∃ (t : TxHdr) (epoch : U32) (c : ChangeOps) (s : State),
    Admits t 6 4 0 true true s ∧
    let u := Requested t 6 4 0 s
    let v : State := { u with comp := { u.comp with voteLost := false } }
    let x := v.changed (changeOf c) epoch.toNat
    epoch.toNat = u.comp.epoch + 1 ∧
    u.comp.epoch ≠ 0 :=
  ⟨tx, 2, { op := 3, device := 2 }, stX, by decide⟩

/-- What clause 7 of `CompositionTransactionsComplete` asks can be met. -/
theorem witness_composition_transactions_complete_7 :
    ∃ (t : TxHdr) (epoch : U32) (c : ChangeOps) (s : State),
    Admits t 6 4 0 true true s ∧
    let u := Requested t 6 4 0 s
    let v : State := { u with comp := { u.comp with voteLost := false } }
    let x := v.changed (changeOf c) epoch.toNat
    epoch.toNat ≤ u.comp.epoch :=
  ⟨tx, 1, { op := 3, device := 2 }, stX, by decide⟩

/-- What clause 8 of `CompositionTransactionsComplete` asks can be met. -/
theorem witness_composition_transactions_complete_8 :
    ∃ (t : TxHdr) (m : MapOps) (s : State),
    Admits t 6 5 0 true true s ∧
    let u := Requested t 6 5 0 s
    m.compId = u.comp.id ∧
    u.compSect ≠ none ∧
    u.comp.epoch < m.epoch.toNat :=
  ⟨tx, { compId := 9, epoch := 3 }, stX, by decide⟩

/-- What clause 9 of `CompositionTransactionsComplete` asks can be met. -/
theorem witness_composition_transactions_complete_9 :
    ∃ (t : TxHdr) (m : MapOps) (s : State),
    Admits t 6 5 0 true true s ∧
    let u := Requested t 6 5 0 s
    m.epoch.toNat ≤ u.comp.epoch :=
  ⟨tx, { compId := 9, epoch := 1 }, stX, by decide⟩

/-- What clause 10 of `CompositionTransactionsComplete` asks can be met. -/
theorem witness_composition_transactions_complete_10 :
    ∃ (t : TxHdr) (s : State),
    Admits t 6 6 0 true true s ∧
    let u := Requested t 6 6 0 s
    u.comp.vote = none :=
  ⟨tx, stX, by decide⟩

/-- What clause 11 of `CompositionTransactionsComplete` asks can be met. -/
theorem witness_composition_transactions_complete_11 :
    ∃ (t : TxHdr) (s : State),
    Admits t 6 6 0 true true s ∧
    let u := Requested t 6 6 0 s
    ∃ v,
    u.comp.vote = some v :=
  ⟨tx, { stX with comp := { comp0 with vote := some (2, { op := 3 }) } }, by exact ⟨by decide, (2, { op := 3 }), by decide⟩⟩

/-- What clause 12 of `CompositionTransactionsComplete` asks can be met. -/
theorem witness_composition_transactions_complete_12 :
    ∃ (t : TxHdr) (m : MapOps) (vote : Option (U32 × ChangeOps)) (s : State),
    Admits t 6 7 0 true true s ∧
    let u := (Requested t 6 7 0 s).takeMap m
    let src := t.src.toNat
    u.comp.leads = false :=
  ⟨tx, ({ } : MapOps), none, stX, by decide⟩

/-- What clause 13 of `CompositionTransactionsComplete` asks can be met. -/
theorem witness_composition_transactions_complete_13 :
    ∃ (t : TxHdr) (m : MapOps) (vote : Option (U32 × ChangeOps)) (s : State),
    Admits t 6 7 0 true true s ∧
    let u := (Requested t 6 7 0 s).takeMap m
    let src := t.src.toNat
    vote = none ∧
    u.comp.leads = true ∧
    src ∈ u.comp.quorum ∧
    src ∉ u.comp.heard :=
  ⟨tx, ({ } : MapOps), none, { stX with comp := { comp0 with leads := true } }, by decide⟩

/-- What clause 14 of `CompositionTransactionsComplete` asks can be met, but for what an uninterpreted constant of Config decides. -/
theorem witness_composition_transactions_complete_14 :
    ∃ (t : TxHdr) (blob ss k : Bytes) (s : State),
    Admits t 6 8 blob.length true true s ∧
    let u := Requested t 6 8 blob.length s
    t.src.toNat ∈ u.comp.quorum ∧
    u.module ≠ 2 :=
  ⟨tx, [], [], [], stX, by decide⟩

/-- What clause 15 of `CompositionTransactionsComplete` asks can be met. -/
theorem witness_composition_transactions_complete_15 :
    ∃ (t : TxHdr) (ports : List (BitVec 6 × U16 × BitVec 6)) (apps : List U16) (s : State),
    Admits t 7 0x30 (8 * ports.length) true true s ∧
    let u := Requested t 7 0x30 (8 * ports.length) s
    let src := t.src.toNat
    let r : LinkRec := ⟨u.pkg.pkc, ports.map fun p => (p.1.toNat, p.2.1.toNat, p.2.2.toNat), apps.map BitVec.toNat⟩
    (u.member src ≠ none ∨ src ∈ u.comp.quorum) :=
  ⟨tx, [], [], stX, by decide⟩

/-- What clause 1 of `LinkTimerRowsComplete` asks can be met. -/
theorem witness_link_timer_rows_complete_1 :
    ∃ (index : BitVec 24) (s : State) (h : Handoff),
    s.handoffs.find? (·.index == index.toNat) = some h ∧
    s.handoffLimit < s.pkc - h.since.toNat :=
  ⟨0, { stX with pkg := { pkc := 0xFFFFFFFFFFFFFFFF }, handoffs := [hand0 false] }, hand0 false, by decide⟩

/-- What clause 2 of `LinkTimerRowsComplete` asks can be met. -/
theorem witness_link_timer_rows_complete_2 :
    ∃ (sid : U64) (s : State) (c : ArbCase),
    s.comp.arbCases.find? (·.sid == sid) = some c ∧
    s.handoffLimit ≤ s.pkc - c.asked.toNat :=
  ⟨7, { stX with pkg := { pkc := 0xFFFFFFFFFFFFFFFF }, comp := { comp0 with arbCases := [⟨7, 1, 2, none, none, 0, none, 2⟩] } }, ⟨7, 1, 2, none, none, 0, none, 2⟩, by decide⟩

/-- What clause 3 of `LinkTimerRowsComplete` asks can be met. -/
theorem witness_link_timer_rows_complete_3 :
    ∃ (index : BitVec 24) (layer : U8) (part : U16) (s : State) (w : RingWait),
    let i := index.toNat
    let t := s.rowCause (s.d i).slice i 0x0224
    s.ringWait i layer.toNat part.toNat = some w ∧
    s.reg64 .ringWaitLimitLo .ringWaitLimitHi 0 < s.pkc - w.sent.toNat :=
  ⟨0, 0, 0, { stXs { ringSize := 2 } with pkg := { pkc := 0xFFFFFFFFFFFFFFFF }, srv := { waits := [⟨0, 0, 0, 0, 0, [], [], [], 0⟩] } }, ⟨0, 0, 0, 0, 0, [], [], [], 0⟩, by decide⟩

/-- What clause 4 of `LinkTimerRowsComplete` asks can be met. -/
theorem witness_link_timer_rows_complete_4 :
    ∃ (dev : U16) (tag : U32) (s : State) (x : Txn),
    s.txn dev.toNat tag.toNat = some x ∧
    x.held = false ∧
    x.dropped = none ∧
    x.tries < 3 ∧
    s.txnLimit / 4 ≤ s.pkc - x.last.toNat :=
  ⟨2, 1, { stX with pkg := { pkc := 0xFFFFFFFFFFFFFFFF }, comp := { comp0 with outst := [out0] } }, out0, by decide⟩

/-- What clause 5 of `LinkTimerRowsComplete` asks can be met. -/
theorem witness_link_timer_rows_complete_5 :
    ∃ (dev : U16) (tag : U32) (s : State) (x : Txn),
    s.txn dev.toNat tag.toNat = some x ∧
    x.held = false ∧
    (¬ (x.port = 48 ∧ s.route x.slice x.dev x.type x.op = none)) ∧
    s.txnLimit ≤ s.pkc - x.first.toNat :=
  ⟨2, 1, { stX with pkg := { pkc := 0xFFFFFFFFFFFFFFFF }, comp := { comp0 with outst := [{ out0 with port := 0 }] } }, { out0 with port := 0 }, by decide⟩

/-- What clause 6 of `LinkTimerRowsComplete` asks can be met. -/
theorem witness_link_timer_rows_complete_6 :
    ∃ (dev : U16) (tag : U32) (s : State) (x : Txn),
    s.txn dev.toNat tag.toNat = some x ∧
    x.held = false ∧
    ∃ d,
    x.dropped = some d ∧
    s.reg .qosHoldoff 0 0 ≤ s.pkc - d.toNat :=
  ⟨2, 1, { stX with pkg := { pkc := 0xFFFFFFFFFFFFFFFF }, comp := { comp0 with outst := [{ out0 with dropped := some 0 }] } }, { out0 with dropped := some 0 }, by exact ⟨by decide, by decide, 0, by decide, by decide⟩⟩

/-- What clause 7 of `LinkTimerRowsComplete` asks can be met. -/
theorem witness_link_timer_rows_complete_7 :
    ∃ (src : U16) (tag : U32) (s : State) (h : HeldTx),
    (s.net.held.find? (fun h => h.hdr.src == src && h.hdr.tag == tag) = some h) ∧
    (h.hdr.epoch.toNat ≤ s.comp.epoch ∨ s.txnLimit / 4 ≤ s.pkc - h.since.toNat) :=
  ⟨2, 1, { stX with net := { held := [⟨0, tx, .pkcLoRead 0⟩] } }, ⟨0, tx, .pkcLoRead 0⟩, by decide⟩

/-- What clause 8 of `LinkTimerRowsComplete` asks can be met. -/
theorem witness_link_timer_rows_complete_8 :
    ∃ (s : State) (since : U64) (p : Proposal) (l : List Proposal),
    s.comp.prepared = some since ∧
    s.comp.queue = p :: l ∧
    s.txnLimit ≤ s.pkc - since.toNat :=
  ⟨{ stX with pkg := { pkc := 0xFFFFFFFFFFFFFFFF }, comp := { comp0 with prepared := some 0, queue := [{ change := { op := 1 } }] } }, 0, { change := { op := 1 } }, [], by decide⟩

/-- What clause 9 of `LinkTimerRowsComplete` asks can be met. -/
theorem witness_link_timer_rows_complete_9 :
    ∃ (s : State) (n : Nat),
    s.ownNo = some n ∧
    (∀ r, tabGet s.comp.links n = some r → 2 ^ 20 ≤ s.pkc - r.seen.toNat) ∧
    s.sendLinks.comp.epoch ≠ 0 :=
  ⟨{ stX with pkg := { pkc := 0xFFFFFFFFFFFFFFFF } }, 1, by decide⟩

/-- What clause 10 of `LinkTimerRowsComplete` asks can be met. -/
theorem witness_link_timer_rows_complete_10 :
    ∃ (dev : U16) (s : State),
    let d := dev.toNat
    let t := s.dropStale d
    s.ownNo ≠ some d ∧
    t.inQuorum = true ∧
    t.member d ≠ none ∧
    t.cutLong d = true :=
  ⟨2, { stX with pkg := { pkc := 0xFFFFFFFFFFFFFFFF }, net := {}, comp := { comp0 with links := [(1, ⟨0, [], []⟩)], cutSince := [(2, 0)] } }, by decide⟩

/-- What clause 11 of `LinkTimerRowsComplete` asks can be met. -/
theorem witness_link_timer_rows_complete_11 :
    ∃ (dev : U16) (s : State),
    let d := dev.toNat
    let t := s.dropStale d
    s.ownNo ≠ some d ∧
    (t.inQuorum = false ∨ t.member d = none ∨ t.cutLong d = false) :=
  ⟨2, stX, by exact ⟨by decide, .inr (.inr (by decide))⟩⟩

/-- What clause 12 of `LinkTimerRowsComplete` asks can be met. -/
theorem witness_link_timer_rows_complete_12 :
    ∃ (dev : U16) (s : State),
    let d := dev.toNat
    let t := s.dropStale d
    s.ownNo ≠ some d ∧
    ∃ r,
    tabGet s.comp.links d = some r ∧
    s.liveLimit ≤ s.pkc - r.seen.toNat :=
  ⟨2, { stX with pkg := { pkc := 0xFFFFFFFFFFFFFFFF } }, by exact ⟨by decide, ⟨0, [(0, 1, 0)], []⟩, by decide, by decide⟩⟩

/-- What clause 13 of `LinkTimerRowsComplete` asks can be met. -/
theorem witness_link_timer_rows_complete_13 :
    ∃ (dev : U16) (s : State),
    let d := dev.toNat
    let t := s.dropStale d
    s.ownNo ≠ some d ∧
    (∀ r, tabGet s.comp.links d = some r → s.pkc - r.seen.toNat < s.liveLimit) :=
  ⟨3, stX, by exact ⟨by decide, fun r e => absurd e (by rw [show tabGet stX.comp.links (BitVec.toNat (3 : U16)) = none from by decide]; simp)⟩⟩

/-- What clause 1 of `TimerPowerAndTestRowsComplete` asks can be met. -/
theorem witness_timer_power_and_test_rows_complete_1 :
    ∃ s : State,
    s.pkg.latePeriod < s.period :=
  ⟨{ st with pkg := { pkc := 2 ^ 20 } }, by decide⟩

/-- What clause 2 of `TimerPowerAndTestRowsComplete` asks can be met. -/
theorem witness_timer_power_and_test_rows_complete_2 :
    ∃ (slice : BitVec 6) (s : State) (c : Consent),
    tabGet s.sec.consents slice.toNat = some c ∧
    c.expiry ≠ 0 ∧
    c.expiry.toNat ≤ s.pkc :=
  ⟨0, { st with pkg := { pkc := 9 }, sec := { consents := [(0, ⟨0, 1, 0⟩)] } }, ⟨0, 1, 0⟩, by decide⟩

/-- What clause 3 of `TimerPowerAndTestRowsComplete` asks can be met. -/
theorem witness_timer_power_and_test_rows_complete_3 :
    ∃ s : State,
    s.sec.reportDue ≠ none :=
  ⟨{ st with sec := { reportDue := some 0 } }, by decide⟩

/-- What clause 4 of `TimerPowerAndTestRowsComplete` asks can be met. -/
theorem witness_timer_power_and_test_rows_complete_4 :
    ∃ s : State,
    s.pkc % 2 ^ 20 = 0 :=
  ⟨st, by decide⟩

/-- What clause 5 of `TimerPowerAndTestRowsComplete` asks can be met. -/
theorem witness_timer_power_and_test_rows_complete_5 :
    ∃ (die : BitVec 5) (c : U8) (s : State),
    let d := die.toNat
    let t := s.setDie d { s.die d with temp := c.toNat }
    let v := t.setFld .thermStatus 0 0 16 8 (max (t.fld .thermStatus 0 0 16 8) c.toNat)
    d ≤ 19 ∧
    s.pkg.vaux12 = true ∧
    c.toNat < 115 :=
  ⟨3, 0x50, st, by decide⟩

/-- What clause 6 of `TimerPowerAndTestRowsComplete` asks can be met. -/
theorem witness_timer_power_and_test_rows_complete_6 :
    ∃ s : State,
    let n := s.pkg.thermDuty
    let t : State := { s with pkg := { s.pkg with thermPeriod := s.period } }
    s.pkg.thermPeriod < s.period ∧
    s.throttleAt ≤ s.hottest :=
  ⟨{ (st.setFld .thermCtrl 0 0 8 8 0) with pkg := { pkc := 2 ^ 20 } }, by decide⟩

/-- What clause 7 of `TimerPowerAndTestRowsComplete` asks can be met. -/
theorem witness_timer_power_and_test_rows_complete_7 :
    ∃ s : State,
    let n := s.pkg.thermDuty
    let t : State := { s with pkg := { s.pkg with thermPeriod := s.period } }
    s.pkg.thermPeriod < s.period ∧
    s.hottest + 3 < s.throttleAt :=
  ⟨{ (st.setFld .thermCtrl 0 0 8 8 90) with pkg := { pkc := 2 ^ 20 } }, by decide⟩

/-- What clause 8 of `TimerPowerAndTestRowsComplete` asks can be met. -/
theorem witness_timer_power_and_test_rows_complete_8 :
    ∃ (w : BitVec 12) (s : State),
    let cap := s.fld .pwrCap 0 0 0 12
    s.pkg.capPeriod < s.period ∧
    s.fld .pwrCap 0 0 31 1 = 1 ∧
    cap < w.toNat ∧
    s.pkg.beWithheld = false :=
  ⟨1, { (st.setReg .pwrCap 0 0 0x80000000) with pkg := { pkc := 2 ^ 20 } }, by decide⟩

/-- What clause 9 of `TimerPowerAndTestRowsComplete` asks can be met. -/
theorem witness_timer_power_and_test_rows_complete_9 :
    ∃ (w : BitVec 12) (s : State),
    let cap := s.fld .pwrCap 0 0 0 12
    s.pkg.capPeriod < s.period ∧
    s.fld .pwrCap 0 0 31 1 = 1 ∧
    cap < w.toNat ∧
    s.pkg.beWithheld = true ∧
    s.pkg.capDuty ≠ 4 :=
  ⟨1, { (st.setReg .pwrCap 0 0 0x80000000) with pkg := { beWithheld := true, pkc := 2 ^ 20 } }, by decide⟩

/-- What clause 10 of `TimerPowerAndTestRowsComplete` asks can be met. -/
theorem witness_timer_power_and_test_rows_complete_10 :
    ∃ (w : BitVec 12) (s : State),
    let cap := s.fld .pwrCap 0 0 0 12
    s.pkg.capPeriod < s.period ∧
    s.fld .pwrCap 0 0 31 1 = 1 ∧
    w.toNat ≤ cap :=
  ⟨0, { (st.setFld .pwrCap 0 0 31 1 1) with pkg := { pkc := 2 ^ 20 } }, by decide⟩

/-- What clause 11 of `TimerPowerAndTestRowsComplete` asks can be met. -/
theorem witness_timer_power_and_test_rows_complete_11 :
    ∃ s : State,
    s.pkg.ready = true ∧
    s.quiet = true ∧
    s.power = 0 ∧
    s.fld .pwrState 0 0 0 2 = 0 :=
  ⟨st, by decide⟩

/-- What clause 12 of `TimerPowerAndTestRowsComplete` asks can be met. -/
theorem witness_timer_power_and_test_rows_complete_12 :
    ∃ s : State,
    s.power = 1 ∧
    s.fld .pwrState 0 0 4 1 = 1 ∧
    2 ^ s.fld .pwrState 0 0 8 5 ≤ s.pkc - s.pkg.idleSince.toNat :=
  ⟨{ ((st.setFld .pwrState 0 0 0 2 1).setFld .pwrState 0 0 4 1 1) with pkg := { pkc := 0xFFFFFFFFFFFFFFFF } }, by decide⟩

/-- What clause 13 of `TimerPowerAndTestRowsComplete` asks can be met. -/
theorem witness_timer_power_and_test_rows_complete_13 :
    ∃ s : State,
    s.power = 2 :=
  ⟨st.setFld .pwrState 0 0 0 2 2, by decide⟩

/-- What clause 14 of `TimerPowerAndTestRowsComplete` asks can be met. -/
theorem witness_timer_power_and_test_rows_complete_14 :
    ∃ s : State,
    s.pkg.hib = .entering ∧
    s.readyToSleep = true :=
  ⟨{ st with pkg := { hib := .entering } }, by decide⟩

/-- What clause 15 of `TimerPowerAndTestRowsComplete` asks can be met. -/
theorem witness_timer_power_and_test_rows_complete_15 :
    ∃ s : State,
    s.pkg.hib = .waking ∧
    s.unmeasured = false :=
  ⟨{ stM with pkg := { stM.pkg with hib := .waking } }, by decide⟩

/-- What clause 16 of `TimerPowerAndTestRowsComplete` asks can be met. -/
theorem witness_timer_power_and_test_rows_complete_16 :
    ∃ s : State,
    let t : State := { s with pkg := { s.pkg with thermtrip := false } }
    s.pkg.thermtrip = true ∧
    2 ^ 30 ≤ s.pkc - s.pkg.shutdownPkc.toNat ∧
    (s.die 19).temp ≤ 95 :=
  ⟨{ st with pkg := { thermtrip := true, pkc := 0xFFFFFFFFFFFFFFFF } }, by decide⟩

/-- What clause 17 of `TimerPowerAndTestRowsComplete` asks can be met. -/
theorem witness_timer_power_and_test_rows_complete_17 :
    ∃ (unit : JtagUnit) (s : State),
    ∃ d,
    unit = .die d ∧
    s.jtagReach unit = true :=
  ⟨.die 1, st, by exact ⟨1, rfl, by decide⟩⟩

/-- What clause 1 of `MemAllocAndMemFreeComplete` asks can be met. -/
theorem witness_mem_alloc_and_mem_free_complete_1 :
    ∃ (h : Hdr) (slice : BitVec 6) (type : BitVec 3) (tier : BitVec 2) (protect : U1) (die fetchLog2 : BitVec 4) (stripe : BitVec 5) (size : U32) (va : U64) (s : State) (a : Nat),
    let u := Fetched h s
    let sl := cmdSlice h.fn.toNat slice.toNat
    let n := size.toNat * 4096
    let prot := u.protFor sl (protect == 1)
    s.gessoWaits sl = false ∧
    Accepts { widths := [6, 3, 2, 1, 4, 4, 5, 32, 64] } h s ∧
    u.defined sl = true ∧
    type.toNat < 2 ∧
    tier ≠ 3 ∧
    size ≠ 0 ∧
    fetchLog2.toNat ≤ 9 ∧
    stripe.toNat ≤ 16 ∧
    (die = 15 ∨ die.toNat < (u.dieList sl).length) ∧
    (tier = 0 ∨ u.objectMode sl = false) ∧
    u.tierFor sl type.toNat tier.toNat = 1 ∧
    (va = 0 → u.lowestRange sl 1 n 4096 = some a) ∧
    (va ≠ 0 → a = va.toNat ∧ va.toNat % 4096 = 0 ∧ inTier 1 a n = true) ∧
    (u.objRanges sl).any (overlaps a n) = false ∧
    u.allocT1 sl type.toNat a size.toNat (if die = 15 then none else some die.toNat) prot ≠ none :=
  ⟨h1, 0, 0, 1, 0, 15, 0, 0, 1, 0x1000, st1, 0x1000, by decide⟩

/-- What clause 2 of `MemAllocAndMemFreeComplete` asks can be met. -/
theorem witness_mem_alloc_and_mem_free_complete_2 :
    ∃ (h : Hdr) (slice : BitVec 6) (va : U64) (s : State) (o : Obj),
    let u := Fetched h s
    Accepts { widths := [6, 64] } h s ∧
    u.defined (cmdSlice h.fn.toNat slice.toNat) = true ∧
    u.objStart (cmdSlice h.fn.toNat slice.toNat) va.toNat = some o ∧
    u.objInUse o = false ∧
    o.type < 2 ∧
    o.members = [] :=
  ⟨h1, 0, 0, { st1 with mem := { objects := [obj0] } }, obj0, by decide⟩

/-- What clause 1 of `ApertureAndPoolRangeCommandsComplete` asks can be met. -/
theorem witness_aperture_and_pool_range_commands_complete_1 :
    ∃ (h : Hdr) (slice : BitVec 6) (va : U64) (member : U16) (size : U32) (s : State) (m : Member),
    let u := Fetched h s
    let sl := cmdSlice h.fn.toNat slice.toNat
    let a := va.toNat
    let n := size.toNat
    let x : Aperture := ⟨sl, a, n, member.toNat, none, some (TagOf h s)⟩
    Accepts { widths := [6, 64, 16, 32] } h s ∧
    u.defined sl = true ∧
    apertureRange a n = true ∧
    (u.objRanges sl).any (overlaps a (65536 * n)) = false ∧
    (∀ x ∈ u.apertures, x.slice = sl → overlaps a (65536 * n) (x.va, 65536 * x.units) = false) ∧
    u.member member.toNat = some m ∧
    m.pool ≠ 0 ∧
    n ≤ m.pool ∧
    (¬ (u.confidential sl = true ∧ m.kind = 2)) :=
  ⟨h1, 0, 0x7000000000000, 2, 1, stC, ⟨1, 1, 1, 256, 0, 0⟩, by decide⟩

/-- What clause 2 of `ApertureAndPoolRangeCommandsComplete` asks can be met. -/
theorem witness_aperture_and_pool_range_commands_complete_2 :
    ∃ (h : Hdr) (slice : BitVec 6) (va : U64) (s : State) (x : Aperture),
    let u := Fetched h s
    let sl := cmdSlice h.fn.toNat slice.toNat
    Accepts { widths := [6, 64] } h s ∧
    u.defined sl = true ∧
    (u.apertures.find? (fun x => x.slice == sl && x.va == va.toNat && x.base.isSome) = some x) :=
  ⟨h1, 0, 0x7000000000000, { stC with apertures := [⟨0, 0x7000000000000, 1, 2, some 0, none⟩] }, ⟨0, 0x7000000000000, 1, 2, some 0, none⟩, by decide⟩

/-- What clause 3 of `ApertureAndPoolRangeCommandsComplete` asks can be met. -/
theorem witness_aperture_and_pool_range_commands_complete_3 :
    ∃ (h : Hdr) (locator : U64) (s : State) (r : PoolRange),
    let u := Fetched h s
    Accepts { fns := .pf0, priv := 0x070D, widths := [64], noImage := true } h s ∧
    (u.pool.find? (fun r => r.kept && 65536 * r.base == locator.toNat % 2 ^ 48) = some r) ∧
    u.devNo = some (locator.toNat / 2 ^ 48) :=
  ⟨h0, 0x1000000020000, { stC with pool := [⟨2, 4, 0xFFFF, 0, 0, true⟩] }, ⟨2, 4, 0xFFFF, 0, 0, true⟩, by decide⟩

/-- What clause 1 of `HeldRequestIsDecidedAgain` asks can be met. -/
theorem witness_held_request_is_decided_again_1 :
    ∃ (src : U16) (tag : U32) (s : State) (h : HeldTx),
    s.net.redo = false ∧
    (s.net.held.find? (fun h => h.hdr.src == src && h.hdr.tag == tag) = some h) ∧
    (h.hdr.epoch.toNat ≤ s.comp.epoch ∨ s.txnLimit / 4 ≤ s.pkc - h.since.toNat) ∧
    let w : State := { s with net := { s.net with held := s.net.held.filter (· != h) } }
    ∃ t : TxHdr,
    w.member t.src.toNat ≠ none ∧
    64 ≤ t.slice.toNat ∧
    h.cmd = .poolInfo t :=
  ⟨2, 1, { stX with net := { stX.net with held := [⟨0, tx, .poolInfo tx⟩] } }, ⟨0, tx, .poolInfo tx⟩, by exact ⟨by decide, by decide, by decide, tx, by decide, by decide, by decide⟩⟩

/-- What clause 2 of `HeldRequestIsDecidedAgain` asks can be met. -/
theorem witness_held_request_is_decided_again_2 :
    ∃ (src : U16) (tag : U32) (s : State) (h : HeldTx),
    s.net.redo = false ∧
    (s.net.held.find? (fun h => h.hdr.src == src && h.hdr.tag == tag) = some h) ∧
    (h.hdr.epoch.toNat ≤ s.comp.epoch ∨ s.txnLimit / 4 ≤ s.pkc - h.since.toNat) ∧
    let w : State := { s with net := { s.net with held := s.net.held.filter (· != h) } }
    ∃ t : TxHdr,
    w.member t.src.toNat ≠ none ∧
    64 ≤ t.slice.toNat ∧
    ∃ r,
    h.cmd = .readTxn t ∧
    w.poolAt t.addr.toNat = some r :=
  ⟨2, 1, { stX with net := { stX.net with held := [⟨0, tx, .readTxn { tx with addr := 0x20000 }⟩] } }, ⟨0, tx, .readTxn { tx with addr := 0x20000 }⟩, by exact ⟨by decide, by decide, by decide, { tx with addr := 0x20000 }, by decide, by decide, ⟨2, 4, 2, 0, 0, false⟩, by decide, by decide⟩⟩

/-- What clause 3 of `HeldRequestIsDecidedAgain` asks can be met. -/
theorem witness_held_request_is_decided_again_3 :
    ∃ (src : U16) (tag : U32) (s : State) (h : HeldTx),
    s.net.redo = false ∧
    (s.net.held.find? (fun h => h.hdr.src == src && h.hdr.tag == tag) = some h) ∧
    (h.hdr.epoch.toNat ≤ s.comp.epoch ∨ s.txnLimit / 4 ≤ s.pkc - h.since.toNat) ∧
    let w : State := { s with net := { s.net with held := s.net.held.filter (· != h) } }
    ∃ t : TxHdr,
    w.member t.src.toNat ≠ none ∧
    64 ≤ t.slice.toNat ∧
    ∃ base,
    h.cmd = .poolFree t base ∧
    w.poolAt base.toNat = none :=
  ⟨2, 1, { stX with net := { stX.net with held := [⟨0, tx, .poolFree tx 0⟩] } }, ⟨0, tx, .poolFree tx 0⟩, by exact ⟨by decide, by decide, by decide, tx, by decide, by decide, 0, by decide, by decide⟩⟩

/-- What clause 1 of `EmptyQueueAdvancesPackageCount` asks can be met. -/
theorem witness_empty_queue_advances_package_count_1 :
    ∃ s : State,
    s.pending = [] ∧
    s.pkg.vaux12 = false :=
  ⟨{ st with pkg := { vaux12 := false } }, by decide⟩

/-- What clause 2 of `EmptyQueueAdvancesPackageCount` asks can be met. -/
theorem witness_empty_queue_advances_package_count_2 :
    ∃ s : State,
    s.pending = [] ∧
    s.pkg.vaux12 = true ∧
    (s.die 19).powered = true ∧
    (s.die 19).locked = true :=
  ⟨st, by decide⟩

/-- What clause 3 of `EmptyQueueAdvancesPackageCount` asks can be met. -/
theorem witness_empty_queue_advances_package_count_3 :
    ∃ s : State,
    s.pending = [] ∧
    s.pkg.vaux12 = true ∧
    ((s.die 19).powered = false ∨ (s.die 19).locked = false) :=
  ⟨{ st with pkg := { ready := true } }, by decide⟩

/-- What clause 1 of `CommandsLeaveQueueAlone` asks can be met. -/
theorem witness_commands_leave_queue_alone_1 :
    ∃ (c : Instr) (s t : State),
    exec c s = .next t :=
  ⟨.pkcLoRead 0, { st with pending := [.pkcLoRead 1] }, _, by exact rfl⟩

/-- What clause 1 of `CountReturnsToZeroOnlyAtColdReset` asks can be met. -/
theorem witness_count_returns_to_zero_only_at_cold_reset_1 :
    ∃ (c : Instr) (s t : State),
    exec c s = .next t :=
  ⟨.pkcLoRead 0, st, _, by exact rfl⟩

/-- What clause 1 of `FusesOnlyBurn` asks can be met. -/
theorem witness_fuses_only_burn_1 :
    ∃ s t : State,
    step s = .next t :=
  ⟨{ st with pending := [.pkcLoRead 1] }, _, by exact rfl⟩

/-- What clause 1 of `CurrentGenerationStaysLive` asks can be met. -/
theorem witness_current_generation_stays_live_1 :
    ∃ s t : State,
    GenerationLive s ∧
    step s = .next t :=
  ⟨{ st with pending := [.pkcLoRead 1] }, _, by exact ⟨Or.inl (by decide), rfl⟩⟩

/-- What clause 1 of `FailedGeneralCheckHasNoEffect` asks can be met. -/
theorem witness_failed_general_check_has_no_effect_1 :
    ∃ (i : Instr) (c : CmdSpec) (h : Hdr) (s : State) (code info : Nat),
    hostSpec i = some (c, h) ∧
    Fails c h s code info ∧
    s.module ≠ 0 ∧
    (∀ sl, s.gessoWaits sl = false) ∧
    (∀ f ∈ s.ck.flight, f.resumed = false) ∧
    (∀ sl a n d, s.accessWait sl a n d = none) :=
  ⟨.nop { h1 with rsvd := some 3 }, { fns := .any, hibernate := true, noImage := true, recovery := true }, { h1 with rsvd := some 3 }, stN, eReservedSet, 3, by exact ⟨rfl, by decide, by decide, fun _ => rfl, by decide, accessWait_stN⟩⟩

/-- What clause 1 of `IndirectLengthChecksComeFirst` asks can be met. -/
theorem witness_indirect_length_checks_come_first_1 :
    ∃ (c : CmdSpec) (h : Hdr) (s : State),
    let need := packLen c.widths
    let n := h.indLen.toNat
    let good : Prop := (h.indirect = true ↔ 56 < need) ∧ (h.indirect = true → n % 8 = 0 ∧ need ≤ n ∧ n < need + 8 ∧ n ≤ 4096)
    ¬ good :=
  ⟨csI [], { h0 with indirect := true }, st, by exact fun h => absurd (h.1.1 rfl) (by decide)⟩

/-- What clause 2 of `IndirectLengthChecksComeFirst` asks can be met. -/
theorem witness_indirect_length_checks_come_first_2 :
    ∃ (c : CmdSpec) (h : Hdr) (s : State),
    let need := packLen c.widths
    let n := h.indLen.toNat
    let good : Prop := (h.indirect = true ↔ 56 < need) ∧ (h.indirect = true → n % 8 = 0 ∧ need ≤ n ∧ n < need + 8 ∧ n ≤ 4096)
    good ∧
    h.indirect = true ∧
    h.indOk = false :=
  ⟨csI [512], { h0 with indirect := true, indLen := 64, indOk := false }, st, by decide⟩

/-- What clause 3 of `IndirectLengthChecksComeFirst` asks can be met. -/
theorem witness_indirect_length_checks_come_first_3 :
    ∃ (c : CmdSpec) (h : Hdr) (s : State),
    let need := packLen c.widths
    let n := h.indLen.toNat
    let good : Prop := (h.indirect = true ↔ 56 < need) ∧ (h.indirect = true → n % 8 = 0 ∧ need ≤ n ∧ n < need + 8 ∧ n ≤ 4096)
    good ∧
    (h.indirect = true → h.indOk = true) ∧
    ∃ o,
    h.rsvd = some o :=
  ⟨csI [], { h0 with rsvd := some 3 }, st, by exact ⟨by decide, by decide, 3, by decide⟩⟩

/-- What clause 1 of `FunctionAndPowerChecks` asks can be met. -/
theorem witness_function_and_power_checks_1 :
    ∃ (c : CmdSpec) (h : Hdr) (s : State),
    let need := packLen c.widths
    let n := h.indLen.toNat
    let fn := h.fn.toNat
    (h.indirect = true ↔ 56 < need) ∧
    (h.indirect = true → n % 8 = 0 ∧ need ≤ n ∧ n < need + 8 ∧ n ≤ 4096 ∧ h.indOk = true) ∧
    h.rsvd = none ∧
    c.fns.has fn = false :=
  ⟨csI [], { h0 with fn := 0 }, st, by decide⟩

/-- What clause 2 of `FunctionAndPowerChecks` asks can be met. -/
theorem witness_function_and_power_checks_2 :
    ∃ (c : CmdSpec) (h : Hdr) (s : State),
    let need := packLen c.widths
    let n := h.indLen.toNat
    let fn := h.fn.toNat
    (h.indirect = true ↔ 56 < need) ∧
    (h.indirect = true → n % 8 = 0 ∧ need ≤ n ∧ n < need + 8 ∧ n ≤ 4096 ∧ h.indOk = true) ∧
    h.rsvd = none ∧
    c.fns.has fn = true ∧
    c.admin = true ∧
    h.sq.toNat ≠ fn :=
  ⟨{ csI [] with admin := true }, { h1 with sq := 3 }, st, by decide⟩

/-- What clause 3 of `FunctionAndPowerChecks` asks can be met. -/
theorem witness_function_and_power_checks_3 :
    ∃ (c : CmdSpec) (h : Hdr) (s : State),
    let need := packLen c.widths
    let n := h.indLen.toNat
    let fn := h.fn.toNat
    (h.indirect = true ↔ 56 < need) ∧
    (h.indirect = true → n % 8 = 0 ∧ need ≤ n ∧ n < need + 8 ∧ n ≤ 4096 ∧ h.indOk = true) ∧
    h.rsvd = none ∧
    c.fns.has fn = true ∧
    (c.admin = true → h.sq.toNat = fn) ∧
    c.wedge = true :=
  ⟨{ csI [] with wedge := true }, h1, st, by decide⟩

/-- What clause 4 of `FunctionAndPowerChecks` asks can be met. -/
theorem witness_function_and_power_checks_4 :
    ∃ (c : CmdSpec) (h : Hdr) (s : State),
    let need := packLen c.widths
    let n := h.indLen.toNat
    let fn := h.fn.toNat
    (h.indirect = true ↔ 56 < need) ∧
    (h.indirect = true → n % 8 = 0 ∧ need ≤ n ∧ n < need + 8 ∧ n ≤ 4096 ∧ h.indOk = true) ∧
    h.rsvd = none ∧
    c.fns.has fn = true ∧
    (c.admin = true → h.sq.toNat = fn) ∧
    c.wedge = false ∧
    s.pkg.shutdown = true :=
  ⟨csI [], h1, { st with pkg := { shutdown := true } }, by decide⟩

/-- What clause 5 of `FunctionAndPowerChecks` asks can be met. -/
theorem witness_function_and_power_checks_5 :
    ∃ (c : CmdSpec) (h : Hdr) (s : State),
    let need := packLen c.widths
    let n := h.indLen.toNat
    let fn := h.fn.toNat
    (h.indirect = true ↔ 56 < need) ∧
    (h.indirect = true → n % 8 = 0 ∧ need ≤ n ∧ n < need + 8 ∧ n ≤ 4096 ∧ h.indOk = true) ∧
    h.rsvd = none ∧
    c.fns.has fn = true ∧
    (c.admin = true → h.sq.toNat = fn) ∧
    c.wedge = false ∧
    s.pkg.shutdown = false ∧
    s.hibernating = true ∧
    c.hibernate = false :=
  ⟨csI [], h1, st.setFld .pwrState 0 0 0 2 3, by decide⟩

/-- What clause 6 of `FunctionAndPowerChecks` asks can be met. -/
theorem witness_function_and_power_checks_6 :
    ∃ (c : CmdSpec) (h : Hdr) (s : State),
    let need := packLen c.widths
    let n := h.indLen.toNat
    let fn := h.fn.toNat
    (h.indirect = true ↔ 56 < need) ∧
    (h.indirect = true → n % 8 = 0 ∧ need ≤ n ∧ n < need + 8 ∧ n ≤ 4096 ∧ h.indOk = true) ∧
    h.rsvd = none ∧
    c.fns.has fn = true ∧
    (c.admin = true → h.sq.toNat = fn) ∧
    c.wedge = false ∧
    s.pkg.shutdown = false ∧
    (s.hibernating = false ∨ c.hibernate = true) ∧
    s.fld .fwStatus 0 0 7 1 = 0 ∧
    s.img.running = none ∧
    (c.noImage = false ∨ fn ≠ 0) :=
  ⟨csI [], h1, { st with img := {} }, by decide⟩

/-- What clause 1 of `CompletionIsWrittenAtTail` asks can be met. -/
theorem witness_completion_is_written_at_tail_1 :
    ∃ (s : State) (t : Tag) (status info : Nat) (result : Bytes) (c : Cq),
    s.epoch t.fn t.cq = t.epoch ∧
    s.pkg.fatal = false ∧
    tabGet s.host.cqs t.cq = some c ∧
    c.tail < 2 ^ c.log2 ∧
    s.hostOk (c.base.toNat + 32 * c.tail) 32 = true ∧
    let u := s.complete t status info result
    let a := c.base.toNat + 32 * c.tail
    let head := ((tabGet s.host.sqs t.sq).map (·.head)).getD 0
    ∃ b,
    (b < a ∨ a + 32 ≤ b) :=
  ⟨st1, TagOf h1 st1, 0, 0, [], ⟨1, 4, 0x1000, 0, true, 0, true, 0, false, 0⟩, by exact ⟨by decide, by decide, by decide, by decide, by decide, 0x1020, by decide⟩⟩

/-- What clause 1 of `PkcLoReadLatchesHi` asks can be met. -/
theorem witness_pkc_lo_read_latches_hi_1 :
    ∃ (fn : BitVec 6) (s : State),
    let hi := Reg.addr .pkcHi 0 0
    tabGet s.host.latches (2 ^ 26 * fn.toNat + hi) = none :=
  ⟨1, st, by decide⟩

/-- What clause 1 of `LoHiPairCommitsWhole` asks can be met. -/
theorem witness_lo_hi_pair_commits_whole_1 :
    ∃ (n v w : Nat) (s : State),
    n < 8 ∧
    v < 2 ^ 32 ∧
    w < 2 ^ 32 ∧
    s.hibernating = false ∧
    s.seqDown (8 + n) = false ∧
    let lo := Reg.addr .mcPatrolLo n 0
    let hi := Reg.addr .mcPatrolHi n 0
    let t := s.writeReg 0 lo v
    tabGet s.host.pendLo lo = none :=
  ⟨7, 0xFFFFFFFF, 1, stM, by decide⟩

/-- What clause 1 of `ReservedBitsKeepTheirValue` asks can be met. -/
theorem witness_reserved_bits_keep_their_value_1 :
    ∃ (s : State) (r : Reg) (u i v k : Nat),
    k < 32 ∧
    (∀ f ∈ r.row.fields, k < f.lo ∨ f.lo + f.width ≤ k) :=
  ⟨st, .pwrState, 0, 0, 1, 31, by decide⟩

/-- What clause 1 of `CountersStopAtTheTop` asks can be met. -/
theorem witness_counters_stop_at_the_top_1 :
    ∃ (s : State) (r : Reg) (u n : Nat),
    ∃ (q : Reg) (v j : Nat),
    q.addr v j ≠ r.addr u 0 :=
  ⟨st, .dedupHits, 0, 1, .txnLimitLo, 0, 0, by decide⟩

/-- What clause 1 of `ResetRestoresNamedFields` asks can be met. -/
theorem witness_reset_restores_named_fields_1 :
    ∃ (s : State) (hit : Reg → Nat → Field → Bool) (r : Reg) (u i : Nat) (f : Field),
    (s.regs.map (·.1)).Nodup ∧
    regAt (r.addr u i) = some (r, u, i) ∧
    f ∈ r.row.fields :=
  ⟨st, (fun _ _ _ => true), .pwrCap, 0, 0, (Reg.pwrCap.row.fields.head (by decide)), by decide⟩

/-- What clause 1 of `VectorLevelFollowsDraw` asks can be met. -/
theorem witness_vector_level_follows_draw_1 :
    ∃ (x : Index) (id : Nat),
    let v := draw24 x.serial.toNat id
    v = 0 :=
  ⟨{ idx0 with serial := 0 }, 0, by decide⟩

/-- What clause 2 of `VectorLevelFollowsDraw` asks can be met. -/
theorem witness_vector_level_follows_draw_2 :
    ∃ (x : Index) (id : Nat),
    let v := draw24 x.serial.toNat id
    v ≠ 0 :=
  ⟨{ idx0 with serial := 1 }, 0, by decide⟩

/-- What clause 3 of `VectorLevelFollowsDraw` asks can be met. -/
theorem witness_vector_level_follows_draw_3 :
    ∃ (x : Index) (id : Nat),
    let v := draw24 x.serial.toNat id
    2 ≤ x.levels :=
  ⟨{ idx0 with levels := 2 }, 0, by decide⟩

/-- What clause 1 of `TokenOccupiesItsSlot` asks can be met. -/
theorem witness_token_occupies_its_slot_1 :
    ∃ (s : State) (g : Geom) (prot : Bool) (k : SessKv) (base a l t b : Nat) (p : KvPage),
    let u := g.unit a
    let n := 16384 + g.cap
    let at_ := fun slot b => g.areaAt a 0 + l * (u * n) + slot * u + b
    b < u ∧
    t + 16 < n ∧
    p.areaPa a ≠ 0 ∧
    (∀ gr ∈ k.granules, ¬ (gr.area = a ∧ gr.layer = l ∧ gr.m = ((t + 16) * u + b) / 4096)) ∧
    (k.pages.find? (fun q => q.layer == l && q.first + 16 ≤ t + 16 && t + 16 < q.first + 16 + 16 * 2 ^ q.log2) = some p) ∧
    ∃ slot x,
    slot < 16 ∧
    s.xlateKv g prot k base a (at_ slot b) = some x :=
  ⟨stR [] 0 [], ⟨1, 64, 2, 0, 64⟩, false, { pages := [{ page0 with first := 48 }], granules := [⟨0, 0, 0, 0x40000, 0⟩] }, 0, 0, 0, 63, 63, { page0 with first := 48 }, by exact ⟨by decide, by decide, by decide, by decide, by decide, 0, _, by decide, rfl⟩⟩

/-- What clause 1 of `ZeroizeNeedsArm` asks can be met. -/
theorem witness_zeroize_needs_arm_1 :
    ∃ (s : State),
    s.sec.armed = none :=
  ⟨st, by decide⟩

/-- What clause 2 of `ZeroizeNeedsArm` asks can be met. -/
theorem witness_zeroize_needs_arm_2 :
    ∃ (s : State),
    ∃ p : U64,
    s.sec.armed = some p ∧
    2 ^ 20 < s.pkc - p.toNat :=
  ⟨{ st with pkg := { pkc := 0x100001 }, sec := { armed := some 0 } }, by exact ⟨0, by decide⟩⟩

/-- What clause 3 of `ZeroizeNeedsArm` asks can be met. -/
theorem witness_zeroize_needs_arm_3 :
    ∃ (s : State),
    ∃ p : U64,
    s.sec.armed = some p ∧
    s.pkc - p.toNat ≤ 2 ^ 20 ∧
    s.pkg.conversion = true ∧
    s.sec.current < 16 ∧
    s.sec.zcount < 16 :=
  ⟨{ st with pkg := { pkc := 0x100000, conversion := true }, sec := { armed := some 0 } }, by exact ⟨0, by decide⟩⟩

/-- What clause 1 of `DuplicateRequestIsOnlyAnswered` asks can be met. -/
theorem witness_duplicate_request_is_only_answered_1 :
    ∃ (i : Instr) (t : TxHdr) (type op len : Nat) (s : State) (st res : Nat) (units base : U64) (data : Bytes) (c : ChangeOps),
    (i = .poolAlloc t units ∧ type = 7 ∧ op = 0x20 ∧ len = 8 ∨ i = .poolFree t base ∧ type = 7 ∧ op = 0x21 ∧ len = 8 ∨ i = .fadd64 t data ∧ type = 3 ∧ op = 4 ∧ len = data.length ∨ i = .cas64 t data ∧ type = 3 ∧ op = 5 ∧ len = data.length ∨ i = .writeTxn t data ∧ type = 2 ∧ op = 0 ∧ len = data.length ∨ i = .propose t c ∧ type = 6 ∧ op = 1 ∧ len = 0) ∧
    let a := s.arrive t type op len (laneOf (queueOf t type) false) true
    s.net.redo = false ∧
    a.2 = true ∧
    a.1.tagAt t.src.toNat t.tag.toNat = .duplicate st res :=
  ⟨.propose tx {}, tx, 6, 1, 0, { stX with comp := { comp0 with windows := [(2, { highest := 1, done := [(1, 0, 3)] })] } }, 0, 3, 0, 0, [], {}, by exact ⟨by decide, by decide⟩⟩

/-- What clause 1 of `StrangersRequestIsRefused` asks can be met. -/
theorem witness_strangers_request_is_refused_1 :
    ∃ (i : Instr) (t : TxHdr) (type op len : Nat) (s : State) (units base : U64) (data : Bytes) (o : OfferOps),
    (i = .poolAlloc t units ∧ type = 7 ∧ op = 0x20 ∧ len = 8 ∨ i = .poolFree t base ∧ type = 7 ∧ op = 0x21 ∧ len = 8 ∨ i = .fadd64 t data ∧ type = 3 ∧ op = 4 ∧ len = data.length ∨ i = .cas64 t data ∧ type = 3 ∧ op = 5 ∧ len = data.length ∨ i = .writeTxn t data ∧ type = 2 ∧ op = 0 ∧ len = data.length ∨ i = .offer t o ∧ type = 7 ∧ op = 1 ∧ len = 0) ∧
    let a := s.arrive t type op len (laneOf (queueOf t type) false) true
    let u := Requested t type op len s
    s.net.redo = false ∧
    a.2 = true ∧
    a.1.tagAt t.src.toNat t.tag.toNat = .fresh ∧
    u.member t.src.toNat = none :=
  ⟨.poolAlloc { tx with src := 3 } 1, { tx with src := 3 }, 7, 0x20, 8, stX, 1, 0, [], {}, by exact ⟨by decide, by decide⟩⟩

/-- What clause 1 of `ThermalDutyStaysInRange` asks can be met. -/
theorem witness_thermal_duty_stays_in_range_1 :
    ∃ (c : Instr) (die : BitVec 5) (x : U8) (s t : State),
    (c = .sensorRead die x ∨ c = .throttlePeriod) ∧
    4 ≤ s.pkg.thermDuty ∧
    s.pkg.thermDuty ≤ 16 ∧
    exec c s = .next t ∧
    s.throttleAt ≤ s.hottest ∧
    c = .throttlePeriod :=
  ⟨.throttlePeriod, 0, 0, st.setFld .thermCtrl 0 0 8 8 0, _, by exact ⟨by decide, by decide, by decide, rfl, by decide, by decide⟩⟩

/-- What clause 1 of `ReadsLeaveTheRestAlone` asks can be met. -/
theorem witness_reads_leave_the_rest_alone_1 :
    ∃ (c : Instr) (fn : BitVec 6) (off : BitVec 26) (s t : State),
    (c = .pkcLoRead fn ∨ c = .loReadLatch fn off) ∧
    exec c s = .next t ∧
    ∃ (r : Reg) (u i : Nat),
    r.addr u i ≠ Reg.addr .regAccErr 0 0 ∧
    r.addr u i ≠ Reg.addr .regAccLast 0 0 :=
  ⟨.pkcLoRead 0, 0, 0, st, _, by exact ⟨by decide, rfl, .txnLimitLo, 0, 0, by decide, by decide⟩⟩

/-- What clause 1 of `EventIsPostedOrCountedLost` asks can be met. -/
theorem witness_event_is_posted_or_counted_lost_1 :
    ∃ (s : State) (q type slice status : Nat) (data : Bytes),
    tabGet s.host.eqs q = none :=
  ⟨st, 0, 0, 0, 0, [], by decide⟩

/-- What clause 2 of `EventIsPostedOrCountedLost` asks can be met. -/
theorem witness_event_is_posted_or_counted_lost_2 :
    ∃ (s : State) (q type slice status : Nat) (data : Bytes),
    ∃ e : Evq,
    tabGet s.host.eqs q = some e ∧
    let n := 2 ^ e.log2
    let used := (e.tail + 2 * n - e.head) % (2 * n)
    let t := s.post q type slice status data
    n ≤ used :=
  ⟨stEq 16, 0, 0, 0, 0, [], by exact ⟨⟨0, 4, 0x4000, 0, 16, true, 0, false, false⟩, by decide⟩⟩

/-- What clause 3 of `EventIsPostedOrCountedLost` asks can be met. -/
theorem witness_event_is_posted_or_counted_lost_3 :
    ∃ (s : State) (q type slice status : Nat) (data : Bytes),
    ∃ e : Evq,
    tabGet s.host.eqs q = some e ∧
    let n := 2 ^ e.log2
    let used := (e.tail + 2 * n - e.head) % (2 * n)
    let t := s.post q type slice status data
    used < n ∧
    s.hostOk (e.base.toNat + 32 * (e.tail % n)) 32 = true :=
  ⟨stEq 15, 0, 0, 0, 0, [], by exact ⟨⟨0, 4, 0x4000, 0, 15, true, 0, false, false⟩, by decide⟩⟩

end Sys2Proof.Tests
end

section
/-! SUPPORT. Bit fields of numbers and the values of registers: a write keeps the bits no field covers (R4), a reset acts field by field
(R6). -/

namespace Sys2Proof.Machine

/-! ### Bit fields of a number -/

theorem testBit_bitsOf (n lo w k : Nat) : (bitsOf n lo w).testBit k = (decide (k < w) && n.testBit (lo + k)) := by
  rw [bitsOf, Nat.testBit_mod_two_pow, Nat.testBit_div_two_pow, Nat.add_comm]

/-- A number is what lies below a field, the field, and what lies above it. -/
theorem putBits_eq (n lo w v : Nat) :
    putBits n lo w v = 2 ^ lo * (2 ^ w * (n / 2 ^ lo / 2 ^ w) + v % 2 ^ w) + n % 2 ^ lo := by
  have h1 : 2 ^ lo * (n / 2 ^ lo) + n % 2 ^ lo = n := Nat.div_add_mod n (2 ^ lo)
  have h2 : 2 ^ w * (n / 2 ^ lo / 2 ^ w) + bitsOf n lo w = n / 2 ^ lo := Nat.div_add_mod (n / 2 ^ lo) (2 ^ w)
  have h3 : n = 2 ^ lo * (2 ^ w * (n / 2 ^ lo / 2 ^ w)) + 2 ^ lo * bitsOf n lo w + n % 2 ^ lo := by
    rw [← Nat.mul_add, h2, h1]
  rw [putBits, Nat.mul_add]
  omega

/-- The bits of the field become those of the new value, the others stay. -/
theorem testBit_putBits (n lo w v k : Nat) :
    (putBits n lo w v).testBit k = if lo ≤ k ∧ k < lo + w then v.testBit (k - lo) else n.testBit k := by
  rw [putBits_eq, Nat.testBit_two_pow_mul_add _ (Nat.mod_lt _ (Nat.two_pow_pos lo)),
    Nat.testBit_two_pow_mul_add _ (Nat.mod_lt _ (Nat.two_pow_pos w))]
  simp only [Nat.testBit_mod_two_pow, Nat.testBit_div_two_pow]
  by_cases hlo : k < lo
  · simp [hlo, Nat.not_le.2 hlo]
  · by_cases hw : k < lo + w
    · have : k - lo < w := by omega
      simp [hlo, hw, this, Nat.not_lt.1 hlo]
    · have h1 : ¬ k - lo < w := by omega
      have h2 : k - lo - w + w + lo = k := by omega
      simp [hlo, hw, h1, h2]

theorem bitsOf_putBits_same {n lo w v : Nat} (hv : v < 2 ^ w) : bitsOf (putBits n lo w v) lo w = v := by
  refine Nat.eq_of_testBit_eq fun k => ?_
  rw [testBit_bitsOf, testBit_putBits]
  by_cases hk : k < w
  · simp [hk]
  · simp [hk, Nat.testBit_lt_two_pow (Nat.lt_of_lt_of_le hv (Nat.pow_le_pow_right Nat.two_pos (Nat.not_lt.1 hk)))]

theorem bitsOf_putBits_disjoint {n lo w v lo' w' : Nat} (h : lo + w ≤ lo' ∨ lo' + w' ≤ lo) :
    bitsOf (putBits n lo' w' v) lo w = bitsOf n lo w := by
  refine Nat.eq_of_testBit_eq fun k => ?_
  rw [testBit_bitsOf, testBit_bitsOf, testBit_putBits]
  by_cases hk : k < w
  · rw [if_neg (by omega)]
  · simp [hk]

theorem bitsOf_mod_two_pow {n lo w m : Nat} (h : lo + w ≤ m) : bitsOf (n % 2 ^ m) lo w = bitsOf n lo w := by
  refine Nat.eq_of_testBit_eq fun k => ?_
  rw [testBit_bitsOf, testBit_bitsOf, Nat.testBit_mod_two_pow]
  by_cases hk : k < w
  · simp [show lo + k < m by omega]
  · simp [hk]

/-! ### The value of a register -/

theorem State.reg_of_tabGet {s : State} {r : Reg} {u i : Nat} {v : U32} (h : tabGet s.regs (r.addr u i) = some v) :
    s.reg r u i = v.toNat := by simp [State.reg, h]

theorem State.reg_of_tabGet_none {s : State} {r : Reg} {u i : Nat} (h : tabGet s.regs (r.addr u i) = none) :
    s.reg r u i = r.rstVal := by simp [State.reg, h]

theorem State.reg_setReg_same (s : State) (r : Reg) (u i v : Nat) : (s.setReg r u i v).reg r u i = v % 2 ^ 32 := by
  rw [State.reg_of_tabGet (tabGet_tabPut_same _ _ _), BitVec.toNat_ofNat]

/-- Writing fields one after the other keeps a bit that none of them covers. -/
theorem testBit_foldl_putBits (g : Field → Nat) (k : Nat) (fs : List Field) (h : ∀ f ∈ fs, k < f.lo ∨ f.lo + f.width ≤ k) (n : Nat) :
    (fs.foldl (fun n f => putBits n f.lo f.width (g f)) n).testBit k = n.testBit k := by
  induction fs generalizing n with
  | nil => rfl
  | cons f fs ih =>
    have hf : ¬ (f.lo ≤ k ∧ k < f.lo + f.width) := by have := h f List.mem_cons_self; omega
    rw [List.foldl_cons, ih fun g hg => h g (List.mem_cons_of_mem f hg), testBit_putBits, if_neg hf]

/-- Settles O48: a write goes field by field, and each changes the bits of its field only. -/
theorem reservedBitsKeepTheirValue : Obligations.ReservedBitsKeepTheirValue := by
  unfold Obligations.ReservedBitsKeepTheirValue
  intro s r u i v k hk hf
  rw [State.writeFields, State.reg_setReg_same, Nat.testBit_mod_two_pow, testBit_foldl_putBits _ k _ hf]
  simp [hk]

/-! ### The fields of the register index -/

/-- The fields of a row lie apart from each other, within 32 bits, and hold their reset values. -/
def FieldsFit (fs : List Field) : Prop :=
  fs.Pairwise (fun f g => f.lo + f.width ≤ g.lo ∨ g.lo + g.width ≤ f.lo) ∧
    ∀ f ∈ fs, f.lo + f.width ≤ 32 ∧ f.rst < 2 ^ f.width

theorem Reg.fieldsFit (r : Reg) : FieldsFit r.row.fields := by
  unfold FieldsFit
  cases r <;> decide

/-- The reset value of a row holds each field's. -/
theorem Reg.bitsOf_rstVal (r : Reg) : ∀ f ∈ r.row.fields, bitsOf r.rstVal f.lo f.width = f.rst := by
  cases r <;> decide

/-! ### A reset of registers (R6) -/

/-- The fields that `hit` picks put to their reset values, one after the other. -/
def resetFields (hit : Field → Bool) (fs : List Field) (n : Nat) : Nat :=
  fs.foldl (fun n f => if hit f then putBits n f.lo f.width f.rst else n) n

theorem resetFields_cons (hit : Field → Bool) (f : Field) (fs : List Field) (n : Nat) :
    resetFields hit (f :: fs) n = resetFields hit fs (if hit f then putBits n f.lo f.width f.rst else n) := rfl

theorem bitsOf_resetFields_disjoint (hit : Field → Bool) {lo w : Nat} (fs : List Field)
    (h : ∀ g ∈ fs, lo + w ≤ g.lo ∨ g.lo + g.width ≤ lo) (n : Nat) :
    bitsOf (resetFields hit fs n) lo w = bitsOf n lo w := by
  induction fs generalizing n with
  | nil => rfl
  | cons g fs ih =>
    rw [resetFields_cons, ih fun x hx => h x (List.mem_cons_of_mem g hx)]
    split
    · exact bitsOf_putBits_disjoint (h g List.mem_cons_self)
    · rfl

theorem bitsOf_resetFields (hit : Field → Bool) {f : Field} {fs : List Field} (hfit : FieldsFit fs) (hf : f ∈ fs) (n : Nat) :
    bitsOf (resetFields hit fs n) f.lo f.width = if hit f then f.rst else bitsOf n f.lo f.width := by
  induction fs generalizing n with
  | nil => cases hf
  | cons g fs ih =>
    obtain ⟨hapart, hin⟩ := hfit
    obtain ⟨hg, htail⟩ := List.pairwise_cons.1 hapart
    rcases List.mem_cons.1 hf with rfl | hf
    · rw [resetFields_cons, bitsOf_resetFields_disjoint hit fs hg]
      split
      · exact bitsOf_putBits_same (hin f List.mem_cons_self).2
      · rfl
    · rw [resetFields_cons, ih ⟨htail, fun x hx => hin x (List.mem_cons_of_mem g hx)⟩ hf,
        apply_ite (bitsOf · f.lo f.width), bitsOf_putBits_disjoint (hg f hf).symm, ite_self]

/-- What a reset makes of one stored register: a register back at its reset value is listed no more. -/
def resetEntry (hit : Reg → Nat → Field → Bool) (x : Nat × U32) : Option (Nat × U32) :=
  match regAt x.1 with
  | none => some x
  | some (r, u, _) =>
    let v := resetFields (hit r u) r.row.fields x.2.toNat
    if v = r.rstVal then none else some (x.1, BitVec.ofNat 32 v)

theorem State.resetRegs_regs (s : State) (hit : Reg → Nat → Field → Bool) :
    (s.resetRegs hit).regs = s.regs.filterMap (resetEntry hit) := rfl

theorem resetEntry_of_regAt (hit : Reg → Nat → Field → Bool) {a : Nat} {r : Reg} {u i : Nat} (h : regAt a = some (r, u, i)) (x : U32) :
    resetEntry hit (a, x) = if resetFields (hit r u) r.row.fields x.toNat = r.rstVal then none
      else some (a, BitVec.ofNat 32 (resetFields (hit r u) r.row.fields x.toNat)) := by
  simp only [resetEntry, h]

theorem resetEntry_key {hit : Reg → Nat → Field → Bool} {x y : Nat × U32} (h : resetEntry hit x = some y) : y.1 = x.1 := by
  unfold resetEntry at h
  split at h
  · cases h; rfl
  · dsimp only at h
    split at h <;> cases h
    rfl

theorem tabGet_eq_none {α : Type} {t : Tab α} {k : Nat} (h : k ∉ t.map (·.1)) : tabGet t k = none := by
  induction t with
  | nil => rfl
  | cons x t ih =>
    obtain ⟨hx, ht⟩ := not_or.1 (mt List.mem_cons.2 h)
    rw [tabGet, if_neg (Ne.symm hx), ih ht]

/-- Reading a table each of whose entries a function has dropped or changed under its key. -/
theorem tabGet_filterMap {α : Type} {f : Nat × α → Option (Nat × α)} (hf : ∀ {x y}, f x = some y → y.1 = x.1) {t : Tab α}
    (hn : (t.map (·.1)).Nodup) (k : Nat) :
    tabGet (t.filterMap f) k = (tabGet t k).bind fun v => (f (k, v)).map (·.2) := by
  induction t with
  | nil => rfl
  | cons x t ih =>
    obtain ⟨j, v⟩ := x
    obtain ⟨hj, ht⟩ := List.nodup_cons.1 hn
    have ih := ih ht
    by_cases hk : j = k
    · subst hk
      rw [tabGet_eq_none hj, Option.bind_none] at ih
      cases e : f (j, v) with
      | none => simp [e, tabGet, ih]
      | some y => simp [e, tabGet, hf e]
    · cases e : f (j, v) with
      | none => simp [e, tabGet, ih, hk]
      | some y => simp [e, tabGet, ih, hk, hf e]

/-- A register after a reset agrees, field by field, with its value before with the picked fields reset. -/
theorem State.bitsOf_reg_resetRegs {s : State} {hit : Reg → Nat → Field → Bool} {r : Reg} {u i : Nat} {f : Field}
    (hn : (s.regs.map (·.1)).Nodup) (hr : regAt (r.addr u i) = some (r, u, i)) (hf : f ∈ r.row.fields) :
    bitsOf ((s.resetRegs hit).reg r u i) f.lo f.width =
      bitsOf (resetFields (hit r u) r.row.fields (s.reg r u i)) f.lo f.width := by
  have hget := tabGet_filterMap (resetEntry_key (hit := hit)) hn (r.addr u i)
  rw [← State.resetRegs_regs] at hget
  cases e : tabGet s.regs (r.addr u i) with
  | none =>
    rw [e, Option.bind_none] at hget
    rw [State.reg_of_tabGet_none hget, State.reg_of_tabGet_none e, bitsOf_resetFields _ r.fieldsFit hf, r.bitsOf_rstVal f hf, ite_self]
  | some x =>
    rw [e, Option.bind_some, resetEntry_of_regAt hit hr] at hget
    rw [State.reg_of_tabGet e]
    split at hget
    · next hv => rw [State.reg_of_tabGet_none hget, hv]
    · rw [State.reg_of_tabGet hget, BitVec.toNat_ofNat, bitsOf_mod_two_pow (r.fieldsFit.2 f hf).1]

/-- Settles O50: the fields of a row lie apart, so each keeps what its own reset made of it. -/
theorem resetRestoresNamedFields : Obligations.ResetRestoresNamedFields := by
  unfold Obligations.ResetRestoresNamedFields
  intro s hit r u i f hn hr hf
  rw [State.bitsOf_reg_resetRegs hn hr hf, bitsOf_resetFields _ r.fieldsFit hf]

end Sys2Proof.Machine
end

section
/-! SUPPORT. The package count of an idle step: how many counts the master and the dies' copies gain, and that nothing else moves. -/

namespace Sys2Proof.Machine

theorem tabGet_map {α β : Type} (f : α → β) (t : Tab α) (k : Nat) :
    tabGet (t.map fun x => (x.1, f x.2)) k = (tabGet t k).map f := by
  induction t with
  | nil => rfl
  | cons x t ih => by_cases h : x.1 = k <;> simp [tabGet, h, ih]

/-- A die gains the counts in its copy while it is powered with its PLL locked (R28). -/
theorem Die.count_eq (x : Die) (n : Nat) :
    x.count n = { x with pkc := x.pkc + if x.powered = true ∧ x.locked = true then BitVec.ofNat 64 n else 0 } := by
  unfold Die.count
  split <;> simp

/-- A die with no record of its own is unpowered, so it keeps its count too. -/
theorem State.tick_die (s : State) (d : Nat) : s.tick.die d = (s.die d).count s.tickSize := by
  have h := tabGet_map (Die.count · s.tickSize) s.pkg.dies d
  simp only [State.die, State.tick, tabGetD, h]
  cases tabGet s.pkg.dies d with
  | none => rfl
  | some x => rfl

theorem State.tick_pkc (s : State) : s.tick.pkg.pkc = s.pkg.pkc + BitVec.ofNat 64 s.tickSize := rfl

theorem State.tickSize_off {s : State} (h : s.pkg.vaux12 = false) : s.tickSize = 0 := by
  simp [State.tickSize, h]

theorem State.tickSize_locked {s : State} (h : s.pkg.vaux12 = true) (hp : (s.die 19).powered = true)
    (hl : (s.die 19).locked = true) : s.tickSize = 1 := by
  simp [State.tickSize, h, hp, hl]

theorem State.tickSize_unlocked {s : State} (h : s.pkg.vaux12 = true)
    (hd : (s.die 19).powered = false ∨ (s.die 19).locked = false) : s.tickSize = 10 := by
  rcases hd with e | e <;> simp [State.tickSize, h, e]

theorem step_idle {s : State} (h : s.pending = []) : step s = .next s.tick := by
  simp [step, h]

/-- Settles O34: an idle step is `State.tick`, whose size `State.tickSize` gives. -/
theorem emptyQueueAdvancesPackageCount : Obligations.EmptyQueueAdvancesPackageCount := by
  unfold Obligations.EmptyQueueAdvancesPackageCount
  intro s hq
  refine ⟨s.tick, step_idle hq, rfl, fun d => ?copies, fun h => ?off, fun h hp hl => ?locked, fun h hd => ?unlocked⟩
  case copies =>
    rw [State.tick_die, Die.count_eq, State.tick_pkc, add_sub_cancel_left]
  case off => simp [State.tick_pkc, State.tickSize_off h]
  case locked => simp [State.tick_pkc, State.tickSize_locked h hp hl]
  case unlocked => simp [State.tick_pkc, State.tickSize_unlocked h hd]

end Sys2Proof.Machine
end

section
/-! SUPPORT. Host commands: every one goes through `hostCmd` with the checks of its row, so a failed general check rejects it (R459). -/

namespace Sys2Proof.Machine

/-- Every host command of the table is fetched and checked as its row asks, once nothing of its own keeps it waiting: the security
root's self-tests (R411), gesso of the slice (R318), a restored checkpoint, or an access of COPY that must wait. -/
theorem exec_of_hostSpec {i : Instr} {c : CmdSpec} {h : Hdr} {s : State} (hi : hostSpec i = some (c, h))
    (hmod : s.module ≠ 0) (hgesso : ∀ sl, s.gessoWaits sl = false) (hck : ∀ f ∈ s.ck.flight, f.resumed = false)
    (hacc : ∀ sl a n d, s.accessWait sl a n d = none) :
    ∃ entry body, exec i s = hostCmd { c with entry := entry } h body s := by
  cases i <;> cases hi
  case copy.refl => exact ⟨_, _, by simp only [exec, execCopy, hacc, ite_self]; rfl⟩
  case openSession.refl | memAlloc.refl => exact ⟨_, _, if_neg (by simp [hgesso])⟩
  case jobStart.refl =>
    have hfree : ∀ sl, ¬ (s.gessoWaits sl ∨ s.ck.flight.any fun c => c.slice == sl && c.resumed) := by
      intro sl
      simp only [hgesso, Bool.false_eq_true, false_or, List.any_eq_true, not_exists]
      rintro f ⟨hf, hb⟩
      simp [hck f hf] at hb
    exact ⟨_, _, if_neg (hfree _)⟩
  case imageLoad.refl | enrolAuthor.refl | fwLoad.refl | keygenAdvance.refl | genRetire.refl | keyRelease.refl | boundOpen.refl
      | weightDecrypt.refl | consentInstall.refl => exact ⟨_, _, if_neg hmod⟩
  all_goals dsimp only [exec]
  all_goals exact ⟨_, _, rfl⟩

/-- Settles O41: the general checks come before anything of the row's own, and a failed one rejects it. -/
theorem failedGeneralCheckHasNoEffect : Obligations.FailedGeneralCheckHasNoEffect := by
  unfold Obligations.FailedGeneralCheckHasNoEffect
  intro i c h s code info hi hfail hmod hgesso hck hacc
  obtain ⟨entry, body, he⟩ := exec_of_hostSpec hi hmod hgesso hck hacc
  rw [he]
  exact hostCmd_fails (c := { c with entry := entry }) hfail

end Sys2Proof.Machine
end

section
/-! SUPPORT. What every command leaves of the queue, the package count, the fuses and the generation. -/

namespace Sys2Proof.Machine

/-- The five events that make a cold reset (R490, R530), a lost VIN48, PWRGOOD or VIO18 at once (log entry 53). -/
def ColdResets (c : Instr) : Prop :=
  c = .vaux12Applied ∨ c = .vaux12Removed ∨ c = .pwrgoodDeassert ∨ c = .vin48OutOfRange ∨ c = .vio18Low

theorem Kept.mono {cold cold' : Prop} {s t : State} (h : Kept cold s t) (hc : cold → cold') : Kept cold' s t :=
  { h with clock := h.clock.imp_right (And.imp_left hc) }

/-- Every command keeps the queue, the package count unless it makes a cold reset, what is burnt, and a live generation: the rows' own
lemmas put together. -/
theorem exec_kept {c : Instr} {s t : State} (hz : exec c s = .next t) : Kept (ColdResets c) s t := by
  cases c with
  | nop => exact .of_fixed (execNop_fixed (hz := hz) ..)
  | sqCreate => exact .of_fixed (execSqCreate_fixed (hz := hz) ..)
  | sqDelete => exact .of_fixed (execSqDelete_fixed (hz := hz) ..)
  | cqCreate => exact .of_fixed (execCqCreate_fixed (hz := hz) ..)
  | cqDelete => exact .of_fixed (execCqDelete_fixed (hz := hz) ..)
  | eqCreate => exact .of_fixed (execEqCreate_fixed (hz := hz) ..)
  | eqDelete => exact .of_fixed (execEqDelete_fixed (hz := hz) ..)
  | copy => exact .of_fixed (execCopy_fixed (hz := hz) ..)
  | request => exact .of_fixed (execRequest_fixed (hz := hz) ..)
  | openSession => exact .of_fixed (execOpen_fixed (hz := hz) ..)
  | closeSession => exact .of_fixed (execClose_fixed (hz := hz) ..)
  | park => exact .of_fixed (execPark_fixed (hz := hz) ..)
  | thaw => exact .of_fixed (execThaw_fixed (hz := hz) ..)
  | migrate => exact .of_fixed (execMigrate_fixed (hz := hz) ..)
  | fork => exact .of_fixed (execFork_fixed (hz := hz) ..)
  | setSession => exact .of_fixed (execSetSession_fixed (hz := hz) ..)
  | sessionQuery => exact .of_fixed (execSessionQuery_fixed (hz := hz) ..)
  | cancel => exact .of_fixed (execCancel_fixed (hz := hz) ..)
  | ringExtend => exact .of_fixed (execRingExtend_fixed (hz := hz) ..)
  | tringCreate => exact .of_fixed (execTringCreate_fixed (hz := hz) ..)
  | tringDestroy => exact .of_fixed (execTringDestroy_fixed (hz := hz) ..)
  | paletteLoad => exact .of_fixed (execPaletteLoad_fixed (hz := hz) ..)
  | paletteUnload => exact .of_fixed (execPaletteUnload_fixed (hz := hz) ..)
  | jobStart => exact .of_fixed (execJobStart_fixed (hz := hz) ..)
  | jobEnd => exact .of_fixed (execJobEnd_fixed (hz := hz) ..)
  | memAlloc => exact .of_fixed (execMemAlloc_fixed (hz := hz) ..)
  | memFree => exact .of_fixed (execMemFree_fixed (hz := hz) ..)
  | apertureMap => exact .of_fixed (execApertureMap_fixed (hz := hz) ..)
  | apertureUnmap => exact .of_fixed (execApertureUnmap_fixed (hz := hz) ..)
  | poolReclaim => exact .of_fixed (execPoolReclaim_fixed (hz := hz) ..)
  | indexCreate => exact .of_fixed (execIndexCreate_fixed (hz := hz) ..)
  | indexDestroy => exact .of_fixed (execIndexDestroy_fixed (hz := hz) ..)
  | insertVec => exact .of_fixed (execInsertVec_fixed (hz := hz) ..)
  | deleteVec => exact .of_fixed (execDeleteVec_fixed (hz := hz) ..)
  | indexCompact => exact .of_fixed (execIndexCompact_fixed (hz := hz) ..)
  | search => exact .of_fixed (execSearch_fixed (hz := hz) ..)
  | searchNext => exact .of_fixed (execSearchNext_fixed (hz := hz) ..)
  | cursorDrop => exact .of_fixed (execCursorDrop_fixed (hz := hz) ..)
  | tableCreate => exact .of_fixed (execTableCreate_fixed (hz := hz) ..)
  | tableDestroy => exact .of_fixed (execTableDestroy_fixed (hz := hz) ..)
  | gather => exact .of_fixed (execGather_fixed (hz := hz) ..)
  | scatterAdd => exact .of_fixed (execScatterAdd_fixed (hz := hz) ..)
  | scatterSet => exact .of_fixed (execScatterSet_fixed (hz := hz) ..)
  | tableStage => exact .of_fixed (execTableStage_fixed (hz := hz) ..)
  | tableSwitch => exact .of_fixed (execTableSwitch_fixed (hz := hz) ..)
  | hotPost => exact .of_fixed (execHotPost_fixed (hz := hz) ..)
  | compChange => exact .of_fixed (execCompChange_fixed (hz := hz) ..)
  | portEnable => exact .of_fixed (execPortEnable_fixed (hz := hz) ..)
  | portDisable => exact .of_fixed (execPortDisable_fixed (hz := hz) ..)
  | portRekey => exact .of_fixed (execPortRekey_fixed (hz := hz) ..)
  | ckptNow => exact .of_fixed (execCkptNow_fixed (hz := hz) ..)
  | ckptRestore => exact .of_fixed (execCkptRestore_fixed (hz := hz) ..)
  | ckptRelease => exact .of_fixed (execCkptRelease_fixed (hz := hz) ..)
  | imageLoad => exact .of_fixed (execImageLoad_fixed (hz := hz) ..)
  | enrolAuthor => exact execEnrolAuthor_kept (hz := hz) ..
  | revokeAuthor => exact execRevokeAuthor_kept (hz := hz) ..
  | keygenAdvance => exact execKeygenAdvance_kept (hz := hz) ..
  | genRetire => exact execGenRetire_kept (hz := hz) ..
  | zeroize => exact execZeroize_kept (hz := hz) ..
  | keyRelease => exact .of_fixed (execKeyRelease_fixed (hz := hz) ..)
  | boundOpen => exact .of_fixed (execBoundOpen_fixed (hz := hz) ..)
  | weightDecrypt => exact .of_fixed (execWeightDecrypt_fixed (hz := hz) ..)
  | consentInstall => exact .of_fixed (execConsentInstall_fixed (hz := hz) ..)
  | consentRemove => exact .of_fixed (execConsentRemove_fixed (hz := hz) ..)
  | devReset => exact .of_fixed (execDevReset_fixed (hz := hz) ..)
  | pkgReset => exact .of_fixed (execPkgReset_fixed (hz := hz) ..)
  | powerState => exact .of_fixed (execPowerState_fixed (hz := hz) ..)
  | fwLoad => exact .of_fixed (execFwLoad_fixed (hz := hz) ..)
  | errlogRead => exact .of_fixed (execErrlogRead_fixed (hz := hz) ..)
  | thermShutdown => exact .of_fixed (execThermShutdown_fixed (hz := hz) ..)
  | rstCtrlPkgReset => exact execRstCtrlPkgReset_kept (hz := hz) ..
  | thermCtrlShutdown => exact execThermCtrlShutdown_kept (hz := hz) ..
  | zeroizeArm => exact .of_fixed (execZeroizeArm_fixed (hz := hz) ..)
  | zeroizeFire => exact execZeroizeFire_kept (hz := hz) ..
  | portCtrlDisable => exact execPortCtrlDisable_kept (hz := hz) ..
  | portCtrlRekey => exact execPortCtrlRekey_kept (hz := hz) ..
  | portCtrlRetrain => exact execPortCtrlRetrain_kept (hz := hz) ..
  | errlogCtrlConsume => exact execErrlogCtrlConsume_kept (hz := hz) ..
  | pkcLoRead => exact .of_fixed (execPkcLoRead_fixed (hz := hz) ..)
  | loReadLatch => exact .of_fixed (execLoReadLatch_fixed (hz := hz) ..)
  | hiWriteCommit => exact execHiWriteCommit_kept (hz := hz) ..
  | regCfgWrite => exact execRegCfgWrite_kept (hz := hz) ..
  | mtrSelWrite => exact execMtrSelWrite_kept (hz := hz) ..
  | evcSelWrite => exact execEvcSelWrite_kept (hz := hz) ..
  | aqCfgWrite => exact execAqCfgWrite_kept (hz := hz) ..
  | registerWrite => exact execRegisterWrite_kept (hz := hz) ..
  | sqTailDoorbell => exact .of_fixed (execSqTailDoorbell_fixed (hz := hz) ..)
  | cqHeadDoorbell => exact .of_fixed (execCqHeadDoorbell_fixed (hz := hz) ..)
  | eqHeadDoorbell => exact .of_fixed (execEqHeadDoorbell_fixed (hz := hz) ..)
  | tringCreditDoorbell => exact .of_fixed (execTringCreditDoorbell_fixed (hz := hz) ..)
  | bar4Access => exact .of_fixed (execBar4Access_fixed (hz := hz) ..)
  | msixUnmask => exact .of_fixed (execMsixUnmask_fixed (hz := hz) ..)
  | functionLevelReset => exact .of_fixed (execFunctionLevelReset_fixed (hz := hz) ..)
  | poisonedTlpReceived => exact .of_fixed (execPoisonedTlpReceived_fixed (hz := hz) ..)
  | ideFailure => exact .of_fixed (execIdeFailure_fixed (hz := hz) ..)
  | getVersion => exact .of_fixed (execGetVersion_fixed (hz := hz) ..)
  | getCapabilities => exact .of_fixed (execGetCapabilities_fixed (hz := hz) ..)
  | negotiateAlgorithms => exact .of_fixed (execNegotiateAlgorithms_fixed (hz := hz) ..)
  | getDigests => exact .of_fixed (execGetDigests_fixed (hz := hz) ..)
  | getCertificate => exact .of_fixed (execGetCertificate_fixed (hz := hz) ..)
  | challenge => exact .of_fixed (execChallenge_fixed (hz := hz) ..)
  | getMeasurements => exact .of_fixed (execGetMeasurements_fixed (hz := hz) ..)
  | endSession => exact .of_fixed (execEndSession_fixed (hz := hz) ..)
  | heartbeat => exact .of_fixed (execHeartbeat_fixed (hz := hz) ..)
  | keyUpdate => exact .of_fixed (execKeyUpdate_fixed (hz := hz) ..)
  | kemStart => exact .of_fixed (execKemStart_fixed (hz := hz) ..)
  | ideKm => exact .of_fixed (execIdeKm_fixed (hz := hz) ..)
  | lockInterface => exact .of_fixed (execLockInterface_fixed (hz := hz) ..)
  | startInterfaceRequest => exact .of_fixed (execStartInterfaceRequest_fixed (hz := hz) ..)
  | stopInterface => exact .of_fixed (execStopInterface_fixed (hz := hz) ..)
  | pldmPkgReset => exact .of_fixed (execPldmPkgReset_fixed (hz := hz) ..)
  | pldmThermalShutdown => exact .of_fixed (execPldmThermalShutdown_fixed (hz := hz) ..)
  | pldmPortDisable => exact .of_fixed (execPldmPortDisable_fixed (hz := hz) ..)
  | pldmZeroizeArm => exact .of_fixed (execPldmZeroizeArm_fixed (hz := hz) ..)
  | pldmZeroizeFire => exact execPldmZeroizeFire_kept (hz := hz) ..
  | pldmErrlogRead => exact .of_fixed (execPldmErrlogRead_fixed (hz := hz) ..)
  | vaux12Applied => exact (execVaux12Applied_kept (hz := hz) ..).mono fun _ => by simp [ColdResets]
  | vin48Applied => exact execVin48Applied_kept (hz := hz) ..
  | pwrgoodAssert => exact execPwrgoodAssert_kept (hz := hz) ..
  | pwrgoodDeassert => exact (execPwrgoodDeassert_kept (hz := hz) ..).mono fun _ => by simp [ColdResets]
  | perstNAssert => exact .of_fixed (execPerstNAssert_fixed (hz := hz) ..)
  | perstNDeassert => exact .of_fixed (execPerstNDeassert_fixed (hz := hz) ..)
  | vin48OutOfRange => exact (execVin48OutOfRange_kept (hz := hz) ..).mono fun _ => by simp [ColdResets]
  | vaux12Removed => exact (execVaux12Removed_kept (hz := hz) ..).mono fun _ => by simp [ColdResets]
  | vio18Low => exact (execVio18Low_kept (hz := hz) ..).mono fun _ => by simp [ColdResets]
  | refclkStop => exact .of_fixed (execRefclkStop_fixed (hz := hz) ..)
  | refclkRestart => exact .of_fixed (execRefclkRestart_fixed (hz := hz) ..)
  | pllLockLoss => exact .of_fixed (execPllLockLoss_fixed (hz := hz) ..)
  | dieRelease => exact .of_fixed (execDieRelease_fixed (hz := hz) ..)
  | thermalTrip => exact .of_fixed (execThermalTrip_fixed (hz := hz) ..)
  | selftestDone => exact .of_fixed (execSelftestDone_fixed (hz := hz) ..)
  | selftestFailure => exact .of_fixed (execSelftestFailure_fixed (hz := hz) ..)
  | dieFirmwareMeasured => exact .of_fixed (execDieFirmwareMeasured_fixed (hz := hz) ..)
  | bootImageLoad => exact execBootImageLoad_kept (hz := hz) ..
  | trialBootTimeout => exact .of_fixed (execTrialBootTimeout_fixed (hz := hz) ..)
  | watchdogExpiry => exact .of_fixed (execWatchdogExpiry_fixed (hz := hz) ..)
  | imageCommit => exact execImageCommit_kept (hz := hz) ..
  | stepStart => exact .of_fixed (execStepStart_fixed (hz := hz) ..)
  | instancePlace => exact .of_fixed (execInstancePlace_fixed (hz := hz) ..)
  | instanceEnd => exact .of_fixed (execInstanceEnd_fixed (hz := hz) ..)
  | engineRecord => exact .of_fixed (execEngineRecord_fixed (hz := hz) ..)
  | waitRecord => exact .of_fixed (execWaitRecord_fixed (hz := hz) ..)
  | signalRecord => exact .of_fixed (execSignalRecord_fixed (hz := hz) ..)
  | loopRecord => exact .of_fixed (execLoopRecord_fixed (hz := hz) ..)
  | yieldRecord => exact .of_fixed (execYieldRecord_fixed (hz := hz) ..)
  | endRecord => exact .of_fixed (execEndRecord_fixed (hz := hz) ..)
  | engineCommandDone => exact .of_fixed (execEngineCommandDone_fixed (hz := hz) ..)
  | mm => exact .of_fixed (execMm_fixed (hz := hz) ..)
  | accOut => exact .of_fixed (execAccOut_fixed (hz := hz) ..)
  | attn => exact .of_fixed (execAttn_fixed (hz := hz) ..)
  | merge => exact .of_fixed (execMerge_fixed (hz := hz) ..)
  | func => exact .of_fixed (execFunc_fixed (hz := hz) ..)
  | append => exact .of_fixed (execAppend_fixed (hz := hz) ..)
  | sample => exact .of_fixed (execSample_fixed (hz := hz) ..)
  | verify => exact .of_fixed (execVerify_fixed (hz := hz) ..)
  | mvCopy => exact .of_fixed (execMvCopy_fixed (hz := hz) ..)
  | mvGather => exact .of_fixed (execMvGather_fixed (hz := hz) ..)
  | priorityCopyDone => exact .of_fixed (execPriorityCopyDone_fixed (hz := hz) ..)
  | stepEnd => exact .of_fixed (execStepEnd_fixed (hz := hz) ..)
  | stagingDone => exact .of_fixed (execStagingDone_fixed (hz := hz) ..)
  | ckptCommit => exact .of_fixed (execCkptCommit_fixed (hz := hz) ..)
  | restoreDone => exact .of_fixed (execRestoreDone_fixed (hz := hz) ..)
  | canvasWorkItem => exact .of_fixed (execCanvasWorkItem_fixed (hz := hz) ..)
  | parkEnd => exact .of_fixed (execParkEnd_fixed (hz := hz) ..)
  | idleParkCheck => exact .of_fixed (execIdleParkCheck_fixed (hz := hz) ..)
  | runaheadThawStart => exact .of_fixed (execRunaheadThawStart_fixed (hz := hz) ..)
  | thawEnd => exact .of_fixed (execThawEnd_fixed (hz := hz) ..)
  | streamPageArrival => exact .of_fixed (execStreamPageArrival_fixed (hz := hz) ..)
  | streamFault => exact .of_fixed (execStreamFault_fixed (hz := hz) ..)
  | closeEnd => exact .of_fixed (execCloseEnd_fixed (hz := hz) ..)
  | paletteCompileDone => exact .of_fixed (execPaletteCompileDone_fixed (hz := hz) ..)
  | translationMiss => exact .of_fixed (execTranslationMiss_fixed (hz := hz) ..)
  | fetchDone => exact .of_fixed (execFetchDone_fixed (hz := hz) ..)
  | gessoFillDone => exact .of_fixed (execGessoFillDone_fixed (hz := hz) ..)
  | patrolRead => exact .of_fixed (execPatrolRead_fixed (hz := hz) ..)
  | coreStoreRowReplace => exact .of_fixed (execCoreStoreRowReplace_fixed (hz := hz) ..)
  | rekeySweepRegion => exact .of_fixed (execRekeySweepRegion_fixed (hz := hz) ..)
  | regulatorAdmit => exact .of_fixed (execRegulatorAdmit_fixed (hz := hz) ..)
  | rowMigration => exact .of_fixed (execRowMigration_fixed (hz := hz) ..)
  | tableSwitchApply => exact .of_fixed (execTableSwitchApply_fixed (hz := hz) ..)
  | compactRelease => exact .of_fixed (execCompactRelease_fixed (hz := hz) ..)
  | bridgeDown => exact .of_fixed (execBridgeDown_fixed (hz := hz) ..)
  | laneFailure => exact .of_fixed (execLaneFailure_fixed (hz := hz) ..)
  | flitReceive => exact .of_fixed (execFlitReceive_fixed (hz := hz) ..)
  | portTrainingDone => exact .of_fixed (execPortTrainingDone_fixed (hz := hz) ..)
  | hello => exact .of_fixed (execHello_fixed (hz := hz) ..)
  | keyConfirm => exact .of_fixed (execKeyConfirm_fixed (hz := hz) ..)
  | bringupRetry => exact .of_fixed (execBringupRetry_fixed (hz := hz) ..)
  | frameCountRekey => exact .of_fixed (execFrameCountRekey_fixed (hz := hz) ..)
  | rekeyDone => exact .of_fixed (execRekeyDone_fixed (hz := hz) ..)
  | readTxn => exact .of_fixed (execReadTxn_fixed (hz := hz) ..)
  | writeTxn => exact .of_fixed (execWriteTxn_fixed (hz := hz) ..)
  | addF32 => exact .of_fixed (execAddF32_fixed (hz := hz) ..)
  | addBf16 => exact .of_fixed (execAddBf16_fixed (hz := hz) ..)
  | setRow => exact .of_fixed (execSetRow_fixed (hz := hz) ..)
  | fadd64 => exact .of_fixed (execFadd64_fixed (hz := hz) ..)
  | cas64 => exact .of_fixed (execCas64_fixed (hz := hz) ..)
  | query => exact .of_fixed (execQuery_fixed (hz := hz) ..)
  | result => exact .of_fixed (execResult_fixed (hz := hz) ..)
  | canvasData => exact .of_fixed (execCanvasData_fixed (hz := hz) ..)
  | desc => exact .of_fixed (execDesc_fixed (hz := hz) ..)
  | mirrorRows => exact .of_fixed (execMirrorRows_fixed (hz := hz) ..)
  | mirrorCommit => exact .of_fixed (execMirrorCommit_fixed (hz := hz) ..)
  | mirrorState => exact .of_fixed (execMirrorState_fixed (hz := hz) ..)
  | propose => exact .of_fixed (execPropose_fixed (hz := hz) ..)
  | prepare => exact .of_fixed (execPrepare_fixed (hz := hz) ..)
  | vote => exact .of_fixed (execVote_fixed (hz := hz) ..)
  | commitMap => exact .of_fixed (execCommitMap_fixed (hz := hz) ..)
  | mapUpdate => exact .of_fixed (execMapUpdate_fixed (hz := hz) ..)
  | mapQuery => exact .of_fixed (execMapQuery_fixed (hz := hz) ..)
  | mapState => exact .of_fixed (execMapState_fixed (hz := hz) ..)
  | sealKey => exact .of_fixed (execSealKey_fixed (hz := hz) ..)
  | offer => exact .of_fixed (execOffer_fixed (hz := hz) ..)
  | accept => exact .of_fixed (execAccept_fixed (hz := hz) ..)
  | refuse => exact .of_fixed (execRefuse_fixed (hz := hz) ..)
  | ack => exact .of_fixed (execAck_fixed (hz := hz) ..)
  | commitHandoff => exact .of_fixed (execCommitHandoff_fixed (hz := hz) ..)
  | committed => exact .of_fixed (execCommitted_fixed (hz := hz) ..)
  | released => exact .of_fixed (execReleased_fixed (hz := hz) ..)
  | resolve => exact .of_fixed (execResolve_fixed (hz := hz) ..)
  | recordQuery => exact .of_fixed (execRecordQuery_fixed (hz := hz) ..)
  | ringCmd => exact .of_fixed (execRingCmd_fixed (hz := hz) ..)
  | poolAlloc => exact .of_fixed (execPoolAlloc_fixed (hz := hz) ..)
  | poolFree => exact .of_fixed (execPoolFree_fixed (hz := hz) ..)
  | poolInfo => exact .of_fixed (execPoolInfo_fixed (hz := hz) ..)
  | linkState => exact .of_fixed (execLinkState_fixed (hz := hz) ..)
  | identify => exact .of_fixed (execIdentify_fixed (hz := hz) ..)
  | resp => exact .of_fixed (execResp_fixed (hz := hz) ..)
  | drop => exact .of_fixed (execDrop_fixed (hz := hz) ..)
  | unsupportedTransaction => exact .of_fixed (execUnsupportedTransaction_fixed (hz := hz) ..)
  | transitForward => exact .of_fixed (execTransitForward_fixed (hz := hz) ..)
  | canvasRepairDone => exact .of_fixed (execCanvasRepairDone_fixed (hz := hz) ..)
  | handoffLimitExpiry => exact .of_fixed (execHandoffLimitExpiry_fixed (hz := hz) ..)
  | arbiterRetry => exact .of_fixed (execArbiterRetry_fixed (hz := hz) ..)
  | ringWaitLimitExpiry => exact .of_fixed (execRingWaitLimitExpiry_fixed (hz := hz) ..)
  | txnResend => exact .of_fixed (execTxnResend_fixed (hz := hz) ..)
  | txnLimitExpiry => exact .of_fixed (execTxnLimitExpiry_fixed (hz := hz) ..)
  | epochHoldExpiry => exact .of_fixed (execEpochHoldExpiry_fixed (hz := hz) ..)
  | mapVoteTimeout => exact .of_fixed (execMapVoteTimeout_fixed (hz := hz) ..)
  | linkStateSend => exact .of_fixed (execLinkStateSend_fixed (hz := hz) ..)
  | liveLimitExpiry => exact .of_fixed (execLiveLimitExpiry_fixed (hz := hz) ..)
  | qosHoldoffExpiry => exact .of_fixed (execQosHoldoffExpiry_fixed (hz := hz) ..)
  | deadlineCheck => exact .of_fixed (execDeadlineCheck_fixed (hz := hz) ..)
  | consentExpiry => exact .of_fixed (execConsentExpiry_fixed (hz := hz) ..)
  | zeroizeArmExpiry => exact .of_fixed (execZeroizeArmExpiry_fixed (hz := hz) ..)
  | autoReport => exact .of_fixed (execAutoReport_fixed (hz := hz) ..)
  | counterSnapshot => exact .of_fixed (execCounterSnapshot_fixed (hz := hz) ..)
  | sensorRead => exact .of_fixed (execSensorRead_fixed (hz := hz) ..)
  | throttlePeriod => exact .of_fixed (execThrottlePeriod_fixed (hz := hz) ..)
  | powerCapPeriod => exact .of_fixed (execPowerCapPeriod_fixed (hz := hz) ..)
  | idleEntry => exact .of_fixed (execIdleEntry_fixed (hz := hz) ..)
  | dozeEntry => exact .of_fixed (execDozeEntry_fixed (hz := hz) ..)
  | dozeExit => exact .of_fixed (execDozeExit_fixed (hz := hz) ..)
  | hibernateEntry => exact .of_fixed (execHibernateEntry_fixed (hz := hz) ..)
  | wakeDone => exact .of_fixed (execWakeDone_fixed (hz := hz) ..)
  | thermalRecovery => exact .of_fixed (execThermalRecovery_fixed (hz := hz) ..)
  | vio18Restored => exact execVio18Restored_kept (hz := hz) ..
  | ackIntervalExpiry => exact .of_fixed (execAckIntervalExpiry_fixed (hz := hz) ..)
  | jtagAccess => exact .of_fixed (execJtagAccess_fixed (hz := hz) ..)
  | retrievalOperationDone => exact .of_fixed (execRetrievalOperationDone_fixed (hz := hz) ..)

/-- Settles O37: only a cold reset moves the count. -/
theorem countReturnsToZeroOnlyAtColdReset : Obligations.CountReturnsToZeroOnlyAtColdReset := by
  unfold Obligations.CountReturnsToZeroOnlyAtColdReset
  intro c s t hz
  exact (exec_kept hz).clock.imp_right And.symm

end Sys2Proof.Machine
end

section
/-! SUPPORT. BAR0 accesses: the three ways a register read can end, a write of PF0 that nothing turns away, and the writes of
single bits of PORT_CTRL (R30, R368, R369, R388, R480, R483). -/

namespace Sys2Proof.Machine

/-! ### Reads -/

/-- A register read is counted as an access error, leaves the state alone, or latches the HI register of its pair. -/
theorem State.regRead_cases (s : State) (fn off : Nat) :
    (s.regRead fn off).1 = s.accErr fn off ∨
      ∃ l, (s.regRead fn off).1 = { s with host := { s.host with latches := l } } := by
  unfold State.regRead
  split
  case h_1 => exact .inl rfl
  case h_2 r u i hat =>
    split
    case isTrue => exact .inl rfl
    case isFalse =>
      split
      case isTrue => exact .inr ⟨s.host.latches, rfl⟩
      case isFalse =>
        dsimp only
        split
        case h_1 hi hlatch => exact .inr ⟨_, rfl⟩
        case h_2 => exact .inr ⟨s.host.latches, rfl⟩

theorem State.reg_setReg_ne {s : State} {r q : Reg} {u i v k n : Nat} (h : q.addr k n ≠ r.addr u i) :
    (s.setReg r u i v).reg q k n = s.reg q k n := by
  simp only [State.reg, State.setReg, tabGet_tabPut_ne _ _ _ _ h]

/-- An access error writes its counter and its record, no other register. -/
theorem State.reg_accErr_ne {s : State} {fn off : Nat} {r : Reg} {u i : Nat} (hcount : r.addr u i ≠ Reg.addr .regAccErr 0 0)
    (hlast : r.addr u i ≠ Reg.addr .regAccLast 0 0) : (s.accErr fn off).reg r u i = s.reg r u i := by
  rw [State.accErr, State.reg_setReg_ne hlast, State.bump, State.reg_setReg_ne hcount]

/-- A read for the host is the read of the register and the answer, so what it leaves alone is what the read does. -/
theorem State.readOut_frame (s : State) (fn off : Nat) :
    (s.readOut fn off = { s with regs := (s.readOut fn off).regs, host := { s.host with
      latches := (s.readOut fn off).host.latches, out := (s.readOut fn off).host.out } }) ∧
    ∀ (r : Reg) (u i : Nat), r.addr u i ≠ Reg.addr .regAccErr 0 0 → r.addr u i ≠ Reg.addr .regAccLast 0 0 →
      (s.readOut fn off).reg r u i = s.reg r u i := by
  rcases s.regRead_cases fn (off / 4 * 4) with hread | ⟨l, hread⟩
  case inl =>
    simp only [State.readOut, hread]
    exact ⟨rfl, fun r u i hcount hlast => State.reg_accErr_ne hcount hlast⟩
  case inr =>
    simp only [State.readOut, hread]
    exact ⟨rfl, fun r u i _ _ => rfl⟩

/-- Settles O58: both rows are one read for the host. -/
theorem readsLeaveTheRestAlone : Obligations.ReadsLeaveTheRestAlone := by
  unfold Obligations.ReadsLeaveTheRestAlone
  rintro c fn off s t (rfl | rfl) hz
  case inl => cases hz; exact s.readOut_frame _ _
  case inr => cases hz; exact s.readOut_frame _ _

/-- A BAR0 read of function `fn` at an offset that reaches a register with something to read, whose die answers, and that is neither
coarsened nor latched for the function (R435, R477..R481, R483). -/
structure Readable (s : State) (r : Reg) (u i fn off : Nat) : Prop where
  located : regAt off = some (r, u, i)
  reached : r.reach u i fn false = true
  readable : r.row.fields.all (·.acc == .wo) = false
  answers : r.row.wedge = true ∨ s.seqDown (r.die u) = false
  fine : r.coarse = false
  unlatched : tabGet s.host.latches (latchKey fn off) = none

theorem State.regRead_eq {s : State} {fn off : Nat} {r : Reg} {u i : Nat} (h : Readable s r u i fn off) :
    s.regRead fn off = (match r.latches with
      | some hi => { s with host := { s.host with
          latches := tabPut s.host.latches (latchKey fn (hi.addr u 0)) (BitVec.ofNat 32 (s.regValue hi u 0)) } }
      | none => s, s.regValue r u i) := by
  have hrefused : ¬ (¬ r.reach u i fn false = true ∨ r.row.fields.all (·.acc == .wo) = true) := by simp [h.reached, h.readable]
  have hdown : ¬ (¬ r.row.wedge = true ∧ s.seqDown (r.die u) = true) := by rcases h.answers with e | e <;> simp [e]
  simp only [State.regRead, h.located, if_neg hrefused, if_neg hdown, h.fine, h.unlatched]
  cases r.latches <;> rfl

theorem State.readOut_of_no_latch {s : State} {fn off : Nat} {r : Reg} {u i : Nat} (h : Readable s r u i fn (off / 4 * 4))
    (hl : r.latches = none) : s.readOut fn off = s.emit (.readData fn (bytesOf 4 (s.regValue r u i))) := by
  simp only [State.readOut, State.regRead_eq h, hl]

/-- The read of a LO register latches HI as it stands then (R483). -/
theorem State.readOut_latches {s : State} {fn off : Nat} {r hi : Reg} {u i : Nat} (h : Readable s r u i fn (off / 4 * 4))
    (hl : r.latches = some hi) :
    ∃ t : State, s.readOut fn off = t.emit (.readData fn (bytesOf 4 (s.regValue r u i))) ∧
      t = { s with host := { s.host with latches := t.host.latches } } ∧
      tabGet t.host.latches (latchKey fn (hi.addr u 0)) = some (BitVec.ofNat 32 (s.regValue hi u 0)) := by
  simp only [State.readOut, State.regRead_eq h, hl]
  exact ⟨_, rfl, rfl, tabGet_tabPut_same _ _ _⟩

/-- Every function reads PKC_LO, and its die is asked for nothing (R30). -/
theorem readable_pkcLo {s : State} {fn : Nat} (hl : tabGet s.host.latches (latchKey fn (Reg.addr .pkcLo 0 0)) = none) :
    Readable s .pkcLo 0 0 fn (Reg.addr .pkcLo 0 0) where
  located := by decide
  reached := Bool.or_true _
  readable := rfl
  answers := .inl rfl
  fine := by decide
  unlatched := hl

/-! ### Writes of PF0 -/

theorem bitAt_eq_decide (n i : Nat) : bitAt n i = decide (n / 2 ^ i % 2 = 1) := rfl

theorem bitsOf_upper_half (v : U32) : bitsOf v.toNat 16 16 = v.toNat / 2 ^ 16 := by
  have := v.isLt
  unfold bitsOf
  omega

/-- PF0 writes a wedge-proof register of which there is one, whatever the dies and Hibernate (R488). -/
theorem State.writeReg_wedge {s : State} {r : Reg} (hat : regAt (r.addr 0 0) = some (r, 0, 0)) (hreach : r.reach 0 0 0 true = true)
    (hport : r ≠ .portCtrl) (hwedge : r.row.wedge = true) (hok : s.fieldsRefuse r 0 0 = false) (v : Nat) :
    s.writeReg 0 (r.addr 0 0) v = s.writeAt r 0 0 0 (r.addr 0 0) v :=
  writeReg_ok rfl ⟨hat, hreach, hport, .inl hwedge, fun h => absurd h.2.1 (by decide), hok⟩

/-- A bit of PORT_CTRL is written with DISABLE as it stands. -/
theorem State.portBit_eq {p : Nat} (hp : p < 48) (s : State) (bit : Nat) :
    s.portBit 0 p bit = s.portWrite p 0 (Reg.addr .portCtrl p 0) (bit ||| s.fld .portCtrl p 0 0 1) := by
  have hreach : Reg.reach .portCtrl p 0 0 true = true := rfl
  rw [State.portBit, if_neg (by omega), State.writeReg, ctrlAddr ⟨p, hp⟩]
  simp [hreach]

/-- DISABLE acts with the port's die down too, and then nothing else of the write does. -/
theorem State.portWrite_disable (s : State) (p fn off : Nat) : s.portWrite p fn off 1 = s.portOff p := by
  simp [State.portWrite, bitAt]

theorem State.portWrite_rekey {s : State} {p : Nat} (hd : s.seqDown (16 + p / 16) = false) (fn off : Nat) :
    s.portWrite p fn off 4 = (s.setFld .portCtrl p 0 0 1 0).startRekey p := by
  simp [State.portWrite, bitAt, hd]

theorem State.portWrite_retrain {s : State} {p : Nat} (hd : s.seqDown (16 + p / 16) = false)
    (hs : (s.setFld .portCtrl p 0 0 1 0).portSlice p ≠ none) (fn off : Nat) :
    s.portWrite p fn off 2 = (s.setFld .portCtrl p 0 0 1 0).portFail p := by
  simp [State.portWrite, bitAt, hd, hs]

/-- DISABLE is one bit, so setting it gives 1. -/
theorem one_lor_bitsOf_one (n lo : Nat) : 1 ||| bitsOf n lo 1 = 1 := by
  have h : bitsOf n lo 1 < 2 := Nat.mod_lt _ (by decide)
  generalize bitsOf n lo 1 = x at h
  interval_cases x <;> rfl

theorem State.fires_of_armed {s : State} {armed : Option U64} {p : U64} (ha : armed = some p) (ht : s.pkc - p.toNat ≤ 2 ^ 20) :
    s.fires armed = true := by
  subst ha
  exact decide_eq_true ht

/-- Settles O12: each row is one access to its register, which reaches it. -/
theorem controlRegisterRowsComplete : Obligations.ControlRegisterRowsComplete := by
  unfold Obligations.ControlRegisterRowsComplete
  refine ⟨fun v s hok hkey hbit => ?reset, fun v s hok hkey hbit => ?thermal, fun s => ?arm, fun s p harm htime => ?fire,
    fun port s hp => ⟨?disable, fun hd hdis => ⟨?rekey, fun hs => ?retrain⟩⟩, fun v s hok => ?errlog,
    fun fn s hlatch => ?pkc, fun fn off s r hi u i hat hreach hwo hdie hcoarse hlatch => ⟨fun hl => ?read, fun hl => ?latch⟩⟩
  case reset =>
    refine congrArg Host.Outcome.next ((State.writeReg_wedge (by decide) rfl (by decide) rfl hok _).trans ?_)
    exact if_pos ⟨(bitsOf_upper_half v).trans hkey, by simp [bitAt_eq_decide, hbit]⟩
  case thermal =>
    refine congrArg Host.Outcome.next ((State.writeReg_wedge (by decide) rfl (by decide) rfl hok _).trans ?_)
    have hk : ¬ bitsOf v.toNat 16 16 ≠ 0x5448 := not_not_intro ((bitsOf_upper_half v).trans hkey)
    have hb : bitAt v.toNat 0 = true := by simp [bitAt_eq_decide, hbit]
    exact (if_neg hk).trans (if_pos hb)
  case arm => rfl
  case fire => exact congrArg Host.Outcome.next (if_pos (State.fires_of_armed harm htime))
  case disable =>
    refine congrArg Host.Outcome.next ((State.portBit_eq hp s 1).trans ?_)
    rw [State.fld, one_lor_bitsOf_one, State.portWrite_disable]
  case rekey =>
    refine congrArg Host.Outcome.next ((State.portBit_eq hp s 4).trans ?_)
    rw [hdis, Nat.or_zero, State.portWrite_rekey hd]
  case retrain =>
    refine congrArg Host.Outcome.next ((State.portBit_eq hp s 2).trans ?_)
    rw [hdis, Nat.or_zero, State.portWrite_retrain hd hs]
  case errlog =>
    have hwrite := State.writeReg_wedge (by decide) rfl (by decide) rfl hok v.toNat
    exact ⟨fun hbit hseqs => congrArg Host.Outcome.next (hwrite.trans (if_pos ⟨by simp [bitAt_eq_decide, hbit], hseqs⟩)),
      fun hbit => congrArg Host.Outcome.next (hwrite.trans (if_neg fun h => by simp [bitAt_eq_decide, hbit] at h))⟩
  case pkc =>
    obtain ⟨t, hread, hlatched⟩ := State.readOut_latches (off := Reg.addr .pkcLo 0 0) (readable_pkcLo hlatch) rfl
    exact ⟨t, congrArg Host.Outcome.next hread, hlatched⟩
  case read =>
    exact congrArg Host.Outcome.next (State.readOut_of_no_latch ⟨hat, hreach, hwo, hdie, hcoarse, hlatch⟩ hl)
  case latch =>
    obtain ⟨t, hread, hlatched⟩ := State.readOut_latches ⟨hat, hreach, hwo, hdie, hcoarse, hlatch⟩ hl
    exact ⟨t, congrArg Host.Outcome.next hread, hlatched⟩

end Sys2Proof.Machine
end

section
/-! SUPPORT. Supplies, resets and clocks: each row once the guard of its event holds (R27, R490, R529..R531, R533). -/

namespace Sys2Proof.Machine

/-- With the conversion stages on, a lost supply is the cold reset at once (log entry 53). -/
theorem State.powerLost_of_conversion {s : State} (h : s.pkg.conversion = true) : s.powerLost = s.coldReset true := if_pos h

/-- Settles O16: each row tests its guard and then does what its rule says. -/
theorem supplyResetAndClockRowsComplete : Obligations.SupplyResetAndClockRowsComplete := by
  unfold Obligations.SupplyResetAndClockRowsComplete
  refine ⟨fun s hoff => ?vaux12Applied, fun s => ?vin48Applied, fun straps s hoff hcold haux hio => ?pwrgoodAssert,
    fun s hconv => ⟨?pwrgoodDeassert, ?vin48OutOfRange, ?vio18Low⟩, fun s hon => ?vaux12Removed, fun s hperst hgood => ?perstNAssert,
    fun width speed flit l0p s hconv hlock hio => ?perstNDeassert, fun s hclk hconv => ?refclkStop, fun s hclk => ?refclkRestart,
    fun pll s hconv hpll => ⟨fun hroot => ?pllOfPackage, fun hdie hpow hlock => ?pllOfDie⟩, fun s hon => ?vio18Restored⟩
  case vaux12Applied => exact if_neg (Bool.eq_false_iff.1 hoff)
  case vin48Applied => rfl
  case pwrgoodAssert =>
    refine (if_neg (Bool.eq_false_iff.1 hoff)).trans ?_
    simp only [hcold, haux, hio, Bool.and_self, if_true]
  case pwrgoodDeassert => exact congrArg Host.Outcome.next (State.powerLost_of_conversion hconv)
  case vin48OutOfRange => exact congrArg Host.Outcome.next (State.powerLost_of_conversion hconv)
  case vio18Low => exact congrArg Host.Outcome.next (State.powerLost_of_conversion hconv)
  case vaux12Removed => exact if_neg (not_not_intro hon)
  case perstNAssert => exact (if_neg (Bool.eq_false_iff.1 hperst)).trans (congrArg Host.Outcome.next (if_pos hgood))
  case perstNDeassert => exact if_pos ⟨hconv, hlock, hio⟩
  case refclkStop => exact (if_neg (not_not_intro hclk)).trans (if_neg (not_not_intro hconv))
  case refclkRestart => exact ⟨_, if_neg (Bool.eq_false_iff.1 hclk), rfl, rfl, rfl⟩
  case pllOfPackage => exact (if_neg (not_or_intro (not_not_intro hconv) (by omega))).trans (if_neg (by omega))
  case pllOfDie =>
    exact (if_neg (not_or_intro (not_not_intro hconv) (by omega))).trans
      ((if_pos hdie).trans (if_neg (not_not_intro ⟨hpow, hlock⟩)))
  case vio18Restored => exact if_pos hon

end Sys2Proof.Machine
end

section
/-! SUPPORT. Boot and health: each row of the dies, the images and the watchdogs once its event is due (R27, R48, R411, R412, R493,
R504, R507, R516). -/

namespace Sys2Proof.Machine

/-- Settles O17: each row tests what makes its event due and then does what its rule says. -/
theorem bootAndHealthRowsComplete : Obligations.BootAndHealthRowsComplete := by
  unfold Obligations.BootAndHealthRowsComplete
  refine ⟨fun die s hconv hd hpow hlock hrel hwait hturn => ?dieRelease, fun die s hd => ?thermalTrip,
    fun die s hlo hhi hrel hmod => ?selftestDone,
    fun die test s hconv hmod => ?selftestFailure, fun die stage s hd hrel hmeas hrun hhash => ?dieFirmwareMeasured,
    fun s hconv hready hrun hdies hmod => ?bootImageLoad,
    fun s hconv htrial htime => ?trialBootTimeout,
    fun die s hd harm hhalt htime => ?watchdogExpiry,
    fun s l hload => ?imageCommit⟩
  case dieRelease =>
    refine if_neg (not_not_intro ⟨by simp [hconv, hd, hpow, hlock, hrel, hwait], ?_⟩)
    rcases hturn with hroot | ⟨hroot, hrec, hshut, hready | hearly⟩
    · simp [hroot]
    · simp [hroot, hrec, hshut, hready]
    · simp [hroot, hrec, hshut, hearly]
  case thermalTrip => exact if_neg (by omega)
  case selftestDone =>
    have hdue : ¬ (die.toNat < 8 ∨ 19 < die.toNat ∨ ¬ (s.die die.toNat).released = true ∨ s.module = 2) :=
      not_or_intro (by omega) (not_or_intro (by omega) (not_or_intro (not_not_intro hrel) hmod))
    refine ⟨fun hself hall => (if_neg hdue).trans (congrArg Host.Outcome.next (if_pos ⟨hself, by simpa using hall⟩)),
      fun hmore => (if_neg hdue).trans (congrArg Host.Outcome.next (if_neg ?_))⟩
    rintro ⟨hself, hall⟩
    rcases hmore with h | ⟨k, hk, hfalse⟩
    · exact h hself
    · exact absurd (List.all_eq_true.1 hall k (List.mem_range.2 hk)) (by simp [hfalse])
  case selftestFailure => exact if_pos ⟨hconv, hmod⟩
  case dieFirmwareMeasured =>
    have hdue : ¬ (19 < die.toNat ∨ ¬ (s.die die.toNat).released = true ∨ (s.die die.toNat).measured = true ∨
        s.flash.running.isEmpty = true) :=
      not_or_intro (by omega) (not_or_intro (not_not_intro hrel) (by simp [hmeas, hrun]))
    exact (if_neg hdue).trans (if_neg (not_not_intro hhash))
  case bootImageLoad =>
    have hdue : ¬ (¬ s.pkg.conversion = true ∨ s.pkg.ready = true ∨ s.flash.running.isEmpty = true ∨ ¬ s.diesReleased = true ∨
        s.module = 0) := by
      simp [hconv, hready, hrun, hdies, hmod]
    refine ⟨fun htake => ?taken, fun hleft => ?left⟩
    case taken =>
      obtain ⟨hflash, hspent, hfirst, hchecks⟩ := htake
      exact (if_neg hdue).trans (congrArg (fun t : State => Host.Outcome.next t.trialDone)
        (if_pos ⟨hflash, by simp [hspent], by simp [hfirst], hchecks⟩))
    case left =>
      exact (if_neg hdue).trans (congrArg (fun t : State => Host.Outcome.next t.trialDone)
        (if_neg fun ⟨hflash, hspent, hfirst, hchecks⟩ =>
          hleft ⟨hflash, by simpa using hspent, by simpa using hfirst, hchecks⟩))
  case trialBootTimeout =>
    exact if_neg (not_or_intro (not_not_intro hconv) (not_or_intro (not_not_intro htrial) (by omega)))
  case watchdogExpiry =>
    have hdue : ¬ (19 < die.toNat ∨ ¬ (s.die die.toNat).wdArmed = true ∨ (s.die die.toNat).halted = true ∨
        (s.die die.toNat).pkc.toNat - (s.die die.toNat).wdPkc.toNat < 2 ^ 27) :=
      not_or_intro (by omega) (not_or_intro (not_not_intro harm) (not_or_intro (Bool.eq_false_iff.1 hhalt) (by omega)))
    exact ⟨fun hroot => (if_neg hdue).trans (if_pos hroot), fun hother => (if_neg hdue).trans (if_neg hother)⟩
  case imageCommit =>
    refine ⟨fun hfirst => ?first, fun hnext => ?next⟩
    case first => simp only [exec, execImageCommit, hload, hfirst, Option.isNone_none, if_true, eOk]
    case next =>
      have hsome : s.img.running.isNone = false :=
        Option.isNone_eq_false_iff.2 (Option.isSome_iff_ne_none.2 hnext)
      simp only [exec, execImageCommit, hload, hsome, Bool.false_eq_true, if_false, eOk]

end Sys2Proof.Machine
end

section
/-! SUPPORT. Bridges and ports: each row of a bridge or a port once its event is due (R16, R354, R357, R366, R368). -/

namespace Sys2Proof.Machine

theorem State.port_setPort_same (s : State) (p : Nat) (x : Port) : (s.setPort p x).port p = x := tabGetD_tabPut_same _ _ _ _

/-- The peer's identity is that of its number in the map, where the map has the number. -/
theorem any_identity_ne_eq_false {m : Option Member} {identity : U256} (h : ∀ y, m = some y → y.identity = identity) :
    m.any (fun y => y.identity != identity) = false := by
  cases m with
  | none => rfl
  | some y => simp [h y rfl]

/-- Settles O22: each row tests what makes its event due and then does what its rule says. -/
theorem bridgeAndPortRowsComplete : Obligations.BridgeAndPortRowsComplete := by
  unfold Obligations.BridgeAndPortRowsComplete
  refine ⟨fun bridge s hb hup hconv => ?bridgeDown,
    fun port good s hlo hhi hlost => ?laneFailure, fun port f s hon => ?flitReceive,
    fun port good s hstep hstate hlanes => ?trainingDone, fun port o s hstep hstate hcomp hcipher hmod => ?hello,
    fun port identity sig s hstate hgood => ?keyConfirm,
    fun port s => ⟨fun hstate hstep htime => ?bringupRetry, fun hframes => ?frameCountRekey, fun hre => ?rekeyDone,
      fun hlo hhi htime => ?ackInterval⟩⟩
  case bridgeDown =>
    exact if_neg (not_or_intro (by omega) (not_or_intro (Bool.eq_false_iff.1 hup) (not_not_intro hconv)))
  case laneFailure =>
    have hdue : ¬ ((s.port port.toNat).state < 3 ∨ 5 < (s.port port.toNat).state ∨ good = 0xFF) :=
      not_or_intro (by omega) (not_or_intro (by omega) hlost)
    exact ⟨fun hnone => (if_neg hdue).trans (if_pos hnone), fun hsome => (if_neg hdue).trans (if_neg hsome)⟩
  case flitReceive => exact if_neg hon
  case trainingDone => exact (if_neg (not_not_intro ⟨hstep, hstate⟩)).trans (if_neg hlanes)
  case hello =>
    refine ⟨_, (if_neg (not_not_intro ⟨hstep, hstate⟩)).trans ((if_neg (not_not_intro hcomp)).trans
      ((if_neg fun h => hmod h.2).trans (if_pos hcipher))), ?_⟩
    rw [State.port_setPort_same]
    exact ⟨rfl, rfl, rfl, rfl, beq_iff_eq.2 hcipher, fun v hv => tabGet_map_range _ 16 v hv⟩
  case keyConfirm =>
    refine (if_neg (not_not_intro ⟨hstate, hgood.symm.imp_left And.left⟩)).trans ((if_neg ?_).trans ?_)
    · rintro ⟨hstep, hbad⟩
      rcases hgood with hfour | ⟨-, hsig, hid⟩
      · omega
      · rcases hbad with hzero | hother
        · exact absurd (hsig.symm.trans hzero) (by decide)
        · exact Bool.eq_false_iff.1 (any_identity_ne_eq_false hid) hother
    · simp only [Option.isNone_iff_eq_none]
  case bringupRetry =>
    exact if_neg (not_or_intro (not_not_intro hstate) (not_or_intro (not_not_intro hstep) (by omega)))
  case frameCountRekey => exact if_neg (by omega)
  case rekeyDone => exact if_neg (not_not_intro hre)
  case ackInterval => exact if_neg (by omega)

end Sys2Proof.Machine
end

section
/-! SUPPORT. What is burnt over a step (R41, R43, R44, R414, R421, R447). -/

namespace Sys2Proof.Machine

theorem step_front {c : Instr} {rest : List Instr} {s : State} (h : s.pending = c :: rest) :
    step s = exec c { s with pending := rest } := by
  simp [step, h]

/-- The fuses are part of the security root's state, so what leaves that alone keeps what is burnt. -/
theorem burnt_of_sec_eq {s t : State} (h : t.sec = s.sec) : Burnt s t := by
  constructor <;> simp [State.author, h]

/-- Settles O38: an idle step advances counts only, and every command keeps what is burnt. -/
theorem fusesOnlyBurn : Obligations.FusesOnlyBurn := by
  unfold Obligations.FusesOnlyBurn
  intro s t hstep
  cases hq : s.pending with
  | nil =>
    cases (step_idle hq).symm.trans hstep
    exact burnt_of_sec_eq rfl
  | cons c rest =>
    have hexec : exec c { s with pending := rest } = .next t := (step_front hq).symm.trans hstep
    exact burnt_trans (b := { s with pending := rest }) (burnt_of_sec_eq rfl) (exec_kept hexec).burnt

end Sys2Proof.Machine
end

section
/-! SUPPORT. The general checks as one list in the order of R459, for a command whose operands are in order. -/

namespace Sys2Proof.Machine

/-- The operands of the command are in order (R457, R458): INDIRECT is set exactly where they exceed 56 bytes, the buffer then has
their length rounded up to 8 bytes and can be read, and no reserved bit is set. -/
structure OperandsFit (c : CmdSpec) (h : Hdr) : Prop where
  indirect : h.indirect = true ↔ 56 < packLen c.widths
  buffer : h.indirect = true → h.indLen.toNat % 8 = 0 ∧ packLen c.widths ≤ h.indLen.toNat ∧
    h.indLen.toNat < packLen c.widths + 8 ∧ h.indLen.toNat ≤ 4096 ∧ h.indOk = true
  reserved : h.rsvd = none

/-- What is left of the general checks then: the command's functions (R460), the admin queue, the thermal shutdown (R516), Hibernate
(R499), recovery (R505) and no image (R52); log entries 42 and 62 have the last four. -/
def State.stateChecks (s : State) (c : CmdSpec) (h : Hdr) : List (Bool × Nat) :=
  [(decide (¬ c.fns.has h.fn.toNat), c.priv),
   (decide (c.admin ∧ h.sq.toNat ≠ h.fn.toNat), eBadQueue),
   (decide (s.pkg.shutdown ∧ ¬ c.wedge), eThermal),
   (decide (s.hibernating ∧ ¬ c.hibernate ∧ ¬ c.wedge), ePowerState),
   (decide (s.fld .fwStatus 0 0 7 1 = 1 ∧ ¬ c.recovery ∧ ¬ c.wedge), eNoImage),
   (decide (s.img.running.isNone ∧ ¬ (c.noImage ∧ h.fn = 0) ∧ ¬ c.wedge), eNoImage)]

theorem firstFail_cons_of {p : Prop} [Decidable p] (code : Nat) (l : List (Bool × Nat)) (hp : p) :
    firstFail ((decide p, code) :: l) = some code := by
  simp [firstFail, hp]

theorem firstFail_cons_of_not {p : Prop} [Decidable p] (code : Nat) (l : List (Bool × Nat)) (hp : ¬ p) :
    firstFail ((decide p, code) :: l) = firstFail l := by
  simp [firstFail, hp]

theorem divUp_eight_mul_of_window {need n : Nat} (hn : n % 8 = 0) (hlo : need ≤ n) (hhi : n < need + 8) : divUp need 8 * 8 = n := by
  unfold divUp
  omega

theorem State.generalCheck_of_operandsFit {s : State} {c : CmdSpec} {h : Hdr} (hfit : OperandsFit c h) :
    s.generalCheck c h = (firstFail (s.stateChecks c h)).map (·, 0) := by
  obtain ⟨hind, hbuf, hrsvd⟩ := hfit
  have hset : h.indirect = decide (packLen c.widths > 56) := Bool.eq_iff_iff.2 (hind.trans decide_eq_true_iff.symm)
  have hlen : ¬ (h.indirect = true ∧ (h.indLen.toNat ≠ divUp (packLen c.widths) 8 * 8 ∨ h.indLen.toNat > 4096)) := by
    rintro ⟨hi, hbad⟩
    obtain ⟨hmod, hlo, hhi, hmax, -⟩ := hbuf hi
    have := divUp_eight_mul_of_window hmod hlo hhi
    omega
  have hread : ¬ (h.indirect = true ∧ ¬ h.indOk = true) := by
    rintro ⟨hi, hbad⟩
    obtain ⟨-, -, -, -, hok⟩ := hbuf hi
    exact hbad hok
  simp only [State.generalCheck, if_neg (not_not_intro hset), if_neg hlen, if_neg hread, hrsvd, State.stateChecks, firstFail,
    decide_eq_true_eq, apply_ite (Option.map (·, 0)), Option.map_some, Option.map_none]

/-- Settles O43: the checks that follow those of the operands are a list, of which the first that fails answers. -/
theorem functionAndPowerChecks : Obligations.FunctionAndPowerChecks := by
  unfold Obligations.FunctionAndPowerChecks
  intro c h s need n fn hind hbuf hrsvd
  rw [State.generalCheck_of_operandsFit ⟨hind, hbuf, hrsvd⟩, State.stateChecks]
  refine ⟨fun hfn => ?function, fun hfn hadmin hsq => ?queue, fun hfn hsq => ⟨fun hwedge => ?wedge, fun hwedge hshut => ?thermal,
    fun hwedge hshut hhib hno => ?hibernate, fun hwedge hshut hhib hfw himg hno => ?image⟩⟩
  case function => rw [firstFail_cons_of _ _ (by simpa using hfn)]; rfl
  case queue => rw [firstFail_cons_of_not _ _ (by simpa using hfn), firstFail_cons_of _ _ ⟨hadmin, hsq⟩]; rfl
  all_goals rw [firstFail_cons_of_not _ _ (by simpa using hfn), firstFail_cons_of_not _ _ (by simpa using hsq)]
  case wedge => simp [firstFail, hwedge]
  case thermal => rw [firstFail_cons_of _ _ (by simp [hshut, hwedge])]; rfl
  case hibernate =>
    rw [firstFail_cons_of_not _ _ (by simp [hshut]), firstFail_cons_of _ _ (by simp [hhib, hno, hwedge])]; rfl
  case image =>
    have hfn0 : c.noImage = true → h.fn ≠ 0 := by
      intro himage hzero
      rcases hno with hnot | hnot
      · simp [himage] at hnot
      · exact hnot (by simp [fn, hzero])
    rw [firstFail_cons_of_not _ _ (by simp [hshut]), firstFail_cons_of_not _ _ (by rcases hhib with e | e <;> simp [e]),
      firstFail_cons_of_not _ _ (by simp [hfw]), firstFail_cons_of _ _ (by simpa [himg, hwedge] using hfn0)]
    rfl

end Sys2Proof.Machine
end

section
/-! SUPPORT. The image, author and generation commands: each past its own checks (R44, R45, R417, R421, R447). -/

namespace Sys2Proof.Machine

/-- An image takes the place of the staged one: what was staged goes first, then its own hash is measured (R48 steps 2
and 5). -/
def State.withStaged (s : State) (i : Image) : State :=
  let dropped := ({ s with img := { s.img with staged := none } }).setStaged none
  let u := if s.img.staged.isSome then dropped.genUp else dropped
  (({ u with img := { u.img with staged := some i } }).setStaged (some i.hash)).genUp

theorem State.withStaged_staged (s : State) (i : Image) : (s.withStaged i).img.staged = some i := by
  simp only [State.withStaged, State.genUp_img, setStaged_img]

/-- An image that passes all its checks is staged; MODE 1 ends there, MODE 0 begins the load of it (R48, R51). -/
theorem State.stage_of_checks {s : State} {b : Bytes} {len : Nat} {i : Image} (mode : Nat) (t : Tag)
    (hi : imageOf b ((s.authorSlot b).getD 0) = i) (hok : firstFail (s.imageChecks b len ++ s.acceptChecks i) = none) :
    s.stage (some b) len mode t =
      if mode = 1 then .done ((s.withStaged i).lastErr eOk) else .later ((s.withStaged i).startLoad i (some t)) := by
  unfold State.stage
  extract_lets dropped u
  simp only [hi, hok]
  rfl

/-- IMAGE_LOAD is accepted, and what it needs whatever its MODE holds (R45): the self-tests are over, IMG_CTRL is not locked, no load
is under way and the generations are not spent. -/
structure ImageLoadReady (h : Hdr) (s : State) : Prop where
  tested : s.module ≠ 0
  accepted : Accepts { fns := .pf0, priv := eImgPriv, widths := [64, 32, 2], noImage := true } h s
  unlocked : (Fetched h s).fld .imgCtrl 0 0 0 1 = 0
  idle : (Fetched h s).img.load = none
  unspent : (Fetched h s).spent = false

/-- IMAGE_LOAD of MODE 0 or 1, past the checks of R45, stages the bytes it has fetched. -/
theorem execImageLoad_stages {h : Hdr} {src : U64} {len : U32} {mode : BitVec 2} {s : State} {b : Bytes} {i : Image}
    (hready : ImageLoadReady h s) (hmode : mode.toNat < 2)
    (hread : (Fetched h s).hostRead src.toNat len.toNat = some b) (hlen : len.toNat ≤ 2 ^ 26)
    (hi : imageOf b (((Fetched h s).authorSlot b).getD 0) = i)
    (hok : firstFail ((Fetched h s).imageChecks b len.toNat ++ (Fetched h s).acceptChecks i) = none) :
    execImageLoad h src len mode s = .next (if mode = 1
      then Ended (((Fetched h s).withStaged i).lastErr eOk) (TagOf h s) 0 []
      else ((Fetched h s).withStaged i).startLoad i (some (TagOf h s))) := by
  obtain ⟨hmod, ha, hlock, hload, hspent⟩ := hready
  refine (if_neg hmod).trans ?_
  have hne2 : (mode == 2) = false := beq_false_of_ne fun e => by subst e; exact absurd hmode (by decide)
  have hne3 : (mode == 3) = false := beq_false_of_ne fun e => by subst e; exact absurd hmode (by decide)
  have hchecks : firstFail [((Fetched h s).fld .imgCtrl 0 0 0 1 == 1, eImgLocked), ((Fetched h s).img.load.isSome, eImgBusy),
      (mode == 3, eReservedSet), ((Fetched h s).spent, eGenExhausted),
      (mode == 2 && (Fetched h s).img.staged.isNone, eNoImage)] = none := by
    simp only [firstFail, hlock, hload, hspent, hne2, hne3]
    rfl
  have hstage := State.stage_of_checks mode.toNat (TagOf h s) hi hok
  by_cases hone : mode = 1
  · rw [if_pos hone]
    refine hostCmd_done ha ((checked_ok hchecks).trans ?_)
    simp only [hne2, if_pos hlen, hread]
    exact hstage.trans (if_pos (congrArg BitVec.toNat hone))
  · rw [if_neg hone]
    refine hostCmd_later ha ((checked_ok hchecks).trans ?_)
    have hnat : mode.toNat ≠ 1 := fun e => hone (BitVec.eq_of_toNat_eq e)
    simp only [hne2, if_pos hlen, hread]
    exact hstage.trans (if_neg hnat)

/-- IMAGE_LOAD of MODE 2 begins the load of the staged image. -/
theorem execImageLoad_loads_staged {h : Hdr} {s : State} {i : Image} (src : U64) (len : U32)
    (hready : ImageLoadReady h s) (hstaged : (Fetched h s).img.staged = some i) :
    execImageLoad h src len 2 s = .next ((Fetched h s).startLoad i (some (TagOf h s)) true) := by
  obtain ⟨hmod, ha, hlock, hload, hspent⟩ := hready
  refine (if_neg hmod).trans (hostCmd_later ha ((checked_ok ?_).trans ?_))
  · simp [firstFail, hlock, hload, hspent, hstaged]
  · simp only [hstaged]
    rfl

/-- Settles O9: each command passes the checks of its own, and then does what its rule says. -/
theorem imageAndGenerationCommandsComplete : Obligations.ImageAndGenerationCommandsComplete := by
  unfold Obligations.ImageAndGenerationCommandsComplete
  refine ⟨fun h src len mode s hmod ha hlock hload hspent => ⟨fun b hmode hread hlen hok => ?stage, fun i hmode hstaged _ => ?staged⟩,
    fun h tokenAddr s b k hmod ha hlock hread htoken hfree => ?enrol, fun h slot s ha hlock hlo hhi => ?revoke,
    fun h s g hmod happroved ha hnext huse => ?keygen, fun h gen s hmod happroved ha hlast hlive hcur huse => ?retire,
    fun h s ha => ?zeroize⟩
  case stage =>
    have hstages := execImageLoad_stages ⟨hmod, ha, hlock, hload, hspent⟩ hmode hread hlen rfl hok
    refine ⟨(Fetched h s).withStaged _, fun hone => hstages.trans ?_, fun hzero => hstages.trans ?_, State.withStaged_staged _ _⟩
    · rw [if_pos hone]; rfl
    · rw [if_neg (by simp [hzero])]
  case staged =>
    subst hmode
    exact execImageLoad_loads_staged src len ⟨hmod, ha, hlock, hload, hspent⟩ hstaged
  case enrol =>
    refine (if_neg hmod).trans (hostCmd_done ha ((checked_ok ?_).trans ?_))
    · simp [firstFail, hlock]
    · simp only [hread, htoken, hfree, not_true_eq_false, if_false]
  case revoke =>
    simp only [exec, execRevokeAuthor]
    refine hostCmd_done ha (checked_ok ?_)
    have hslot : slot ≠ 0#32 := fun e => by simp [e] at hlo
    simp [firstFail, hlock, hslot, Nat.not_lt.2 hhi]
  case keygen =>
    refine (if_neg hmod).trans (hostCmd_done ha ((checked_ok ?_).trans ?_))
    · simp [firstFail, happroved, hnext, Nat.not_le.2 huse]
    · simp only [hnext, Option.getD_some]
  case retire =>
    refine (if_neg hmod).trans (hostCmd_done ha (checked_ok ?_))
    simp [firstFail, happroved, hlive, huse, hcur, Nat.not_lt.2 hlast]
  case zeroize =>
    simp only [exec, execZeroize]
    exact hostCmd_later ha rfl

end Sys2Proof.Machine
end

section
/-! SUPPORT. The session commands: what the table *Season transitions* makes of CLOSE, PARK and THAW by season and operation (R71, R107,
R112), where a REQUEST is stored (R69), and a command of a tail with no member below it (R67). -/

namespace Sys2Proof.Machine

/-! ### What waits beside a descriptor -/

/-- A CLOSE of a Summer session kept for the end of its step (R71). -/
def State.closeMarked (s : State) (i : Nat) (t : Tag) : State :=
  { s.setAx i { s.ax i with closeAtEnd := true, closeTag := some t } with
    srv := { s.srv with causes := tabPut s.srv.causes i eSessionClosed } }

theorem State.closeMarked_ax (s : State) (i : Nat) (t : Tag) :
    (s.closeMarked i t).ax i = { s.ax i with closeAtEnd := true, closeTag := some t } :=
  State.setAx_ax_same s i _

/-- A THAW kept for the end of the thaw that runs, behind those that wait already (R116). -/
def State.thawJoined (s : State) (i : Nat) (t : Tag) : State :=
  s.setAx i { s.ax i with thawTags := (s.ax i).thawTags ++ [t] }

theorem State.thawJoined_thawTags (s : State) (i : Nat) (t : Tag) :
    ((s.thawJoined i t).ax i).thawTags = (s.ax i).thawTags ++ [t] :=
  congrArg DescAux.thawTags (State.setAx_ax_same s i _)

/-! ### The table *Season transitions*, a case at a time -/

section
variable {s : State} {i : Nat} {t : Tag}

theorem State.closeBody_autumn (hc : s.closing i = false) (hs : (s.d i).season = .autumn) (ho : (s.d i).op = .none) :
    s.closeBody i t = .later (s.toClosing i (some t)) := by
  simp [State.closeBody, hc, hs, ho]

theorem State.closeBody_parkHost (hc : s.closing i = false) (hs : (s.d i).season = .autumn) (ho : (s.d i).op = .parkHost) :
    s.closeBody i t = .later ((s.stopPark i eSessionClosed).toClosing i (some t)) := by
  simp [State.closeBody, hc, hs, ho]

theorem State.closeBody_parkOwn (hc : s.closing i = false) (hs : (s.d i).season = .autumn) (ho : (s.d i).op = .parkOwn) :
    s.closeBody i t = .later ((s.stopPark i eOk).toClosing i (some t)) := by
  simp [State.closeBody, hc, hs, ho]

theorem State.closeBody_summer (hc : s.closing i = false) (hs : (s.d i).season = .summer) :
    s.closeBody i t = .later (s.closeMarked i t) := by
  simp only [State.closeBody, hc, hs, Bool.false_eq_true, if_false]
  rfl

theorem State.closeBody_thaw (hc : s.closing i = false) (hs : (s.d i).season = .spring) (ho : (s.d i).op = .thaw) :
    s.closeBody i t = .later ((s.stopThaw i eSessionClosed).toClosing i (some t)) := by
  simp [State.closeBody, hc, hs, ho]

theorem State.closeBody_winter (hc : s.closing i = false) (hs : (s.d i).season = .winter) (ho : (s.d i).op = .none) :
    s.closeBody i t = .later (s.toClosing i (some t)) := by
  simp [State.closeBody, hc, hs, ho]

theorem State.parkSeason_autumn (hc : s.closing i = false) (hs : (s.d i).season = .autumn) (ho : (s.d i).op = .none)
    (hr : (s.d i).liveReq = false) : s.parkSeason i = none := by
  simp [State.parkSeason, hc, hs, ho, hr]

theorem State.thawBody_parkHost {stream : Bool} (hc : s.closing i = false) (hs : (s.d i).season = .autumn)
    (ho : (s.d i).op = .parkHost) : s.thawBody i stream t = .done (s.stopPark i eParkCancelled) := by
  simp [State.thawBody, hc, hs, ho]

theorem State.thawBody_parkOwn {stream : Bool} (hc : s.closing i = false) (hs : (s.d i).season = .autumn)
    (ho : (s.d i).op = .parkOwn) : s.thawBody i stream t = .done (s.stopPark i eOk) := by
  simp [State.thawBody, hc, hs, ho]

/-- A THAW joins a run-ahead thaw, whose operation becomes LC; the descriptor stays (R98, R116). -/
theorem State.thawBody_runahead {stream : Bool} (hc : s.closing i = false) (hs : (s.d i).season = .spring)
    (ho : (s.d i).op = .thaw) (hr : (s.d i).runahead = true) :
    ∃ z, s.thawBody i stream t = .later z ∧ (z.ax i).thawTags = (s.ax i).thawTags ++ [t] ∧ z.d i = s.d i := by
  have htags := s.thawJoined_thawTags i t
  cases hop : (s.thawJoined i t).opOf i with
  | none =>
    refine ⟨s.thawJoined i t, ?_, htags, rfl⟩
    rw [State.thawJoined] at hop
    simp [State.thawBody, State.thawJoined, hc, hs, ho, hr, hop]
  | some o =>
    refine ⟨(s.thawJoined i t).setOp { o with lc := true }, ?_, htags, rfl⟩
    rw [State.thawJoined] at hop
    simp [State.thawBody, State.thawJoined, hc, hs, ho, hr, hop]

theorem State.thawBody_winter {stream : Bool} {c : Canvas} (hc : s.closing i = false) (hs : (s.d i).season = .winter)
    (ho : (s.d i).op = .none) (hok : s.thawChecks i = .ok c) :
    s.thawBody i stream t = .later ((s.startThaw i c stream false).setAx i
      { (s.startThaw i c stream false).ax i with thawTags := [t] }) := by
  simp [State.thawBody, State.thawWinter, hc, hs, ho, hok]

end

/-! ### Requests and rings -/

/-- A new request goes to PENDING behind a live one, else to ACTIVE, with the next place in the order of acceptance (R69, R245). -/
theorem State.storeReq_d (s : State) (i : Nat) (r : Request) :
    (s.storeReq i r).d i =
      if (s.d i).active.live = true then { s.d i with pending := { r with order := s.srv.acceptCtr + 1 } }
      else { s.d i with active := { r with order := s.srv.acceptCtr + 1 } } := by
  have hd : ({ s with srv := { s.srv with acceptCtr := s.srv.acceptCtr + 1 } } : State).d i = s.d i := rfl
  simp only [State.storeReq, hd]
  cases (s.d i).active.live <;> cases (s.d i).windowBase != 0 <;> simp

theorem State.ringChain_ringPos_zero {s : State} {i : Nat} (n : Nat) (h : (s.d i).ringPos = 0) : s.ringChain n i = ([i], none) := by
  cases n <;> simp [State.ringChain, h]

/-- At position 0 no member lies below, so a command of the tail is carried to none (R67). -/
theorem State.carry_ringPos_zero {s : State} {i : Nat} (o : RingOps) (f : State → Nat → State) (h : (s.d i).ringPos = 0) :
    s.carry i o f = s := by
  simp [State.carry, State.ringChain_ringPos_zero 64 h]

/-! ### The commands, past their handles -/

theorem execClose_later {h : Hdr} {handle : U64} {s z : State} {i : Nat} (ha : Accepts { widths := [64], entry := handleNode handle } h s)
    (hi : (Fetched h s).closeHandle h.fn.toNat handle = .ok i) (hb : (Fetched h s).closeBody i (TagOf h s) = .later z) :
    execClose h handle s = .next z :=
  hostCmd_later ha ((withIndex_ok hi).trans hb)

section
variable {h : Hdr} {handle : U64} {stream : U1} {s z : State} {i : Nat}
  (ha : Accepts { widths := [64, 1], entry := handleNode handle } h s) (hi : (Fetched h s).tailHandle h.fn.toNat handle = .ok i)
  (hload : (Fetched h s).loading ((Fetched h s).d i).slice = false)
include ha hi hload

theorem execThaw_done (hb : (Fetched h s).thawBody i (stream == 1) (TagOf h s) = .done z) :
    execThaw h handle stream s = .next (Ended (z.carryThaw i (stream == 1) true) (TagOf h s) 0 []) :=
  hostCmd_done ha ((withIndex_ok hi).trans ((if_neg (Bool.eq_false_iff.1 hload)).trans (by rw [hb]; rfl)))

theorem execThaw_later (hb : (Fetched h s).thawBody i (stream == 1) (TagOf h s) = .later z) :
    execThaw h handle stream s = .next (z.carryThaw i (stream == 1) true) :=
  hostCmd_later ha ((withIndex_ok hi).trans ((if_neg (Bool.eq_false_iff.1 hload)).trans (by rw [hb]; rfl)))

end

/-- Settles O2: each command passes the checks of its chapter, and its season and operation say what it begins. That PARK and THAW are
carried to the other members by RING_CMD is the model's choice (log entry 86). -/
theorem sessionCommandsComplete : Obligations.SessionCommandsComplete := by
  unfold Obligations.SessionCommandsComplete
  refine ⟨fun h r s i q ha hi hc hact hpend hfull hflags hkind hring hother hcredit hsampler hdead => ?request,
    fun u i r => ⟨fun hlive => ?pending, fun hlive => ?active⟩,
    fun h o s i hgesso ha hdef hload hchecks hempty => ?openSession,
    fun h handle s i ha hi hc hseason => ?close,
    fun h handle tier deep compress hostAddr hostLen s i x ha hi hc hs ho hlive hhost htarget => ?park,
    fun u i o f hpos => State.carry_ringPos_zero o f hpos,
    fun h handle stream s i ha hi hc hload => ⟨fun hs ho => ?parkHost, fun hs ho => ?parkOwn, fun hs ho hahead => ?runahead,
      fun c hs ho hok => ?winter⟩⟩
  case request =>
    refine ⟨if ((Fetched h s).d i).season == .autumn && ((Fetched h s).d i).op == .parkOwn
        then ((Fetched h s).storeReq i (reqEntry r (TagOf h s))).stopPark i eOk
        else (Fetched h s).storeReq i (reqEntry r (TagOf h s)), ?_, fun hno => if_neg ?other, fun hpark => if_pos ?own⟩
    · dsimp only [exec]
      refine hostCmd_later ha ((withIndex_ok hi).trans ((if_neg (Bool.eq_false_iff.1 hc)).trans
        ((if_neg ?fresh).trans (checked_ok ?checks))))
      case fresh => simpa using not_or_intro hact hpend
      case checks =>
        have hroom : ¬ (((Fetched h s).d i).active.names r.tokenRing.toNat = true ∧ q.credit ≤ 1) := fun hn =>
          absurd (hcredit hn.1) (Nat.not_le.2 (Nat.lt_succ_of_le hn.2))
        simpa [firstFail, hfull, Nat.not_le.2 hflags, hkind, hring, hother, hroom, hsampler]
          using fun hset => hdead.resolve_left hset
    case other => simpa using hno
    case own => simpa using hpark
  case pending => rw [State.storeReq_d, if_pos hlive]
  case active => rw [State.storeReq_d, if_neg (Bool.eq_false_iff.1 hlive)]
  case openSession =>
    refine (if_neg (Bool.eq_false_iff.1 hgesso)).trans (hostCmd_done ha ((checked_ok ?_).trans ?_))
    · simpa [firstFail, hdef, hload] using hchecks
    · simp only [hempty]; rfl
  case close =>
    have hclose {z} (hb : (Fetched h s).closeBody i (TagOf h s) = .later z) : exec (.closeSession h handle) s = .next z :=
      execClose_later ha hi hb
    rcases hseason with ⟨hs, ho | ho | ho⟩ | hs | ⟨hs, ho⟩ | ⟨hs, ho⟩
    · exact ⟨_, hclose (State.closeBody_autumn hc hs ho), by simp [hs, ho]⟩
    · exact ⟨_, hclose (State.closeBody_parkHost hc hs ho), by simp [hs, ho, eSessionClosed]⟩
    · exact ⟨_, hclose (State.closeBody_parkOwn hc hs ho), by simp [hs, ho, eOk]⟩
    · have hax := (Fetched h s).closeMarked_ax i (TagOf h s)
      exact ⟨_, hclose (State.closeBody_summer hc hs), by simp [hs, hax]; rfl⟩
    · exact ⟨_, hclose (State.closeBody_thaw hc hs ho), by simp [hs, ho, eSessionClosed]⟩
    · exact ⟨_, hclose (State.closeBody_winter hc hs ho), by simp [hs, ho]⟩
  case park =>
    dsimp only [exec]
    refine hostCmd_later ha ((withIndex_ok hi).trans ?_)
    simp only [State.parkSeason_autumn hc hs ho hlive]
    refine (if_neg fun hbad => hbad.2 (hhost hbad.1).1).trans
      ((if_neg fun hbad => absurd (hhost hbad.1).2 (Nat.not_le.2 hbad.2)).trans ?_)
    simp only [htarget]
  case parkHost => exact execThaw_done ha hi hload (State.thawBody_parkHost hc hs ho)
  case parkOwn => exact execThaw_done ha hi hload (State.thawBody_parkOwn hc hs ho)
  case runahead =>
    obtain ⟨z, hz, htags, hd⟩ := State.thawBody_runahead hc hs ho hahead
    exact ⟨z, execThaw_later ha hi hload hz, htags, hd⟩
  case winter => exact execThaw_later ha hi hload (State.thawBody_winter hc hs ho hok)

end Sys2Proof.Machine
end

section
/-! SUPPORT. Session control: SET_SESSION, SESSION_QUERY, CANCEL, MIGRATE, FORK and RING_EXTEND past their own checks (R62, R79, R86, R120,
R169, R264). -/

namespace Sys2Proof.Machine

/-! ### SET_SESSION and SESSION_QUERY -/

theorem State.setPolicy_d_ne (s : State) {i j : Nat} (flags budget dclass mirror : Nat) (h : j ≠ i) :
    (s.setPolicy i flags budget dclass mirror).d j = s.d j :=
  State.setD_d_ne _ _ _ _ h

/-- A DCLASS and a MIRROR_DEV that are the session's own, or that its season lets it change, are its DCLASS and MIRROR_DEV then (R79). -/
theorem State.setPolicy_d_same {s : State} {i : Nat} (flags budget : Nat) {dclass mirror : Nat}
    (h : (dclass = (s.d i).dclass ∧ mirror = (s.d i).mirrorDev) ∨ ((s.d i).season = .autumn ∧ (s.d i).op = .none)) :
    (s.setPolicy i flags budget dclass mirror).d i = { s.d i with
      pinned := flags % 2 == 1, deepOk := flags / 32 % 2 == 1, pageBudget := budget, dclass := dclass, mirrorDev := mirror } := by
  have hpinned : bitAt flags 0 = (flags % 2 == 1) := by rw [bitAt, pow_zero, Nat.div_one]
  have hdeep : bitAt flags 5 = (flags / 32 % 2 == 1) := rfl
  rw [State.setPolicy, State.setD_d_same, hpinned, hdeep]
  split
  · rfl
  · next hfix =>
    obtain ⟨hclass, hmirror⟩ := h.resolve_right hfix
    rw [hclass, hmirror]

/-! ### MIGRATE, FORK and RING_EXTEND -/

section
variable {s : State} {i : Nat} {t : Tag}

/-- The seasons a session can be given away from: Autumn at rest, Winter at rest, and a run-ahead thaw (R120). -/
theorem State.migrateSeason_none (hc : s.closing i = false)
    (hs : (s.d i).season = .autumn ∧ (s.d i).op = .none ∧ (s.d i).liveReq = false ∨ (s.d i).season = .winter ∧ (s.d i).op = .none ∨
      (s.d i).season = .spring ∧ (s.d i).op = .thaw ∧ (s.d i).runahead = true) : s.migrateSeason i = none := by
  rcases hs with ⟨hs, ho, hr⟩ | ⟨hs, ho⟩ | ⟨hs, ho, hr⟩
  · simp [State.migrateSeason, hc, hs, ho, hr]
  · simp [State.migrateSeason, hc, hs, ho]
  · simp [State.migrateSeason, hc, hs, ho, hr]

theorem State.forkBody_summer {count idsAddr outAddr : Nat} (hlo : 1 ≤ count) (hhi : count ≤ 64) (hc : s.closing i = false)
    (hs : (s.d i).season = .summer) : s.forkBody i count idsAddr outAddr t =
      .later { s with srv := { s.srv with forks := s.srv.forks ++ [(i, [count, idsAddr, outAddr], t)] } } := by
  simp [State.forkBody, Nat.ne_of_gt hlo, Nat.not_lt.2 hhi, hc, hs]

theorem State.forkBody_autumn {count idsAddr outAddr : Nat} (hlo : 1 ≤ count) (hhi : count ≤ 64) (hc : s.closing i = false)
    (hs : (s.d i).season = .autumn) (ho : (s.d i).op = .none) :
    s.forkBody i count idsAddr outAddr t = s.forkCore i count idsAddr outAddr t := by
  simp [State.forkBody, Nat.ne_of_gt hlo, Nat.not_lt.2 hhi, hc, hs, ho]

end

/-- The checks of R120: a target off the ring that can be reached, a composition key for what must be sealed, and a whole canvas under no
key of this device alone where the session lies in one. -/
theorem State.migrateChecks_ok {s : State} {i member dev tier n : Nat} (hring : member < (s.d i).ringSize)
    (hin : s.inRing i dev = false) (htier : tier ≠ 3) (hdev : s.devNo = some n) (hreach : s.reachable (s.d i).slice dev = true)
    (hseal : ¬ ((s.d i).prot = true ∧ s.sec.csk = none))
    (hcanvas : (s.d i).season = .winter ∨ (s.d i).season = .spring →
      ∃ c, s.canvasFor (s.d i) = some c ∧ c.complete = true ∧ c.sealMode ≠ 1)
    (hepoch : (s.d i).ownerEpoch < 0xFFFFFFFF) : firstFail (s.migrateChecks i member dev tier) = none := by
  have hmember := Nat.not_le.2 hring
  have hcount := Nat.not_le.2 hepoch
  by_cases hrest : (s.d i).season = .winter ∨ (s.d i).season = .spring
  · obtain ⟨c, hc, hcomplete, hmode⟩ := hcanvas hrest
    simp [firstFail, State.migrateChecks, hrest, hc, hcomplete, hmode, hmember, hin, htier, hdev, hreach, hseal, hcount]
  · simp [firstFail, State.migrateChecks, hrest, hmember, hin, htier, hdev, hreach, hseal, hcount]

/-- The checks of R169: the tail has no next member and none is on its way, the ring is not full, the device is off the ring and can be
reached. -/
theorem State.extendChecks_ok {s : State} {i dev n : Nat} (hnext : (s.d i).ringNext = 0xFFFF)
    (hrelay : ∀ r ∈ s.comp.relays, ¬ (r.kind = 3 ∧ r.index = i)) (hsize : (s.d i).ringSize ≠ 64) (hdev : s.devNo = some n)
    (hin : s.inRing i dev = false) (hreach : s.reachable (s.d i).slice dev = true) : firstFail (s.extendChecks i dev) = none := by
  have hnone : (s.comp.relays.any fun r => r.kind == 3 && r.index == i) = false := by simpa using hrelay
  simp [firstFail, State.extendChecks, hnext, hnone, hsize, hdev, hin, hreach]

/-- Settles O3: each command passes the checks of its own, and then does what its rule says. That SET_SESSION is carried to the other
members by RING_CMD, and that a value equal to the session's own is no change, are the model's choices (log entries 86 and 19). -/
theorem sessionControlCompletes : Obligations.SessionControlCompletes := by
  unfold Obligations.SessionControlCompletes
  refine ⟨fun h o s i ha hi hused hclosing htail hc hrsvd hdc hpm hmove =>
      ⟨?setSession, State.setPolicy_d_same _ _ (hmove.imp_right fun hfree => ⟨hfree.1, hfree.2.1⟩),
        fun j hj => State.setPolicy_d_ne _ _ _ _ _ hj, rfl⟩,
    fun h handle outAddr s i ha hi hused hhost => ?sessionQuery,
    fun h handle requestId s i ha hi hc => ⟨fun hlive hid => ?cancelPending, fun hpend hid hact => ?cancelActive⟩,
    fun h handle member dev slice tier s i n ha hi hc hseason hmember hring hdev hin htier hreach hseal hcanvas hepoch => ?migrate,
    fun h handle count ids out s i ha hi hc hlo hhi => ⟨fun hs => ?forkSummer, fun t st r hs ho hcore => ?forkDone,
      fun t hs ho hcore => ?forkLater⟩,
    fun h handle dev slice s i n ha hi hc hnext hrelay hsize hdev hin hreach => ?ringExtend⟩
  all_goals dsimp only [exec]
  case setSession =>
    refine hostCmd_done ha ((withIndex_ok hi).trans (checked_ok ?_))
    have hclass : bitsOf o.flags.toNat 2 2 = o.flags.toNat / 4 % 4 := rfl
    simp only [hclass]
    generalize o.flags.toNat / 4 % 4 = dc at hdc hmove ⊢
    generalize (if dc = 1 then o.mirrorDev.toNat else 0xFFFF) = mir at hmove ⊢
    rcases hmove with ⟨hdclass, hmirror⟩ | ⟨hs, ho, hreach⟩
    · simp [firstFail, hused, hclosing, htail, hc, hrsvd, hpm, hdc, ← hdclass, ← hmirror]
    · by_cases hone : dc = 1
      · simp [firstFail, hused, htail, hc, hrsvd, hpm, hs, ho, hone, hreach hone]
      · simp [firstFail, hused, htail, hc, hrsvd, hpm, hdc, hs, ho, hone]
  case sessionQuery =>
    exact hostCmd_done ha ((withIndex_ok hi).trans ((if_neg (not_not_intro hused)).trans (if_pos hhost)))
  case cancelPending =>
    exact hostCmd_done ha ((withIndex_ok hi).trans ((if_neg (Bool.eq_false_iff.1 hc)).trans
      (if_pos (by rw [hlive, hid, beq_self_eq_true, Bool.and_self]))))
  case cancelActive =>
    have hother : ¬ (((Fetched h s).d i).pending.live && ((Fetched h s).d i).pending.requestId == requestId) = true := by
      simpa using hpend
    have hnamed : ¬ (((Fetched h s).d i).active.requestId ≠ requestId ∨ (((Fetched h s).d i).active == {}) = true) := by
      simpa [hid] using hact
    refine ⟨fun hdone => ?done, fun hlive hs => ?rest, fun hlive hs => ?summer⟩
    case done =>
      exact hostCmd_done ha ((withIndex_ok hi).trans ((if_neg (Bool.eq_false_iff.1 hc)).trans ((if_neg hother).trans
        ((if_neg hnamed).trans (if_pos (Bool.eq_false_iff.1 hdone))))))
    case rest =>
      exact hostCmd_done ha ((withIndex_ok hi).trans ((if_neg (Bool.eq_false_iff.1 hc)).trans ((if_neg hother).trans
        ((if_neg hnamed).trans ((if_neg (not_not_intro hlive)).trans (if_pos hs))))))
    case summer =>
      exact ⟨_, hostCmd_later ha ((withIndex_ok hi).trans ((if_neg (Bool.eq_false_iff.1 hc)).trans ((if_neg hother).trans
        ((if_neg hnamed).trans ((if_neg (not_not_intro hlive)).trans (if_neg (not_not_intro hs))))))),
        congrArg (·.sampler.cancel) (State.setKv_kvOf_same (Fetched h s) i _), rfl, rfl⟩
  case migrate =>
    refine hostCmd_later ha ((withIndex_ok hi).trans ?_)
    simp only [State.migrateSeason_none hc hseason]
    have htier3 : tier.toNat ≠ 3 := fun e => htier (BitVec.eq_of_toNat_eq e)
    exact (checked_ok (State.migrateChecks_ok (hmember ▸ hring) hin htier3 hdev hreach hseal hcanvas hepoch)).trans (if_pos hmember)
  case forkSummer => exact ⟨_, hostCmd_later ha ((withIndex_ok hi).trans (State.forkBody_summer hlo hhi hc hs)), rfl, rfl⟩
  case forkDone =>
    exact hostCmd_done ha ((withIndex_ok hi).trans ((State.forkBody_autumn hlo hhi hc hs ho).trans hcore))
  case forkLater =>
    exact hostCmd_later ha ((withIndex_ok hi).trans ((State.forkBody_autumn hlo hhi hc hs ho).trans hcore))
  case ringExtend =>
    have hchecks := State.extendChecks_ok hnext hrelay hsize hdev hin hreach
    refine ⟨fun hs => ?summer, fun hs ho => ?autumn⟩
    case summer =>
      exact ⟨_, hostCmd_later ha ((withIndex_ok hi).trans ((if_neg (Bool.eq_false_iff.1 hc)).trans
        ((if_neg (not_not_intro (Or.inr hs))).trans ((checked_ok hchecks).trans (if_pos hs))))), rfl, rfl⟩
    case autumn =>
      have hnot : ((Fetched h s).d i).season ≠ .summer := by simp [hs]
      exact hostCmd_later ha ((withIndex_ok hi).trans ((if_neg (Bool.eq_false_iff.1 hc)).trans
        ((if_neg (not_not_intro (Or.inl ⟨hs, ho⟩))).trans ((checked_ok hchecks).trans (if_neg hnot)))))

end Sys2Proof.Machine
end

section
/-! SUPPORT. Canvas, stream and checkpoint rows: each once what it waits for is there (R72, R81, R97, R107, R113, R114, R116, R179, R395,
R400, R403). -/

namespace Sys2Proof.Machine

/-- Settles O20: each row finds what it waits for, and then does what its rule says. That an item is done while an engine holds it, and
that CKPT_COMMIT takes a drain on by one step, are the model's choices (log entries 85 and 46). -/
theorem canvasStreamAndCheckpointRowsComplete : Obligations.CanvasStreamAndCheckpointRowsComplete := by
  unfold Obligations.CanvasStreamAndCheckpointRowsComplete
  refine ⟨fun index item s o hop hholds hcut hbad => ?workItem,
    fun index s o hop hwait hplaced hup hitems => ?parkEnd,
    fun die s hup hdue => ?idleParkCheck,
    fun index s c hs ho hlive hload hup hlock hfree hlc hok => ?runahead,
    fun index s o hop hsmall htodo => ?thawEnd,
    fun index page s o q hstream hhead hpage hfailed hup hcut hbad => ?pageArrival,
    fun slice va s w i k d g o hw howner hgeom hstream hpage => ?streamFault,
    fun index s hs => if_pos hs,
    fun index s q b hq hready hread => ?palette,
    fun slice pcg s c hfind => ?staging,
    fun slice s c x hfind htarget => ?ckptCommit,
    fun slice s r hfind hhash => ?restore⟩
  case workItem =>
    simp only [exec, execCanvasWorkItem, hop]
    exact (if_neg (not_not_intro hholds)).trans ((if_neg (Bool.eq_false_iff.1 hcut)).trans (if_neg (Bool.eq_false_iff.1 hbad)))
  case parkEnd =>
    have hgo : ¬ (o.waiting = true ∨ ¬ o.placed = true ∨ ¬ s.dieUp (homeDie o.index) = true) := by
      simp [hwait, hplaced, hup]
    simp only [exec, execParkEnd, hop, if_neg hgo]
    refine ⟨fun hkind => ?migration, fun hkind htier => ?park, fun hkind htier hsent => ?send, fun hkind htier hsent hout hstatus => ?pool,
      fun h hkind hho htier => ?winterIn⟩
    case migration => simp [hkind, hitems]
    case park => simp [hkind, hitems, htier]
    case send => simp [hkind, hitems, htier, hsent]
    case pool => simp [hkind, hitems, htier, hsent, hout, hstatus]
    case winterIn => simp [hkind, hho, htier]
  case idleParkCheck =>
    exact if_pos (by rw [hup, decide_eq_true hdue, Bool.and_self])
  case runahead =>
    refine (if_pos ⟨hs, ho, hlive, Bool.eq_false_iff.1 hload, hup, hlock, hfree, Bool.eq_false_iff.1 hlc⟩).trans ?_
    simp only [hok]
  case thawEnd =>
    simp only [exec, execThawEnd, hop]
    refine ⟨fun hkind hs => ?rebuilt, fun h hkind hwait hstatus hho => ?prepared⟩
    case rebuilt => exact if_pos ⟨hkind, hs, Bool.eq_false_iff.1 hsmall, Or.inl (by rw [htodo]; rfl)⟩
    case prepared => simp [hkind, hwait, hsmall, htodo, hho, hstatus]
  case pageArrival =>
    simp only [exec, execStreamPageArrival, hstream, hhead, hpage]
    have hgo : ¬ (page.toNat ≠ page.toNat ∨ (s.ax index.toNat).streamFailed = true ∨ ¬ s.dieUp (s.itemDie o (page.toNat + 1)) = true) := by
      simp [hfailed, hup]
    refine (if_neg hgo).trans ?_
    simp only [hcut, hbad, Bool.false_eq_true, if_false]
  case streamFault =>
    simp only [exec, execStreamFault, hw, howner, hgeom, hstream, hpage]
  case palette =>
    simp only [exec, execPaletteCompileDone, hq, hready, hread, Bool.false_eq_true, if_false, eOk]
  case staging =>
    simp only [exec, execStagingDone, hfind]
  case ckptCommit =>
    simp only [exec, execCkptCommit, hfind, htarget]
    refine ⟨fun hphase hpath => ?zeroing, fun hphase => ?draining, fun hphase => ?committing⟩
    case zeroing =>
      have hopen : ((s.dieList slice.toNat).any fun d => s.netCut (8 + d) slice.toNat) = false := by simpa using hpath
      simp only [hphase, hopen, Bool.false_eq_true, if_false]
    case draining => simp only [hphase]
    case committing => simp only [hphase]
  case restore =>
    simp only [exec, execRestoreDone, hfind, hhash, not_true_eq_false, if_false]

end Sys2Proof.Machine
end

section
/-! SUPPORT. Engine commands: what each does at the head of its engine's queue when nothing it needs is missing (R118, R147, R166, R167,
R199, R223, R225, R227, R252, R256). -/

namespace Sys2Proof.Machine

theorem State.setCore_core_same (s : State) (c : Nat) (x : Core) : (s.setCore c x).core c = x := tabGetD_tabPut_same _ _ _ _

/-- The command at the head of an engine's queue runs, and the engine is done with it (R222). -/
theorem State.engRun_head {s : State} {c e op : Nat} {i : Inst} {q : EngCmd} (f : Inst → State → State)
    (h : s.engHead c e op = some (i, q)) : s.engRun c e op f = (f i s).engDone c e := by
  simp only [State.engRun, h]

/-! ### Matrix engines -/

/-- MM of a supported pair whose blocks are in store and legal adds the tile product into its bank (R199). -/
theorem State.mm_tile {s : State} {c me : Nat} {o : MmOps} {i : Inst}
    (hpair : pairSupported (s.promotedFormat i.slice i.layer o.fa.toNat (o.monitored == 1)) o.fb.toNat = true)
    (hin : ∀ r ∈ (o.a.flatten.flatMap fun r =>
        blkRanges r (s.promotedFormat i.slice i.layer o.fa.toNat (o.monitored == 1)) (o.aSide == 1) false (s.core c)) ++
        (o.b.flatten.flatMap fun r => blkRanges r o.fb.toNat (o.bSide == 1) (o.bPacked == 1) (s.core c)),
      s.inStore i r.1 r.2 = true ∧ (s.core c).bad r.1 r.2 = false)
    {va vb : List (List (Option (List Num)))}
    (hva : (s.core c).operand o.a (s.promotedFormat i.slice i.layer o.fa.toNat (o.monitored == 1)) (o.aSide == 1) false = va)
    (hvb : (s.core c).operand o.b o.fb.toNat (o.bSide == 1) (o.bPacked == 1) = vb)
    (ha : illegalIn va = 0) (hb : illegalIn vb = 0) {r : Tab U32 × Nat}
    (hr : mmTile (s.core c).acc me o.bank.toNat (o.clear == 1) (va.map fun r => r.filterMap id) (vb.map fun r => r.filterMap id) = r) :
    s.mm c me o i = ((s.setCore c { s.core c with acc := r.1 }).countResults 0 r.2).evc i.slice 0x41 (c / 64)
      (if o.a.length * o.b.length = 0 then 0 else 1) := by
  subst hva hvb hr
  refine (if_neg (not_not_intro hpair)).trans ((withStore_ok (fun r hr => ?_) fun r hr => (hin r hr).2).trans (if_neg ?_))
  · exact (hin r (by simpa using hr)).1
  · rw [ha, hb]; decide

/-- ACC_OUT of a destination in store writes the bank there (R227). -/
theorem State.accOut_written {s : State} {c me bank dst : Nat} {half : Bool} {i : Inst}
    (hin : s.inStore i dst (if half then 8192 else 16384) = true) : ∃ ovf, (half = false → ovf = 0) ∧
      s.accOut c me bank dst half i = (s.setCore c ((s.core c).write dst (if half then halfBytes ((s.core c).bank me bank)
        else wordBytes ((s.core c).bank me bank)))).countResults (nansOf ((s.core c).bank me bank)) ovf := by
  refine ⟨_, fun hword => if_neg (Bool.eq_false_iff.1 hword), withStore_ok (fun r hr => ?_) fun r hr => nomatch hr⟩
  rw [List.nil_append, List.mem_singleton] at hr
  subst hr
  exact hin

/-! ### Appended rows -/

section
variable {s t : State} {c n layer src first rows : Nat} {i : Inst} {p : Prog}
  (hprog : s.curProg i.slice = some p) (hmeets : s.appendMeets n layer (s.appendFrom n first) rows = .ok)
  (hall : s.appendAll (c / 64) (s.core c) n layer src (s.appendFrom n first) p rows = some t)
include hprog hmeets hall

/-- An APPEND whose pages are there does not wait. -/
theorem State.appendStall_none : s.appendStall c n layer src first rows i = none := by
  simp [State.appendStall, hmeets, hprog, hall]

/-- An APPEND whose pages are there and have a path writes all its rows (R147, R150). -/
theorem State.append_rows (hin : s.inStore i src (rows * 4 * p.kvHeads * p.headDim) = true)
    (hbad : (s.core c).bad src (rows * 4 * p.kvHeads * p.headDim) = false)
    (hpath : ∀ k < rows, ∀ pg, (s.kvOf n).pageOf layer (s.appendFrom n first + k) = some pg → s.cutAt (c / 64) pg.elem = false) :
    s.append c n layer src first rows i = t := by
  simp only [State.append, hprog]
  refine (withStore_ok (fun r hr => ?_) fun r hr => ?_).trans ?_
  · rw [List.append_nil, List.mem_singleton] at hr; subst hr; exact hin
  · rw [List.mem_singleton] at hr; subst hr; exact hbad
  · simp only [hmeets]
    refine (if_neg fun hcut => ?_).trans (by rw [hall, Option.getD_some])
    obtain ⟨k, hk, hlost⟩ := List.any_eq_true.1 hcut
    split at hlost
    · next pg hpg => exact Bool.eq_false_iff.1 (hpath k (List.mem_range.1 hk) pg hpg) hlost
    · cases hlost

end

/-! ### Movers -/

/-- MV_COPY of ranges in store and present, with no page to wait for, moves its bytes (R225). -/
theorem State.mvCopy_moves {s : State} {c n : Nat} {src dst : MvAddr} {bc : Bool} {i : Inst} (hidle : s.moving c = false)
    (hothers : bc = true → (s.broadcast c).any s.moving = false)
    (hin : ∀ r ∈ mvStore (s.mvReach i.slice src) n ++ mvStore (s.mvReach i.slice dst) n, s.inStore i r.1 r.2 = true)
    (hguard : s.mvGuard i.slice (s.mvReach i.slice dst) n = none) (hread : s.mvAccess i.slice (s.mvReach i.slice src) false n = .ok)
    (hwrite : s.mvAccess i.slice (s.mvReach i.slice dst) true n = .ok) :
    s.mvCopy c src dst n bc i =
      (s.move c (s.mvReach i.slice src) (s.mvReach i.slice dst) n bc i).mvFinish c i.slice n bc := by
  have hfree : ¬ (s.moving c = true ∨ (bc = true ∧ (s.broadcast c).any s.moving = true)) := by
    rintro (h | ⟨hbc, h⟩)
    · exact Bool.eq_false_iff.1 hidle h
    · exact Bool.eq_false_iff.1 (hothers hbc) h
  refine (if_neg hfree).trans ((if_neg (not_not_intro (List.all_eq_true.2 hin))).trans ?_)
  simp only [hguard, hread, hwrite]

/-- The rows of MV_GATHER as its index list names them: from where each is read, and to where it goes. -/
def State.gatherRows (s : State) (c sl list size count : Nat) (dst : MvAddr) : List (MvAddr × MvAddr) :=
  (List.range count).map fun k =>
    (s.mvReach sl (.slice (BitVec.ofNat 52 (le ((s.core c).read (list + 8 * k) 8) 0 8))), s.mvReach sl (MvPlus dst (size * k)))

/-- MV_GATHER of a list in store and unpoisoned, with every row present, moves its rows one after another (R225). -/
theorem State.mvGather_moves {s : State} {c list size count : Nat} {dst : MvAddr} {i : Inst} (hidle : s.moving c = false)
    (hin : ∀ r ∈ (list, 8 * count) :: mvStore dst (size * count), s.inStore i r.1 r.2 = true)
    (hbad : (s.core c).bad list (8 * count) = false)
    (hrows : ∀ r ∈ s.gatherRows c i.slice list size count dst, s.mvGuard i.slice r.2 size = none ∧
      s.mvAccess i.slice r.1 false size = .ok ∧ s.mvAccess i.slice r.2 true size = .ok) :
    s.mvGather c list size count dst i = ((s.gatherRows c i.slice list size count dst).foldl
      (fun t r => t.move c r.1 r.2 size false i) s).mvFinish c i.slice (size * count) false := by
  refine (if_neg (Bool.eq_false_iff.1 hidle)).trans ((if_neg (not_not_intro (List.all_eq_true.2 hin))).trans
    ((if_neg (Bool.eq_false_iff.1 hbad)).trans ?_))
  dsimp only
  split
  · next u hstop =>
    obtain ⟨r, hr, hu⟩ := List.exists_of_findSome?_eq_some hstop
    obtain ⟨hguard, hread, hwrite⟩ := hrows r hr
    simp only [hguard, hread, hwrite] at hu
    cases hu
  · rfl

/-- Settles O19: each command finds its flags set and what it reads and writes in place, runs, and the engine is done with it. The
layouts of operands in store and list, and that FUNC faults on a code of no function, are the model's choices (log entries 65, 92 and
100). -/
theorem engineCommandRowsComplete : Obligations.EngineCommandRowsComplete := by
  unfold Obligations.EngineCommandRowsComplete
  refine ⟨fun core me o s i q hhead hpair hin hva hvb => ?mm,
    fun core me bank dst s i q hhead => ⟨fun hin => ?accOutWords, fun hin => ?accOutHalves⟩,
    fun core o s i q p hhead _ hgeom hwaits _ _ _ _ => ?attn,
    fun core list count rows heads out s i q p hhead _ hring _ _ _ => ?merge,
    fun core o s i q hhead hzero hsmall => ?func,
    fun core index layer src first rows s i q p t hhead hprog hmeets hin hbad hpath hall => ?append,
    fun core logits index vocab drafts s i q r hmirror _ _ => ⟨fun hhead => ?sample, fun hhead => ?verify⟩,
    fun core src dst len bc s i q hhead hidle hothers hin hguard hread hwrite => ?mvCopy,
    fun core list size count dst s i q hhead hidle hin hbad hrows => ?mvGather,
    fun pa s hprio => ⟨fun hlast => ?lastCopy, fun hmore => ?moreCopies⟩⟩
  case mm =>
    refine congrArg Host.Outcome.next ((State.engRun_head _ hhead).trans (congrArg (State.engDone · _ _) ?_))
    exact State.mm_tile hpair hin rfl rfl hva hvb rfl
  case accOutWords =>
    obtain ⟨ovf, hovf, hout⟩ := State.accOut_written (half := false) (c := core.toNat) (me := me.toNat) (bank := bank.toNat)
      (by simpa using hin)
    simp only [hovf, Bool.false_eq_true, if_false] at hout
    exact congrArg Host.Outcome.next ((State.engRun_head _ hhead).trans (congrArg (State.engDone · _ _) hout))
  case accOutHalves =>
    obtain ⟨ovf, -, hout⟩ := State.accOut_written (half := true) (c := core.toNat) (me := me.toNat) (bank := bank.toNat)
      (by simpa using hin)
    simp only [if_true] at hout
    refine ⟨_, congrArg Host.Outcome.next ((State.engRun_head _ hhead).trans (congrArg (State.engDone · _ _) hout)), ?_⟩
    rw [countResults_core, State.setCore_core_same]
  case attn =>
    simp only [exec, execAttn, hhead, hgeom, hwaits, Bool.false_eq_true, if_false, State.engRun_head _ hhead]
  case merge =>
    simp only [exec, execMerge, hhead, hring, Bool.false_and, Bool.false_eq_true, if_false, State.engRun_head _ hhead]
  case func =>
    refine congrArg Host.Outcome.next ((State.engRun_head _ hhead).trans (congrArg (State.engDone · _ _) ?_))
    exact if_neg (not_or_intro hzero (Nat.not_le.2 hsmall))
  case append =>
    simp only [exec, execAppend, hhead, State.appendStall_none hprog hmeets hall, State.engRun_head _ hhead,
      State.append_rows hprog hmeets hall hin hbad hpath]
  case sample =>
    exact (if_neg (Bool.eq_false_iff.1 hmirror)).trans (congrArg Host.Outcome.next (State.engRun_head _ hhead))
  case verify =>
    exact (if_neg (Bool.eq_false_iff.1 hmirror)).trans (congrArg Host.Outcome.next (State.engRun_head _ hhead))
  case mvCopy =>
    simp only [exec, execMvCopy, hhead]
    exact congrArg Host.Outcome.next
      (State.mvCopy_moves hidle (fun hbc => hothers (beq_iff_eq.1 hbc)) hin hguard hread hwrite)
  case mvGather =>
    simp only [exec, execMvGather, hhead]
    exact congrArg Host.Outcome.next (State.mvGather_moves hidle hin hbad hrows)
  case lastCopy =>
    refine (if_neg (not_not_intro hprio)).trans (congrArg (fun t : State => Host.Outcome.next t.ceFill) (if_pos ?_))
    exact List.isEmpty_iff.2 hlast
  case moreCopies =>
    refine (if_neg (not_not_intro hprio)).trans (congrArg (fun t : State => Host.Outcome.next t.ceFill) (if_neg ?_))
    exact fun h => hmore (List.isEmpty_iff.1 h)

end Sys2Proof.Machine
end

section
/-! SUPPORT. Session and ownership transactions: each request that is admitted under no older owner epoch has its effect (R121, R123, R126,
R152, R360, R383, R384). -/

namespace Sys2Proof.Machine

/-- Under no older owner epoch the rule of a session message has the message's own effect (R91). -/
theorem State.sessRule_eff {u : State} (s : State) (t : TxHdr) (type op : Nat) (data : Bytes) (cmd : Instr) {sid : U64} {epoch : Nat}
    (always : Bool) (eff : State → State × Ans) (h : u.staleOwner sid epoch = none) :
    (s.sessRule t type op data cmd sid epoch always eff).eff u = eff u := by
  simp only [State.sessRule, h]

/-! ### Canvas data -/

section
variable {s v : State} {t : TxHdr} {sid : U64} {data : Bytes}

/-- CANVAS_DATA for a session goes to what its side of the handoff makes of it (R359). -/
theorem execCanvasData_session (hslice : t.slice.toNat < 64) (ha : Admits t 5 1 data.length false (s.holdsSession sid) s)
    (hstale : (Requested t 5 1 data.length s).staleOwner sid t.aux.toNat = none)
    (he : (Requested t 5 1 data.length s).takeCanvas t sid data = (v, {})) :
    execCanvasData t sid data s = .next (Replied t 5 v {}) := by
  have hrule : s.canvasRule t sid data =
      s.sessRule t 5 1 data (.canvasData t sid data) sid t.aux.toNat false fun u => u.takeCanvas t sid data :=
    if_neg (Nat.not_le.2 hslice)
  rw [execCanvasData, hrule, sess_go' ha hstale he rfl]

/-- CANVAS_DATA for the device itself goes into the pool range that holds all of it (R359). -/
theorem execCanvasData_pool {r : PoolRange} (hslice : 64 ≤ t.slice.toNat) (ha : Admits t 5 1 data.length false true s)
    (hr : s.poolAt t.addr.toNat = some r) (hlen : t.addr.toNat + data.length ≤ 65536 * (r.base + r.units))
    (hstale : (Requested t 5 1 data.length s).staleOwner sid t.aux.toNat = none) :
    execCanvasData t sid data s =
      .next (Replied t 5 ((Requested t 5 1 data.length s).poolWrite t.addr.toNat data (t.poison == 1)) {}) := by
  have hrule : s.canvasRule t sid data =
      { s.sessRule t 5 1 data (.canvasData t sid data) sid t.aux.toNat false fun u => u.takeCanvas t sid data with
        target := none, holds := true } := by
    simp only [State.canvasRule, if_pos hslice, hr, decide_eq_true hlen]
  rw [execCanvasData, hrule]
  refine congrArg Host.Outcome.next (serve_go' ha ?_ rfl)
  exact (State.sessRule_eff s t 5 1 data (.canvasData t sid data) false (fun u => u.takeCanvas t sid data) hstale).trans
    (if_pos hslice)

theorem State.takeCanvas_handoff {u : State} {h : Handoff} (hslice : t.slice.toNat < 64) (hho : u.hoOf sid false = some h)
    (hpeer : h.peer = t.src.toNat) (hepoch : h.epoch = t.aux.toNat) (hstep : h.step ≤ 4) :
    u.takeCanvas t sid data = (u.streamIn h t.addr.toNat data, {}) := by
  refine (if_neg (Nat.not_le.2 hslice)).trans ?_
  simp only [hho, hpeer, hepoch, hstep, and_self, if_true]

/-- A standby keeps a record of the tail's handover from the first piece of its canvas on (R174). -/
theorem State.takeCanvas_standby {u : State} {h : Handoff} (hslice : t.slice.toNat < 64) (hho : u.hoOf sid false = none)
    (hstandby : u.standbyRecord t sid = some (v, h)) : u.takeCanvas t sid data = (v.streamIn h t.addr.toNat data, {}) := by
  refine (if_neg (Nat.not_le.2 hslice)).trans ?_
  simp only [hho, hstandby]

end

/-! ### Handoffs and records of ownership -/

/-- For a session of a ring an identifier already on the target means a device of the ring (R120 check 2, R121). -/
theorem refusal_code_eq (code : U16) (ring : Prop) [Decidable ring] :
    (if code.toNat = eDupSessionId ∧ ring then eSessionParam else code.toNat) =
      if code = 0x0212 ∧ ring then 0x0205 else code.toNat := by
  have hdup : code.toNat = eDupSessionId ↔ code = 0x0212 := BitVec.toNat_inj (x := code) (y := 0x0212)
  simp only [hdup, eSessionParam]

/-- RECORD_QUERY of address 0 is answered with the record of the session, else it is an appeal: bit 17 says that the sender is the giver
(R123, log entry 29). -/
theorem execRecordQuery_serves {t : TxHdr} {sid : U64} {s v : State} {x : Ans} (ha : Admits t 7 9 8 false true s)
    (he : (if t.addr.toNat = 0 then (Requested t 7 9 8 s, { result := (Requested t 7 9 8 s).ownerRecord sid })
      else (if t.addr.toNat.testBit 17 then (Requested t 7 9 8 s).openCase sid t.src.toNat (t.addr.toNat % 65536)
        else (Requested t 7 9 8 s).openCase sid (t.addr.toNat % 65536) t.src.toNat, {})) = (v, x))
    (hr : x.reply = true) : execRecordQuery t sid s = .next (Replied t 7 v x) := by
  rw [← bitAt_eq] at he
  exact congrArg Host.Outcome.next (serve_go' ha he hr)

/-! ### Mirrors and rings -/

/-- Mirror rows are answered with a RESP, whatever becomes of them (R384). -/
theorem State.takeRows_reply (u : State) (t : TxHdr) (sid : U64) (layer first : Nat) (data : Bytes) :
    (u.takeRows t sid layer first data).2.reply = true := by
  unfold State.takeRows
  dsimp only
  repeat' split
  all_goals rfl

/-- A mirror's commit is answered with a RESP, whatever becomes of it (R384). -/
theorem State.commitMirror_reply (u : State) (t : TxHdr) (sid : U64) (n : Nat) : (u.commitMirror t sid n).2.reply = true := by
  unfold State.commitMirror
  dsimp only
  repeat' split
  all_goals rfl

theorem State.takeRing_close (u : State) (t : TxHdr) {o : RingOps} (h : o.kind = 2) :
    u.takeRing t o = (u.closeRing o.sid 0xFFFFFFFF t.src.toNat, {}) := by
  have hkind : o.kind.toNat = 2 := congrArg BitVec.toNat h
  simp only [State.takeRing, hkind]

/-- Settles O26: each request is admitted and served, and what it finds says which effect it has. Beside the layouts of appeals and ring
commands and the place of a mirror (log entries 27 to 29), the answer of RESOLVE and the ring commands of kinds 7 to 10 are the model's
choices (log entries 90 and 86). -/
theorem sessionTransactionsComplete : Obligations.SessionTransactionsComplete := by
  unfold Obligations.SessionTransactionsComplete
  refine ⟨fun t sid data s hslice ha hstale => ⟨fun h hho hpeer hepoch hstep => ?stream, fun v h hho hstandby => ?standby⟩,
    fun t sid data s r hslice ha hr hlen hstale => ?pool,
    fun t data loc len s h ha hstale hho honly hpeer => ?desc,
    fun t sid layer first data s ha hstale => ?mirrorRows, fun t sid n s ha hstale => ?mirrorCommit,
    fun t sid sampler scratch cursors s m ha hstale hm hepoch => ?mirrorState,
    fun t o s ha hstale => ?offer,
    fun i op giver t sid epoch x code s h hi ha hstale hho hpeer hepoch hcommit hrelease => ?handoff,
    fun t sid epoch receiver x s ha => ?resolve,
    fun t sid s ha => ⟨fun hzero => ?record, fun hsome => ?appeal⟩,
    fun t o s ha hstale => ⟨fun hr => ?ringReply, fun hr => ?ringLater, fun hkind => ?ringClose⟩,
    fun index s c r hc hr hstep hout => ?repair⟩
  case stream => exact execCanvasData_session hslice ha hstale (State.takeCanvas_handoff hslice hho hpeer hepoch hstep)
  case standby => exact execCanvasData_session hslice ha hstale (State.takeCanvas_standby hslice hho hstandby)
  case pool => exact execCanvasData_pool hslice ha hr hlen hstale
  case desc =>
    refine congrArg Host.Outcome.next (sess_go' ha hstale ?_ rfl)
    simp only [hho, honly, hpeer, and_self, if_true]
  case mirrorRows => exact congrArg Host.Outcome.next (sess_go ha hstale rfl (State.takeRows_reply ..))
  case mirrorCommit => exact congrArg Host.Outcome.next (sess_go (data := []) ha hstale rfl (State.commitMirror_reply ..))
  case mirrorState =>
    refine congrArg Host.Outcome.next (sess_go' ha hstale ?_ rfl)
    simp only [hm, if_neg (Nat.not_lt.2 hepoch), List.isEmpty_iff]
  case offer => exact congrArg Host.Outcome.next (sess_go' (data := []) ha hstale rfl rfl)
  case handoff =>
    rcases hi with ⟨rfl, rfl, rfl⟩ | ⟨rfl, rfl, rfl⟩ | ⟨rfl, rfl, rfl⟩ | ⟨rfl, rfl, rfl⟩ | ⟨rfl, rfl, rfl⟩ | ⟨rfl, rfl, rfl⟩
    -- ACCEPT, ACK and COMMITTED do what they do in every state; REFUSE, COMMIT and RELEASED remain.
    all_goals
      refine congrArg Host.Outcome.next ((ho_go ha hstale hho hpeer hepoch).trans (congrArg (Replied t 7 · {}) ?_))
      simp only [Nat.reduceEqDiff, if_true, if_false]
    · exact congrArg _ (refusal_code_eq code _)
    · exact if_pos (hcommit rfl)
    · exact if_pos (hrelease rfl)
  case resolve => exact congrArg Host.Outcome.next (serve_go' ha rfl rfl)
  case record => exact execRecordQuery_serves ha (if_pos hzero) rfl
  case appeal => exact execRecordQuery_serves ha (if_neg hsome) rfl
  case ringReply => exact congrArg Host.Outcome.next (sess_go (data := []) ha hstale rfl hr)
  case ringLater => exact congrArg Host.Outcome.next (sess_quiet (data := []) ha hstale rfl hr)
  case ringClose => exact congrArg Host.Outcome.next (sess_go' (data := []) ha hstale (State.takeRing_close _ t hkind) rfl)
  case repair =>
    simp only [exec, execCanvasRepairDone, hc, hr]
    exact if_neg (by simp [hstep, hout])

end Sys2Proof.Machine
end

section
/-! SUPPORT. Link timers: each once its limit has passed (R123, R124, R172, R284, R362, R373, R377, R378). -/

namespace Sys2Proof.Machine

/-- While the map is not empty the port states of this device go to its members only (R378). -/
theorem execLinkStateSend_due {s : State} {n : Nat} (hown : s.ownNo = some n)
    (hdue : ∀ r, tabGet s.comp.links n = some r → 2 ^ 20 ≤ s.pkc - r.seen.toNat) (hepoch : s.sendLinks.comp.epoch ≠ 0) :
    execLinkStateSend s = .next s.sendLinks.checkArbiter := by
  simp only [execLinkStateSend, hown, if_neg hepoch]
  refine if_neg (not_not_intro ?_)
  split
  · next r hr => exact decide_eq_true (hdue r hr)
  · rfl

/-- A record that LIVE_LIMIT has passed by is dropped, and what can no longer be reached is noted (R378). -/
theorem State.dropStale_silent {s : State} {d : Nat} {r : LinkRec} (hr : tabGet s.comp.links d = some r)
    (hdue : s.liveLimit ≤ s.pkc - r.seen.toNat) : s.dropStale d =
      (({ s with comp := { s.comp with links := tabDel s.comp.links d } } : State).noteCuts).checkArbiter := by
  simp only [State.dropStale, hr, if_neg (Nat.not_lt.2 hdue)]

theorem State.dropStale_live {s : State} {d : Nat}
    (hlive : ∀ r, tabGet s.comp.links d = some r → s.pkc - r.seen.toNat < s.liveLimit) : s.dropStale d = s := by
  unfold State.dropStale
  split
  · rfl
  · next r hr => exact if_pos (hlive r hr)

/-- Settles O28: each timer finds what it stands for, and its limit has passed. -/
theorem linkTimerRowsComplete : Obligations.LinkTimerRowsComplete := by
  unfold Obligations.LinkTimerRowsComplete
  refine ⟨fun index s h hfind hdue => ?handoff, fun sid s c hfind hdue => ?arbiter,
    fun index layer part s w hwait hdue => ?ringWait,
    fun dev tag s x htxn hheld => ⟨fun hdropped htries hdue => ?resend, fun hroute hdue => ?txnLimit, fun d hdropped hdue => ?holdoff⟩,
    fun src tag s h hfind hdue => ?epochHold, fun s since p l hprep hqueue hdue => ?mapVote,
    fun s n hown hdue hepoch => execLinkStateSend_due hown hdue hepoch,
    fun dev s hother => ⟨fun hquorum hmember hcut => ?removal, fun hstays => ?stays,
      fun r hr hdue => State.dropStale_silent hr hdue, State.dropStale_live⟩⟩
  case handoff =>
    simp only [exec, execHandoffLimitExpiry, hfind]
    exact if_neg (Nat.not_le.2 hdue)
  case arbiter =>
    simp only [exec, execArbiterRetry, hfind]
    exact if_neg (Nat.not_lt.2 hdue)
  case ringWait =>
    simp only [exec, execRingWaitLimitExpiry, hwait]
    exact if_neg (Nat.not_le.2 hdue)
  case resend =>
    have hgo : ¬ (x.held = true ∨ x.dropped.isSome = true ∨ 3 ≤ x.tries ∨ s.pkc - x.last.toNat < s.txnLimit / 4) := by
      simp [hheld, hdropped, htries, hdue]
    simp only [exec, execTxnResend, htxn, if_neg hgo]
  case txnLimit =>
    have hport : ¬ (x.port = 48 ∧ (s.route x.slice x.dev x.type x.op).isNone = true) := by
      rwa [Option.isNone_iff_eq_none]
    simp only [exec, execTxnLimitExpiry, htxn, hheld, Bool.false_eq_true, if_false, if_neg hport, if_neg (Nat.not_lt.2 hdue)]
    rfl
  case holdoff =>
    simp only [exec, execQosHoldoffExpiry, htxn, hdropped]
    exact if_neg (Nat.not_lt.2 hdue)
  case epochHold =>
    simp only [exec, execEpochHoldExpiry, hfind]
    exact if_neg fun ⟨hnewer, hearly⟩ => hdue.elim (Nat.not_le.2 hnewer) (Nat.not_le.2 hearly)
  case mapVote =>
    simp only [exec, execMapVoteTimeout, hprep, hqueue]
    exact if_neg (Nat.not_lt.2 hdue)
  case removal =>
    refine (if_neg hother).trans (if_pos ⟨hquorum, ?_, hcut⟩)
    exact Option.isSome_iff_ne_none.2 hmember
  case stays =>
    refine (if_neg hother).trans (if_neg ?_)
    rintro ⟨hquorum, hmember, hcut⟩
    rcases hstays with h | h | h
    · exact Bool.eq_false_iff.1 h hquorum
    · exact Option.isSome_iff_ne_none.1 hmember h
    · exact Bool.eq_false_iff.1 h hcut

end Sys2Proof.Machine
end

section
/-! SUPPORT. Slots of the KV areas: the layer, the slot and the byte that a window offset names, and the leaf the page of a slot gives
(R132, R136, R141). -/

namespace Sys2Proof.Machine

/-- Window offset of byte `b` of slot `slot` of area `a` of layer `l` (R132, R141). -/
def Geom.slotAt (g : Geom) (a l slot b : Nat) : Nat :=
  g.areaAt a 0 + l * (g.unit a * (16384 + g.cap)) + slot * g.unit a + b

/-- The areas of the layers follow one another, a slot for each token (R132). -/
theorem Geom.areaAt_layer (g : Geom) (a l : Nat) : g.areaAt a l = g.areaAt a 0 + l * (g.unit a * (16384 + g.cap)) := by
  match a with
  | 0 => simp only [Geom.areaAt, Geom.unit]; ring
  | 1 => simp only [Geom.areaAt, Geom.unit]; ring
  | _ + 2 => simp only [Geom.areaAt, Geom.unit]; ring

theorem Geom.slotAt_eq_areaAt (g : Geom) (a l slot b : Nat) : g.slotAt a l slot b = g.areaAt a l + (slot * g.unit a + b) := by
  rw [Geom.areaAt_layer, Geom.slotAt, Nat.add_assoc]

/-- What lies in the slots before one and what lies in it fit into the slots of a layer. -/
theorem slot_byte_lt {u n slot b : Nat} (hb : b < u) (hslot : slot < n) : slot * u + b < u * n :=
  calc slot * u + b < slot * u + u := Nat.add_lt_add_left hb _
    _ = u * (slot + 1) := by ring
    _ ≤ u * n := Nat.mul_le_mul_left u hslot

section
variable {g : Geom} {a l slot b : Nat}

theorem Geom.slotAt_sub (g : Geom) (a l slot b : Nat) :
    g.slotAt a l slot b - g.areaAt a 0 = (slot * g.unit a + b) + g.unit a * (16384 + g.cap) * l := by
  rw [Geom.slotAt, Nat.mul_comm _ l]
  omega

theorem Geom.slotAt_div_layer (hb : b < g.unit a) (hslot : slot < 16384 + g.cap) :
    (g.slotAt a l slot b - g.areaAt a 0) / (g.unit a * (16384 + g.cap)) = l := by
  have hlt := slot_byte_lt hb hslot
  rw [Geom.slotAt_sub, Nat.add_mul_div_left _ _ (Nat.zero_lt_of_lt hlt), Nat.div_eq_of_lt hlt, Nat.zero_add]

theorem Geom.slotAt_mod_layer (hb : b < g.unit a) (hslot : slot < 16384 + g.cap) :
    (g.slotAt a l slot b - g.areaAt a 0) % (g.unit a * (16384 + g.cap)) = slot * g.unit a + b := by
  rw [Geom.slotAt_sub, Nat.add_mul_mod_self_left, Nat.mod_eq_of_lt (slot_byte_lt hb hslot)]

theorem slot_byte_div {u : Nat} (hb : b < u) : (slot * u + b) / u = slot := by
  rw [Nat.mul_comm, Nat.mul_add_div (Nat.zero_lt_of_lt hb), Nat.div_eq_of_lt hb, Nat.add_zero]

end

section
variable {s : State} {g : Geom} {prot : Bool} {k : SessKv} {base a l slot b : Nat}

/-- The page of a layer whose region holds a slot (R141). -/
def SessKv.pageOfSlot (k : SessKv) (l slot : Nat) : Option KvPage :=
  k.pages.find? fun q => q.layer == l && q.first + 16 ≤ slot && slot < q.first + 16 + 16 * 2 ^ q.log2

theorem SessKv.pageOfSlot_first_le {p : KvPage} (hp : k.pageOfSlot l slot = some p) : p.first + 16 ≤ slot := by
  have h := List.find?_some hp
  simp only [Bool.and_eq_true, decide_eq_true_eq] at h
  exact h.1.2

/-- Where no granule stands in for it, a slot is mapped by its page's region, in spans of at most 1 GiB (R136). -/
theorem State.leafKv_page {p : KvPage} (hb : b < g.unit a) (hslot : slot < 16384 + g.cap)
    (hgran : ∀ gr ∈ k.granules, ¬ (gr.area = a ∧ gr.layer = l ∧ gr.m = (slot * g.unit a + b) / 4096))
    (hp : k.pageOfSlot l slot = some p) (hpa : p.areaPa a ≠ 0) :
    ∃ x into, s.leafKv g prot k base a (g.slotAt a l slot b) = some x ∧ into ≤ slot * g.unit a + b - (p.first + 16) * g.unit a ∧
      x.va = base + g.areaAt a l + (p.first + 16) * g.unit a + into ∧ x.pa = some (p.areaPa a + into) ∧
      x.prot = prot ∧ x.cow = (p.rcp != 0) := by
  have hnone : (k.granules.find? fun gr => gr.area == a && gr.layer == l && gr.m == (slot * g.unit a + b) / 4096) = none := by
    refine List.find?_eq_none.2 fun gr hgr => ?_
    simpa [and_assoc] using hgran gr hgr
  unfold SessKv.pageOfSlot at hp
  simp only [State.leafKv, Geom.slotAt_div_layer hb hslot, Geom.slotAt_mod_layer hb hslot, slot_byte_div hb, hnone, hp,
    Option.bind_some, if_neg hpa, if_neg (Nat.ne_zero_of_lt hb)]
  exact ⟨_, _, rfl, Nat.div_mul_le_self _ _, rfl, rfl, rfl, rfl⟩

/-- A slot below 16 lies in no page, so only a granule can map it (R141). -/
theorem State.leafKv_low_slot {x : Leaf} (hb : b < g.unit a) (hslot : slot < 16)
    (hx : s.leafKv g prot k base a (g.slotAt a l slot b) = some x) : ∃ gr ∈ k.granules, gr.area = a ∧ gr.layer = l := by
  have hcap : slot < 16384 + g.cap := by omega
  have hpage : k.pageOfSlot l slot = none :=
    Option.eq_none_iff_forall_ne_some.2 fun p hp => by
      have := SessKv.pageOfSlot_first_le hp
      omega
  unfold SessKv.pageOfSlot at hpage
  simp only [State.leafKv, Geom.slotAt_div_layer hb hcap, Geom.slotAt_mod_layer hb hcap, slot_byte_div hb, hpage,
    Option.bind_none, if_neg (Nat.ne_zero_of_lt hb)] at hx
  split at hx
  · next gr hgr =>
    have h := List.find?_some hgr
    simp only [Bool.and_eq_true, beq_iff_eq] at h
    exact ⟨gr, List.mem_of_find?_eq_some hgr, h.1⟩
  · cases hx

end

/-- From the region's start, the byte of a slot lies as many units on as tokens lie before it in the page (R141). -/
theorem region_byte_eq {pa v u f t b into : Nat} (hf : f ≤ t) (hinto : into ≤ (t + 16) * u + b - (f + 16) * u) :
    pa + into + (v + ((t + 16) * u + b) - (v + (f + 16) * u + into)) = pa + (t - f) * u + b := by
  obtain ⟨d, rfl⟩ := Nat.exists_eq_add_of_le hf
  have hsplit : (f + d + 16) * u = (f + 16) * u + d * u := by ring
  rw [hsplit] at hinto ⊢
  rw [Nat.add_sub_cancel_left]
  omega

/-- Settles O52: the slot's page gives the leaf, and a slot below 16 has no page. -/
theorem tokenOccupiesItsSlot : Obligations.TokenOccupiesItsSlot := by
  intro s g prot k base a l t b p u n at_ hb hslot hpa hgran hp
  refine ⟨?token, fun slot x hlow hx => ?low⟩
  case token =>
    obtain ⟨x, into, hx, hinto, hva, hxpa, hprot, hcow⟩ :=
      State.leafKv_page (s := s) (prot := prot) (base := base) hb hslot hgran hp hpa
    have hfirst : p.first ≤ t := Nat.add_le_add_iff_right.1 (SessKv.pageOfSlot_first_le hp)
    have hbyte : p.areaPa a + into + (base + g.slotAt a l (t + 16) b - x.va) = p.areaPa a + (t - p.first) * u + b := by
      rw [hva, Geom.slotAt_eq_areaAt, ← Nat.add_assoc base, region_byte_eq hfirst hinto]
    refine ⟨_, congrArg _ hx, ?_, hprot, hcow⟩
    simp only [Leaf.at_, hxpa, Option.map_some]
    exact congrArg some hbyte
  case low =>
    obtain ⟨y, hy, -⟩ := Option.map_eq_some_iff.1 hx
    exact State.leafKv_low_slot hb hlow hy

end Sys2Proof.Machine
end

section
/-! SUPPORT. Memory and retrieval background rows: each once what it waits for is there (R137, R275, R292, R301, R314, R316, R317, R323,
R340, R348, R350, R420). -/

namespace Sys2Proof.Machine

/-- Settles O21: each row finds what it waits for, and then does what its rule says. That a core store row counts one corrected error at a
time, that a migration waits for a discarded version, and that the regulator row admits one transfer are the model's choices (log entries
69 and 59); a physical address has 40 bits (R292). -/
theorem memoryAndRetrievalBackgroundRowsComplete : Obligations.MemoryAndRetrievalBackgroundRowsComplete := by
  unfold Obligations.MemoryAndRetrievalBackgroundRowsComplete
  refine ⟨fun core va write s sl hsl => ?translationMiss,
    fun slice va s f hfind hquiet => ?fetchDone,
    fun pa s g hfind => ?gesso,
    fun pa errs s => ⟨fun hno => if_pos hno, fun hn hmode hperiod => ?patrol⟩,
    fun core bank row s hrow => if_neg (Nat.not_le.2 hrow),
    fun region s hactive hpause hpower hhib => ?sweep,
    fun slice reg bytes lc idle s hreg hdef => ?regulator,
    fun slice table row s t m k htable hm hengine hold hslot => ?migration,
    fun slice table s t htable => ?tableSwitch,
    fun slice index s x o hx ho hended hstatus hpath => ?compact,
    fun die g e s o ho => ?engineDone⟩
  case translationMiss =>
    simp only [exec, execTranslationMiss, hsl]
    exact ⟨fun ha => if_pos (Option.isSome_iff_ne_none.2 ha), fun ha => if_neg (by simp [ha])⟩
  case fetchDone =>
    simp only [exec, execFetchDone, hfind]
    exact if_neg (Bool.eq_false_iff.1 hquiet)
  case gesso =>
    simp only [exec, execGessoFillDone, hfind]
    exact ⟨_, rfl, rfl, rfl⟩
  case patrol =>
    exact (if_neg (Nat.not_le.2 hn)).trans (if_neg (not_or.2 ⟨hmode, hperiod⟩))
  case sweep =>
    exact if_neg (by simp [hactive, hpause, hpower, hhib])
  case regulator =>
    exact if_neg (not_or.2 ⟨Nat.not_le.2 hreg, not_not_intro hdef⟩)
  case migration =>
    have hgo : ¬ ((s.freeEngine t.die false).isNone = true ∨ t.discarded.isSome = true) := by simp [hengine, hold]
    simp only [exec, execRowMigration, htable, hm, if_neg hgo, hslot]
  case tableSwitch =>
    simp only [exec, execTableSwitchApply, htable]
    refine ⟨fun hold => if_pos (Option.isSome_iff_ne_none.2 hold), fun hold hswitch hdue => ?applied⟩
    exact (if_neg (by simp [hold])).trans (if_pos ⟨Option.isSome_iff_ne_none.2 hswitch, hdue⟩)
  case compact =>
    have hnone : ¬ (s.ret.ops.any fun q => (o.released.getD []).contains q.id) = true := by
      simpa only [List.any_eq_true, not_exists, not_and, Bool.not_eq_true] using hended
    simp only [exec, execCompactRelease, hx, ho, if_neg hnone, if_pos hstatus, hpath]
  case engineDone =>
    simp only [exec, execRetrievalOperationDone, ho]

end Sys2Proof.Machine
end

section
/-! SUPPORT. Ring, palette, job and COPY commands: each past its own checks (R178, R181, R239, R240, R257, R469). -/

namespace Sys2Proof.Machine

/-! ### Palettes -/

/-- The checks of R178 before the source is read: a program the slice's image holds, a length within its limits that compiles to at most
4 GiB, an aligned source. -/
theorem execPaletteLoad_loads {h : Hdr} {slice : BitVec 6} {program : BitVec 4} {tokens : U16} {src : U64} {s t : State} {b : Bytes}
    {sl : Nat} (hsl : cmdSlice h.fn.toNat slice.toNat = sl) (ha : Accepts { widths := [6, 4, 16, 64] } h s)
    (hdef : (Fetched h s).defined sl = true) (hlo : tokens.toNat ≠ 0) (hhi : tokens.toNat ≤ 8192)
    (hsect : (Fetched h s).sect 7 sl program.toNat = some b) (hsize : palSize (progOf b).geom tokens.toNat ≤ 2 ^ 32)
    (halign : src.toNat % 4096 = 0) (hload : (Fetched h s).palLoad sl program.toNat b tokens.toNat src (TagOf h s) = .later t) :
    execPaletteLoad h slice program tokens src s = .next t := by
  subst hsl
  refine hostCmd_later ha ((checked_ok ?_).trans ?_)
  · simpa [firstFail, hdef, hlo, Nat.not_lt.2 hhi, hsect, halign] using hsize
  · simpa only [hsect, Option.getD_some] using hload

/-- What PALETTE_LOAD takes for a source that no entry of the slice holds yet (R178): an index, the parts' pages and the page tables. -/
theorem State.palLoad_takes {s t : State} {sl index tokens e : Nat} {sect bytes : Bytes} {src : U64} {tag : Tag}
    {x : State × List (Nat × Nat × Nat)} {q : Pal} (hread : s.hostRead src.toNat (palSource (progOf sect) tokens) = some bytes)
    (hdup : s.palDup sl (Config.sha3 sect) (Config.sha3 bytes) = none) (hfree : s.freePalIndex = some e)
    (hparts : s.takeParts sl (s.confidential sl) (palParts (progOf sect).geom tokens) [] = some x)
    (hq : q = { slice := sl, program := Config.sha3 sect, index := index, content := Config.sha3 bytes, src := src, tokens := tokens,
                prot := s.confidential sl, parts := x.2, tag := some tag })
    (hmap : { x.1 with srv := { x.1.srv with pals := tabPut x.1.srv.pals e q } }.remap sl = some t) :
    s.palLoad sl index sect tokens src tag = .later t := by
  subst hq
  simp only [State.palLoad, hread, hdup, hfree, hparts, hmap]

/-! ### COPY -/

section
variable {s : State} {sl host va n : Nat}

/-- A COPY to the device of a source that can be read whole writes all of it (R469). -/
theorem State.copyIn_whole (hok : s.hostOk host n = true) :
    s.copyIn sl host va n = .done (s.engineWrite sl va (memRead s.host.mem host n) false) 0 [(n, 32)] := by
  have hall : prefixLen (fun i => s.hostOk (host + i) 1) n = n := prefixLen_all _ n fun _ hi => hostOk_one hok hi
  simp only [State.copyIn, hall, if_true, eOk]

/-- A COPY to the host of a range with no poisoned byte writes all of it (R469). -/
theorem State.copyOut_whole (hok : s.hostOk host n = true) (hgood : s.vbad sl va n = false) :
    s.copyOut sl host va n = .done (s.hostWrite host (s.vread sl va n)) 0 [(n, 32)] := by
  have hclean : prefixLen (fun i => !s.vbad sl (va + i) 1) n = n :=
    prefixLen_all _ n fun _ hi => by rw [vbad_one hgood hi, Bool.not_false]
  have hall : prefixLen (fun i => s.hostOk (host + i) 1) n = n := prefixLen_all _ n fun _ hi => hostOk_one hok hi
  simp only [State.copyOut, hclean, hall, lt_irrefl, if_false, eOk]

end

/-- A COPY that need not wait, of a range that its slice maps, that a path leads to and that its function may reach, moves its bytes
(R17, R305, R469). -/
theorem execCopy_moves {h : Hdr} {slice : BitVec 6} {dir : U1} {len : U32} {hostAddr va : U64} {s v : State} {r : List (Nat × Nat)}
    {sl : Nat} (hsl : cmdSlice h.fn.toNat slice.toNat = sl) (ha : Accepts { fns := .any, widths := [6, 1, 32, 64, 64] } h s)
    (hlen : 0 < len.toNat) (hdef : (Fetched h s).defined sl = true)
    (hacc : (Fetched h s).access sl (dir == 0) va.toNat len.toNat = .ok) (hwait : s.accessWait sl va.toNat len.toNat (dir == 0) = none)
    (hcut : (Fetched h s).cutFrom 19 sl va.toNat len.toNat = false)
    (hpriv : ¬ (s.anyProt sl va.toNat len.toNat = true ∧ s.protClosed h.fn.toNat sl = true))
    (hmove : (if (dir == 0) = true then (Fetched h s).copyIn sl hostAddr.toNat va.toNat len.toNat
      else (Fetched h s).copyOut sl hostAddr.toNat va.toNat len.toNat) = .done v 0 r) :
    execCopy h slice dir len hostAddr va s = .next (Ended v (TagOf h s) 0 r) := by
  subst hsl
  rw [← Bool.and_eq_true] at hpriv
  simp only [execCopy, hwait, ite_self]
  refine hostCmd_done ha ((if_neg (Nat.ne_of_gt hlen)).trans ((if_neg (not_not_intro hdef)).trans ?_))
  simp only [hacc]
  exact (if_neg hpriv).trans ((if_neg (Bool.eq_false_iff.1 hcut)).trans hmove)

/-- Settles O4: each command passes the checks of its own, and then does what its rule says; a COPY of a good range moves all of it. That
an entry's parts take the lowest free frames, and that its page tables are taken with it from the slice's capacity, are the model's choices
(log entries 8 and 97). -/
theorem ringPaletteAndJobCommandsComplete : Obligations.RingPaletteAndJobCommandsComplete := by
  unfold Obligations.RingPaletteAndJobCommandsComplete
  refine ⟨fun h slice ring log2 base tailAddr vector ien s ha hdef hring hlo hhi hbase htail hvector hnew hroom => ?tringCreate,
    fun h slice ring s q ha hdef hq howner hidle => ?tringDestroy,
    fun h slice program tokens src s t b e bytes x q ha hdef hlo hhi hsect hsize halign hread hdup hfree hparts hq hmap => ?paletteLoad,
    fun h slice index s q ha hq hslice hdef hready hrefs => ?paletteUnload,
    fun h slice program first s hgesso hck ha hchecks => ?jobStart,
    fun h slice s j ha hdef hj hstate => ?jobEnd,
    fun h slice dir len hostAddr va s ha hlen hdef hacc hwait hcut hpriv => ⟨fun hdir hok => ?copyIn, fun hdir hok hgood => ?copyOut⟩⟩
  all_goals dsimp only [exec]
  case tringCreate =>
    refine ⟨_, hostCmd_done ha (checked_ok ?checks), ?created, rfl⟩
    case checks =>
      simp only [firstFail, msixSize, hdef, hring, hlo, hhi, hbase, htail, hvector, hnew, Nat.not_le.2 hroom]
      rfl
    case created => exact (if_pos hring).trans (tabGet_tabPut_same _ _ _)
  case tringDestroy =>
    refine ⟨_, hostCmd_done ha (checked_ok ?checks), ?gone, rfl⟩
    case checks => simp [firstFail, hdef, hq, howner, hidle]
    case gone => simp only [State.tring, tabGet_tabDel_same, ite_self]
  case paletteLoad =>
    have hmem := State.remap_mem hmap
    have hload := State.palLoad_takes hread hdup hfree hparts hq hmap
    refine ⟨execPaletteLoad_loads rfl ha hdef hlo hhi hsect hsize halign hload, ?_, hmem⟩
    rw [hmem]
    exact tabGet_tabPut_same _ _ _
  case paletteUnload =>
    refine hostCmd_done ha ((inSlice_ok (hslice ▸ hdef)).trans ?_)
    simp only [hq]
    exact (if_neg (by simp [hslice, hready])).trans (if_neg (not_not_intro hrefs))
  case jobStart =>
    refine ⟨(if_neg ?_).trans (hostCmd_done ha (checked_ok hchecks)), tabGet_tabPut_same _ _ _⟩
    simpa [hgesso] using hck
  case jobEnd =>
    refine hostCmd_later ha ((if_neg (not_not_intro hdef)).trans ?_)
    simp only [hj]
    exact if_neg hstate
  case copyIn =>
    subst hdir
    exact execCopy_moves rfl ha hlen hdef hacc hwait hcut hpriv (State.copyIn_whole hok)
  case copyOut =>
    subst hdir
    exact execCopy_moves rfl ha hlen hdef hacc hwait hcut hpriv (State.copyOut_whole hok hgood)

end Sys2Proof.Machine
end

section
/-! SUPPORT. Queries, results, responses, drops, unknown targets and transit: each once it has arrived (R170, R172, R284, R360, R361,
R364, R377). -/

namespace Sys2Proof.Machine

/-- A tag that holds, or a port with no cipher, lets a transaction in (R367). -/
theorem not_forged {t : TxHdr} {x : Port} (h : t.tagOk = 1 ∨ x.cipher = false) : ¬ (t.tagOk = 0 ∧ x.cipher = true) := by
  rintro ⟨hbad, hcipher⟩
  rcases h with htag | hplain
  · exact absurd (hbad.symm.trans htag) (by decide)
  · exact Bool.eq_false_iff.1 hplain hcipher

/-- Settles O25: each transaction arrives, and what it is for is there. Log entry 26 lays out the writes among requests that were handed
over, of which no clause speaks. -/
theorem queryResponseAndTransitComplete : Obligations.QueryResponseAndTransitComplete := by
  unfold Obligations.QueryResponseAndTransitComplete
  refine ⟨fun t data s => ?query, fun t data s => ?result, fun t status data s x => ?resp, fun t s x => ?drop,
    fun t type op s => ?unsupported, fun t dst type op data s o => ?transit⟩
  case query =>
    intro a harrived hmember
    exact congrArg Host.Outcome.next (if_pos ⟨harrived, Option.isSome_iff_ne_none.2 hmember⟩)
  case result =>
    intro a harrived hmember
    exact congrArg Host.Outcome.next (if_pos ⟨harrived, Option.isSome_iff_ne_none.2 hmember⟩)
  case resp =>
    intro a harrived hfor
    simp only [exec, execResp]
    rw [harrived, hfor]
    refine ⟨fun hends => if_neg ?ends, fun hstale hrequest hknown => ?again, fun hstale hrequest hnewer => ?fetchMap⟩
    case ends => exact fun ⟨hstale, hrequest⟩ => hends.elim (absurd hstale) hrequest
    case again => exact (if_pos ⟨hstale, hrequest⟩).trans (if_pos hknown)
    case fetchMap => exact (if_pos ⟨hstale, hrequest⟩).trans (if_neg (Nat.not_le.2 hnewer))
  case drop =>
    intro a harrived hfor
    simp only [exec, execDrop]
    rw [harrived, hfor]
  case unsupported =>
    intro a harrived
    exact congrArg Host.Outcome.next (if_pos harrived)
  case transit =>
    intro ty q p n req vl m v hlo hhi htag hmetered
    have hopen : ¬ ((s.port p).state < 3 ∨ 4 < (s.port p).state) := not_or.2 ⟨Nat.not_lt.2 hlo, Nat.not_lt.2 hhi⟩
    -- The port is open, the tag holds and the meter lets it pass: what is left turns on the hops it may still make.
    have hpasses : exec (.transitForward t dst type op data) s = _ :=
      (if_neg hopen).trans ((if_neg (not_forged htag)).trans (if_neg (not_not_intro hmetered)))
    refine ⟨fun hspent hreq htype => ?spent, fun hhops hroute => ?forwarded⟩
    case spent => exact hpasses.trans ((if_pos hspent).trans (congrArg Host.Outcome.next (if_pos ⟨hreq, htype⟩)))
    case forwarded =>
      refine hpasses.trans ((if_neg (Nat.not_le.2 hhops)).trans ?_)
      rw [hroute]

end Sys2Proof.Machine
end

section
/-! SUPPORT. Step, instance and record rows: each once the job, the core or the record it works on is there (R222, R226, R227, R236, R237,
R245, R249). -/

namespace Sys2Proof.Machine

/-- The record that comes next is ready once the flags it waits for are set (R226). -/
theorem State.ready_of_flagsSet {s : State} {c : Nat} {i : Inst} {r : Rec} (hnext : s.nextRec c = some (i, r))
    (hflags : flagsSet i.flags r.waitMask = true) : s.ready c r.kind = some (i, r) := by
  simp only [State.ready, hnext, hflags, and_self, if_true]

/-- A LOOP record of one of the eight loop registers, which goes on or goes back no further than the first record, issues (R227). -/
theorem State.loop_issues {s : State} {c : Nat} {i : Inst} {r : Rec} (hreg : r.op < 8)
    (hback : (2 ^ 32 + i.loops.getD r.op 0 - 1) % 2 ^ 32 = 0 ∨ le r.operands 0 2 ≤ i.pos) :
    s.loop c i r =
      s.issued c { i with loops := ((i.loops ++ List.replicate 8 0).take 8).set r.op ((2 ^ 32 + i.loops.getD r.op 0 - 1) % 2 ^ 32) } r
        (if (2 ^ 32 + i.loops.getD r.op 0 - 1) % 2 ^ 32 = 0 then i.pos + 1 else i.pos - le r.operands 0 2) := by
  refine if_neg ?_
  rintro (hhigh | ⟨hgoesOn, hfar⟩)
  · exact Nat.not_le.2 hreg hhigh
  · exact hback.elim hgoesOn (Nat.not_le.2 hfar)

/-- An ENGINE record that R226 and R222 let through joins its engine's queue. -/
theorem State.issueEngine_queues {s : State} {c : Nat} {i : Inst} {r : Rec}
    (hcode : 32 * i.pos < (kernelOf (s.klib i.slice) i.kernel).len) (hkind : r.kind ≠ 0) (hdefined : r.kind < 7)
    (hop : opcodeKnown r.engine r.op = true) (hpower : bitAt (s.engines i.slice c) r.engine = true)
    (hroom : ((s.core c).queue r.engine).length < queueDepth r.engine) :
    s.issueEngine c i r = s.setCore c { s.core c with
      inst := some { i with pos := i.pos + 1 }
      queues := tabPut (s.core c).queues r.engine ((s.core c).queue r.engine ++
        [{ op := r.op, setMask := r.setMask, waitMask := r.waitMask, clear := r.clear, operands := r.operands }]) } := by
  have hrecord : ¬ ((kernelOf (s.klib i.slice) i.kernel).len ≤ 32 * i.pos ∨ r.kind = 0 ∨ 7 ≤ r.kind ∨
      ¬ opcodeKnown r.engine r.op = true) := by
    simp [hcode, hkind, hdefined, hop]
  exact (if_neg hrecord).trans ((if_neg (not_not_intro hpower)).trans (if_neg (Nat.not_le.2 hroom)))

/-- Settles O18: each row finds the job, the instance or the record it works on, and then does what its rule says. That the loop register
counts down modulo 2^32, and that a branch to before the first record is a record fault, are the model's choices (log entry 66). -/
theorem stepInstanceAndRecordRowsComplete : Obligations.StepInstanceAndRecordRowsComplete := by
  unfold Obligations.StepInstanceAndRecordRowsComplete
  refine ⟨fun slice s j p hj hp => ⟨fun hstate hin hload hhib hclocks hbatch => ?stepStart, fun hover => ?stepEnd,
      fun i c j' hplace => ?place⟩,
    fun core s i hinst hstops hdrained => ?instanceEnd,
    fun core s i r hnext => ⟨fun hengine hcode hkind hdefined hop hpower hroom => ?engine, fun hflags => ?record⟩,
    fun core e s q rest hqueue hdone => ?commandDone⟩
  case stepStart =>
    simp only [exec, execStepStart, hj, hp]
    exact if_pos (by simp [hstate, hin, hload, hhib, hclocks, hbatch])
  case stepEnd =>
    simp only [exec, execStepEnd, hj, hp]
    exact if_pos hover
  case place =>
    simp only [exec, execInstancePlace, hj, hplace]
  case instanceEnd =>
    simp only [exec, execInstanceEnd, hinst]
    exact if_pos ⟨hstops, hdrained⟩
  case engine =>
    simp only [exec, execEngineRecord, hnext]
    exact (if_neg hengine).trans (congrArg Host.Outcome.next (State.issueEngine_queues hcode hkind hdefined hop hpower hroom))
  case record =>
    have hready := State.ready_of_flagsSet hnext hflags
    refine ⟨fun hkind => ?wait, fun hkind => ?signal, fun hkind hreg hback => ?loop, fun hkind hcls => ?yield, fun hkind => ?endRecord⟩
    all_goals rw [hkind] at hready
    case wait => simp only [exec, execWaitRecord, hready]
    case signal => simp only [exec, execSignalRecord, hready]
    case loop =>
      simp only [exec, execLoopRecord, hready]
      exact congrArg Host.Outcome.next (State.loop_issues hreg hback)
    case yield =>
      simp only [exec, execYieldRecord, hready]
      exact congrArg Host.Outcome.next (if_pos hcls)
    case endRecord => simp only [exec, execEndRecord, hready]
  case commandDone =>
    simp only [exec, execEngineCommandDone, hqueue]
    exact if_neg (not_not_intro hdone)

end Sys2Proof.Machine
end

section
/-! SUPPORT. Doorbells, BAR4 and MSI-X: each row once its index is in range, its range is mapped or its vector exists (R260, R455, R464,
R466). -/

namespace Sys2Proof.Machine

/-! ### BAR4 -/

/-- An access to a range whose every unit has an unprotected leaf that may be written, and that need not wait, meets the last row of R455. -/
theorem State.bar4At_reaches {s : State} {fn sl va n : Nat} {write inIde : Bool} {data : Bytes}
    (hmapped : ∀ x ∈ (unitsOf va n).map (s.xlate sl), x ≠ none)
    (hplain : ∀ x ∈ (unitsOf va n).map (s.xlate sl), ∀ y, x = some y → y.prot = false ∧ y.ro = false)
    (hwait : s.accessWait sl va n write = none) :
    s.bar4At fn sl va n write inIde data =
      if write then s.writeFrom 19 sl va data false
      else if (s.readFrom 19 sl va n).2 then (s.emit (.poisoned fn)).emit (.aer 0)
      else s.emit (.readData fn (s.readFrom 19 sl va n).1) := by
  have hleaf : ∀ y ∈ ((unitsOf va n).map (s.xlate sl)).filterMap id, y.prot = false ∧ y.ro = false := by
    intro y hy
    obtain ⟨x, hx, hxy⟩ := List.mem_filterMap.1 hy
    exact hplain x hx y hxy
  have hnone : ((unitsOf va n).map (s.xlate sl)).any (·.isNone) = false :=
    List.any_eq_false.2 fun x hx h => hmapped x hx (Option.isNone_iff_eq_none.1 h)
  have hprot : (((unitsOf va n).map (s.xlate sl)).filterMap id).any (·.prot) = false :=
    List.any_eq_false.2 fun y hy => Bool.eq_false_iff.1 (hleaf y hy).1
  have hro : (((unitsOf va n).map (s.xlate sl)).filterMap id).any (·.ro) = false :=
    List.any_eq_false.2 fun y hy => Bool.eq_false_iff.1 (hleaf y hy).2
  refine (if_neg (Bool.eq_false_iff.1 hnone)).trans ((if_neg fun h => Bool.eq_false_iff.1 hprot h.1).trans
    ((if_neg fun h => Bool.eq_false_iff.1 hro h.2).trans ?_))
  rw [hwait]

/-- A write to which a path leads is made (R17). -/
theorem State.writeFrom_of_path {s : State} {d sl va : Nat} {b : Bytes} (hpath : s.cutTo d sl va b.length = false) (bad : Bool) :
    s.writeFrom d sl va b bad = s.engineWrite sl va b bad :=
  if_neg (Bool.eq_false_iff.1 hpath)

/-- A read to which a path leads gives what the range holds (R17). -/
theorem State.readFrom_of_path {s : State} {d sl va n : Nat} (hpath : s.cutFrom d sl va n = false) :
    s.readFrom d sl va n = (s.vread sl va n, s.vbad sl va n) :=
  if_neg (Bool.eq_false_iff.1 hpath)

/-- An access inside the window of a powered device that holds the slice reaches the slice's address space (R455, R499; that
the window answers only then is log entry 38). -/
theorem execBar4Access_inWindow {fn : BitVec 6} {write : Bool} {off : BitVec 40} {len : BitVec 12} {data : Bytes} {s : State} {n sl : Nat}
    (hn : (if write = true then data.length else len.toNat) = n) (hsl : (fnSlice fn.toNat).getD (s.fld .bar4Slice fn.toNat 0 0 6) = sl)
    (hoff : off.toNat < 2 ^ s.bar4Size fn.toNat) (hhib : s.hibernating = false) (hon : s.pkg.shutdown = false)
    (hconv : s.pkg.conversion = true) (hdef : s.defined sl = true) (inIde : Bool) :
    execBar4Access fn write inIde off len data s =
      .next (s.bar4At fn.toNat sl (s.reg64 .bar4BaseLo .bar4BaseHi fn.toNat + off.toNat) n write inIde data) := by
  subst hn hsl
  exact (if_neg (Nat.not_le.2 hoff)).trans (if_neg (by rw [hhib, hon, hconv, hdef]; decide))

/-- Settles O14: each doorbell finds its queue or ring and an index in range, each access reaches a mapped range, and the vector exists. -/
theorem doorbellWindowAndVectorRowsComplete : Obligations.DoorbellWindowAndVectorRowsComplete := by
  unfold Obligations.DoorbellWindowAndVectorRowsComplete
  refine ⟨fun fn q v s x hq howner hrange => ?sqTail, fun fn q v s c => ?cqHead, fun fn q v s e => ?eqHead,
    fun fn slice ring v s q hring howner hahead => ?credit, fun fn write inIde off len data s => ?bar4, fun fn vector s => ?unmask⟩
  case sqTail =>
    change execSqTailDoorbell fn q v s = _
    unfold execSqTailDoorbell
    rw [hq]
    exact if_neg (not_or.2 ⟨not_not_intro howner, Nat.not_le.2 hrange⟩)
  case cqHead =>
    intro n c' t hq howner hrange hwritten
    have haccepted : exec (.cqHeadDoorbell fn q v) s = .next (if c.ien && v.toNat != c.tail then t.interrupt c.fn c.vector else t) := by
      change execCqHeadDoorbell fn q v s = _
      unfold execCqHeadDoorbell
      rw [hq]
      exact if_neg (not_or.2 ⟨not_not_intro howner, not_or.2 ⟨Nat.not_le.2 hrange, Nat.not_lt.2 hwritten⟩⟩)
    refine ⟨fun hien hleft => haccepted.trans ?_, fun hquiet => haccepted.trans ?_⟩
    · exact congrArg Host.Outcome.next (if_pos (Bool.and_eq_true_iff.2 ⟨hien, bne_iff_ne.2 hleft⟩))
    · exact congrArg Host.Outcome.next (if_neg (Bool.eq_false_iff.1 (Bool.and_eq_false_iff.2 (hquiet.imp_right bne_eq_false_iff_eq.2))))
  case eqHead =>
    intro n used adv t hq howner hrange hwritten hpartial
    have haccepted : exec (.eqHeadDoorbell fn q v) s =
        .next (if adv != used then (t (adv != used)).interrupt e.fn e.vector else t (adv != used)) := by
      -- Only a completely full queue whose head comes back to its own index reads the value in another way.
      have hadv : (if adv = 0 ∧ used = n then n else adv) = adv := if_neg hpartial
      have hvalid : ¬ (e.fn ≠ fn.toNat ∨ n ≤ v.toNat ∨ used < adv) :=
        not_or.2 ⟨not_not_intro howner, not_or.2 ⟨Nat.not_le.2 hrange, Nat.not_lt.2 hwritten⟩⟩
      change execEqHeadDoorbell fn q v s = _
      unfold execEqHeadDoorbell
      rw [hq]
      dsimp only
      rw [hadv]
      exact if_neg hvalid
    refine ⟨fun hleft => haccepted.trans ?_, fun hempty => haccepted.trans ?_⟩
    · rw [bne_iff_ne.2 hleft, if_pos rfl]
    · rw [bne_eq_false_iff_eq.2 hempty]
      rfl
  case credit =>
    change execTringCreditDoorbell fn slice ring v s = _
    unfold execTringCreditDoorbell
    rw [hring]
    exact (if_neg (not_not_intro howner)).trans (if_neg (Nat.not_lt.2 hahead))
  case bar4 =>
    intro f n sl va xs hoff hhib hon hconv hdef hmapped hplain hwait
    have hserved : exec (.bar4Access fn write inIde off len data) s = _ :=
      (execBar4Access_inWindow rfl rfl hoff hhib hon hconv hdef inIde).trans
        (congrArg Host.Outcome.next (State.bar4At_reaches hmapped hplain hwait))
    refine ⟨fun hwrite hpath => ?write, fun hread hpath hgood => ?read⟩
    case write =>
      subst hwrite
      exact hserved.trans (congrArg Host.Outcome.next (State.writeFrom_of_path hpath false))
    case read =>
      subst hread
      rw [hserved, State.readFrom_of_path hpath, hgood]
      rfl
  case unmask =>
    intro k t hvector
    have hexists : ¬ msixSize fn.toNat ≤ vector.toNat := Nat.not_le.2 hvector
    exact ⟨fun hpending => (if_neg hexists).trans (if_pos hpending),
      fun hclear => (if_neg hexists).trans (if_neg (Bool.eq_false_iff.1 hclear))⟩

end Sys2Proof.Machine
end

section
/-! SUPPORT. Configuration register rows: each is one write, of a register that nothing turns away (R277, R288, R473, R480, R483, R511). -/

namespace Sys2Proof.Machine

/-! ### Regulators -/

/-- CFG of a regulator is one of three registers. -/
theorem regulRegs_cfg (k : Nat) :
    (regulRegs k).2.1 = .regHbmCfg ∨ (regulRegs k).2.1 = .regLinkCfg ∨ (regulRegs k).2.1 = .regCeCfg := by
  unfold regulRegs
  split
  case isTrue => exact .inl rfl
  case isFalse =>
    split
    case isTrue => exact .inr (.inl rfl)
    case isFalse => exact .inr (.inr rfl)

theorem State.writeAt_regulCfg {r : Reg} {i k : Nat} (hcfg : r = .regHbmCfg ∨ r = .regLinkCfg ∨ r = .regCeCfg)
    (hk : regulOf r i = some k) (s : State) (sl fn off v : Nat) :
    s.writeAt r sl i fn off v = s.cfgWrite sl k (r.covered v) := by
  -- Such a register is of no LO/HI pair and not of RT.SERVE: only RT.QOS has a rule for it.
  rcases hcfg with rfl | rfl | rfl <;> simp [State.writeAt, Reg.waits, Reg.loOf, State.serveCheck, State.qosWrite, hk]

/-- A CFG write that passes R286 commits RATE and CFG together (R277). -/
theorem State.cfgWrite_commits {s : State} {sl k v : Nat}
    (hcheck : s.regulCheck sl k (s.reg (regulRegs k).1.1 sl (regulRegs k).1.2) v = none) :
    s.cfgWrite sl k v = (s.setReg (regulRegs k).2.1 sl (regulRegs k).2.2 v).commitRegul sl k
      (s.reg (regulRegs k).1.1 sl (regulRegs k).1.2) v := by
  simp only [State.cfgWrite, hcheck]

/-! ### Event counters -/

/-- An allowed source that the slice's program has is chosen, and its counter starts from zero (R511). -/
theorem State.evcWrite_chooses {s : State} {sl k v : Nat} (hgood : counterBad (v % 256) (v / 256 % 256) = false)
    (hhas : ((s.sliceEnt sl).getD {}).lacks (v % 256) (v / 256 % 256) = false) (fn off : Nat) :
    s.evcWrite sl k fn off v = (s.setReg .evcSel sl k (v % 2 ^ 16)).setReg .evcCount sl k 0 := by
  have hsource : bitsOf v 0 8 = v % 256 := congrArg (· % 256) (Nat.div_one v)
  have hfilter : bitsOf v 8 8 = v / 256 % 256 := rfl
  simp only [State.evcWrite, hsource, hfilter, hgood, hhas, Bool.false_eq_true, or_self, if_false]

/-! ### The admin queues -/

section
variable {s : State} {f v : Nat}

/-- With ENABLE clear the fields take the word, and the queues come up when it sets ENABLE (R473). -/
theorem State.aqWrite_of_disabled (hoff : s.fld .aqCfg f 0 31 1 = 0) :
    s.aqWrite f v = if bitAt v 31 then (s.writeFields .aqCfg f 0 v).adminOn f else s.writeFields .aqCfg f 0 v :=
  if_neg (by rw [hoff]; decide)

/-- With ENABLE set only a clear of it counts, and it destroys the queues (R473). -/
theorem State.aqWrite_of_enabled (hon : s.fld .aqCfg f 0 31 1 = 1) :
    s.aqWrite f v = if bitAt v 31 then s else (s.setFld .aqCfg f 0 31 1 0).adminOff f :=
  if_pos hon

end

/-! ### The general row -/

/-- An aligned write of one word is one register write (R479). -/
theorem execRegisterWrite_word {off : BitVec 26} {data : Bytes} (halign : off.toNat % 4 = 0) (hword : data.length = 4)
    (fn : BitVec 6) (s : State) :
    execRegisterWrite fn off data s = .next (s.writeReg fn.toNat off.toNat (wordOf data 0)) := by
  refine (if_neg (by simp [halign, hword])).trans ?_
  rw [hword]
  rfl

/-- Settles O13: each row is one register write that nothing turns away, and the register's own rule then takes the value. -/
theorem configurationRegisterRowsComplete : Obligations.ConfigurationRegisterRowsComplete := by
  unfold Obligations.ConfigurationRegisterRowsComplete
  refine ⟨fun fn slice reg v s k => ?regulator, fun fn slice entry v s => ?meter, fun fn slice c v s => ?counter,
    fun fn target v s => ?adminQueue, fun fn off v s hi lo u hoff hwritable hpair => ?pair,
    fun fn off data s r u i halign hword hoff hwritable => ?register⟩
  case regulator =>
    intro sl g rate hreg hwritable hregul hk hcheck
    subst hk
    refine (if_neg (Nat.not_le.2 hreg)).trans (congrArg Host.Outcome.next ?_)
    calc s.writeReg fn.toNat (g.1.addr sl g.2) v.toNat
      _ = s.writeAt g.1 sl g.2 fn.toNat _ v.toNat := writeReg_ok rfl hwritable
      _ = s.cfgWrite sl reg.toNat (g.1.covered v.toNat) := State.writeAt_regulCfg (regulRegs_cfg _) hregul s sl _ _ _
      _ = _ := State.cfgWrite_commits hcheck
  case meter =>
    intro sl i w hwritable hcheck
    refine congrArg Host.Outcome.next ?_
    calc s.writeReg fn.toNat (Reg.addr .mtrSel sl i) v.toNat
      _ = s.writeAt .mtrSel sl i fn.toNat _ v.toNat := writeReg_ok rfl hwritable
      _ = s.selWrite sl i w := writeAt_sel s sl i _ _ _
      _ = _ := sel_ok sl i w s hcheck
  case counter =>
    intro sl k hwritable hgood hhas
    exact congrArg Host.Outcome.next ((writeReg_ok rfl hwritable).trans (State.evcWrite_chooses hgood hhas _ _))
  case adminQueue =>
    intro f hwritable
    have hwrite : exec (.aqCfgWrite fn target v) s = .next (s.aqWrite f v.toNat) :=
      congrArg Host.Outcome.next (writeReg_ok rfl hwritable)
    have hone : v.toNat / 2 ^ 31 % 2 = 1 → bitAt v.toNat 31 = true := fun hset => decide_eq_true hset
    have hzero : v.toNat / 2 ^ 31 % 2 = 0 → ¬ bitAt v.toNat 31 = true := by
      intro hclear
      rw [bitAt_eq_decide, hclear]
      decide
    refine ⟨fun hoff hset => ?up, fun hoff hclear => ?fields, fun hon hclear => ?down⟩
    case up => rw [hwrite, State.aqWrite_of_disabled hoff, if_pos (hone hset)]
    case fields => rw [hwrite, State.aqWrite_of_disabled hoff, if_neg (hzero hclear)]
    case down => rw [hwrite, State.aqWrite_of_enabled hon, if_neg (hzero hclear)]
  case pair =>
    exact congrArg Host.Outcome.next ((writeReg_ok hoff hwritable).trans (writeAt_hi hpair s u _ _ _))
  case register =>
    exact (execRegisterWrite_word halign hword fn s).trans (congrArg Host.Outcome.next (writeReg_ok hoff hwritable))

end Sys2Proof.Machine
end

section
/-! SUPPORT. Every command but a patrol read answers a next state, whatever the state and its operands (R292, R314). -/

namespace Sys2Proof.Machine

/-- An outcome that is a next state: neither a fault nor a refusal. -/
def Answers (o : Host.Outcome State Fault Refusal) : Prop := ∃ t, o = .next t

theorem Answers.next (t : State) : Answers (.next t) := ⟨t, rfl⟩

theorem Answers.ite {p : Prop} {_ : Decidable p} {a b : Host.Outcome State Fault Refusal} (ha : Answers a) (hb : Answers b) :
    Answers (if p then a else b) := by
  split
  · exact ha
  · exact hb

theorem spdmRequest_answers (secured : Bool) (ready : Spdm → Bool) (s : State) (f : State → State) :
    Answers (spdmRequest secured ready s f) :=
  .ite (.next _) (.ite (.next _) (.ite (.next _) (.ite (.next _) (.next _))))

theorem tdispRequest_answers (fn : Nat) (s : State) (f : State → State) : Answers (tdispRequest fn s f) :=
  .ite (.next _) (.ite (.next _) (.ite (.next _) (.ite (.next _) (.next _))))

/-- A request held for a newer map is served when it is decided again (R377). -/
theorem State.rerun_answers (s : State) (c : Instr) : Answers (s.rerun c) := by
  unfold State.rerun
  split <;> exact .next _

/-- A patrol read of one of the eight state dies answers (R292, R314). -/
theorem execPatrolRead_answers {pa : U64} (hdie : pa.toNat / 2 ^ 37 < 8) (errs : List (U8 × U8)) (s : State) :
    Answers (exec (.patrolRead pa errs) s) := by
  simp only [exec, execPatrolRead, if_neg (Nat.not_le.2 hdie)]
  exact .ite (.next _) (.next _)

/-- Every row but a patrol read answers: those that always take effect, those that a condition or two hold up, the host commands, which
are rejected, completed or left waiting, the messages of SPDM and TDISP, and those that look something up and do nothing where it is not
there. -/
theorem exec_answers {c : Instr} (hc : ∀ pa errs, c ≠ .patrolRead pa errs) (s : State) : Answers (exec c s) := by
  cases c
  case patrolRead pa errs => exact absurd rfl (hc pa errs)
  case rstCtrlPkgReset | thermCtrlShutdown | zeroizeArm | zeroizeFire | portCtrlDisable | portCtrlRekey | portCtrlRetrain
      | errlogCtrlConsume | pkcLoRead | loReadLatch | hiWriteCommit | mtrSelWrite | evcSelWrite | aqCfgWrite | poisonedTlpReceived
      | pldmPkgReset | pldmThermalShutdown | pldmZeroizeArm | pldmZeroizeFire | pldmErrlogRead | vin48Applied | pwrgoodDeassert
      | vin48OutOfRange | vio18Low | mm | accOut | func | readTxn | writeTxn | addF32 | addBf16 | setRow | fadd64 | cas64 | query
      | result | canvasData | desc | mirrorRows | mirrorCommit | mirrorState | propose | prepare | vote | commitMap | mapUpdate
      | mapQuery | mapState | sealKey | offer | accept | refuse | ack | commitHandoff | committed | released | resolve | recordQuery
      | ringCmd | poolAlloc | poolFree | poolInfo | linkState | identify | unsupportedTransaction | zeroizeArmExpiry =>
    exact .next _
  case regCfgWrite | registerWrite | ideFailure | getVersion | pldmPortDisable | vaux12Applied | pwrgoodAssert | perstNAssert
      | perstNDeassert | vaux12Removed | refclkRestart | dieRelease | thermalTrip | selftestDone | selftestFailure | bootImageLoad
      | trialBootTimeout | attn | merge | sample | verify | priorityCopyDone | idleParkCheck | closeEnd | coreStoreRowReplace
      | rekeySweepRegion | regulatorAdmit | bridgeDown | flitReceive | bringupRetry | frameCountRekey | rekeyDone | deadlineCheck
      | autoReport | counterSnapshot | sensorRead | idleEntry | dozeEntry | dozeExit | hibernateEntry | wakeDone | thermalRecovery
      | vio18Restored | ackIntervalExpiry =>
    exact .ite (.next _) (.next _)
  case bar4Access | msixUnmask | functionLevelReset | refclkStop | dieFirmwareMeasured | watchdogExpiry | laneFailure
      | portTrainingDone | keyConfirm =>
    exact .ite (.next _) (.ite (.next _) (.next _))
  case nop | sqCreate | sqDelete | cqCreate | cqDelete | eqCreate | eqDelete | request | closeSession | park | thaw | migrate | fork
      | setSession | sessionQuery | cancel | ringExtend | tringCreate | tringDestroy | paletteLoad | paletteUnload | jobEnd | memFree
      | apertureMap | apertureUnmap | poolReclaim | indexCreate | indexDestroy | insertVec | deleteVec | indexCompact | search
      | searchNext | cursorDrop | tableCreate | tableDestroy | gather | scatterAdd | scatterSet | tableStage | tableSwitch | hotPost
      | compChange | portEnable | portDisable | portRekey | ckptNow | ckptRestore | ckptRelease | revokeAuthor | zeroize
      | consentRemove | devReset | pkgReset | powerState | errlogRead | thermShutdown =>
    dsimp only [exec]
    exact hostCmd_answers ..
  case openSession | jobStart | memAlloc | imageLoad | enrolAuthor | keygenAdvance | genRetire | keyRelease | boundOpen | weightDecrypt
      | consentInstall | fwLoad =>
    exact .ite (.next _) (hostCmd_answers ..)
  case copy =>
    simp only [exec, execCopy]
    split
    · exact .next _
    · exact hostCmd_answers ..
  case getCapabilities | negotiateAlgorithms | getDigests | getCertificate | challenge | getMeasurements | endSession | heartbeat
      | keyUpdate | kemStart =>
    dsimp only [exec]
    exact spdmRequest_answers ..
  case lockInterface | startInterfaceRequest | stopInterface =>
    simp only [exec, execLockInterface, execStartInterfaceRequest, execStopInterface]
    exact tdispRequest_answers ..
  case epochHoldExpiry =>
    simp only [exec, execEpochHoldExpiry]
    split
    · exact .next _
    · exact .ite (.next _) (State.rerun_answers ..)
  case sqTailDoorbell | cqHeadDoorbell | eqHeadDoorbell | tringCreditDoorbell =>
    simp only [exec, execSqTailDoorbell, execCqHeadDoorbell, execEqHeadDoorbell, execTringCreditDoorbell]
    (repeat' split) <;> exact .next _
  case ideKm | pllLockLoss | hello | throttlePeriod | powerCapPeriod | liveLimitExpiry | jtagAccess =>
    simp only [exec, execIdeKm, execPllLockLoss, execHello, execThrottlePeriod, execPowerCapPeriod, execLiveLimitExpiry,
      execJtagAccess]
    (repeat' split) <;> exact .next _
  case imageCommit | stepStart | stepEnd | instancePlace | instanceEnd | engineRecord | waitRecord | signalRecord | loopRecord
      | yieldRecord | endRecord | engineCommandDone | append | mvCopy | mvGather =>
    simp only [exec, execImageCommit, execStepStart, execStepEnd, execInstancePlace, execInstanceEnd, execEngineRecord,
      execWaitRecord, execSignalRecord, execLoopRecord, execYieldRecord, execEndRecord, execEngineCommandDone, execAppend, execMvCopy,
      execMvGather]
    (repeat' split) <;> exact .next _
  case stagingDone | ckptCommit | restoreDone | canvasWorkItem | canvasRepairDone | parkEnd | runaheadThawStart | thawEnd
      | streamPageArrival | streamFault | paletteCompileDone =>
    simp only [exec, execStagingDone, execCkptCommit, execRestoreDone, execCanvasWorkItem, execCanvasRepairDone, execParkEnd,
      execRunaheadThawStart, execThawEnd, execStreamPageArrival, execStreamFault, execPaletteCompileDone]
    (repeat' split) <;> exact .next _
  case translationMiss | fetchDone | gessoFillDone | rowMigration | tableSwitchApply | compactRelease | retrievalOperationDone =>
    simp only [exec, execTranslationMiss, execFetchDone, execGessoFillDone, execRowMigration, execTableSwitchApply,
      execCompactRelease, execRetrievalOperationDone]
    (repeat' split) <;> exact .next _
  case resp | drop | transitForward | handoffLimitExpiry | arbiterRetry | ringWaitLimitExpiry | txnResend | txnLimitExpiry
      | mapVoteTimeout | linkStateSend | qosHoldoffExpiry | consentExpiry =>
    simp only [exec, execResp, execDrop, execTransitForward, execHandoffLimitExpiry, execArbiterRetry, execRingWaitLimitExpiry,
      execTxnResend, execTxnLimitExpiry, execMapVoteTimeout, execLinkStateSend, execQosHoldoffExpiry, execConsentExpiry]
    (repeat' split) <;> exact .next _

/-- Settles O35: every row but a patrol read answers a next state, and a patrol read does when its address has 40 bits, so that bits 39:37
name one of the eight state dies (R292). -/
theorem onlyPatrolReadOfNoDieStops : Obligations.OnlyPatrolReadOfNoDieStops := by
  unfold Obligations.OnlyPatrolReadOfNoDieStops
  intro c s
  by_cases hpatrol : ∃ pa errs, c = .patrolRead pa errs
  · obtain ⟨pa, errs, rfl⟩ := hpatrol
    rcases Nat.lt_or_ge (pa.toNat / 2 ^ 37) 8 with hdie | hnone
    · exact .inl (execPatrolRead_answers hdie errs s)
    · exact .inr ⟨pa, errs, rfl, (Nat.le_div_iff_mul_le (by decide)).1 hnone, if_pos hnone⟩
  · exact .inl (exec_answers (fun pa errs he => hpatrol ⟨pa, errs, he⟩) s)

end Sys2Proof.Machine
end

section
/-! SUPPORT. Poison of sectors under a physical write (R312). -/

namespace Sys2Proof.Machine

theorem mem_clearPoison {l : List Nat} {pa n x : Nat} : x ∈ clearPoison l pa n ↔ x ∈ l ∧ ¬ (pa ≤ x ∧ x + 128 ≤ pa + n) := by
  simp only [clearPoison, List.mem_filter, ← Bool.decide_and, Bool.not_eq_true', decide_eq_false_iff_not]

/-- A priority copy for a checkpoint reads the frame's poison and leaves it as it is. -/
theorem State.ckGuard_poison (s : State) (f : Nat) : (s.ckGuard f).mem.poison = s.mem.poison := by
  have hcopy : ∀ (t : State) (c : Ckpt), t.mem.poison = s.mem.poison →
      ((t.bump .ckptPrioCopies c.slice 1).invalidate c.slice).mem.poison = s.mem.poison :=
    fun t c h => (congrArg MemSt.poison (State.bump_mem t .ckptPrioCopies c.slice 1)).trans h
  unfold State.ckGuard
  dsimp only
  split
  · rfl
  · exact foldl_inv _ _ hcopy _ _ rfl

/-- The dirty maps and the checkpoint guard see a write, and leave poison as it is. -/
theorem State.touch_poison (s : State) (pa n : Nat) : (s.touch pa n).mem.poison = s.mem.poison := by
  unfold State.touch
  split
  · rfl
  · exact foldl_inv _ (fun t : State => t.mem.poison = s.mem.poison) (fun t f h => (t.ckGuard_poison f).trans h) _ _ rfl

theorem State.pwrite_poison (s : State) (pa : Nat) (b : Bytes) :
    (s.pwrite pa b).mem.poison = clearPoison s.mem.poison pa b.length :=
  congrArg (clearPoison · pa b.length) (s.touch_poison pa b.length)

/-- Settles O54: of the sectors poisoned before a write, those that it does not replace whole are poisoned after it, and no others. -/
theorem poisonStaysUntilWholeWrite : Obligations.PoisonStaysUntilWholeWrite := by
  unfold Obligations.PoisonStaysUntilWholeWrite
  intro s pa b x
  rw [State.pwrite_poison, mem_clearPoison]

end Sys2Proof.Machine
end

section
/-! SUPPORT. MEM_ALLOC, MEM_FREE, APERTURE_MAP, APERTURE_UNMAP and POOL_RECLAIM, each past its own checks (R298, R300, R379, R380). -/

namespace Sys2Proof.Machine

/-! ### Objects -/

/-- A T1 object whose frames and tables are found joins the end of the object list, as it was asked for (R299). -/
theorem State.allocT1_objects {s t : State} {sl type va units : Nat} {die : Option Nat} {prot : Bool} {tag : Option Tag}
    (h : s.allocT1 sl type va units die prot tag = some t) :
    ∃ pieces, t.mem.objects = s.mem.objects ++
      [{ type := type, slice := sl, va := va, units := units, tier := 1, prot := prot, pieces := pieces, tag := tag }] := by
  obtain ⟨x, hx, hmap⟩ := Option.bind_eq_some_iff.1 h
  refine ⟨x.2, (remap_objects hmap).trans ?_⟩
  rw [← takeChunks_objects _ _ _ _ _ _ _ _ hx]

theorem State.unmapped_regions {s : State} {sl : Nat} {r : Region} (h : r ∈ (s.unmapped sl).mem.regions) : r ∈ s.mem.regions :=
  (foldFree_regions (fun t : PtTable => t.pa) _ _ r h).1

section
variable {s : State} {o : Obj}

/-- Freed, an object with no stripe members leaves the object list, and no other object does (R300). -/
theorem State.freeObj_objects (h : o.members = []) : (s.freeObj o).mem.objects = s.mem.objects.filter (· != o) := by
  simp only [State.freeObj, h, List.filter_nil, List.foldl_nil]
  rw [State.unmapped_objects]
  exact foldl_inv _ (fun t : State => t.mem.objects = s.mem.objects.filter (· != o))
    (fun t (p : Nat × Nat × Nat) ht => (State.freeAt_objects t p.2.1).trans ht) _ _ rfl

/-- No region is left at a piece of a freed object (R300). -/
theorem State.freeObj_regions (h : o.members = []) :
    ∀ p ∈ o.pieces, ∀ r ∈ (s.freeObj o).mem.regions, r.pa ≠ p.2.1 := by
  intro p hp r hr
  simp only [State.freeObj, h, List.filter_nil, List.foldl_nil] at hr
  exact (foldFree_regions (fun p : Nat × Nat × Nat => p.2.1) _ _ r (State.unmapped_regions hr)).2 p hp

end

/-! ### The commands -/

/-- A check of an operand that the value `y` exempts does not fail where the operand has that value or the check is met. -/
theorem bne_and_eq_false {α : Type} [DecidableEq α] {x y : α} {bad : Bool} (h : x = y ∨ bad = false) : (x != y && bad) = false := by
  rcases h with rfl | rfl
  · rw [bne_self_eq_false, Bool.false_and]
  · exact Bool.and_false _

/-- The stripe of a protected T2 object is all that check 5 of R298 asks about. -/
theorem stripeCheck_eq_false {ti : Nat} {prot formable : Bool} (h : ti = 2 → prot = true → formable = true) :
    (ti == 2 && prot && !formable) = false := by
  simpa using h

/-- The address that MEM_ALLOC takes, the lowest free range for a VA of 0 and else the VA itself, passes the range checks of R298. -/
theorem memAlloc_range {va : U64} {low : Option Nat} {ti n a : Nat} (hlow : va = 0 → low = some a)
    (hgiven : va ≠ 0 → a = va.toNat ∧ va.toNat % 4096 = 0 ∧ inTier ti a n = true) :
    (if va = 0 then low else some va.toNat) = some a ∧ va.toNat % 4096 = 0 ∧ (va != 0 && !inTier ti va.toNat n) = false := by
  by_cases hva : va = 0
  · exact ⟨(if_pos hva).trans (hlow hva), by rw [hva]; rfl, bne_and_eq_false (.inl hva)⟩
  · obtain ⟨ha, halign, htier⟩ := hgiven hva
    exact ⟨(if_neg hva).trans (ha ▸ rfl), halign, bne_and_eq_false (.inr (by rw [← ha, htier]; rfl))⟩

/-- Settles O5: each command passes the checks of its own, and then does what its rule says; an object without stripe members is off the
list once it is freed, and a kept range off the pool's list. -/
theorem memoryObjectCommandsComplete : Obligations.MemoryObjectCommandsComplete := by
  unfold Obligations.MemoryObjectCommandsComplete
  refine ⟨fun h slice type tier protect die fetchLog2 stripe size va s a hgesso ha hdef htype htier hsize hfetch hstripe hdie hmode hlow
      hgiven hfree hform => ?memAlloc,
    fun h slice va s o ha hdef ho huse htype => ⟨?memFree, fun hmem => ?gone⟩,
    fun h slice va member size s m ha hdef hrange hobj hap hm hpool hsize hconf => ?apertureMap,
    fun h slice va s x b ha hdef hx hb => ⟨fun hm => ?unmapStranger, fun hm => ?unmapMember⟩,
    fun h locator s r ha hr hdev => ⟨?poolReclaim, ?dropped⟩⟩
  case memAlloc =>
    obtain ⟨haddr, halign, hin⟩ := memAlloc_range hlow hgiven
    refine ⟨fun t hti ht => (if_neg (Bool.eq_false_iff.1 hgesso)).trans (hostCmd_done ha ((checked_ok ?checks1).trans ?_)),
      fun t hti ht => (if_neg (Bool.eq_false_iff.1 hgesso)).trans (hostCmd_later ha ((checked_ok ?checks2).trans ?_))⟩
    case checks1 | checks2 =>
      have hdie' := bne_and_eq_false (hdie.imp_right fun hlt => decide_eq_false (Nat.not_le.2 hlt))
      simp only [firstFail, haddr, hdef, Nat.not_le.2 htype, beq_false_of_ne htier, beq_false_of_ne hsize, Nat.not_lt.2 hfetch,
        Nat.not_lt.2 hstripe, hdie', halign, hin, bne_and_eq_false hmode, Option.getD_some, hfree, stripeCheck_eq_false hform]
      rfl
    · simp only [if_pos hti, haddr, Option.getD_some, ht]
      rfl
    · simp only [if_neg hti, haddr, Option.getD_some, ht]
  case memFree =>
    dsimp only [exec, execMemFree]
    refine hostCmd_done ha ((inSlice_ok hdef).trans ?_)
    simp only [ho]
    exact if_neg (by simp [huse, htype])
  case gone => simp [State.freeObj_objects hmem]
  case apertureMap =>
    dsimp only [exec, execApertureMap]
    refine hostCmd_later ha (checked_ok ?_)
    have haps : ((Fetched h s).apertures.any fun x => x.slice == cmdSlice h.fn.toNat slice.toNat &&
        overlaps va.toNat (65536 * size.toNat) (x.va, 65536 * x.units)) = false := by
      simpa using hap
    have hkind : ((Fetched h s).confidential (cmdSlice h.fn.toNat slice.toNat) && m.kind == 2) = false := by
      simpa using hconf
    simp only [firstFail, hdef, hrange, hobj, haps, hm, Option.any_some, beq_false_of_ne hpool, hkind, Nat.not_lt.2 hsize]
    rfl
  case unmapStranger =>
    dsimp only [exec, execApertureUnmap]
    refine hostCmd_done ha ((inSlice_ok hdef).trans ?_)
    simp only [hx]
    exact congrArg (Reply.done · eOk []) (if_neg (by rw [Option.isSome_iff_ne_none]; exact not_not_intro hm))
  case unmapMember =>
    dsimp only [exec, execApertureUnmap]
    refine hostCmd_done ha ((inSlice_ok hdef).trans ?_)
    simp only [hx, hb, Option.getD_some]
    exact congrArg (Reply.done · eOk []) (if_pos (Option.isSome_iff_ne_none.2 hm))
  case poolReclaim =>
    dsimp only [exec, execPoolReclaim]
    refine hostCmd_done ha ?_
    simp only [hr]
    exact if_neg (not_not_intro hdev)
  case dropped => simp [State.poolDrop]

/-- Settles O30: the commands complete as `memoryObjectCommandsComplete` says; what the object list and the regions then are, the lemmas
about `allocT1` (R298) and `freeObj` (R300) say. -/
theorem memAllocAndMemFreeComplete : Obligations.MemAllocAndMemFreeComplete := by
  unfold Obligations.MemAllocAndMemFreeComplete
  obtain ⟨halloc, hmemFree, -⟩ := memoryObjectCommandsComplete
  refine ⟨fun h slice type tier protect die fetchLog2 stripe size va s a hgesso ha hdef htype htier hsize hfetch hstripe hdie hmode hti
      hlow hgiven hfree hroom => ?alloc,
    fun h slice va s o ha hdef ho huse htype hmem =>
      ⟨_, (hmemFree h slice va s o ha hdef ho huse htype).1, State.freeObj_objects hmem, State.freeObj_regions hmem⟩⟩
  case alloc =>
    obtain ⟨t, ht⟩ := Option.ne_none_iff_exists'.1 hroom
    obtain ⟨pieces, hobjs⟩ := State.allocT1_objects ht
    have hcompletes := (halloc h slice type tier protect die fetchLog2 stripe size va s a hgesso ha hdef htype htier hsize hfetch hstripe
      hdie hmode (hti.symm ▸ hlow) (hti.symm ▸ hgiven) hfree (fun h2 => absurd (hti.symm.trans h2) (by decide))).1 t hti ht
    exact ⟨t, _, hcompletes, hobjs, rfl, rfl, rfl, rfl, rfl, rfl⟩

end Sys2Proof.Machine
end

section
/-! SUPPORT. What every step keeps: the queue of waiting commands behind the front one, and a live generation (R416, R421). -/

namespace Sys2Proof.Machine

/-- Settles O33: a step of a queue that has a front command is that command. -/
theorem stepRunsFrontCommand : Obligations.StepRunsFrontCommand := by
  unfold Obligations.StepRunsFrontCommand
  exact fun c rest s => step_front rfl

/-- Settles O36: keeping the queue is part of what every command keeps. That commands wait in a queue is the model's choice (log
entries 11 and 15). -/
theorem commandsLeaveQueueAlone : Obligations.CommandsLeaveQueueAlone := by
  unfold Obligations.CommandsLeaveQueueAlone
  exact fun c s t hz => (exec_kept hz).pending

/-- Settles O39: an idle step advances counts only, and every command keeps a live generation. -/
theorem currentGenerationStaysLive : Obligations.CurrentGenerationStaysLive := by
  unfold Obligations.CurrentGenerationStaysLive
  intro s t hlive hstep
  cases hq : s.pending with
  | nil =>
    cases (step_idle hq).symm.trans hstep
    exact hlive
  | cons c rest =>
    have hexec : exec c { s with pending := rest } = .next t := (step_front hq).symm.trans hstep
    exact (exec_kept hexec).live hlive

/-- Settles O40: a fresh part has retired no generation. -/
theorem currentGenerationLiveAtReset : Obligations.CurrentGenerationLiveAtReset := by
  unfold Obligations.CurrentGenerationLiveAtReset
  exact .inl (by decide)

end Sys2Proof.Machine
end

section
/-! SUPPORT. The general checks of the operands: INDIRECT and the length of the buffer, then its memory, then the reserved bits (R458,
R459). -/

namespace Sys2Proof.Machine

theorem divUp_eight_mul_eq_iff (need n : Nat) : n = divUp need 8 * 8 ↔ n % 8 = 0 ∧ need ≤ n ∧ n < need + 8 := by
  unfold divUp
  omega

/-- INDIRECT is set where the operands exceed 56 bytes and nowhere else, and the buffer then has their length rounded up to 8 bytes
and at most 4,096 (R458). -/
def LengthOk (h : Hdr) (need : Nat) : Prop :=
  (h.indirect = true ↔ 56 < need) ∧
    (h.indirect = true → h.indLen.toNat % 8 = 0 ∧ need ≤ h.indLen.toNat ∧ h.indLen.toNat < need + 8 ∧ h.indLen.toNat ≤ 4096)

/-- The two conditions of the general checks that end in E_BAD_LENGTH both fail exactly for a good length. -/
theorem lengthOk_iff (h : Hdr) (need : Nat) :
    LengthOk h need ↔ ¬ h.indirect ≠ decide (need > 56) ∧
      ¬ (h.indirect ∧ (h.indLen.toNat ≠ divUp need 8 * 8 ∨ h.indLen.toNat > 4096)) := by
  have hset : (h.indirect = true ↔ 56 < need) ↔ h.indirect = decide (need > 56) := by
    cases h.indirect <;> simp
  rw [LengthOk, hset, Ne, not_not]
  refine and_congr_right fun _ => ?_
  rw [not_and, not_or, not_not, Nat.not_lt, divUp_eight_mul_eq_iff, and_assoc, and_assoc]

theorem State.generalCheck_of_bad_length {c : CmdSpec} {h : Hdr} (s : State) (hbad : ¬ LengthOk h (packLen c.widths)) :
    s.generalCheck c h = some (eBadLength, 0) := by
  rw [lengthOk_iff, not_and] at hbad
  unfold State.generalCheck
  by_cases hset : h.indirect ≠ decide (packLen c.widths > 56)
  · exact if_pos hset
  · exact (if_neg hset).trans (if_pos (not_not.1 (hbad hset)))

/-- With a good length the buffer's memory is looked at, and then the reserved bits. -/
theorem State.generalCheck_of_lengthOk {c : CmdSpec} {h : Hdr} (s : State) (hgood : LengthOk h (packLen c.widths)) :
    (h.indirect = true → h.indOk = false → s.generalCheck c h = some (eHostRead, 0)) ∧
    ((h.indirect = true → h.indOk = true) → ∀ o, h.rsvd = some o → s.generalCheck c h = some (eReservedSet, o.toNat)) := by
  obtain ⟨hset, hlen⟩ := (lengthOk_iff h _).1 hgood
  unfold State.generalCheck
  refine ⟨fun hind hbad => ?_, fun hread o ho => ?_⟩
  · exact (if_neg hset).trans ((if_neg hlen).trans (if_pos ⟨hind, by simp [hbad]⟩))
  · refine (if_neg hset).trans ((if_neg hlen).trans ((if_neg fun ⟨hind, hbad⟩ => hbad (hread hind)).trans ?_))
    rw [ho]

/-- Settles O42: a bad length ends the checks, and behind a good one stand the buffer's memory and then the reserved bits (R458; the
codes of the last two are those of R459). -/
theorem indirectLengthChecksComeFirst : Obligations.IndirectLengthChecksComeFirst := by
  unfold Obligations.IndirectLengthChecksComeFirst
  intro c h s need n good
  exact ⟨State.generalCheck_of_bad_length s, fun hgood => (State.generalCheck_of_lengthOk s hgood).1,
    fun hgood => (State.generalCheck_of_lengthOk s hgood).2⟩

end Sys2Proof.Machine
end

section
/-! SUPPORT. Counters: the value that a counter takes, and the registers it leaves alone (R484). -/

namespace Sys2Proof.Machine

theorem State.reg_bump_same (s : State) (r : Reg) (u n : Nat) : (s.bump r u n).reg r u 0 = min 0xFFFFFFFF (s.reg r u 0 + n) := by
  rw [State.bump, State.reg_setReg_same]
  omega

/-- Settles O49: a counter is one register, and 32 bits hold what it is set to. -/
theorem countersStopAtTheTop : Obligations.CountersStopAtTheTop := by
  unfold Obligations.CountersStopAtTheTop
  exact fun s r u n => ⟨s.reg_bump_same r u n, fun q v j h => State.reg_setReg_ne h, rfl⟩

end Sys2Proof.Machine
end

section
/-! SUPPORT. Completions and events: what is written to host memory, and the queue's record behind it (R461, R466..R468). -/

namespace Sys2Proof.Machine

@[simp] theorem length_bytesOf (n v : Nat) : (bytesOf n v).length = n := by
  induction n generalizing v with
  | zero => rfl
  | succ n ih => simp [bytesOf, ih]

theorem length_take_append_zeros (b : Bytes) (n : Nat) : ((b ++ zeros n).take n).length = n := by
  simp [zeros]

theorem length_completionBytes (result : Bytes) (sq head cid status info : Nat) (phase : Bool) :
    (completionBytes result sq head cid status info phase).length = 32 := by
  simp [completionBytes, zeros]

theorem length_eventBytes (type slice status pkc : Nat) (data : Bytes) (phase lost : Bool) :
    (eventBytes type slice status pkc data phase lost).length = 32 := by
  simp [eventBytes, zeros]

theorem State.hostWrite_of_hostOk {s : State} {a : Nat} {b : Bytes} (h : s.hostOk a b.length = true) :
    s.hostWrite a b = { s with host := { s.host with mem := memWrite s.host.mem a b } } := if_pos h

/-- A message, or the pending bit in its place, is all that an interrupt touches. -/
theorem State.interrupt_host (s : State) (fn vector : Nat) :
    ∃ out pend, s.interrupt fn vector = { s with host := { s.host with out := out, msixPending := pend } } := by
  unfold State.interrupt
  dsimp only
  split
  · exact ⟨_, s.host.msixPending, rfl⟩
  · exact ⟨s.host.out, _, rfl⟩

@[simp] theorem State.interrupt_host_mem (s : State) (fn vector : Nat) : (s.interrupt fn vector).host.mem = s.host.mem := by
  obtain ⟨out, pend, h⟩ := s.interrupt_host fn vector
  rw [h]

@[simp] theorem State.interrupt_host_cqs (s : State) (fn vector : Nat) : (s.interrupt fn vector).host.cqs = s.host.cqs := by
  obtain ⟨out, pend, h⟩ := s.interrupt_host fn vector
  rw [h]

@[simp] theorem State.interrupt_host_eqs (s : State) (fn vector : Nat) : (s.interrupt fn vector).host.eqs = s.host.eqs := by
  obtain ⟨out, pend, h⟩ := s.interrupt_host fn vector
  rw [h]

/-- The CQ once an entry stands at its tail: the tail goes on, PHASE toggles at the wrap (R461), a message is due at most once (R466). -/
def Cq.advanced (c : Cq) : Cq :=
  { c with
    tail := if c.tail + 1 = 2 ^ c.log2 then 0 else c.tail + 1
    phase := if c.tail + 1 = 2 ^ c.log2 then !c.phase else c.phase
    outstanding := c.outstanding - 1
    msgSent := c.msgSent || c.ien }

/-- A completion that reaches its CQ is one write at the tail, and the queue's record goes on. -/
theorem State.complete_host {s : State} {t : Tag} {c : Cq} (status info : Nat) (result : Bytes) (hepoch : s.epoch t.fn t.cq = t.epoch)
    (hfatal : s.pkg.fatal = false) (hc : tabGet s.host.cqs t.cq = some c) (hok : s.hostOk (c.base.toNat + 32 * c.tail) 32 = true) :
    (s.complete t status info result).host.mem = memWrite s.host.mem (c.base.toNat + 32 * c.tail)
        (completionBytes result t.sq (((tabGet s.host.sqs t.sq).map (·.head)).getD 0) t.cid.toNat status info c.phase) ∧
      (s.complete t status info result).host.cqs = tabPut s.host.cqs t.cq c.advanced := by
  have hgo : ¬ (s.epoch t.fn t.cq ≠ t.epoch ∨ s.pkg.fatal = true) := by simp [hepoch, hfatal]
  have hwrite := fun head => State.hostWrite_of_hostOk
    (show s.hostOk _ (completionBytes result t.sq head t.cid.toNat status info c.phase).length = true by
      rw [length_completionBytes]; exact hok)
  unfold State.complete
  simp only [if_neg hgo, hc, hwrite]
  cases tabGet s.host.sqs t.sq <;> split <;> simp [Cq.advanced]

theorem Cq.advanced_tail {c : Cq} (h : c.tail < 2 ^ c.log2) : c.advanced.tail = (c.tail + 1) % 2 ^ c.log2 := by
  unfold Cq.advanced
  split
  · next e => rw [e, Nat.mod_self]
  · next e => exact (Nat.mod_eq_of_lt (Nat.lt_of_le_of_ne h e)).symm

/-- Settles O44: the completion is one write of 32 bytes at the tail. -/
theorem completionIsWrittenAtTail : Obligations.CompletionIsWrittenAtTail := by
  unfold Obligations.CompletionIsWrittenAtTail
  intro s t status info result c hepoch hfatal hc htail hok u a head
  obtain ⟨hmem, hcqs⟩ := State.complete_host status info result hepoch hfatal hc hok
  have hlen := length_completionBytes result t.sq head t.cid.toNat status info c.phase
  refine ⟨?entry, fun b hb => ?rest, c.advanced, ?record, Cq.advanced_tail htail, rfl, rfl⟩
  case entry =>
    rw [hmem]
    exact (congrArg (memRead _ _) hlen).symm.trans (memRead_memWrite _ _ _)
  case rest =>
    rw [hmem]
    exact memGet_memWrite_out _ _ _ _ (by rw [hlen]; exact hb)
  case record => rw [hcqs, tabGet_tabPut_same]

/-- How full an event queue is; head and tail count modulo twice its size (R467). -/
def Evq.used (e : Evq) : Nat := (e.tail + 2 * 2 ^ e.log2 - e.head) % (2 * 2 ^ e.log2)

theorem State.post_none {s : State} {q : Nat} (type slice status : Nat) (data : Bytes) (h : tabGet s.host.eqs q = none) :
    s.post q type slice status data = s := by
  simp only [State.post, h]

theorem State.post_full {s : State} {q : Nat} {e : Evq} (type slice status : Nat) (data : Bytes) (he : tabGet s.host.eqs q = some e)
    (hfull : 2 ^ e.log2 ≤ e.used) : s.post q type slice status data =
      ({ s with host := { s.host with eqs := tabPut s.host.eqs q { e with lost := true } } } : State).bump .eqLost e.fn 1 := by
  simp only [State.post, he]
  exact if_pos hfull

/-- An event that finds room is one write at the tail, and the queue's record goes on. -/
theorem State.post_room {s : State} {q : Nat} {e : Evq} (type slice status : Nat) (data : Bytes) (he : tabGet s.host.eqs q = some e)
    (hroom : e.used < 2 ^ e.log2) (hok : s.hostOk (e.base.toNat + 32 * (e.tail % 2 ^ e.log2)) 32 = true) :
    (s.post q type slice status data).host.mem = memWrite s.host.mem (e.base.toNat + 32 * (e.tail % 2 ^ e.log2))
        (eventBytes type slice status s.pkc data (decide (e.tail < 2 ^ e.log2)) e.lost) ∧
      (s.post q type slice status data).host.eqs = tabPut s.host.eqs q
        { e with tail := (e.tail + 1) % (2 * 2 ^ e.log2), lost := false, msgSent := true } := by
  have hgo : ¬ (e.tail + 2 * 2 ^ e.log2 - e.head) % (2 * 2 ^ e.log2) ≥ 2 ^ e.log2 := Nat.not_le.2 hroom
  have hwrite := State.hostWrite_of_hostOk
    (show s.hostOk _ (eventBytes type slice status s.pkc data (decide (e.tail < 2 ^ e.log2)) e.lost).length = true by
      rw [length_eventBytes]; exact hok)
  simp only [State.post, he, if_neg hgo, hwrite]
  split <;> simp

/-- Settles O59: an event without a queue does nothing, one that finds it full is counted, and one that finds room is written. -/
theorem eventIsPostedOrCountedLost : Obligations.EventIsPostedOrCountedLost := by
  unfold Obligations.EventIsPostedOrCountedLost
  intro s q type slice status data
  refine ⟨State.post_none type slice status data, ?_⟩
  intro e he n used t
  refine ⟨fun hfull => ?full, fun hroom hok => ?room⟩
  case full =>
    have ht : t = _ := State.post_full type slice status data he hfull
    rw [ht]
    exact ⟨rfl, tabGet_tabPut_same _ _ _, State.reg_bump_same _ _ _ _⟩
  case room =>
    obtain ⟨hmem, heqs⟩ := State.post_room type slice status data he hroom hok
    refine ⟨?_, (congrArg (tabGet · q) heqs).trans (tabGet_tabPut_same _ _ _)⟩
    rw [hmem]
    exact (congrArg (memRead _ _) (length_eventBytes ..)).symm.trans (memRead_memWrite _ _ _)

end Sys2Proof.Machine
end

section
/-! SUPPORT. Levels of vectors: trailing zero bits of a draw (R328). -/

namespace Sys2Proof.Machine

theorem draw24_lt (seed n : Nat) : draw24 seed n < 2 ^ 24 := by
  unfold draw24
  simp only [BitVec.toNat_ushiftRight, Nat.shiftRight_eq_div_pow]
  omega

/-- The bits below a bit are all clear exactly if its power of two divides the number. -/
theorem two_pow_dvd_iff_bits (v t : Nat) : 2 ^ t ∣ v ↔ ∀ i < t, bitAt v i = false := by
  simp only [bitAt_eq]
  constructor
  · rintro ⟨k, rfl⟩ i hi
    rw [Nat.testBit_two_pow_mul]
    simp [Nat.not_le.2 hi]
  · intro h
    refine Nat.dvd_of_mod_eq_zero (Nat.eq_of_testBit_eq fun i => ?_)
    rw [Nat.testBit_mod_two_pow, Nat.zero_testBit]
    by_cases hi : i < t
    · simp [h i hi]
    · simp [hi]

/-- `zeros24` is the number of trailing zero bits of a number of 24 bits; 24 for 0. -/
theorem zeros24_spec {v : Nat} (hv : v < 2 ^ 24) :
    2 ^ zeros24 v ∣ v ∧ zeros24 v ≤ 24 ∧ (v = 0 → zeros24 v = 24) ∧ (v ≠ 0 → ¬ 2 ^ (zeros24 v + 1) ∣ v) := by
  unfold zeros24
  cases hf : (List.range 24).find? (bitAt v) with
  | some t =>
    obtain ⟨hset, hmem, hbelow⟩ := List.find?_range_eq_some.1 hf
    have hlt : t < 24 := List.mem_range.1 hmem
    have hnot : ¬ 2 ^ (t + 1) ∣ v := fun hd => by simpa [hset] using (two_pow_dvd_iff_bits v (t + 1)).1 hd t (Nat.lt_succ_self t)
    refine ⟨(two_pow_dvd_iff_bits v t).2 fun i hi => by simpa using hbelow i hi, Nat.le_of_lt hlt, fun h0 => ?_, fun _ => hnot⟩
    exact absurd (h0 ▸ dvd_zero _) hnot
  | none =>
    have hdvd : 2 ^ 24 ∣ v := (two_pow_dvd_iff_bits v 24).2 fun i hi => by
      simpa using List.find?_eq_none.1 hf i (List.mem_range.2 hi)
    have h0 : v = 0 := Nat.eq_zero_of_dvd_of_lt hdvd hv
    exact ⟨hdvd, Nat.le_refl _, fun _ => rfl, fun h => absurd h0 h⟩

/-- Four trailing zero bits make a level (R328). -/
theorem four_le_zeros24_iff {v : Nat} (hv : v < 2 ^ 24) : 4 ≤ zeros24 v ↔ v % 16 = 0 := by
  obtain ⟨hdvd, -, hzero, hmax⟩ := zeros24_spec hv
  rw [← Nat.dvd_iff_mod_eq_zero]
  refine ⟨fun h => (Nat.pow_dvd_pow 2 h).trans hdvd, fun h => ?_⟩
  by_contra hlt
  have hne : v ≠ 0 := fun e => by rw [hzero e] at hlt; omega
  exact hmax hne ((Nat.pow_dvd_pow 2 (show zeros24 v + 1 ≤ 4 by omega)).trans h)

/-- Settles O51: the level counts the trailing zero bits by fours. -/
theorem vectorLevelFollowsDraw : Obligations.VectorLevelFollowsDraw := by
  unfold Obligations.VectorLevelFollowsDraw
  intro x id v
  have hv : v < 2 ^ 24 := draw24_lt _ _
  obtain ⟨hdvd, -, hzero, hmax⟩ := zeros24_spec hv
  refine ⟨⟨zeros24 v, rfl, hzero, fun h => ⟨hdvd, hmax h⟩⟩, hv, fun hlevels => ?_⟩
  have hlevel : x.levelOf id = min (x.levels - 1) (zeros24 v / 4) := rfl
  rw [← four_le_zeros24_iff hv, hlevel]
  omega

end Sys2Proof.Machine
end

section
/-! SUPPORT. The queue commands, each past its own checks (R460, R463, R467). -/

namespace Sys2Proof.Machine

theorem qidOk_of_range {q : Nat} (hlo : 64 ≤ q) (hhi : q ≤ 4095) : qidOk q = true := by simp [qidOk, hlo, hhi]

theorem qlogOk_of_range {n : Nat} (hlo : 4 ≤ n) (hhi : n ≤ 16) : qlogOk n = true := by simp [qlogOk, hlo, hhi]

/-- Settles O1: each command finds its operands in range and its queue as it asks, and changes one entry of one table. -/
theorem queueCommandsComplete : Obligations.QueueCommandsComplete := by
  unfold Obligations.QueueCommandsComplete
  refine ⟨fun h s ha => ?nop, fun h qid cqid log2 base s c ha hlo hhi hmin hmax hbase hcq hfn hnone => ?sqCreate,
    fun h qid s q ha hlo hhi hsq hfn => ?sqDelete,
    fun h qid log2 vector ien base s ha hlo hhi hmin hmax hbase hvec hnone => ?cqCreate,
    fun h qid s c ha hlo hhi hcq hfn hout hbound => ?cqDelete,
    fun h slice device log2 base vector s q ha hq hdef hmin hmax hbase hvec hnone => ?eqCreate,
    fun h slice device s q e ha hq hdef he hfn => ?eqDelete⟩
  case nop =>
    simp only [exec, execNop]
    exact hostCmd_done ha rfl
  case sqCreate =>
    simp only [exec, execSqCreate]
    refine ⟨_, hostCmd_done ha (checked_ok ?_), rfl, tabGet_tabPut_same _ _ _, fun k hk => tabGet_tabPut_ne _ _ _ _ hk⟩
    simp [firstFail, qidOk_of_range hlo hhi, qlogOk_of_range hmin hmax, hbase, hcq, hfn, hnone]
  case sqDelete =>
    simp only [exec, execSqDelete]
    refine hostCmd_done ha (checked_ok ?_)
    simp [firstFail, qidOk_of_range hlo hhi, hsq, hfn]
  case cqCreate =>
    have hvec : vector.toNat < msixSize h.fn.toNat := hvec
    simp only [exec, execCqCreate]
    refine ⟨_, hostCmd_done ha (checked_ok ?_), rfl, tabGet_tabPut_same _ _ _, fun k hk => tabGet_tabPut_ne _ _ _ _ hk⟩
    simp [firstFail, qidOk_of_range hlo hhi, qlogOk_of_range hmin hmax, hbase, hvec, hnone]
  case cqDelete =>
    have hfree : (Fetched h s).host.sqs.any (fun q => q.2.cq == qid.toNat) = false :=
      List.any_eq_false.2 fun x hx => by simpa using hbound x hx
    simp only [exec, execCqDelete]
    refine hostCmd_done ha ?_
    simp only [hcq]
    refine checked_ok ?_
    simp [firstFail, qidOk_of_range hlo hhi, hfn, hout, hfree]
  case eqCreate =>
    have hvec : vector.toNat < msixSize h.fn.toNat := hvec
    simp only [exec, execEqCreate]
    refine ⟨{ Fetched h s with host := { (Fetched h s).host with
      eqs := tabPut (Fetched h s).host.eqs q ⟨h.fn.toNat, log2.toNat, base, vector.toNat, 0, true, 0, false, false⟩ } },
      hostCmd_done ha ?_, rfl, tabGet_tabPut_same _ _ _, fun k hk => tabGet_tabPut_ne _ _ _ _ hk⟩
    simp only [hq]
    refine checked_ok ?_
    simpa [firstFail, hmin, hmax, hbase, hvec, hnone] using hdef
  case eqDelete =>
    simp only [exec, execEqDelete]
    refine hostCmd_done ha ?_
    simp only [hq]
    refine checked_ok ?_
    simpa [firstFail, he, hfn] using hdef

end Sys2Proof.Machine
end

section
/-! SUPPORT. Places of registers: the register map at a register's own offsets (R476, R477, R489), and a pair of registers that is written
whole (R483). -/

namespace Sys2Proof.Machine

/-- Settles O45: one search of the register index for each register, its first and its last place. -/
theorem registerMapFindsEachRegister : Obligations.RegisterMapFindsEachRegister := by
  unfold Obligations.RegisterMapFindsEachRegister
  intro r
  cases r <;> decide +kernel

theorem regAt_mcPatrol : ∀ n : Fin 8, regAt (Reg.addr .mcPatrolLo n.1 0) = some (.mcPatrolLo, n.1, 0) ∧
    regAt (Reg.addr .mcPatrolHi n.1 0) = some (.mcPatrolHi, n.1, 0) := by decide +kernel

/-- The patrol period of a memory controller is PF0's to write while its die answers and the device is awake. -/
theorem writable_mcPatrol {s : State} {n : Nat} (hn : n < 8) (hhib : s.hibernating = false) (hdown : s.seqDown (8 + n) = false) :
    Writable s .mcPatrolLo n 0 0 ∧ Writable s .mcPatrolHi n 0 0 := by
  obtain ⟨hlo, hhi⟩ := regAt_mcPatrol ⟨n, hn⟩
  exact ⟨⟨hlo, rfl, by decide, .inr ⟨hdown, hhib⟩, fun h => by simp [Reg.ofTdi] at h, rfl⟩,
    ⟨hhi, rfl, by decide, .inr ⟨hdown, hhib⟩, fun h => by simp [Reg.ofTdi] at h, rfl⟩⟩

theorem State.reg_lt (s : State) (r : Reg) (u i : Nat) : s.reg r u i < 2 ^ 32 := by
  unfold State.reg
  split
  · next v _ => exact v.isLt
  · cases r <;> decide +kernel

/-- A pair of registers at two offsets holds what it was set to. -/
theorem State.reg64_setReg64 (s : State) {lo hi : Reg} {u v : Nat} (hne : lo.addr u 0 ≠ hi.addr u 0) (hv : v < 2 ^ 64) :
    (s.setReg64 lo hi u v).reg64 lo hi u = v := by
  rw [State.reg64, State.setReg64, State.reg_setReg_ne hne, State.reg_setReg_same, State.reg_setReg_same]
  omega

theorem covered_mcPatrolHi {w : Nat} (hw : w < 2 ^ 32) : Reg.covered .mcPatrolHi w = w := by
  change 0 + 2 ^ 0 * bitsOf w 0 32 = w
  simpa [bitsOf] using hw

/-- A write of the LO register is kept for the writing function. -/
theorem State.writeReg_mcPatrolLo {s : State} {n v : Nat} (h : Writable s .mcPatrolLo n 0 0) :
    s.writeReg 0 (Reg.addr .mcPatrolLo n 0) v = { s with host := { s.host with
      pendLo := tabPut s.host.pendLo (Reg.addr .mcPatrolLo n 0) (BitVec.ofNat 32 v) } } := by
  rw [writeReg_ok rfl h]
  simp [State.writeAt, Reg.waits, latchKey]

/-- A write of the HI register takes the LO that waits, or else the LO that stands (R483). -/
theorem State.reg64_writeReg_mcPatrolHi {s : State} {n w : Nat} (h : Writable s .mcPatrolHi n 0 0) (hw : w < 2 ^ 32) :
    (s.writeReg 0 (Reg.addr .mcPatrolHi n 0) w).reg64 .mcPatrolLo .mcPatrolHi n = w * 2 ^ 32 +
      ((tabGet s.host.pendLo (Reg.addr .mcPatrolLo n 0)).map (·.toNat)).getD (s.reg .mcPatrolLo n 0) := by
  have hne : Reg.addr .mcPatrolLo n 0 ≠ Reg.addr .mcPatrolHi n 0 := by
    change Block.mc.at n + 4 + 0 * 0 ≠ Block.mc.at n + 8 + 0 * 0
    omega
  rw [writeReg_ok rfl h, writeAt_hi (lo := .mcPatrolLo) rfl, covered_mcPatrolHi hw, State.writeHi]
  simp only [latchKey, Nat.mul_zero, Nat.zero_add, State.commitPair]
  rw [State.reg64_setReg64 _ hne]
  all_goals
    cases hp : tabGet s.host.pendLo (Reg.addr .mcPatrolLo n 0) with
    | none => have := s.reg_lt .mcPatrolLo n 0; simp; omega
    | some x => have := x.isLt; simp; omega

/-- Settles O47: the LO write touches what is pending only, and the HI write takes what it finds pending. -/
theorem loHiPairCommitsWhole : Obligations.LoHiPairCommitsWhole := by
  unfold Obligations.LoHiPairCommitsWhole
  intro n v w s hn hv hw hhib hdown lo hi t
  obtain ⟨hlo, hhi⟩ := writable_mcPatrol hn hhib hdown
  have ht : t = _ := State.writeReg_mcPatrolLo hlo
  refine ⟨by rw [ht]; rfl, ?commit, fun hnone => ?keep⟩
  case commit =>
    have hwrite : Writable t .mcPatrolHi n 0 0 := by rw [ht]; exact (writable_mcPatrol hn hhib hdown).2
    rw [State.reg64_writeReg_mcPatrolHi hwrite hw, ht]
    simpa [tabGet_tabPut_same] using hv
  case keep =>
    rw [State.reg64_writeReg_mcPatrolHi hhi hw, hnone]
    rfl

end Sys2Proof.Machine
end

section
/-! SUPPORT. Requests that are answered without an effect: one whose tag has been served (R361), and one of a device that is no member
(R372). -/

namespace Sys2Proof.Machine

/-- A request as the port and the tag window meet it: its header, TYPE, OP and payload length. -/
structure Rule.Comes (r : Rule) (t : TxHdr) (type op len : Nat) : Prop where
  hdr : r.t = t
  type : r.type = type
  op : r.op = op
  len : r.len = len

/-- A request met again is counted and answered with the outcome kept; a READ alone is read again (log entry 23). -/
theorem serve_duplicate {s : State} {r : Rule} {t : TxHdr} {type op len st res : Nat} (hr : r.Comes t type op len) (hread : type ≠ 1)
    (hredo : s.net.redo = false) (hin : (s.arrive t type op len (laneOf (queueOf t type) false) true).2 = true)
    (htag : (s.arrive t type op len (laneOf (queueOf t type) false) true).1.tagAt t.src.toNat t.tag.toNat = .duplicate st res) :
    s.serve r = (((s.arrive t type op len (laneOf (queueOf t type) false) true).1.bump .dedupHits 0 1).answer t type 8 st res []
      false) := by
  obtain ⟨rfl, rfl, rfl, rfl⟩ := hr
  unfold State.serve
  simp [hredo, hin, htag, hread]

/-- A new request of a device that is no member is answered E_NOT_MEMBER, and its tag is recorded. -/
theorem serve_stranger {s : State} {r : Rule} {t : TxHdr} {type op len : Nat} (hr : r.Comes t type op len) (hexempt : r.exempt = false)
    (hredo : s.net.redo = false) (hin : (s.arrive t type op len (laneOf (queueOf t type) false) true).2 = true)
    (htag : (s.arrive t type op len (laneOf (queueOf t type) false) true).1.tagAt t.src.toNat t.tag.toNat = .fresh)
    (hmember : (Requested t type op len s).member t.src.toNat = none) :
    s.serve r = (Requested t type op len s).answer t type 8 eNotMember 0 [] false := by
  obtain ⟨rfl, rfl, rfl, rfl⟩ := hr
  have hjudge : (Requested r.t r.type r.op r.len s).judge r false =
      (Requested r.t r.type r.op r.len s).respCode r.t r.type eNotMember := by
    unfold State.judge
    simp [hexempt, hmember]
  unfold State.serve
  simp only [hredo, hin, htag, Bool.false_eq_true, if_false, not_true_eq_false]
  exact hjudge

theorem State.writeTxnRule_comes (s : State) (t : TxHdr) (data : Bytes) :
    (s.writeTxnRule t data).Comes t 2 0 data.length ∧ (s.writeTxnRule t data).exempt = false := by
  unfold State.writeTxnRule
  split <;> exact ⟨⟨rfl, rfl, rfl, rfl⟩, rfl⟩

/-- Settles O55: each of the requests comes to the tag window, which has its outcome. -/
theorem duplicateRequestIsOnlyAnswered : Obligations.DuplicateRequestIsOnlyAnswered := by
  unfold Obligations.DuplicateRequestIsOnlyAnswered
  intro i t type op len s st res units base data c hi a hredo hin htag
  have hserve : ∃ r : Rule, exec i s = .next (s.serve r) ∧ r.Comes t type op len ∧ type ≠ 1 := by
    rcases hi with ⟨rfl, rfl, rfl, rfl⟩ | ⟨rfl, rfl, rfl, rfl⟩ | ⟨rfl, rfl, rfl, rfl⟩ | ⟨rfl, rfl, rfl, rfl⟩ | ⟨rfl, rfl, rfl, rfl⟩ |
      ⟨rfl, rfl, rfl, rfl⟩
    case inr.inr.inr.inr.inl => exact ⟨_, rfl, (s.writeTxnRule_comes t data).1, by decide⟩
    all_goals exact ⟨_, rfl, ⟨rfl, rfl, rfl, rfl⟩, by decide⟩
  obtain ⟨r, hexec, hr, hread⟩ := hserve
  exact hexec.trans (congrArg Host.Outcome.next (serve_duplicate hr hread hredo hin htag))

/-- Settles O56: none of the requests is exempt, so the sender's membership is judged first (R377 row 1). -/
theorem strangersRequestIsRefused : Obligations.StrangersRequestIsRefused := by
  unfold Obligations.StrangersRequestIsRefused
  intro i t type op len s units base data o hi a u hredo hin htag hmember
  have hserve : ∃ r : Rule, exec i s = .next (s.serve r) ∧ r.Comes t type op len ∧ r.exempt = false := by
    rcases hi with ⟨rfl, rfl, rfl, rfl⟩ | ⟨rfl, rfl, rfl, rfl⟩ | ⟨rfl, rfl, rfl, rfl⟩ | ⟨rfl, rfl, rfl, rfl⟩ | ⟨rfl, rfl, rfl, rfl⟩ |
      ⟨rfl, rfl, rfl, rfl⟩
    case inr.inr.inr.inr.inl => exact ⟨_, rfl, s.writeTxnRule_comes t data⟩
    all_goals exact ⟨_, rfl, ⟨rfl, rfl, rfl, rfl⟩, rfl⟩
  obtain ⟨r, hexec, hr, hexempt⟩ := hserve
  exact hexec.trans (congrArg Host.Outcome.next (serve_stranger hr hexempt hredo hin htag hmember))

end Sys2Proof.Machine
end

section
/-! SUPPORT. Memory and pool transactions as their target serves them, and requests decided again (R345, R359, R360, R377, R379). -/

namespace Sys2Proof.Machine

/-- A request whose object the device holds is executed and answered. -/
theorem serve_held {s v : State} {r : Rule} {x : Ans} (h : Admits r.t r.type r.op r.len r.exempt true s) (hholds : r.holds = true)
    (heff : r.eff (Requested r.t r.type r.op r.len s) = (v, x)) (hreply : x.reply = true) : s.serve r = Replied r.t r.type v x :=
  serve_go' (hholds.symm ▸ h) heff hreply

theorem tableAddr_eq_false {t : TxHdr} (h : 64 ≤ t.slice.toNat) : tableAddr t = false := decide_eq_false (Nat.not_lt.2 h)

theorem tableAddr_eq_true {t : TxHdr} (h : t.slice.toNat < 64) : tableAddr t = true := decide_eq_true h

/-- A request that needs no granule fetched is served at once. -/
theorem State.serveRow_eq_serve {s : State} {t : TxHdr} (r : Rule) (h : tableAddr t = true → s.rowMiss t = none) :
    s.serveRow t r = s.serve r := by
  unfold State.serveRow
  cases htable : tableAddr t with
  | false => rfl
  | true => simp [h htable]

theorem State.serveRow_pool {t : TxHdr} (h : 64 ≤ t.slice.toNat) (s : State) (r : Rule) : s.serveRow t r = s.serve r :=
  State.serveRow_eq_serve r fun htable => absurd (htable.symm.trans (tableAddr_eq_false h)) (by decide)

theorem State.readRule_eff_pool {t : TxHdr} (h : 64 ≤ t.slice.toNat) (s u : State) :
    (s.readRule t).eff u = (u, { data := (u.poolRead t.addr.toNat (t.aux.toNat % 65536)).1
                                 poison := (u.poolRead t.addr.toNat (t.aux.toNat % 65536)).2 }) := by
  simp only [State.readRule, tableAddr_eq_false h, Bool.false_eq_true, if_false]
  rfl

theorem State.readRule_eff_row {t : TxHdr} (h : t.slice.toNat < 64) (s u : State) : (s.readRule t).eff u = u.readRow t := by
  simp only [State.readRule, tableAddr_eq_true h, if_true]

theorem State.readRule_holds_pool {s : State} {t : TxHdr} {r : PoolRange} (h : s.poolAt t.addr.toNat = some r) :
    (s.readRule t).holds = true := by
  simp [State.readRule, h]

theorem State.readRule_holds_row {t : TxHdr} (h : t.slice.toNat < 64) (s : State) : (s.readRule t).holds = true := by
  simp [State.readRule, tableAddr_eq_true h]

/-- A row that exists and can be reached is read; only a poisoned one answers with a code (R344, R347). -/
theorem State.readRow_of_reachable {u : State} {t : TxHdr} {tb : Table}
    (htb : u.sharedTable t.slice.toNat (t.addr.toNat / 2 ^ 56) = some tb) (hrow : tb.badRow (t.addr.toNat % 2 ^ 32) = false)
    (hlost : (u.rowRead tb tb.version (t.addr.toNat % 2 ^ 32)).lost = false)
    (hcut : (u.rowRead tb tb.version (t.addr.toNat % 2 ^ 32)).cut = false) :
    u.readRow t =
      let x := u.rowRead tb tb.version (t.addr.toNat % 2 ^ 32)
      ((if x.bad then u.bump .retPoison tb.slice 1 else u).evc tb.slice 0x52 0xFF 1,
        { status := if x.bad then eMemPoison else 0
          data := sub x.bytes (16384 * (t.aux.toNat / 65536)) (t.aux.toNat % 65536), poison := x.bad }) := by
  simp only [State.readRow, htb, hrow, hlost, hcut, Bool.false_eq_true, if_false]

/-- A WRITE to the pool asks for a range that lies in one allocated range. -/
theorem State.writeRule_holds {s : State} {t : TxHdr} {data : Bytes} {r : PoolRange} (h : s.poolAt t.addr.toNat = some r)
    (hin : t.addr.toNat + data.length ≤ 0x1_0000 * (r.base + r.units)) : (s.writeRule t data).holds = true := by
  simp only [State.writeRule, h]
  exact decide_eq_true hin

/-- A WRITE to a slice under the session's own owner epoch goes by its address: entry, credits or end (log entry 26). -/
theorem State.takeHanded_of_current {u : State} {t : TxHdr} {data : Bytes}
    (h : (u.handedSid t data).bind (fun sid => u.staleOwner sid t.aux.toNat) = none) :
    u.takeHanded t data = (if t.addr.toNat < 2 ^ 32 then u.handedEntry t.src.toNat t.slice.toNat t.addr.toNat data
      else if t.addr.toNat < 2 ^ 33 then u.handedCredit t.src.toNat (t.addr.toNat % 2 ^ 32) data
      else u.handedDone t.src.toNat data, {}) := by
  simp only [State.takeHanded, h]
  split
  · rfl
  · split <;> rfl

theorem State.word64Rule_holds {s : State} {t : TxHdr} {r r' : PoolRange} (h : s.poolAt t.addr.toNat = some r)
    (h' : s.poolAt (t.addr.toNat + 7) = some r') (op : Nat) (data : Bytes) (cmd : Instr) (f : Nat → Nat) :
    (s.word64Rule t op data cmd f).holds = true := by
  simp [State.word64Rule, h, h']

/-- Settles O23: each request's rule holds what it names, and its effect is read off the rule. What a WRITE to a slice carries, by its
address, is log entry 26; the part of a row that a READ names in AUX is log entry 21. -/
theorem memoryTransactionsComplete : Obligations.MemoryTransactionsComplete := by
  unfold Obligations.MemoryTransactionsComplete
  refine ⟨fun t s r hpool ha hslice => ?readPool, fun t s tb ha hslice hmiss => ?readRow,
    fun t data s hslice ha ⟨r, hpool, hin⟩ => ?writePool, fun t data s hslice ha => ?writeSlice,
    fun c op t data s tb hc ha hslice hmiss hparts => ?row,
    fun t data s r r' hpool hpool' => ⟨fun ha => ?fadd, fun ha => ?cas⟩⟩
  case readPool =>
    exact congrArg Host.Outcome.next ((State.serveRow_pool hslice ..).trans
      (serve_held (r := s.readRule t) ha (State.readRule_holds_pool hpool) (State.readRule_eff_pool hslice ..) rfl))
  case readRow =>
    intro u row htb hrow x y
    have hserve (v : State) (a : Ans) (heff : u.readRow t = (v, a)) (hreply : a.reply = true) :
        exec (.readTxn t) s = .next (Replied t 1 v a) :=
      congrArg Host.Outcome.next ((State.serveRow_eq_serve _ fun _ => hmiss).trans
        (serve_held (r := s.readRule t) ha (State.readRule_holds_row hslice s) ((State.readRule_eff_row hslice ..).trans heff) hreply))
    refine ⟨fun hlost hcut hbad => hserve _ _ ?clean rfl, fun hlost hcut hbad => hserve _ _ ?poisoned rfl⟩
    all_goals
      rw [State.readRow_of_reachable htb hrow hlost hcut]
      simp only [show (u.rowRead tb tb.version (t.addr.toNat % 2 ^ 32)).bad = _ from hbad]
      rfl
  case writePool =>
    refine congrArg Host.Outcome.next ?_
    rw [State.writeTxnRule, if_pos hslice]
    exact serve_held (r := s.writeRule t data) ha (State.writeRule_holds hpool hin) rfl rfl
  case writeSlice =>
    intro u a src hcurrent
    refine congrArg Host.Outcome.next ?_
    rw [State.writeTxnRule, if_neg (Nat.not_le.2 hslice)]
    exact serve_held (r := { t := t, type := 2, op := 0, len := data.length, data := data, cmd := .writeTxn t data, eff := _ }) ha rfl
      (State.takeHanded_of_current hcurrent) rfl
  case row =>
    intro u row va htb hf32 hbf16 hrow hlost hcut v
    have hop : op = 1 ∨ op = 2 ∨ op = 3 := by rcases hc with ⟨-, h⟩ | ⟨-, h⟩ | ⟨-, h⟩ <;> simp [h]
    have hexec : exec c s = .next (s.serveRow t (rowRule t op data c)) := by
      rcases hc with ⟨rfl, rfl⟩ | ⟨rfl, rfl⟩ | ⟨rfl, rfl⟩ <;> rfl
    have hwhole := atomic_whole u t op data tb htb hparts hop hf32 hbf16 hrow hlost hcut
    rw [hexec, row_go hmiss ha hwhole rfl]
    exact ⟨fun h => by simp [h, v, row], fun h => by simp [h, v, row, va]⟩
  case fadd =>
    exact congrArg Host.Outcome.next (serve_held (r := s.faddRule t data) ha (State.word64Rule_holds hpool hpool' ..) rfl rfl)
  case cas =>
    exact congrArg Host.Outcome.next (serve_held (r := s.casRule t data) ha (State.word64Rule_holds hpool hpool' ..) rfl rfl)

theorem State.poolGive_fits {s : State} {src sl n a : Nat} (hn : n ≠ 0) (h : s.poolFit n = some a) :
    ∃ gives : Nat, s.poolGive src sl n = ({ s with pool := s.pool ++ [⟨a, n, src, sl, gives, false⟩] }, { result := 0x1_0000 * a }) := by
  simp only [State.poolGive, if_neg hn, h]
  exact ⟨_, rfl⟩

theorem State.poolGive_full {s : State} {n : Nat} (h : s.poolFit n = none) (src sl : Nat) :
    s.poolGive src sl n = (s, { status := 0x0503 }) := by
  simp only [State.poolGive, h, ite_self]
  rfl

theorem State.poolTake_eq {s : State} {base : Nat} {r : PoolRange} (h : s.pool.find? (fun r => 0x1_0000 * r.base == base) = some r)
    (src : Nat) : s.poolTake src base = if r.owner = src then (s.poolDrop r, {}) else (s, { status := 0x0704 }) := by
  simp only [State.poolTake, h]
  rfl

/-- Settles O24: none of these names an object it could miss but POOL_FREE, whose range the device gives. The serial level IDENTIFY
answers is a free value (log entry 1); that 0 units find no room is log entry 59. -/
theorem poolTransactionsComplete : Obligations.PoolTransactionsComplete := by
  unfold Obligations.PoolTransactionsComplete
  refine ⟨fun t units s ha => ⟨fun a hn hfit => ?give, fun hfull => ?full⟩, fun t base s r ha hpool => ?free,
    fun t s ha => congrArg Host.Outcome.next (serve_held (r := poolInfoRule t) ha rfl rfl rfl),
    fun t s ha => congrArg Host.Outcome.next (serve_held (r := identifyRule t) ha rfl rfl rfl)⟩
  case give =>
    obtain ⟨gives, heff⟩ := State.poolGive_fits hn hfit
    exact ⟨gives, congrArg Host.Outcome.next (serve_held (r := poolAllocRule t units) ha rfl heff rfl)⟩
  case full =>
    exact congrArg Host.Outcome.next (serve_held (r := poolAllocRule t units) ha rfl (State.poolGive_full hfull ..) rfl)
  case free =>
    intro u hfind
    have heff := State.poolTake_eq hfind t.src.toNat
    have hholds : (s.poolFreeRule t base).holds = true := Option.isSome_iff_ne_none.2 hpool
    refine congrArg Host.Outcome.next ?_
    by_cases howner : r.owner = t.src.toNat
    · rw [if_pos howner] at heff ⊢
      exact serve_held (r := s.poolFreeRule t base) ha hholds heff rfl
    · rw [if_neg howner] at heff ⊢
      exact serve_held (r := s.poolFreeRule t base) ha hholds heff rfl

/-- A request decided again goes to the table *Epoch handling* at once, under the epoch the device has. -/
theorem serve_redo {w : State} (h : w.net.redo = false) (r : Rule) :
    State.serve { w with net := { w.net with redo := true } } r = w.judge r true := by
  have hw : ({ w with net := { w.net with redo := false } } : State) = w := by rw [← h]
  exact (if_pos rfl).trans (congrArg (State.judge · r true) hw)

theorem execEpochHoldExpiry_due {src : U16} {tag : U32} {s : State} {h : HeldTx}
    (hfind : s.net.held.find? (fun h => h.hdr.src == src && h.hdr.tag == tag) = some h)
    (hdue : h.hdr.epoch.toNat ≤ s.comp.epoch ∨ s.txnLimit / 4 ≤ s.pkc - h.since.toNat) : exec (.epochHoldExpiry src tag) s =
      State.rerun { s with net := { s.net with held := s.net.held.filter (· != h), redo := true } } h.cmd := by
  simp only [exec, execEpochHoldExpiry, hfind]
  exact if_neg fun ⟨hnewer, hearly⟩ => hdue.elim (Nat.not_le.2 hnewer) (Nat.not_le.2 hearly)

/-- Settles O32: the request is off the list and comes to its own rule, which is judged for the last time. Which requests are held is
log entry 61. -/
theorem heldRequestIsDecidedAgain : Obligations.HeldRequestIsDecidedAgain := by
  unfold Obligations.HeldRequestIsDecidedAgain
  intro src tag s h hredo hfind hdue w
  have hexec := execEpochHoldExpiry_due hfind hdue
  refine ⟨?again, fun t hmember hslice => ⟨fun hcmd => ?info, fun r hcmd hpool => ?read, fun base hcmd hpool => ?free⟩⟩
  case again =>
    obtain ⟨z, hz⟩ := State.rerun_answers { w with net := { w.net with redo := true } } h.cmd
    exact ⟨z, hexec.trans hz, hz⟩
  case info =>
    rw [hexec, hcmd]
    exact congrArg Host.Outcome.next ((serve_redo (w := w) hredo (poolInfoRule t)).trans
      ((judge_holds rfl hmember hslice rfl).trans (execute_ok rfl)))
  case read =>
    have heff := State.readRule_eff_pool hslice w w
    rw [hexec, hcmd]
    refine congrArg Host.Outcome.next ((State.serveRow_pool hslice { w with net := { w.net with redo := true } }
      (w.readRule t)).trans ?_)
    rw [serve_redo (w := w) hredo, judge_holds rfl hmember hslice (State.readRule_holds_pool hpool), execute_ok (by rw [heff]), heff]
    rfl
  case free =>
    rw [hexec, hcmd]
    exact congrArg Host.Outcome.next ((serve_redo (w := w) hredo (w.poolFreeRule t base)).trans
      (judge_stale rfl hmember hslice (by simp [State.poolFreeRule, hpool]) rfl))

end Sys2Proof.Machine
end

section
/-! SUPPORT. Messages about the composition map as a quorum member and as any other device takes them (R372, R373, R374, R378, R423). -/

namespace Sys2Proof.Machine

/-- A command that is a request is executed and answered as its rule's effect says. -/
theorem exec_served {c : Instr} {s v : State} {r : Rule} {x : Ans} {t : TxHdr} {type op len : Nat}
    (hexec : exec c s = .next (s.serve r)) (hr : r.Comes t type op len) (h : Admits t type op len r.exempt r.holds s)
    (heff : r.eff (Requested t type op len s) = (v, x)) (hreply : x.reply = true) : exec c s = .next (Replied t type v x) := by
  obtain ⟨rfl, rfl, rfl, rfl⟩ := hr
  exact hexec.trans (congrArg Host.Outcome.next (serve_go' h heff hreply))

/-- A request whose answer comes later is running until then (R361). -/
theorem exec_running {c : Instr} {s v : State} {r : Rule} {x : Ans} {t : TxHdr} {type op len : Nat}
    (hexec : exec c s = .next (s.serve r)) (hr : r.Comes t type op len) (h : Admits t type op len r.exempt r.holds s)
    (heff : r.eff (Requested t type op len s) = (v, x)) (hreply : x.reply = false) :
    exec c s = .next (v.tagRuns t.src.toNat t.tag.toNat) := by
  obtain ⟨rfl, rfl, rfl, rfl⟩ := hr
  exact hexec.trans (congrArg Host.Outcome.next (serve_quiet h heff hreply))

theorem State.takeMap_newer {s : State} {m : MapOps} (hid : m.compId = s.comp.id) (hsect : s.compSect ≠ none)
    (hnewer : s.comp.epoch < m.epoch.toNat) :
    s.takeMap m = (s.applyMap m.epoch.toNat m.compId (m.qmembers.map BitVec.toNat) (membersOf m)).proposeSlices :=
  if_pos ⟨hid, Option.isSome_iff_ne_none.2 hsect, hnewer⟩

theorem State.takeMap_older {s : State} {m : MapOps} (h : m.epoch.toNat ≤ s.comp.epoch) : s.takeMap m = s :=
  if_neg fun ⟨_, _, hnewer⟩ => absurd hnewer (Nat.not_lt.2 h)

/-- A key for this device, from a quorum member and opened by this module, is kept (R423). -/
theorem State.takeKey_opened {u : State} {src : Nat} {blob ss k : Bytes} (hquorum : src ∈ u.comp.quorum) (hmodule : u.module ≠ 2)
    (hss : Config.kemDecap deviceKemSeed (sub blob 0 1088) = some ss)
    (hk : Config.gcmOpen (u.wrapKey ss (u.ownNo.getD 0xFFFF)) (zeros 12) [] (sub blob 1088 32) (sub blob 1120 16) = some k) :
    u.takeKey src blob = (u.setCsk (hashAt k 0), {}) := by
  simp only [State.takeKey, List.contains_iff_mem, hquorum, not_true_eq_false, if_false, if_neg hmodule, hss, hk]

/-- Settles O27: each message is exempt from map epochs, and its effect follows from what the device finds in its map. A MAP_STATE that
comes as a request of its own is log entry 49, and that SEAL_KEY seals under an IV of zeros is log entry 50. -/
theorem compositionTransactionsComplete : Obligations.CompositionTransactionsComplete := by
  unfold Obligations.CompositionTransactionsComplete
  refine ⟨fun t c s ha => ⟨fun hquorum hcheck => ?queued, fun code hquorum hcheck => ?refused⟩,
    fun t epoch c s ha => ⟨fun hvotes => ?yes, fun hvotes => ?no⟩,
    fun t epoch s ha => ⟨fun since hprep hepoch hquorum hnew => ?counted, ?against⟩,
    fun t epoch c s ha => ⟨fun hnext hmap => ?commit, fun hold => ?committed⟩,
    fun t m s ha => ⟨fun hid hsect hnewer => ?newer, fun hold => ?older⟩,
    fun t s ha => ⟨fun hvote => ?noVote, fun v hvote => ?voted⟩,
    fun t m vote s ha => ⟨fun hleads => ?notLeading, fun hvote hleads hquorum hnew => ?heard⟩,
    fun t blob ss k s ha => ?key, fun t ports apps s ha => ?links⟩
  case queued =>
    refine exec_running rfl ⟨rfl, rfl, rfl, rfl⟩ ha ?_ (x := { reply := false }) rfl
    simp only [hquorum, not_true_eq_false, if_false, hcheck]
  case refused =>
    refine exec_served rfl ⟨rfl, rfl, rfl, rfl⟩ ha ?_ rfl
    simp only [hquorum, not_true_eq_false, if_false, hcheck]
  case yes | no =>
    refine exec_served rfl ⟨rfl, rfl, rfl, rfl⟩ ha ?_ rfl
    simp only [hvotes, Bool.false_eq_true, if_true, if_false]
    rfl
  case counted =>
    refine exec_served rfl ⟨rfl, rfl, rfl, rfl⟩ ha ?_ rfl
    refine if_pos ?_
    exact ⟨rfl, Option.isSome_iff_exists.2 ⟨since, hprep⟩, hepoch, List.contains_iff_mem.2 hquorum,
      fun h => hnew (List.contains_iff_mem.1 h)⟩
  case against =>
    refine exec_served rfl ⟨rfl, rfl, rfl, rfl⟩ ha ?_ rfl
    dsimp only
    exact if_neg fun hyes => absurd hyes.1 (by decide)
  case commit =>
    exact exec_served rfl ⟨rfl, rfl, rfl, rfl⟩ ha (if_pos ⟨hnext, hmap⟩) rfl
  case committed =>
    refine exec_served rfl ⟨rfl, rfl, rfl, rfl⟩ ha ?_ rfl
    dsimp only
    exact if_neg fun hnext => absurd (hnext.1 ▸ hold) (Nat.not_succ_le_self _)
  case newer =>
    exact exec_served rfl ⟨rfl, rfl, rfl, rfl⟩ ha (congrArg (·, ({} : Ans)) (State.takeMap_newer hid hsect hnewer)) rfl
  case older =>
    exact exec_served rfl ⟨rfl, rfl, rfl, rfl⟩ ha (congrArg (·, ({} : Ans)) (State.takeMap_older hold)) rfl
  case noVote | voted =>
    refine exec_served rfl ⟨rfl, rfl, rfl, rfl⟩ ha ?_ rfl
    simp only [hvote]
  case notLeading =>
    refine exec_served rfl ⟨rfl, rfl, rfl, rfl⟩ ha ?_ rfl
    cases vote <;> simp [hleads]
  case heard =>
    subst hvote
    refine exec_served rfl ⟨rfl, rfl, rfl, rfl⟩ ha ?_ rfl
    simp [hleads, hquorum, hnew]
  case key =>
    intro u hquorum hmodule hss hk
    exact exec_served rfl ⟨rfl, rfl, rfl, rfl⟩ ha (State.takeKey_opened hquorum hmodule hss hk) rfl
  case links =>
    intro u src r hknown
    refine exec_served rfl ⟨rfl, rfl, rfl, rfl⟩ ha (if_neg ?_) rfl
    rintro ⟨hstranger, houtside⟩
    exact hknown.elim (fun h => h (Option.isNone_iff_eq_none.1 hstranger)) fun h => houtside (List.contains_iff_mem.2 h)

end Sys2Proof.Machine
end

section
/-! SUPPORT. Commands on indexes, cursors and tables (R325, R330, R337, R339, R340, R342..R345, R348..R350). -/

namespace Sys2Proof.Machine

/-! ### Objects taken for an index or a table -/

/-- A command that creates objects completes at once when none of them waits, and else with the last of them (R325, R343). -/
theorem hostCmd_endCreate {c : CmdSpec} {h : Hdr} {body : State → Tag → Reply} {s v : State} {r : List (Nat × Nat)}
    (ha : Accepts c h s) (hb : body (Fetched h s) (TagOf h s) = v.endCreate (TagOf h s) r) :
    ((v.createdBy (some (TagOf h s))).all (·.awaited.isEmpty) = true →
      hostCmd c h body s = .next (Ended (v.created (some (TagOf h s))) (TagOf h s) 0 r)) ∧
    ((v.createdBy (some (TagOf h s))).all (·.awaited.isEmpty) = false → hostCmd c h body s = .next v) :=
  ⟨fun hall => hostCmd_done ha (hb.trans (if_pos hall)), fun hwaits => hostCmd_later ha (hb.trans (if_neg (Bool.eq_false_iff.1 hwaits)))⟩

/-- The objects of an index, both of which can be taken. -/
theorem State.makeIndex_taken {s : State} {o : IndexOps} {sl die : Nat} {t : Tag} {a b : State × Nat}
    (ha : s.takeObj sl 2 (s.tierFor sl 2 o.tier.toNat) o.va.toNat ((indexOf o sl die 0).bytes / 4096) none
      (s.protFor sl (o.protect == 1)) (some t) = .ok a)
    (hb : a.1.takeObj sl 2 (s.tierFor sl 2 o.rtier.toNat) 0
      (if (indexOf o sl die 0).rformat = 0xFF then 0 else (indexOf o sl die 0).rbytes / 4096) none
      (s.protFor sl (o.protect == 1)) (some t) = .ok b) :
    s.makeIndex o sl die t = State.endCreate { b.1 with ret := { b.1.ret with
      indexes := b.1.ret.indexes ++ [{ indexOf o sl die 0 with va := a.2, rva := b.2 }] } } t [(64, a.2)] := by
  simp only [State.makeIndex, ha, hb, objThen]

/-- A VA given must be one that its tier and alignment allow; 0 asks for any. -/
theorem va_ok {va : U64} {m : Nat} {ti n : Nat} (h : va = 0 ∨ va.toNat % m = 0 ∧ inTier ti va.toNat n = true) :
    (va != 0 && (va.toNat % m != 0 || !inTier ti va.toNat n)) = false :=
  bne_and_eq_false (h.imp_right fun ⟨halign, hin⟩ => by rw [halign, hin]; rfl)

/-- Tier operands other than 0 need a slice that is not in object mode. -/
theorem tierMode_ok {tier : BitVec 2} {objectMode : Bool} (h : tier = 0 ∨ objectMode = false) : (tier != 0 && objectMode) = false :=
  bne_and_eq_false h

/-- Bit 0 is the remainder by 2: the LC flag of a search (R330), the VALID bit of a cursor record (R341). -/
theorem bitAt_zero (n : Nat) : bitAt n 0 = (n % 2 == 1) := by
  rw [bitAt, Nat.pow_zero, Nat.div_one]

/-- Settles O6: each command finds the index or the session it names, passes the checks of its own, and then does what its rule says.
A session that has no season for a cursor is a premise (log entries 70 and 108); so is an index whose destruction waits for its running
requests (log entry 70). -/
theorem indexAndSearchCommandsComplete : Obligations.IndexAndSearchCommandsComplete := by
  unfold Obligations.IndexAndSearchCommandsComplete
  refine ⟨fun h o s a b ha hdef hdie hops hva hnew hroom hmode htake hrtake => ?create, fun h slice index s x ha hdef hopen => ⟨?destroy, ?compact⟩,
    fun h slice index id src attr s x e a ha hdef hopen hid hnew hroom he hattr => ?insert,
    fun h slice index id s x ha hdef hopen hid hused hlive => ?delete,
    fun h o s sl x save q f ha hsl hdef hopen hgood hf hfilter hsave hq => ?search,
    fun h handle cursor addr s i x ha hsession hvalid hopen hserial => ?next,
    fun h handle cursor s i ha hsession hvalid => ?drop⟩
  all_goals dsimp only [exec]
  case create =>
    refine hostCmd_endCreate ha ((checked_ok ?_).trans (State.makeIndex_taken htake hrtake))
    have hmode' : ((o.tier != 0 || o.rtier != 0) && (Fetched h s).objectMode (cmdSlice h.fn.toNat o.slice.toNat)) = false := by
      rcases hmode with ⟨ht, hr⟩ | hmode
      · simp [ht, hr]
      · simp [hmode]
    simp only [firstFail, hdef, hops, Nat.not_le.2 hdie, va_ok (n := (indexOf o _ 0 0).bytes) hva, hnew, Nat.not_le.2 hroom, hmode']
    rfl
  case destroy =>
    refine hostCmd_later ha ((inSlice_ok hdef).trans ?_)
    simp only [hopen]
  case compact =>
    refine hostCmd_later ha ((inSlice_ok hdef).trans ?_)
    simp only [hopen]
  case insert =>
    refine hostCmd_later ha ((inSlice_ok hdef).trans ?_)
    simp only [hopen]
    refine (checked_ok (by simp [firstFail, hnew, hid, hroom])).trans ?_
    simp only [he, hattr]
  case delete =>
    refine hostCmd_later ha ((inSlice_ok hdef).trans ?_)
    simp only [hopen]
    exact checked_ok (by simp [firstFail, hid, hused, hlive])
  case search =>
    refine hostCmd_later ha ?_
    simp only [hsl]
    refine (inSlice_ok hdef).trans ?_
    simp only [hopen, hgood, hf, Option.map_some, hfilter, hsave, hq, bitAt_zero]
    rfl
  case next =>
    replace hsession : (Fetched h s).cursorSession eSessionClosing h.fn.toNat handle = .ok i := hsession
    refine hostCmd_later ha ?_
    simp only [hsession, bitAt_zero, hvalid, hopen, hserial]
    rfl
  case drop =>
    replace hsession : (Fetched h s).cursorSession eSessionClosing h.fn.toNat handle = .ok i := hsession
    refine hostCmd_done ha ?_
    simp only [hsession, bitAt_zero, hvalid]
    rfl

/-! ### Tables -/

/-- A table that can be named stands in the list of tables. -/
theorem State.table_of_openTable {s : State} {sl n : Nat} {x : Table} (h : s.openTable sl n = some x) : s.table sl n = some x := by
  unfold State.openTable at h
  split at h
  · next t ht =>
    split at h
    · cases h
    · exact ht.trans h
  · cases h

/-- A batch on a table of this device whose list and rows can be read joins the retrieval queue (R344, R345). -/
theorem State.batch_local {s : State} {kind : RetKind} {h : Hdr} {o : BatchOps} {t : Tag} {x : Table} {b : Bytes} {rows : List Bytes}
    {sl : Nat} (hsl : cmdSlice h.fn.toNat o.slice.toNat = sl) (howner : o.owner = 0xFFFF) (hdef : s.defined sl = true)
    (hopen : s.openTable sl o.table.toNat = some x) (hpos : 0 < o.count.toNat) (hmax : o.count.toNat ≤ 65536)
    (hformat : kind = .scatterAdd → x.rformat ≠ 0) (hlist : s.hostRead o.listAddr.toNat (8 * o.count.toNat) = some b)
    (hrows : (if kind = .gather then some [] else s.batchRows o x.rowBytes) = some rows) :
    s.batch kind h o t = .later (s.retAccept
      { id := 0, kind := kind, slice := sl, num := o.table.toNat, die := x.die, lc := o.lc == 1, tag := some t, addr := o.addr.toNat
        isVa := o.isVa == 1, list := listEntries o.count.toNat b, owner := 0xFFFF, rows := rows }) := by
  subst hsl
  have hchecks : firstFail [(o.count.toNat == 0 || decide (65536 < o.count.toNat), eTableParam),
      (kind == .scatterAdd && x.rformat == 0, eRowFormat)] = none := by
    have hcount : (o.count.toNat == 0 || decide (65536 < o.count.toNat)) = false := by
      rw [beq_false_of_ne (Nat.ne_of_gt hpos), decide_eq_false (Nat.not_lt.2 hmax)]; rfl
    have hrow : (kind == .scatterAdd && x.rformat == 0) = false := by simpa using hformat
    simp only [firstFail, hcount, hrow]
    rfl
  have htable : s.batchTable (cmdSlice h.fn.toNat o.slice.toNat) o =
      some { rowBytes := x.rowBytes, rformat := x.rformat, rows := x.rows } := by
    simp only [State.batchTable, howner, true_or, if_true, hopen, Option.map_some]
  unfold State.batch
  refine (inSlice_ok hdef).trans ?_
  simp only [htable]
  refine (checked_ok hchecks).trans ?_
  simp only [hlist, hrows, howner, true_or, if_true, State.table_of_openTable hopen, Option.map_some, Option.getD_some]

/-- Settles O7: each command finds the table it names, passes the checks of its own, and then does what its rule says. That TABLE_DESTROY
waits for the running requests, and which of a batch's checks come first, are the model's choices (log entries 70 and 71). -/
theorem tableCommandsComplete : Obligations.TableCommandsComplete := by
  unfold Obligations.TableCommandsComplete
  refine ⟨fun h o s d r ha hdef hlo hhi halign hformat hhot htier hdie hva hnew hroom hmode hd hmake => ?create,
    fun h slice table s x ha hdef hopen => ⟨?destroy, fun hstaged hidle => ?switch, fun t va hstaged htake => ?stage⟩,
    fun h o s x b rows ha howner hdef hopen htable hpos hmax hlist => ⟨?gather, fun hrows => ⟨?set, fun hformat => ?add⟩⟩,
    fun h slice table addr count s x b ha hdef hopen hmax hlist hgood => ?hot⟩
  all_goals dsimp only [exec]
  case create =>
    have hbody : (match if o.defaultAddr = 0 then some (zeros o.rowBytes.toNat) else
          (Fetched h s).hostRead o.defaultAddr.toNat o.rowBytes.toNat with
        | none => Reply.done (Fetched h s) eRetHost []
        | some d => (Fetched h s).makeTable o (cmdSlice h.fn.toNat o.slice.toNat) o.die.toNat d (TagOf h s)) = r := by
      rw [hd]; exact hmake
    refine ⟨fun t st l hr => hostCmd_done ha ((checked_ok ?checks1).trans (hbody.trans hr)),
      fun t hr => hostCmd_later ha ((checked_ok ?checks2).trans (hbody.trans hr))⟩
    case checks1 | checks2 =>
      simp only [firstFail, hdef, Nat.not_lt.2 hlo, Nat.not_lt.2 hhi, halign, beq_false_of_ne hformat, Nat.not_lt.2 hhot,
        beq_false_of_ne htier, Nat.not_le.2 hdie, va_ok hva, hnew, Nat.not_le.2 hroom, tierMode_ok hmode]
      rfl
  case destroy =>
    refine hostCmd_later ha ((inSlice_ok hdef).trans ?_)
    simp only [hopen]
  case switch =>
    refine hostCmd_later ha ((inSlice_ok hdef).trans ?_)
    simp only [hopen, hidle, Option.isNone_iff_eq_none, if_neg hstaged]
    rfl
  case stage =>
    refine hostCmd_endCreate ha ((inSlice_ok hdef).trans ?_)
    simp only [hopen, hstaged, htake, objThen]
    rfl
  case gather => exact hostCmd_later ha (State.batch_local (kind := .gather) rfl howner hdef hopen hpos hmax nofun hlist rfl)
  case set => exact hostCmd_later ha (State.batch_local (kind := .scatterSet) rfl howner hdef hopen hpos hmax nofun hlist hrows)
  case add => exact hostCmd_later ha (State.batch_local (kind := .scatterAdd) rfl howner hdef hopen hpos hmax (fun _ => hformat) hlist hrows)
  case hot =>
    refine hostCmd_done ha ((inSlice_ok hdef).trans ?_)
    simp only [hopen, Nat.not_lt.2 hmax, hlist, hgood, Option.isNone_iff_eq_none]
    rfl

end Sys2Proof.Machine
end

section
/-! SUPPORT. Commands on the composition, the ports and the checkpoints of a slice (R368, R369, R373, R375, R402, R405). -/

namespace Sys2Proof.Machine

/-- A port that exists passes the one check of a port command. -/
theorem portCheck_ok {port : BitVec 6} (h : badPort port = false) : firstFail [(badPort port, eBadUnit)] = none := by
  simp only [firstFail, h]
  rfl

/-- A slice with a checkpoint policy and no CKPT_NOW waiting passes the checks of CKPT_NOW. -/
theorem ckptNowChecks_ok {s : State} {sl : Nat} (hdef : s.defined sl = true) (hpolicy : byteAt (s.ckPolicy sl) 0 = 1)
    (hfree : tabGet s.ck.now sl = none) : firstFail [(!s.defined sl, eNoImage), (byteAt (s.ckPolicy sl) 0 != 1, eCkptNoTarget),
      ((tabGet s.ck.now sl).isSome, eCkptBusy)] = none := by
  simp only [firstFail, hdef, hpolicy, hfree]
  rfl

/-- Settles O8: each command passes the checks of its own, and then does what its rule says. That a CKPT_NOW behind a checkpoint in flight
is accepted and counted deferred once is log entry 46; that PORT_ENABLE of a port that is not down restarts nothing is log entry 60. -/
theorem compositionPortAndCheckpointCommandsComplete : Obligations.CompositionPortAndCheckpointCommandsComplete := by
  unfold Obligations.CompositionPortAndCheckpointCommandsComplete
  refine ⟨fun h c s n a ha hdev hgood hidle harb => ⟨fun hown => ?arbiter, fun hother => ?member⟩,
    fun h port s ha hport => ⟨fun hdown => ?enable, fun hoff hfailed => ?enabled⟩,
    fun h port s hport => ⟨fun ha => ?disable, fun ha => ?rekey⟩,
    fun h slice s ha hdef => ⟨fun hpolicy hfree => ⟨fun hfreely => ?now, fun hjob hdefers => ?deferred⟩, fun hflight => ?release⟩,
    fun h slice locator ckpt s x i ha hchecks htarget himage => ?restore⟩
  all_goals dsimp only [exec]
  case arbiter =>
    refine hostCmd_later ha ((checked_ok ?_).trans ?_)
    · simp only [firstFail, hdev, Option.getD_some, hgood, hidle, harb]
      rfl
    · simp only [harb, hdev, Option.getD_some, if_pos hown]
  case member =>
    refine hostCmd_later ha ((checked_ok ?_).trans ?_)
    · simp only [firstFail, hdev, Option.getD_some, hgood, hidle, harb]
      rfl
    · simp only [harb, hdev, Option.getD_some, if_neg hother]
  case enable => exact hostCmd_done ha ((checked_ok (portCheck_ok hport)).trans (congrArg (Reply.done · eOk []) (if_pos hdown)))
  case enabled =>
    exact hostCmd_done ha ((checked_ok (portCheck_ok hport)).trans
      (congrArg (Reply.done · eOk []) (if_neg (not_or.2 ⟨hoff, hfailed⟩))))
  case disable => exact hostCmd_done ha (checked_ok (portCheck_ok hport))
  case rekey => exact hostCmd_done ha (checked_ok (portCheck_ok hport))
  case now =>
    refine hostCmd_later ha ((checked_ok ?_).trans ?_)
    · exact ckptNowChecks_ok hdef hpolicy hfree
    · simp only [Option.isNone_iff_eq_none, if_neg hfreely]
  case deferred =>
    refine hostCmd_later ha ((checked_ok ?_).trans ?_)
    · exact ckptNowChecks_ok hdef hpolicy hfree
    · simp only [Option.isNone_iff_eq_none, if_pos (And.intro hjob hdefers)]
  case release => exact hostCmd_done ha (checked_ok (by simpa [firstFail, hdef] using hflight))
  case restore =>
    refine hostCmd_later ha ((checked_ok hchecks).trans ?_)
    simp only [htarget, himage]

end Sys2Proof.Machine
end

section
/-! SUPPORT. Keys, weights and consents of a slice (R437, R438, R441, R444, R445). -/

namespace Sys2Proof.Machine

/-- A command that MODULE's self-test would hold up is carried out once that has ended (R411). -/
theorem tested {s : State} {o o' : Host.Outcome State Fault Refusal} (h : s.module ≠ 0) (ho : o = o') :
    (if s.module = 0 then .next s else o) = o' :=
  (if_neg h).trans ho

theorem State.remeasure_consents (s : State) (i : Nat) (v : U256) : (s.remeasure i v).sec.consents = s.sec.consents := by
  unfold State.remeasure
  split
  · rfl
  · exact setMeas_cons s i v

/-- A consent removed is gone from its slice (R438). -/
theorem State.consentOff_consents (s : State) (sl : Nat) : tabGet (s.consentOff sl).sec.consents sl = none := by
  unfold State.consentOff
  split
  · next hnone => exact Option.isNone_iff_eq_none.1 hnone
  · rw [debugChanged_sec, State.remeasure_consents]
    exact tabGet_tabDel_same _ _

/-- A package of which the device reads the header reads whole, or not at all, from its first 256 bytes on (R444). -/
theorem weightHeader_ok {n : Nat} {b : Bytes} (hn : n ≤ 15) (hgood : weightHeaderBad b = false) :
    (decide (15 < n) || ((some b).isSome && weightHeaderBad b)) = false := by
  rw [decide_eq_false (Nat.not_lt.2 hn), hgood]
  rfl

/-- Settles O10: each command passes the checks of its own, in order, and then does what its rule says. That WEIGHT_DECRYPT completes at
once, and that CONSENT_INSTALL erases the slice's key slots even for the same record, is log entry 44. -/
theorem keyAndConsentCommandsComplete : Obligations.KeyAndConsentCommandsComplete := by
  unfold Obligations.KeyAndConsentCommandsComplete
  refine ⟨fun h addr s b key htest hmod ha hread hrole hdef hmagic hversion hflags hzero hslot hmeas hpolicy hnonce hdigest hservice hkey =>
      ?release,
    fun h slice slot addr s b0 b e key htest hmod ha hdef hread0 hread hslot hheader hmeas hpolicy hcons hbound hentry hkey => ?boundOpen,
    fun h slice slot src first count dst s t b k htest hmod ha hdef hread hslot hk hpkg hlast hprot hchunks => ?decrypt,
    fun h slice addr s b htest ha hdef hpolicy hread hgood => ?install, fun h slice s ha hdef => ⟨?remove, State.consentOff_consents _ _⟩⟩
  all_goals dsimp only [exec]
  case release =>
    refine tested htest (hostCmd_done ha ?_)
    simp only [hread]
    refine (checked_ok ?_).trans (by rw [hkey]; rfl)
    simp only [firstFail, hrole, hmod, hdef, hmagic, hversion, Nat.not_le.2 hflags, hzero, Nat.not_lt.2 hslot, hmeas, hpolicy, hnonce,
      hdigest, bne_self_eq_false, hservice, hkey]
    rfl
  case boundOpen =>
    refine tested htest (hostCmd_done ha ?_)
    simp only [hread0, hread, Option.bind_some, Option.getD_some, hentry, hkey]
    refine checked_ok ?_
    simp only [firstFail, hmod, hdef, weightHeader_ok hslot hheader, hmeas, hpolicy, hcons, hbound]
    rfl
  case decrypt =>
    refine tested htest (hostCmd_done ha ?_)
    simp only [firstFail, hmod, hdef, hread, Option.getD_some, if_pos hslot, hk, Option.all_some, hpkg, bne_self_eq_false,
      Nat.not_lt.2 hlast, hprot, Option.map_some, hchunks]
    rfl
  case install =>
    refine tested htest (hostCmd_done ha ?_)
    simp only [hread, Option.getD_some]
    refine checked_ok ?_
    simp only [firstFail, hdef, hpolicy, hgood]
    rfl
  case remove =>
    exact hostCmd_done ha (checked_ok (by simp only [firstFail, hdef]; rfl))

end Sys2Proof.Machine
end

section
/-! SUPPORT. Resets, power states and firmware by command (R492, R494, R498, R506, R510, R516). -/

namespace Sys2Proof.Machine

/-- Firmware from the host is staged when its checks are met, and a boot image takes its place in flash (R506). -/
theorem State.fwStage_firmware {s : State} {b : Bytes} {len : Nat} (h : firstFail (s.fwChecks b len) = none) :
    s.fwStage (some b) len 0 = .done (s.stageFw (some b)) :=
  checked_ok h

theorem State.fwStage_image {s : State} {b : Bytes} {len : Nat} (h : firstFail (s.imageChecks b len) = none) :
    s.fwStage (some b) len 1 = .done { s with flash := { s.flash with image := b } } :=
  checked_ok h

/-- Settles O11: each command passes the checks of its own, and then does what its rule says. That FW_LOAD of a boot image completes with
no firmware pending is log entry 43; that POWER_STATE waits while the package wakes, and that a slice's reset completes at once, is log
entry 55. -/
theorem resetPowerAndFirmwareCommandsComplete : Obligations.ResetPowerAndFirmwareCommandsComplete := by
  unfold Obligations.ResetPowerAndFirmwareCommandsComplete
  refine ⟨fun h scope die slice s ha =>
      ⟨fun hscope => ?warm, fun hscope hdie hpower hhib hshut => ?dieReset, fun hscope hdef => ?sliceReset⟩,
    fun h s ha => ⟨?package, ?thermal⟩,
    fun h target force s ha => ⟨fun htarget hawake hload hzero hshut hforce => ?enter, fun htarget hasleep => ?leave,
      fun htarget hwaking => ?waking, fun htarget hawake => ?awake⟩,
    fun h src len target mode s b htest ha hload => ⟨fun hmode htarget hlen hread hchecks => ?firmware,
      fun hmode htarget hlen hread hchecks => ?image, fun hmode htarget hstaged => ?activate, fun hmode htarget hstaged => ?drop⟩,
    fun h first count dst s ha hlo hhi hok => ?errlog⟩
  all_goals dsimp only [exec]
  case warm =>
    subst hscope
    exact hostCmd_later ha (checked_ok rfl)
  case dieReset =>
    subst hscope
    refine hostCmd_later ha (checked_ok ?_)
    simp only [firstFail, Nat.not_lt.2 hdie, hpower, hhib, hshut]
    rfl
  case sliceReset =>
    subst hscope
    refine hostCmd_done ha (checked_ok ?_)
    simp only [firstFail, hdef]
    rfl
  case package => exact hostCmd_later ha rfl
  case thermal => exact hostCmd_done ha rfl
  case enter =>
    subst htarget
    have hcomp : (force = 0 && (Fetched h s).heldInComp) = false := by
      rcases hforce with rfl | hfree
      · rfl
      · simp [hfree]
    refine hostCmd_later ha (checked_ok ?_)
    simp only [firstFail, hawake, hload, hzero, hshut, hcomp]
    rfl
  case leave =>
    subst htarget
    let woken := (Fetched h s).powerDies (List.range 8 ++ [16, 17, 18])
    refine ⟨{ woken with pkg := { woken.pkg with hib := .waking, hibTags := [TagOf h s] } }, hostCmd_later ha ?_, rfl, rfl⟩
    simp only [hasleep]
    rfl
  case waking =>
    subst htarget
    refine hostCmd_later ha ?_
    simp only [hwaking]
    rfl
  case awake =>
    subst htarget
    refine hostCmd_done ha ?_
    simp only [hawake]
    rfl
  case firmware =>
    subst hmode htarget
    refine tested htest (hostCmd_done ha ((checked_ok (by simp only [firstFail, hload]; rfl)).trans ?_))
    rw [if_pos rfl, if_neg (fun hlong => absurd hlong.2 (Nat.not_lt.2 hlen)), if_neg (by omega), hread]
    exact State.fwStage_firmware hchecks
  case image =>
    subst hmode htarget
    refine tested htest (hostCmd_done ha ((checked_ok (by simp only [firstFail, hload]; rfl)).trans ?_))
    rw [if_pos rfl, if_neg (fun hfirmware => absurd hfirmware.1 (by decide)), if_neg (Nat.not_lt.2 hlen), hread]
    exact State.fwStage_image hchecks
  case activate =>
    subst hmode htarget
    exact tested htest (hostCmd_done ha (checked_ok (by simp only [firstFail, hload, hstaged]; rfl)))
  case drop =>
    subst hmode htarget
    exact tested htest (hostCmd_done ha (checked_ok (by simp only [firstFail, hload, hstaged]; rfl)))
  case errlog =>
    have hpos : (count == 0) = false := beq_false_of_ne fun h0 => by rw [h0] at hlo; exact absurd hlo (by decide)
    refine hostCmd_done ha ((checked_ok ?_).trans (if_neg (not_not_intro hok)))
    simp only [firstFail, hpos, Nat.not_lt.2 hhi]
    rfl

end Sys2Proof.Machine
end

section
/-! SUPPORT. SPDM, IDE and TDISP messages of a module that is approved, and the commands of the PLDM endpoint (R415, R429, R431, R470,
R471, R509, R517). -/

namespace Sys2Proof.Machine

/-- A port command of the PLDM effecter names a port that exists. -/
theorem badPort_eq_false {port : BitVec 6} (h : port.toNat < 48) : badPort port = false := decide_eq_false (Nat.not_le.2 h)

/-- A signed measurement of one register (R427, R429). -/
theorem execGetMeasurements_one {sec : Bool} {i : U8} {nonce : U256} {s : State} (hmod : s.module = 1)
    (hsec : sec = true → s.spdm.secured ≠ none) (halg : s.spdm.algorithms = true) (hlo : 1 ≤ i.toNat) (hhi : i.toNat ≤ 154) :
    execGetMeasurements sec i nonce s = .next
      ((s.drew.heard (hashBytes (s.measValue i.toNat) ++ hashBytes nonce)).spdmSend 0x60
        ((hashBytes (s.measValue i.toNat) ++ hashBytes nonce) ++ s.spdmSign (hashBytes (s.measValue i.toNat) ++ hashBytes nonce))) := by
  refine (spdm_ok hmod hsec halg).trans (congrArg Host.Outcome.next ?_)
  have hnot : ¬ (i.toNat = 0xF0 ∨ i.toNat = 0xFF) := by omega
  exact (if_neg (Nat.ne_of_gt hlo)).trans ((if_neg hnot).trans (if_neg (Nat.not_lt.2 hhi)))

/-- Settles O15: each message is answered once the module is approved and the session or the connection is far enough; the PLDM commands
ask nothing else. The codes of messages that other standards define are the model's presumption (log entry 7). -/
theorem secureSessionAndManagementRowsComplete : Obligations.SecureSessionAndManagementRowsComplete := by
  unfold Obligations.SecureSessionAndManagementRowsComplete
  refine ⟨fun fn s hpower => ?functionReset, fun fn a s => rfl, fun fn s hvf hlocked => if_pos ⟨hvf, hlocked⟩, fun s hmod => ?version,
    fun sec s hmod hsec hready => ?capabilities, fun sec sha mldsa s hmod hsec hready => ?algorithms,
    fun sec s hmod hsec halg =>
      ⟨?digests, fun off len hcert => ?certificate, fun nonce => ?challenge, fun i nonce hlo hhi => ?measurements⟩,
    fun s hmod hsec => ⟨?endSession, ?heartbeat, ?keyUpdate⟩, fun ct ss s hmod halg hnone hss => ?kemStart,
    fun m stream fn s hsec => ⟨fun hm => ?bind, fun hm => ?unbind, fun hbind hunbind => ?other⟩,
    fun fn s hmod hsec hvf => ⟨fun hunlocked hdef hbound => ?lock, fun hlocked => ?start, fun hbusy => ?stop⟩,
    fun s => ⟨rfl, rfl, rfl, fun p harmed hsoon => ?zeroize, fun port hport => ?portOff, fun first count => rfl⟩⟩
  all_goals dsimp only [exec, execGetCapabilities, execNegotiateAlgorithms, execGetDigests, execGetCertificate, execChallenge,
    execEndSession, execHeartbeat, execKeyUpdate, execKemStart, execLockInterface, execStartInterfaceRequest, execStopInterface]
  case functionReset =>
    refine (if_neg (not_not_intro hpower)).trans ?_
    split <;> rfl
  case version => exact ⟨_, if_neg (by rw [hmod]; decide), rfl⟩
  case capabilities => exact spdm_ok hmod hsec hready
  case algorithms =>
    refine (spdm_ok hmod hsec hready).trans ?_
    cases sha <;> cases mldsa <;> rfl
  case digests => exact spdm_ok hmod hsec halg
  case certificate =>
    refine (spdm_ok hmod hsec halg).trans (congrArg Host.Outcome.next ?_)
    exact (if_neg (not_not_intro rfl)).trans (if_neg (not_not_intro hcert))
  case challenge => exact spdm_ok hmod hsec halg
  case measurements => exact execGetMeasurements_one hmod hsec halg hlo hhi
  case endSession => exact spdm_ok hmod (fun _ => hsec) rfl
  case heartbeat => exact spdm_ok hmod (fun _ => hsec) rfl
  case keyUpdate => exact spdm_ok hmod (fun _ => hsec) rfl
  case kemStart =>
    have hready : (s.spdm.algorithms && s.spdm.secured.isNone) = true := by rw [halg, hnone]; rfl
    let t := s.heard ct
    let th := hashBytes (Config.sha3 t.spdm.transcript)
    refine ⟨t.drew.setSpdm { t.spdm with secured := some ss, keyUpdates := 0 }, th ++ Config.mldsaSign attestSeed th t.free,
      (spdm_ok (sec := false) (ready := fun x => x.algorithms && x.secured.isNone) hmod nofun hready).trans ?_, rfl⟩
    simp only [hss]
    rfl
  case bind =>
    subst hm
    exact (if_neg (by simpa using hsec)).trans (if_pos rfl)
  case unbind =>
    subst hm
    exact (if_neg (by simpa using hsec)).trans ((if_neg (by decide)).trans (if_pos rfl))
  case other => exact (if_neg (by simpa using hsec)).trans ((if_neg hbind).trans (if_neg hunbind))
  case lock =>
    refine (tdisp_ok hmod hsec hvf).trans (congrArg Host.Outcome.next ?_)
    exact if_pos ⟨hunlocked, hdef, hbound⟩
  case start =>
    refine (tdisp_ok hmod hsec hvf).trans (congrArg Host.Outcome.next ?_)
    exact if_pos hlocked
  case stop =>
    refine (tdisp_ok hmod hsec hvf).trans (congrArg Host.Outcome.next ?_)
    exact congrArg (State.emit · (.tdisp 0x07 [])) (if_neg hbusy)
  case zeroize => exact congrArg Host.Outcome.next (if_pos (State.fires_of_armed harmed hsoon))
  case portOff => exact if_neg (Bool.eq_false_iff.1 (badPort_eq_false hport))

end Sys2Proof.Machine
end

section
/-! SUPPORT. The session, security, power and thermal timers and the JTAG port, each once it is due (R431, R435, R438, R439, R447,
R497..R500, R513..R516). -/

namespace Sys2Proof.Machine

/-- A period's work that has not been done in the period is done now (log entry 105). -/
theorem due {p : Prop} [Decidable p] {s : State} {o o' : Host.Outcome State Fault Refusal} (h : p) (ho : o = o') :
    (if ¬ p then .next s else o) = o' :=
  (if_neg (not_not_intro h)).trans ho

theorem State.die_setDie_same (s : State) (d : Nat) (x : Die) : (s.setDie d x).die d = x := by
  simp [State.setDie, State.die]

/-- Settles O29: each timer is due and finds what it stands for. That a period's work is done once in it is log entry 105; that the idle
time starts at IDLE_ENTRY is log entry 55. -/
theorem timerPowerAndTestRowsComplete : Obligations.TimerPowerAndTestRowsComplete := by
  unfold Obligations.TimerPowerAndTestRowsComplete
  refine ⟨fun s hperiod => due hperiod rfl, fun slice s c hcons hset hpast => ?consent, fun s => rfl, fun s hdue => ?report,
    fun s haligned => if_neg (not_not_intro haligned), fun die c s hdie hpower hcool => ?sensor,
    fun s hperiod => ⟨fun hhot => ?down, fun hcool => ?up⟩,
    fun w s hperiod hon => ⟨fun hover hfree => ?withhold, fun hover hheld hduty => ?cap, fun hunder => ?relax⟩,
    fun s => ⟨fun hready hquiet hpower hstate => if_pos ⟨hready, hquiet, hpower, hstate⟩,
      fun hpower hallow hlong => if_pos ⟨hpower, hallow, hlong⟩, fun hpower => if_pos hpower⟩,
    fun s hentering hready => ?hibernate, fun s hwaking hmeas => ?wake, fun s htrip hlong hcool => ?recovery,
    fun unit s => ⟨rfl, rfl, fun d hunit hreach => ?halt⟩⟩
  case consent =>
    simp only [exec, execConsentExpiry, hcons]
    exact congrArg Host.Outcome.next (if_pos ⟨hset, hpast⟩)
  case report => exact if_pos (.inl (Option.isSome_iff_ne_none.2 hdue))
  case sensor =>
    refine (if_neg ?_).trans (congrArg Host.Outcome.next (if_neg (Nat.not_le.2 hcool)))
    rintro (hbeyond | hoff)
    · exact absurd hdie (Nat.not_le.2 hbeyond)
    · exact hoff hpower
  case down => exact due hperiod (if_pos hhot)
  case up =>
    exact due hperiod ((if_neg (Nat.not_le.2 (Nat.lt_of_le_of_lt (Nat.le_add_right _ 3) hcool))).trans (if_pos hcool))
  case withhold =>
    refine ⟨_, due hperiod ((if_neg (by rw [hon]; decide)).trans ((if_pos hover).trans (if_pos (by rw [hfree]; decide)))), rfl, rfl⟩
  case cap =>
    have hcount : (if s.pkg.capDuty = 4 then s.pkg.capPeriods + 1 else 0) ≠ 128 := by rw [if_neg hduty]; decide
    exact ⟨_, due hperiod ((if_neg (by rw [hon]; decide)).trans ((if_pos hover).trans ((if_neg (not_not_intro hheld)).trans
      (if_neg hcount)))), rfl, rfl⟩
  case relax =>
    refine ⟨_, due hperiod ((if_neg (by rw [hon]; decide)).trans (if_neg (Nat.not_lt.2 hunder))), rfl, rfl⟩
  case hibernate =>
    refine if_neg ?_
    rintro (hother | hbusy)
    · exact hother hentering
    · exact hbusy hready
  case wake =>
    refine ⟨_, if_neg ?_, rfl, rfl⟩
    rintro (hother | hunmeasured)
    · exact hother hwaking
    · exact absurd (hunmeasured.symm.trans hmeas) (by decide)
  case recovery =>
    refine if_neg ?_
    rintro (hoff | hshort | hhot)
    · exact hoff htrip
    · exact absurd hlong (Nat.not_le.2 hshort)
    · exact absurd hcool (Nat.not_le.2 hhot)
  case halt =>
    subst hunit
    refine ⟨_, if_neg (not_not_intro hreach), ?_⟩
    exact congrArg Die.halted (State.die_setDie_same ..)

end Sys2Proof.Machine
end

section
namespace Sys2Proof.Machine

/-! SUPPORT. What leaves the security state alone: one lemma per function that a ZEROIZE runs, in the order of the definitions. -/

@[simp] theorem sec_foldl {α : Type} (f : State → α → State) (h : ∀ t x, (f t x).sec = t.sec) (l : List α) (s : State) :
    (l.foldl f s).sec = s.sec :=
  foldl_sec f h l s

@[simp] theorem sec_ite (c : Prop) [Decidable c] (a b : State) : (if c then a else b).sec = if c then a.sec else b.sec :=
  apply_ite State.sec c a b

@[simp] theorem State.pump_sec (s : State) (p n : Nat) : (s.pump p n).sec = s.sec := by
  induction n generalizing s with
  | zero => rfl
  | succ n ih =>
    simp only [State.pump]
    split
    · rfl
    · split
      · rfl
      · split <;> simp [ih]

@[simp] theorem State.enqueue_sec (s : State) (p vl queue payload : Nat) (who : Option (Nat × Nat)) :
    (s.enqueue p vl queue payload who).sec = s.sec := by
  simp [State.enqueue]

@[simp] theorem State.transmit_sec (s : State) (t : Txn) : (s.transmit t).sec = s.sec := by
  unfold State.transmit
  split <;> simp

@[simp] theorem State.send_sec (s : State) (dev type op sl : Nat) (args : List Nat) (payload : Bytes) (p : Purpose) :
    (s.send dev type op sl args payload p).sec = s.sec := by
  simp [State.send]

@[simp] theorem State.allocAt_sec (s : State) (sl pa size : Nat) (prot : Bool) : (s.allocAt sl pa size prot).sec = s.sec := by
  simp [State.allocAt]

theorem State.alloc_sec {s z : State} {sl n size align w : Nat} {prot : Bool} (h : s.alloc sl n size align prot = some (z, w)) :
    z.sec = s.sec := by
  obtain ⟨pa, _, e⟩ := Option.map_eq_some_iff.1 h
  cases e
  simp

@[simp] theorem State.freeAt_sec (s : State) (pa : Nat) : (s.freeAt pa).sec = s.sec := by
  unfold State.freeAt
  split <;> simp

@[simp] theorem State.invalidate_sec (s : State) (sl : Nat) : (s.invalidate sl).sec = s.sec := by simp [State.invalidate]

@[simp] theorem State.ckGuard_sec (s : State) (f : Nat) : (s.ckGuard f).sec = s.sec := by simp [State.ckGuard]

@[simp] theorem State.touch_sec (s : State) (pa n : Nat) : (s.touch pa n).sec = s.sec := by simp [State.touch]

@[simp] theorem State.pwrite_sec (s : State) (pa : Nat) (b : Bytes) : (s.pwrite pa b).sec = s.sec := by simp [State.pwrite]

theorem State.takeTables_sec {s z : State} {sl : Nat} {l : List (Nat × Nat)} (h : s.takeTables sl l = some z) : z.sec = s.sec := by
  rw [State.takeTables_mem sl l h]

@[simp] theorem State.dropUnneeded_sec (s : State) (sl : Nat) : (s.dropUnneeded sl).sec = s.sec := by simp [State.dropUnneeded]

theorem State.remap_sec {s z : State} {sl : Nat} (h : s.remap sl = some z) : z.sec = s.sec := by
  rw [State.remap_mem h]

@[simp] theorem State.unmapped_sec (s : State) (sl : Nat) : (s.unmapped sl).sec = s.sec := by simp [State.unmapped]

@[simp] theorem State.freeRegions_sec (s : State) (g : Geom) (p : KvPage) : (s.freeRegions g p).sec = s.sec := by simp [State.freeRegions]

@[simp] theorem State.dropPage_sec (s : State) (g : Geom) (p : KvPage) : (s.dropPage g p).sec = s.sec := by simp [State.dropPage]

@[simp] theorem State.dropGranules_sec (s : State) (grs : List Granule) : (s.dropGranules grs).sec = s.sec := by simp [State.dropGranules]

@[simp] theorem State.releaseReserve_sec (s : State) (g : Geom) (i : Nat) : (s.releaseReserve g i).sec = s.sec := by
  simp [State.releaseReserve]

@[simp] theorem State.dropFrom_sec (s : State) (g : Geom) (i j m : Nat) : (s.dropFrom g i j m).sec = s.sec := by simp [State.dropFrom]

@[simp] theorem State.freeSession_sec (s : State) (i : Nat) : (s.freeSession i).sec = s.sec := by simp [State.freeSession]

@[simp] theorem State.descWritten_sec (s : State) (i : Nat) : (s.descWritten i).sec = s.sec := by simp [State.descWritten]

@[simp] theorem State.palRef_sec (s : State) (e : Nat) (up : Bool) : (s.palRef e up).sec = s.sec := by
  unfold State.palRef
  split <;> simp

@[simp] theorem State.toEmpty_sec (s : State) (i : Nat) : (s.toEmpty i).sec = s.sec := by simp [State.toEmpty]

@[simp] theorem State.completeReq_sec (s : State) (i : Nat) (r : Request) (status emitted : Nat) :
    (s.completeReq i r status emitted).sec = s.sec := by
  unfold State.completeReq
  split <;> simp

@[simp] theorem State.endCancels_sec (s : State) (i : Nat) : (s.endCancels i).sec = s.sec := by simp [State.endCancels]

@[simp] theorem State.dropRequests_sec (s : State) (i status : Nat) : (s.dropRequests i status).sec = s.sec := by
  simp [State.dropRequests]

@[simp] theorem State.rowCause_sec (s : State) (sl i code : Nat) : (s.rowCause sl i code).sec = s.sec := by
  unfold State.rowCause
  split <;> simp

@[simp] theorem State.commitMeter_sec (s : State) (sl i sel cir pir burst : Nat) :
    (s.commitMeter sl i sel cir pir burst).sec = s.sec := by
  simp [State.commitMeter]

@[simp] theorem State.qosImage_sec (s : State) (sl : Nat) : (s.qosImage sl).sec = s.sec := by
  simp only [State.qosImage, State.setReg_sec]
  rw [foldl_sec _ fun t i => by split <;> simp, foldl_sec _ fun t r => by simp]

@[simp] theorem State.noteCuts_sec (s : State) : s.noteCuts.sec = s.sec := by simp [State.noteCuts]

@[simp] theorem State.sendLinks_sec (s : State) : s.sendLinks.sec = s.sec := by
  unfold State.sendLinks
  split <;> simp

@[simp] theorem State.again_sec (s : State) (t : Txn) : (s.again t).sec = s.sec := by simp [State.again]

@[simp] theorem State.portFail_sec (s : State) (p : Nat) : (s.portFail p).sec = s.sec := by simp [State.portFail]

@[simp] theorem State.answer_sec (s : State) (t : TxHdr) (type rtype status result : Nat) (data : Bytes) (poison : Bool) :
    (s.answer t type rtype status result data poison).sec = s.sec := by
  unfold State.answer
  split <;> simp

@[simp] theorem State.tagDone_sec (s : State) (src tag status result : Nat) : (s.tagDone src tag status result).sec = s.sec := by
  simp [State.tagDone]

@[simp] theorem State.lateAnswer_sec (s : State) (t : TxHdr) (type status result : Nat) :
    (s.lateAnswer t type status result).sec = s.sec := by
  simp [State.lateAnswer]

@[simp] theorem State.freeCanvas_sec (s : State) (d : Desc) : (s.freeCanvas d).sec = s.sec := by
  unfold State.freeCanvas
  split <;> simp

@[simp] theorem State.guardAll_sec (s : State) (i : Nat) (g : Bool) : (s.guardAll i g).sec = s.sec := by simp [State.guardAll]

@[simp] theorem State.abandonPark_sec (s : State) (i : Nat) : (s.abandonPark i).sec = s.sec := by
  unfold State.abandonPark
  split
  · rfl
  · dsimp only
    split
    · simp
    · rw [foldl_sec _ fun t m => by split <;> simp]
      simp

theorem State.sideAreas_sec {s z : State} {i : Nat} (h : s.sideAreas i = some z) : z.sec = s.sec := by
  obtain ⟨a, ha, hz⟩ := Option.bind_eq_some_iff.1 h
  have scratch : a.sec = s.sec := by
    split at ha
    · cases ha; rfl
    · obtain ⟨b, hb, e⟩ := Option.map_eq_some_iff.1 ha
      cases e
      simpa using State.alloc_sec (w := b.2) hb
  split at hz
  · cases hz; exact scratch
  · obtain ⟨b, hb, e⟩ := Option.map_eq_some_iff.1 hz
    cases e
    simpa [scratch] using State.alloc_sec (w := b.2) hb

@[simp] theorem State.fillSide_sec (s : State) (i : Nat) (scratch cursors : Bytes) : (s.fillSide i scratch cursors).sec = s.sec := by
  unfold State.fillSide
  split
  · rfl
  · split
    · rfl
    · next h =>
      obtain ⟨t, ht, e⟩ := Option.bind_eq_some_iff.1 h
      simpa using (State.remap_sec e).trans (State.sideAreas_sec ht)

@[simp] theorem State.ringSend_sec (s : State) (dev : Nat) (o : RingOps) (p : Purpose) : (s.ringSend dev o p).sec = s.sec := by
  simp [State.ringSend]

@[simp] theorem State.leaveSession_sec (s : State) (i : Nat) : (s.leaveSession i).sec = s.sec := by simp [State.leaveSession]

@[simp] theorem State.closeEnd_sec (s : State) (i : Nat) : (s.closeEnd i).sec = s.sec := by simp [State.closeEnd]

@[simp] theorem State.freeObj_sec (s : State) (o : Obj) : (s.freeObj o).sec = s.sec := by simp [State.freeObj]

@[simp] theorem State.freePal_sec (s : State) (e : Nat) : (s.freePal e).sec = s.sec := by
  unfold State.freePal
  split <;> simp

@[simp] theorem State.poolDrop_sec (s : State) (r : PoolRange) : (s.poolDrop r).sec = s.sec := by simp [State.poolDrop]

@[simp] theorem State.dropMirror_sec (s : State) (m : Mirror) : (s.dropMirror m).sec = s.sec := by simp [State.dropMirror]

@[simp] theorem State.setNeighbours_sec (s : State) (sid : U64) (pos dev old epoch : Nat) :
    (s.setNeighbours sid pos dev old epoch).sec = s.sec := by
  simp [State.setNeighbours]

@[simp] theorem State.promoteMirror_sec (s : State) (m : Mirror) : (s.promoteMirror m).sec = s.sec := by
  unfold State.promoteMirror
  split <;> simp

@[simp] theorem State.ckMark_sec (s : State) (p : Nat) (fs : List Nat) : (s.ckMark p fs).sec = s.sec := by simp [State.ckMark]

@[simp] theorem State.ckFill_sec (s : State) (sl mask : Nat) : (s.ckFill sl mask).sec = s.sec := by simp [State.ckFill]

@[simp] theorem State.delCk_sec (s : State) (c : Ckpt) : (s.delCk c).sec = s.sec := by simp [State.delCk]

@[simp] theorem State.ckLocator_sec (s : State) (sl v : Nat) : (s.ckLocator sl v).sec = s.sec := by simp [State.ckLocator]

@[simp] theorem State.releaseTarget_sec (s : State) (sl : Nat) : (s.releaseTarget sl).sec = s.sec := by
  unfold State.releaseTarget
  split
  · rfl
  · dsimp only
    rw [foldl_sec _ (fun t m => by
      split
      · split <;> simp
      · rfl)]
    simp

@[simp] theorem State.ckEvent_sec (s : State) (c : Ckpt) (status : Nat) : (s.ckEvent c status).sec = s.sec := by simp [State.ckEvent]

@[simp] theorem State.ckAbandon_sec (s : State) (c : Ckpt) (code : Nat) (targetLost : Bool) :
    (s.ckAbandon c code targetLost).sec = s.sec := by
  simp [State.ckAbandon]

@[simp] theorem State.ckReset_sec (s : State) (sl : Nat) : (s.ckReset sl).sec = s.sec := by simp [State.ckReset]

@[simp] theorem State.ckTenant_sec (s : State) (sl : Nat) : (s.ckTenant sl).sec = s.sec := by simp [State.ckTenant]

@[simp] theorem State.stretchLost_sec (s : State) (sid : U64) (pos : Nat) : (s.stretchLost sid pos).sec = s.sec := by
  unfold State.stretchLost
  split <;> simp

@[simp] theorem State.tellLost_sec (s : State) (sid : U64) (pos epoch src : Nat) (more : List Nat) :
    (s.tellLost sid pos epoch src more).sec = s.sec := by
  simp [State.tellLost]

@[simp] theorem State.resetRegs_sec (s : State) (hit : Reg → Nat → Field → Bool) : (s.resetRegs hit).sec = s.sec := by
  simp [State.resetRegs]

@[simp] theorem State.imageValues_sec (s : State) (sl : Nat) : (s.imageValues sl).sec = s.sec := by
  simp only [State.imageValues, State.qosImage_sec]
  (repeat' split) <;> simp

@[simp] theorem State.forget_sec (s : State) (t : Option Tag) : (s.forget t).sec = s.sec := by
  unfold State.forget
  split
  · rfl
  · split
    · rfl
    · split <;> rfl

@[simp] theorem State.dropQueues_sec (s : State) (fn : Nat) : (s.dropQueues fn).sec = s.sec := by simp [State.dropQueues]

@[simp] theorem State.endWaits_sec (s : State) (i status : Nat) : (s.endWaits i status).sec = s.sec := by
  simp only [State.endWaits]
  rw [foldl_sec _ fun t h => by simp, foldl_sec _ fun t g => by simp]
  simp

@[simp] theorem State.dropOp_sec (s : State) (i : Nat) : (s.dropOp i).sec = s.sec := by
  unfold State.dropOp
  split <;> simp

@[simp] theorem State.forgetIndex_sec (s : State) (i : Nat) : (s.forgetIndex i).sec = s.sec := by simp [State.forgetIndex]

@[simp] theorem State.loseHandoff_sec (s : State) (i : Nat) : (s.loseHandoff i).sec = s.sec := by
  unfold State.loseHandoff
  dsimp only
  split
  · rfl
  · split <;> simp

@[simp] theorem State.loseSession_sec (s : State) (i : Nat) (whole : Bool) : (s.loseSession i whole).sec = s.sec := by
  simp [State.loseSession]

@[simp] theorem State.keepWinter_sec (s : State) (i : Nat) : (s.keepWinter i).sec = s.sec := by simp [State.keepWinter]

@[simp] theorem State.resetSessions_sec (s : State) (sl : Nat) (tenant : Bool) : (s.resetSessions sl tenant).sec = s.sec :=
  foldl_sec _ (fun t i => by
    split
    · rfl
    · simp
    · split <;> simp
    · simp) _ _

@[simp] theorem State.resetJob_sec (s : State) (sl : Nat) : (s.resetJob sl).sec = s.sec := by simp [State.resetJob]

@[simp] theorem State.resetRetrieval_sec (s : State) (sl : Nat) : (s.resetRetrieval sl).sec = s.sec := by simp [State.resetRetrieval]

@[simp] theorem State.resetObjects_sec (s : State) (sl : Nat) : (s.resetObjects sl).sec = s.sec := by
  simp only [State.resetObjects, sec_foldl State.dropMirror State.dropMirror_sec]
  rw [foldl_sec _ fun t x => by simp, foldl_sec _ (fun t a => by
    split
    · split <;> simp
    · simp)]
  simp

@[simp] theorem State.resetMemory_sec (s : State) (sl : Nat) (tenant : Bool) : (s.resetMemory sl tenant).sec = s.sec := by
  simp [State.resetMemory]

@[simp] theorem State.resetCkpt_sec (s : State) (sl : Nat) (tenant : Bool) : (s.resetCkpt sl tenant).sec = s.sec := by
  unfold State.resetCkpt
  dsimp only
  rw [foldl_sec _ fun t g => by simp]
  cases tenant <;> simp

@[simp] theorem State.cause_sec (s : State) (kind cause : Nat) : (s.cause kind cause).sec = s.sec := by simp [State.cause]

@[simp] theorem State.portsDown_sec (s : State) (n : Nat) : (s.portsDown n).sec = s.sec := by simp [State.portsDown]

@[simp] theorem State.powerDies_sec (s : State) (ds : List Nat) : (s.powerDies ds).sec = s.sec := by simp [State.powerDies]

@[simp] theorem State.zeroizeEnd_sec (s : State) : s.zeroizeEnd.sec = s.sec := by simp [State.zeroizeEnd]


/-! SUPPORT. The functions of a reset that do change the security state, and what of it each keeps: the composition sealing key
`csk`, the key slots, or both. -/

@[simp] theorem State.measChanged_csk (s : State) : s.measChanged.sec.csk = s.sec.csk := by
  unfold State.measChanged
  split <;> rfl

@[simp] theorem State.measChanged_slots (s : State) : s.measChanged.sec.slots = s.sec.slots := by
  unfold State.measChanged
  split <;> rfl

@[simp] theorem State.setMeas_csk (s : State) (i : Nat) (v : U256) : (s.setMeas i v).sec.csk = s.sec.csk := by
  unfold State.setMeas
  split <;> simp

@[simp] theorem State.setMeas_slots (s : State) (i : Nat) (v : U256) : (s.setMeas i v).sec.slots = s.sec.slots := by
  unfold State.setMeas
  split <;> simp

@[simp] theorem State.eraseSlots_csk (s : State) (p : Nat → Bool) : (s.eraseSlots p).sec.csk = s.sec.csk := rfl

theorem State.eraseSlots_all (s : State) : (s.eraseSlots fun _ => true).sec.slots = [] := by
  simp [State.eraseSlots]

@[simp] theorem State.remeasure_csk (s : State) (i : Nat) (v : U256) : (s.remeasure i v).sec.csk = s.sec.csk := by
  unfold State.remeasure
  split <;> simp

@[simp] theorem State.debugChanged_csk (s : State) : s.debugChanged.sec.csk = s.sec.csk :=
  s.setMeas_csk _ _

@[simp] theorem State.debugChanged_slots (s : State) : s.debugChanged.sec.slots = s.sec.slots :=
  s.setMeas_slots _ _

@[simp] theorem State.diesChanged_csk (s : State) : s.diesChanged.sec.csk = s.sec.csk := by
  simp [State.diesChanged]

theorem State.diesChanged_slots (s : State) : s.diesChanged.sec.slots = [] :=
  (State.measChanged_slots _).trans s.eraseSlots_all

@[simp] theorem State.bootRom_csk (s : State) (forced : Bool) : (s.bootRom forced).sec.csk = s.sec.csk := by
  unfold State.bootRom
  dsimp only
  generalize (if forced then none else _) = pick
  cases pick <;> simp

@[simp] theorem State.consentOff_csk (s : State) (sl : Nat) : (s.consentOff sl).sec.csk = s.sec.csk := by
  unfold State.consentOff
  split <;> simp

theorem foldl_csk {α : Type} (f : State → α → State) (h : ∀ t x, (f t x).sec.csk = t.sec.csk) (l : List α) (s : State) :
    (l.foldl f s).sec.csk = s.sec.csk := by
  induction l generalizing s with
  | nil => rfl
  | cons x l ih => exact (ih _).trans (h s x)

@[simp] theorem State.resetClassL_csk (s : State) (sl : Nat) : (s.resetClassL sl).sec.csk = s.sec.csk := by
  simp [State.resetClassL]

@[simp] theorem State.sliceClear_csk (s : State) (sl : Nat) (tenant : Bool) : (s.sliceClear sl tenant).sec.csk = s.sec.csk := by
  unfold State.sliceClear
  split
  · rfl
  · cases sliceFn sl <;> simp

@[simp] theorem State.clearWork_csk (s : State) : s.clearWork.sec.csk = s.sec.csk := by
  simp [State.clearWork, foldl_csk _ fun t sl => State.sliceClear_csk t sl false]

/-- A package reset keeps the composition sealing key, or its absence. -/
@[simp] theorem State.packageReset_csk (s : State) (c : Nat) : (s.packageReset c).sec.csk = s.sec.csk := by
  unfold State.packageReset
  split
  · rfl
  · dsimp only
    rw [State.debugChanged_csk, State.diesChanged_csk, State.bootRom_csk, State.cause_sec]
    split <;> simp

/-- A package reset, with the power converted, erases every key slot. -/
theorem State.packageReset_slots {s : State} (h : s.pkg.conversion = true) (c : Nat) : (s.packageReset c).sec.slots = [] := by
  unfold State.packageReset
  rw [if_neg (not_not_intro h)]
  dsimp only
  rw [State.debugChanged_slots, State.diesChanged_slots]

/-! SUPPORT. That the power is converted outlives the failing of the cipher ports. -/

@[simp] theorem State.pump_pkg (s : State) (p n : Nat) : (s.pump p n).pkg = s.pkg := by
  induction n generalizing s with
  | zero => rfl
  | succ n ih =>
    simp only [State.pump]
    split
    · rfl
    · split
      · rfl
      · split <;> simp [ih]

@[simp] theorem State.transmit_pkg (s : State) (t : Txn) : (s.transmit t).pkg = s.pkg := by
  unfold State.transmit
  split <;> simp [State.enqueue]

@[simp] theorem State.send_pkg (s : State) (dev type op sl : Nat) (args : List Nat) (payload : Bytes) (p : Purpose) :
    (s.send dev type op sl args payload p).pkg = s.pkg := by
  unfold State.send
  dsimp only
  split <;> simp

@[simp] theorem State.sendLinks_pkg (s : State) : s.sendLinks.pkg = s.pkg := by
  unfold State.sendLinks
  split
  · rfl
  · exact foldl_pkg _ (fun t d => State.send_pkg ..) _ _

@[simp] theorem State.logWrite_conversion (s : State) (source die slice code unit : Nat) (addr : Option Nat) (detail : Bytes) :
    (s.logWrite source die slice code unit addr detail).pkg.conversion = s.pkg.conversion := by
  simp only [State.logWrite]
  (repeat' split) <;> simp

@[simp] theorem State.logErr_conversion (s : State) (source die slice code unit : Nat) (addr : Option Nat) :
    (s.logErr source die slice code unit addr).pkg.conversion = s.pkg.conversion := by
  simp only [State.logErr]
  (repeat' split) <;> simp

theorem State.portFail_conversion (s : State) (p : Nat) : (s.portFail p).pkg.conversion = s.pkg.conversion := by
  simp [State.portFail, foldl_pkg State.again fun t x => by simp [State.again]]

/-! ## Erasing the keys (R447) -/

/-- The state once every port with a cipher has failed: the first step of `zeroizeKeys`. -/
def State.cipherPortsFailed (s : State) : State :=
  (List.range 48).foldl (fun (t : State) p => if (t.port p).cipher then t.portFail p else t) s

@[simp] theorem State.cipherPortsFailed_fixed (s : State) : s.cipherPortsFailed.fixed = s.fixed :=
  foldl_fixed _ (fun t p => by split <;> simp) _ _

theorem State.cipherPortsFailed_conversion (s : State) : s.cipherPortsFailed.pkg.conversion = s.pkg.conversion := by
  unfold State.cipherPortsFailed
  generalize List.range 48 = ports
  induction ports generalizing s with
  | nil => rfl
  | cons p ports ih =>
    rw [List.foldl_cons, ih]
    split
    · exact s.portFail_conversion p
    · rfl

/-- What erasing the keys does once the cipher ports have failed. -/
theorem State.zeroizeKeys_fields (s : State) :
    s.zeroizeKeys.pkg = s.cipherPortsFailed.pkg ∧ s.zeroizeKeys.sec.csk = none ∧
      s.zeroizeKeys.sec.retired = s.cipherPortsFailed.sec.retired ||| s.cipherPortsFailed.zeroizeMask ∧
      s.zeroizeKeys.sec.zcount =
        if s.cipherPortsFailed.sec.zcount < 16 then s.cipherPortsFailed.sec.zcount + 1 else s.cipherPortsFailed.sec.zcount := by
  unfold State.zeroizeKeys State.cipherPortsFailed
  generalize (List.range 48).foldl _ s = t
  exact ⟨rfl, rfl, rfl, rfl⟩

theorem State.zeroizeKeys_conversion (s : State) : s.zeroizeKeys.pkg.conversion = s.pkg.conversion := by
  rw [s.zeroizeKeys_fields.1, s.cipherPortsFailed_conversion]

theorem State.zeroizeKeys_pkc (s : State) : s.zeroizeKeys.pkg.pkc = s.pkg.pkc := by
  rw [s.zeroizeKeys_fields.1]
  exact (fixed_ext s.cipherPortsFailed_fixed).2.1

theorem State.zeroizeKeys_zcount {s : State} (h : s.sec.zcount < 16) : s.zeroizeKeys.sec.zcount = s.sec.zcount + 1 := by
  obtain ⟨_, _, _, count⟩ := s.zeroizeKeys_fields
  obtain ⟨_, _, _, e, _, _, _⟩ := fixed_ext s.cipherPortsFailed_fixed
  rw [count, e, if_pos h]

theorem testBit_foldl_lor (l : List Nat) (m i : Nat) :
    (l.foldl (fun m i => m ||| 2 ^ i) m).testBit i = (m.testBit i || l.contains i) := by
  induction l generalizing m with
  | nil => simp
  | cons j l ih =>
    rw [List.foldl_cons, ih, List.contains_cons, Nat.testBit_or, Nat.testBit_two_pow, Bool.or_assoc]
    simp [eq_comm, beq_eq_decide]

theorem testBit_maskOf (l : List Nat) (i : Nat) : (maskOf l).testBit i = l.contains i := by
  rw [maskOf, testBit_foldl_lor, Nat.zero_testBit, Bool.false_or]

theorem State.zeroizeMask_current {s : State} (h : s.sec.current < 16) : s.zeroizeMask.testBit s.sec.current = true := by
  simp [State.zeroizeMask, testBit_maskOf, h]

/-- The generation that was current is retired. -/
theorem State.zeroizeKeys_retires_current {s : State} (h : s.sec.current < 16) :
    s.zeroizeKeys.sec.retired.testBit s.sec.current = true := by
  obtain ⟨_, _, retired, _⟩ := s.zeroizeKeys_fields
  obtain ⟨_, _, _, _, _, _, e⟩ := fixed_ext s.cipherPortsFailed_fixed
  rw [← e] at h ⊢
  rw [retired, Nat.testBit_or, State.zeroizeMask_current h, Bool.or_true]

/-- Erasing the keys, and the package reset and the end that follow it in a ZEROIZE with the power converted, retire the current
generation, blow one ZCOUNT bit, erase the key slots and the sealing key, and leave the clock alone. -/
theorem State.keys_erased_and_reset {s : State} (hpower : s.pkg.conversion = true) (hgen : s.sec.current < 16)
    (hcount : s.sec.zcount < 16) {t : State} (ht : (s.zeroizeKeys.packageReset 5).zeroizeEnd = t) :
    t.sec.retired.testBit s.sec.current = true ∧ t.sec.zcount = s.sec.zcount + 1 ∧ t.sec.slots = [] ∧ t.sec.csk = none ∧
      t.pkg.pkc = s.pkg.pkc := by
  have fixed : t.fixed = s.zeroizeKeys.fixed := by simp [← ht]
  have sec : t.sec = (s.zeroizeKeys.packageReset 5).sec := by rw [← ht, State.zeroizeEnd_sec]
  obtain ⟨_, pkc, retired, zcount, _, _, _⟩ := fixed_ext fixed
  refine ⟨?retired, ?zcount, ?slots, ?csk, ?pkc⟩
  case retired => rw [retired, State.zeroizeKeys_retires_current hgen]
  case zcount => rw [zcount, State.zeroizeKeys_zcount hcount]
  case slots => rw [sec, State.packageReset_slots (s.zeroizeKeys_conversion.trans hpower)]
  case csk => rw [sec, State.packageReset_csk, s.zeroizeKeys_fields.2.1]
  case pkc => rw [pkc, s.zeroizeKeys_pkc]

/-- A FIRE written by function 0 acts exactly when an ARM stands. -/
theorem execZeroizeFire_zero (s : State) : execZeroizeFire 0 s = .next (if s.fires s.sec.armed then s.zeroize else s) := rfl

/-- Settles O53: a FIRE acts only when an ARM stands and is in time; then it is the ZEROIZE, whose steps are followed one by one. -/
theorem zeroizeNeedsArm : Obligations.ZeroizeNeedsArm := by
  unfold Obligations.ZeroizeNeedsArm
  refine fun s => ⟨fun hnone => ?none, fun p harm hlate => ?late, fun p harm htime hpower hgen hcount => ?fire⟩
  case none => exact (execZeroizeFire_zero s).trans (by rw [hnone]; rfl)
  case late =>
    have idle : s.fires s.sec.armed = false := by
      rw [harm]
      exact decide_eq_false (Nat.not_le.2 hlate)
    exact (execZeroizeFire_zero s).trans (by rw [idle]; rfl)
  case fire =>
    refine ⟨s.zeroize, ?_, State.keys_erased_and_reset
      (s := { s with sec := { s.sec with zeroizePending := true, armed := none, armedPldm := none } }) hpower hgen hcount
      (if_neg (not_not_intro hpower)).symm⟩
    exact (execZeroizeFire_zero s).trans (by rw [State.fires_of_armed harm htime]; rfl)

end Sys2Proof.Machine
end
